-- ==== Sys2Proof/Word.lean ====
section
/-! DEFINITION. Bytes, little-endian byte strings (R13) and the plainest bounded arithmetic. -/

namespace Sys2Proof

/-- One byte of a payload, a record or a buffer. -/
abbrev Byte := BitVec 8

/-- The byte that a number's low eight bits spell. -/
def byteOf (n : Nat) : Byte := BitVec.ofNat 8 n

/-- `n` bytes of a natural number, least significant first (R13). -/
def leBytes : Nat → Nat → List Byte
  | 0, _ => []
  | n + 1, v => byteOf (v % 256) :: leBytes n (v / 256)

/-- The natural number that a little-endian byte string spells (R13). -/
def leNat : List Byte → Nat
  | [] => 0
  | b :: bs => b.toNat + 256 * leNat bs

/-- Two's complement reading of the low `w` bits of `v`. -/
def toSigned (w v : Nat) : Int :=
  let m := v % 2 ^ w
  if m < 2 ^ (w - 1) then (m : Int) else (m : Int) - (2 ^ w : Nat)

/-- Two's complement coding of `v` in `w` bits. -/
def ofSigned (w : Nat) (v : Int) : Nat := (v % ((2 ^ w : Nat) : Int)).toNat

/-- `n` plus `k`, stopping at `2^w − 1`, or at the 56 bits a tally counter has (R249): the saturating counters of the entry tables. -/
def satAdd (w n k : Nat) : Nat := min (n + k) (2 ^ min w 56 - 1)

/-- `n` plus `k`, wrapping at `2^w`: the wrapping counters of the entry tables. A value beyond `w` bits is a counter that can no longer be vouched
for, and stays (R251). -/
def wrapAdd (w n k : Nat) : Nat := if 2 ^ w ≤ n then n else (n + k) % 2 ^ w

/-- Field `hi:lo` of a number (R12). -/
def field (v hi lo : Nat) : Nat := (v / 2 ^ lo) % 2 ^ (hi + 1 - lo)

/-- Bit `i` of a number (R12). -/
def bit (v i : Nat) : Bool := v.testBit i

/-- A number with bit `i` set. -/
def setBit (v i : Nat) : Nat := v ||| 2 ^ i

/-- A number with bit `i` cleared. -/
def clearBit (v i : Nat) : Nat := if v.testBit i then v - 2 ^ i else v

/-- The number of ones below bit `w`. -/
def popCount : Nat → Nat → Nat
  | 0, _ => 0
  | w + 1, v => (if v.testBit w then 1 else 0) + popCount w v

/-- `v` held between two bounds. -/
def clampInt (lo hi v : Int) : Int := max lo (min hi v)

/-- One or nothing. -/
def natOfBool (b : Bool) : Nat := if b then 1 else 0

end Sys2Proof
end

