-- ==== Sys2Proof/Syntax.lean ====
section
/-! DEFINITION. The commands of the block: one constructor of `Instr` per row of the operation table, with the row's operands. A row of the
host's protocol carries the link and tag of its request; a row that something outside the device causes carries what the device observes. -/

namespace Sys2Proof

/-- The two host links (R373). -/
inductive Link where
  | spi | can
  deriving DecidableEq, Repr

/-- The origin of a host request: its link and the TAG it carries (R380). -/
structure Requester where
  link : Link
  tag : Nat
  deriving DecidableEq, Repr

/-! ### Observations of the fabric and the ports (chapters 01 and 02) -/

/-- What one word meets in its lane: latency and initiation interval in ns (R33), the digits or adders corrected in its operations in order
(0 an operation without correction, R37, R38), an operation that could not be corrected, the loss of the word (R32), a full window FIFO (R21),
and what L4 did with its copy while shadowing (R39, R41). -/
structure LaneObs where
  latency : Nat
  interval : Nat
  corrections : List Nat
  uncorrectable : Bool
  lost : Bool
  fifoFull : Bool
  shadowCorrections : List Nat
  shadowUncorrectable : Bool
  shadowMismatch : Bool
  deriving DecidableEq, Repr

/-- What one port shows over one block of 1,024 MCLK edges (R62, R63, R65, R66): ones counted, the phases at which transitions occurred (bit
mask of eight), the mean return delay over the group's first 1,024 returned edges, and the largest deviation of the return delay, in ns. -/
structure BlockObs where
  port : Fin 60
  ones : Nat
  transitions : Nat
  returnMean : Nat
  skewWorst : Nat
  deriving DecidableEq, Repr

/-- The checks of Table 02.2 that fail between block ends. -/
inductive LinkCheck where
  | stuck | returnSkew | returnStuck
  deriving DecidableEq, Repr

/-! ### Observations of the SRAM banks (chapter 07) -/

/-- What the check symbols of a read word show (R215): no error, one symbol wrong, two symbols wrong. -/
inductive SymErr where
  | none | one (sym : Fin 10) | two
  deriving DecidableEq, Repr

/-- A request of a master (counter subindex minus one, Table 07.2) for a word of a region of a logical bank: a read, or a write of the bytes that a
mask names with the data; whether it reached the port during the access that the port granted before (R211). -/
structure SramReq where
  master : Fin 11
  bank : Fin 4
  region : Fin 16
  word : Fin 512
  store : Option (Fin 256 × Nat)
  busy : Bool
  deriving DecidableEq, Repr

/-- One grant of port F (or S) of a physical bank: the requests that reached the port since its last grant, the whole wait of the granted one in
ns (R211), the errors found in the word and, where that is uncorrectable, in its other copy (R215, R217), and whether the access overlaps the
latest one of the bank's other port (R213). -/
structure SramObs where
  bank : Fin 5
  portS : Bool
  reqs : List SramReq
  wait : Nat
  err : SymErr
  twin : SymErr
  meets : Bool
  deriving DecidableEq, Repr

/-- An error that a copy of a region finds in one of its words, and in the other copy of that word (R223, R227). -/
structure CopyErr where
  word : Fin 512
  err : SymErr
  twin : SymErr
  deriving DecidableEq, Repr

/-- The end of a phase of a march attempt (R218, R227): whether a cell of the march failed, and what a copy of the region found. -/
structure MarchObs where
  failed : Bool
  errs : List CopyErr
  deriving DecidableEq, Repr

/-- A region copied into the understudy (R223), and what the copy found. -/
structure RegionObs where
  region : Fin 16
  errs : List CopyErr
  deriving DecidableEq, Repr

/-! ### Observations of the non-volatile array (chapter 08) -/

/-- What a group read shows (R229): no error, one byte wrong (8 and 9 the check bytes), two or more bytes detected wrong, or two or more bytes wrong
that pass for a clean group or for one with a byte to correct. -/
inductive GroupErr where
  | none | one (b : Fin 10) | two | undetected | miscorrected (b : Fin 10)
  deriving DecidableEq, Repr

/-- Whether two or more bytes of the group are wrong. -/
def GroupErr.wrong : GroupErr → Bool
  | .none => false
  | .one _ => false
  | .two => true
  | .undetected => true
  | .miscorrected _ => true

/-- One group cycle: the group, write or read, the error found, whether the structure's other copy is uncorrectable too, the host request it
serves, and the part of the structure the group belongs to (Table 08.1): an entry's key for a tally counter, a section of a save area,
position × 2 + copy slot of a log, an item of the display store. The ring's slots follow from the group's address. -/
structure NvmObs where
  group : Fin 65536
  write : Bool
  err : GroupErr
  bothBad : Bool
  request : Option Requester
  part : Nat
  deriving DecidableEq, Repr

/-- One read of the patrol (R241): the error found, whether the structure's other copy is uncorrectable too, and the part of the structure, as in
`NvmObs`. -/
structure PatrolObs where
  err : GroupErr
  bothBad : Bool
  part : Nat
  deriving DecidableEq, Repr

/-! ### Host and peer operands (chapters 12 to 14) -/

/-- What AUTH_CMD carries beside its target and payload (Table 12.10): the challenge, r and s. -/
structure Auth where
  challenge : List Byte
  r : Nat
  s : Nat
  deriving DecidableEq, Repr

/-- One verification of the statute page, at RECALL or before the SEAL fuse (R243, R244): whether each copy matched the digest in the first and in the second evaluation. -/
structure StatuteObs where
  a1 : Bool
  a2 : Bool
  b1 : Bool
  b2 : Bool
  deriving DecidableEq, Repr

/-- The result of a lane retest (R440, R441): the lane and the corrections made. -/
structure Retest where
  lane : Fin 5
  corrections : Nat
  deriving DecidableEq, Repr

/-- The kinds of CAN frame that a receiver tells apart (R389): an FD frame with a 29-bit identifier, a classical frame with a 29-bit
identifier, any other frame. -/
inductive CanKind where
  | fd | classic | other
  deriving DecidableEq, Repr

/-- Draft coefficients (Table 05.11). -/
inductive DraftKind where
  | gain | offset | trim
  deriving DecidableEq, Repr

/-- The census entry of a CENSUS frame (Table 14.5) with PREV_FIRST. -/
structure CensusFrame where
  serial : List Byte
  members : Nat
  depthBelow : Nat
  points : Nat
  unitNo : Nat
  state : Nat
  flags : Nat
  prevFirst : Nat
  deriving DecidableEq, Repr

/-- The payload of SYNC (Table 14.3). -/
structure SyncFrame where
  t1 : Nat
  corr : Int
  hops : Nat
  timeState : Nat
  rebaseSeq : Nat
  valid : Bool
  shift : Int
  deriving DecidableEq, Repr

/-- The payload of VP_REPORT (Table 14.3): END, FLAGS, and for each point of MASK in ascending order its number, IMPORT, EXPORT and P. -/
structure VpFrame where
  endIdx : Nat
  flags : Nat
  points : List (Fin 8 × Nat × Nat × Nat)
  deriving DecidableEq, Repr

/-- The commands of the block, in the order of the operation table. Operands named `h` give the link and tag of a host request, `p` a point,
`c` a channel, `time` the RTC in ns at the occurrence, `k` a Thiber port with `seq` the SEQ of the frame received on it. Operands `items` and
`groups` of the write inhibit: the items of the hold-up save written (sections S0 to S5, then changed tally counters) and the group cycles of
the next one. -/
inductive Instr where
  | powerGood (time : Nat)
  | recallBegin (time : Nat) (addr : Fin 8) (ftm : Bool) (fuseMap : Nat) (fuseAgain : Nat) (stat : StatuteObs)
  | privilegedResolved (time : Nat) (fault : Option Nat)
  | ordinaryResolved
  | selfTestsDone (retests : List Retest) (kat : Option Nat)
  | recallEnd
  | recallTimeout
  | powerFailDetect (time : Nat) (clampNs : Nat)
  | forcedStep
  | holdupSaveComplete
  | writeInhibit (items : Nat) (groups : Nat)
  | samplePeriod (bits : List Nat)
  | sampleRelease (p : Fin 8) (c : Fin 7) (o : LaneObs)
  | laneCheckVector (l : Fin 5) (corrections : List Nat) (uncorrectable : Bool)
  | shadowWarm (p : Fin 8)
  | latencyInterval
  | substituteBoundary (p : Fin 8)
  | nettingStep (p : Fin 8)
  | offPointApply (p : Fin 8)
  | windowPublish (p : Fin 8)
  | eventRecord
  | blockEnd (obs : List BlockObs)
  | linkCheckFail (m : Fin 60) (check : LinkCheck)
  | portStatus (h : Requester) (p : Fin 8) (c : Fin 7) (w : Nat)
  | portCfg (h : Requester) (p : Fin 8) (c : Fin 7) (w : Nat)
  | decConfig (h : Requester) (p : Fin 8) (w : Nat)
  | pointCfg (h : Requester) (p : Fin 8) (w : Nat)
  | evStatus (h : Requester) (p : Fin 8) (w : Nat)
  | latClear (h : Requester) (w : Nat)
  | laneMap (h : Requester) (p : Fin 8) (w : Nat)
  | pulseRise (m : Fin 8)
  | pulseFall (m : Fin 8)
  | pulseGapEnd (m : Fin 8)
  | pulseCfg (h : Requester) (m : Fin 8) (w : Nat)
  | meterConst (h : Requester) (m : Fin 8) (w : Nat)
  | demandIntervalEnd
  | mdReset (h : Requester) (p : Fin 8) (w : Nat)
  | dmdCfg (h : Requester) (w : Nat)
  | checkpointDue
  | checkpointWritten
  | tiUpdate (p : Fin 8)
  | calBegin (h : Requester) (p : Fin 8) (q : Fin 4)
  | calZero (h : Requester) (mask : Nat)
  | calGain (h : Requester) (mask : Nat)
  | calPhase (h : Requester)
  | calDrop (h : Requester) (q : Fin 4)
  | calCommit (h : Requester)
  | calAbort (h : Requester)
  | calStepEnd
  | draftCoefficients (h : Requester) (kind : DraftKind) (c : Fin 7) (v : Int)
  | twinEvaluation (i : Nat) (fault : Option Nat)
  | auxPassStart (l : Fin 3)
  | auxDelayEnd (l : Fin 3)
  | auxStartupDone (a : Fin 8)
  | auxPowerDown (a : Fin 8)
  | auxConversionEnd (a : Fin 8) (code : Int) (edge : Nat) (waits : Nat)
  | auxResultWrite (l : Fin 3) (injection : Bool)
  | auxSelfCheck (dev : List Nat)
  | inject (h : Requester) (l : Fin 3) (w : Nat)
  | coupleCfg (h : Requester) (l : Fin 3) (w : Nat)
  | entry (h : Requester) (l : Fin 3) (e : Fin 16) (w : Nat)
  | auxCalBegin (h : Requester) (input : Fin 32) (l : Fin 3)
  | auxCalZero (h : Requester)
  | auxCalFull (h : Requester)
  | auxCalCommit (h : Requester)
  | auxCalAbort (h : Requester)
  | auxCalBurst (codes : List Int)
  | sramAccess (o : SramObs)
  | scrubWriteback (b : Fin 5)
  | marchStart
  | marchPhaseEnd (o : MarchObs)
  | marchRetry
  | bankSubRegionDone (o : RegionObs)
  | sweepRead (b : Fin 5) (r : Fin 16) (w : Fin 512) (err : SymErr) (twin : SymErr) (busy : Bool)
  | counterClear (h : Requester) (w : Nat)
  | nvmCycleEnd (o : NvmObs)
  | patrolRead (o : PatrolObs)
  | journalUnitStart
  | journalCommit
  | journalRetire
  | recordCopyWritten
  | scratchPage (h : Requester) (page : Fin 256) (data : List Byte) (cut : Option Nat)
  | scratchGroup (h : Requester) (page : Fin 256) (g : Fin 32) (v : Nat)
  | sessionOpen (h : Requester) (p : Fin 8)
  | sessionClose (h : Requester) (p : Fin 8)
  | hostData (h : Requester) (p : Fin 8) (data : List Byte)
  | ringAck (h : Requester) (w : Nat)
  | signStart
  | signatureDone
  | signWaitTimeout (p : Fin 8)
  | rngFailure (test : Fin 3)
  | rngStartupDone
  | frameBoundary (lost : List (Nat × Int))
  | compensationEnd (seg : Fin 192)
  | readback (codes : List Nat)
  | pumpRegulated (pos : Nat) (neg : Nat)
  | pumpOvervoltage
  | displayWake (codes : List Nat)
  | bandTimeout
  | hostImage (h : Requester) (image : List Byte)
  | dispPoint (h : Requester) (w : Nat)
  | drvFault (h : Requester) (bits : List Byte)
  | tamperStrobe (time : Nat) (tsw0 : Bool) (tsw1 : Bool) (flds : Bool)
  | light (time : Nat)
  | glitch (time : Nat)
  | refClock (bad : Bool)
  | rtcClock (time : Nat) (bad : Bool)
  | vbatCheck (time : Nat) (mv : Nat)
  | dieTempCheck (time : Nat) (t : Int)
  | svcStrap
  | tamperWindowExpiry (n : Fin 16) (time : Nat)
  | tamperDecision
  | tamperStatus (h : Requester) (w : Nat)
  | clearMarks (h : Requester) (a : Auth)
  | clearLockdown (h : Requester) (a : Auth)
  | blowFuse (h : Requester) (n : Fin 16) (a : Auth)
  | enterService (h : Requester) (a : Auth)
  | sealCmd (h : Requester) (a : Auth)
  | sealKeygenDone (failed : Nat)
  | sealFuseSet (stat : StatuteObs)
  | serviceExit (h : Requester)
  | svcChange (level : Bool)
  | serviceMaxExpiry
  | authChallenge (h : Requester)
  | authChallengeExpiry
  | timeStep (h : Requester) (v : Int)
  | utcOffset (h : Requester) (v : Int)
  | spiSend (bytes : List Byte)
  | spiFetch (clocked : Nat)
  | canFrame (kind : CanKind) (id : Nat) (data : List Byte)
  | canReassemblyTimeout
  | canTransmit
  | canBusoffRecovery
  | read (h : Requester) (index : Nat) (sub : Nat)
  | write (h : Requester) (index : Nat) (sub : Nat) (data : List Byte)
  | tableauOpen (h : Requester)
  | tableauRead (h : Requester) (index : Nat) (sub : Nat) (id : Nat)
  | tableauClose (h : Requester) (id : Nat)
  | tableauComplete
  | tableauTimeout
  | batch (h : Requester) (payload : List Byte)
  | streamStart (h : Requester) (mask : Nat) (divisor : Nat) (src : Nat)
  | streamStop (h : Requester)
  | streamFrameReady
  | train (k : Fin 4) (seq : Nat) (serial : List Byte) (keyId : Nat) (port : Nat) (ack : Bool) (root : Bool)
  | trainSend (k : Fin 4)
  | linkDown (k : Fin 4) (reason : Nat)
  | pending (k : Fin 4) (seq : Nat)
  | pendingSend
  | census (k : Fin 4) (seq : Nat) (f : CensusFrame)
  | censusSend
  | censusTimeout (k : Fin 4) (trained : Bool)
  | numbering (k : Fin 4) (seq : Nat) (first : Nat) (size : Nat) (depth : Nat)
  | sync (k : Fin 4) (seq : Nat) (f : SyncFrame) (t2 : Nat)
  | syncSend
  | delayReq (k : Fin 4) (seq : Nat) (t3 : Nat) (t4 : Nat)
  | delayReqSend
  | delayResp (k : Fin 4) (seq : Nat) (t3 : Nat) (t4 : Nat)
  | indexAdopt
  | holdoverExpiry
  | tstep (k : Fin 4) (seq : Nat) (e : Nat) (step : Int) (valid : Bool)
  | vpReport (k : Fin 4) (seq : Nat) (f : VpFrame)
  | vpReportSend
  | siteOpen (h : Requester)
  | siteClose (h : Requester)
  | site (k : Fin 4) (seq : Nat) (op : Nat) (id : Nat) (f : Nat) (limit : Nat)
  | siteAck (k : Fin 4) (seq : Nat) (id : Nat) (frozen : Nat) (unlocked : Nat) (missed : Nat)
  | siteAckSend
  | siteLimitExpiry
  | join (k : Fin 4) (seq : Nat) (serial : List Byte) (members : Nat) (prevFirst : Nat)
  | grant (k : Fin 4) (seq : Nat) (serial : List Byte) (first : Nat) (reason : Nat)
  | joinRetry
  | stringCfg (h : Requester) (i : Fin 8) (w : Nat)
  | stringClear (h : Requester) (w : Nat)
  | substitute (h : Requester) (l : Fin 4)
  | restore (h : Requester) (l : Fin 4)
  | laneRetestDone (corrections : Nat)
  | lightFall (time : Nat)
  | backupDomainReset
  | canBusError (transmitter : Bool) (weight : Nat)
  | corruptedLinkFrame (k : Fin 4)
  deriving DecidableEq, Repr

end Sys2Proof
end

