-- ==== Sys2Proof/Decode.lean ====
section
/-! DEFINITION. Decode.lean: the command that a word of the operation table spells. The table gives no row any bits: commands reach the
device as operations of its links and as events, so no word spells one. -/

namespace Sys2Proof

/-- The command of a table word. -/
def decodeTableWord (nbits w : Nat) : Option Instr :=
  match nbits, w with
  | _, _ => none

end Sys2Proof
end

