-- ==== Sys2Proof/Config.lean ====
section
/-! DEFINITION. What one device fixes and the spec does not state: factory values and the free values of the model. No constant here has a
body, so nothing can be proved about its value. -/

namespace Sys2Proof.Config

open Sys2Proof

/-! ### Factory values -/

/-- COEFF_250 tap of a subindex (R70: factory). -/
opaque coeff250 : Nat → Int

/-- COEFF_500 tap of a subindex (R70: factory). -/
opaque coeff500 : Nat → Int

/-- SILICON_REV (Table 12.11: factory). -/
opaque siliconRev : Int

/-- ROM_REV (Table 12.11: factory). -/
opaque romRev : Int

/-- SERIAL, eight bytes (Table 12.11: factory). -/
opaque serial : List Byte

/-- TRIM_CRC (Table 15.7: factory). -/
opaque trimCrc : Int

/-- The time stamp of final test, as TIME (R148: factory). -/
opaque finalTest : Nat

/-- The data class of the word at a place of the logical banks, with its subject, as a code (R209: fixed by the mask ROM). -/
opaque wordClass : Nat → Nat

/-- The place of the second copy of a word of a two-copy class, as a code (R209: fixed by the mask ROM). -/
opaque otherCopy : Nat → Nat

/-- The two check symbols over eight data symbols, as 16 bits (R215 gives what the code corrects and detects). -/
opaque checkSymbols : Nat → Nat

/-! ### Values that the spec leaves open -/

/-- A value that the spec does not state, by free value. -/
opaque unstated : Nat → Nat

/-- A byte of the event record of a rebase (R25 states no layout): its position and free value. -/
opaque rebaseByte : Nat → Nat → Byte

/-- A private key of free value `f` (R275); held to [1, n − 1] where it is used. -/
opaque privateKey : Nat → Nat

/-- A signature nonce of free value `f` (R279); held to [1, n − 1] where it is used. -/
opaque nonce : Nat → Nat

/-- A byte of the random source (R280). -/
opaque randomByte : Nat → Nat → Byte

/-- The pull in ppb that the time servo chooses (R414, R415). -/
opaque servoPull : Nat → Int

/-! ### Arithmetic that the spec gives by its properties only -/

/-- Tap `k` of the 16-tap interpolator at OSR 500 or not, for delay trim `t`, in units of 2^−30 (R81 gives gain and delay error limits). -/
opaque interpTap : Bool → Nat → Nat → Int

/-- Tap `k` (0 for the newest sample) of the 96-tap resampler at OSR 500 or not and at 60 Hz or 50 Hz nominal, for a point `frac` × 2^−28 sample
period after its sample, in units of 2^−30 (R105 gives gain and attenuation). -/
opaque resampleTap : Bool → Bool → Nat → Nat → Int

/-- What the resampler takes, by index, for one of its 96 samples that was never processed: before the first sample after a start (R105 is
silent). -/
opaque unheldSample : Nat → Int

end Sys2Proof.Config
end

