-- ==== Sys2Proof/Machine/Num.lean ====
section
/-! DEFINITION. Machine/Num.lean: exact rounding, integer roots and the binary32 coding of measured values (R99, Table 13.2). -/

namespace Sys2Proof.Machine

open Sys2Proof

/-- `n / d` rounded to the nearest integer, ties away from zero upwards on the positive side and downwards on the negative side. -/
def roundAway (n : Int) (d : Nat) : Int :=
  if 0 ≤ n then (2 * n + d) / (2 * d) else -((2 * (-n) + d) / (2 * d))

/-- `n / d` rounded to the nearest integer, ties upwards. -/
def roundUp (n : Int) (d : Nat) : Int := (2 * n + d) / (2 * d)

/-- `n / d` rounded to the nearest integer, ties to the even integer. -/
def roundEven (n : Int) (d : Nat) : Int :=
  let q := n / (d : Int)
  let r := n - q * d
  if 2 * r < d then q else if (d : Int) < 2 * r then q + 1 else if q % 2 = 0 then q else q + 1

/-- Integer square root by trying bits from `b − 1` downwards onto the root `r` so far. -/
def isqrtBits : Nat → Nat → Nat → Nat
  | 0, r, _ => r
  | b + 1, r, n => let t := r + 2 ^ b; isqrtBits b (if t * t ≤ n then t else r) n

/-- The largest integer whose square is at most `n`. -/
def isqrt (n : Nat) : Nat := isqrtBits (n.log2 / 2 + 1) 0 n

/-- A rational number: numerator and denominator. -/
structure Frac where
  num : Int
  den : Nat
  deriving DecidableEq, Repr

namespace F32

/-- Round the positive rational `n / d` to binary32 magnitude bits, ties to even; values past the largest finite number become the coding of infinity. -/
def magBits (n d : Nat) : Nat :=
  if n = 0 then 0 else if d = 0 then 0 else
  -- e: the exponent of the leading bit, between −126 and what overflows
  let e0 : Int := (n.log2 : Int) - (d.log2 : Int)
  let big : Bool := if 0 ≤ e0 then n < d * 2 ^ e0.toNat else n * 2 ^ (-e0).toNat < d
  let e1 : Int := if big then e0 - 1 else e0
  let e : Int := max e1 (-126)
  let sh : Int := 23 - e
  let q : Int := if 0 ≤ sh then roundEven (n * 2 ^ sh.toNat : Nat) d else roundEven n (d * 2 ^ (-sh).toNat)
  let m := q.toNat
  let bits := if m < 2 ^ 23 then m else ((e + 127).toNat - 1) * 2 ^ 23 + m
  min bits 0x7F800000

/-- Binary32 of the rational `n / d` (nearest, ties to even). -/
def ofRat (n : Int) (d : Nat) : Nat :=
  let m := magBits n.natAbs d
  if n < 0 ∧ m ≠ 0 then 2 ^ 31 + m else m

/-- Binary32 of the square root of the non-negative rational `n / d` (nearest, ties to even): 2^k-scaled root with a sticky bit. -/
def ofSqrt (n d : Nat) : Nat :=
  if n = 0 then 0 else if d = 0 then 0 else
  -- choose k so that the scaled radicand has at least 60 bits
  let k := 40 + d.log2
  let x := n * 2 ^ (2 * k)
  let q := x / d
  let r := isqrt q
  let exact : Bool := r * r = q ∧ q * d = x
  ofRat ((2 * r + (if exact then 0 else 1) : Nat) : Int) (2 ^ (k + 1))

/-- The value of finite binary32 bits as a rational. -/
def toRat (b : Nat) : Frac :=
  let s : Nat := b / 2 ^ 31 % 2
  let e : Nat := b / 2 ^ 23 % 256
  let m : Nat := b % 2 ^ 23
  let sig : Int := if e = 0 then (m : Int) else ((m + 2 ^ 23 : Nat) : Int)
  let ex : Int := (if e = 0 then 1 else (e : Int)) - 150
  let v : Int := if s = 1 then -sig else sig
  if 0 ≤ ex then ⟨v * (2 ^ ex.toNat : Nat), 1⟩ else ⟨v, 2 ^ (-ex).toNat⟩

/-- Neither NaN nor infinity (Table 13.2). -/
def finite (b : Nat) : Bool := b / 2 ^ 23 % 256 ≠ 255

/-- Comparison of two finite codings. -/
def lt (a b : Nat) : Bool :=
  let x := toRat a; let y := toRat b
  x.num * y.den < y.num * x.den

/-- The larger of two finite codings, the first when equal. -/
def maxOf (a b : Nat) : Nat := if lt a b then b else a

end F32

/-! ### Trigonometry on integers

Angles are fractions of a turn; every function keeps `fx` fractional bits and sums its series until the terms vanish, so that the error stays
far below the roundings the spec asks for. -/

/-- Fractional bits of the fixed-point series. -/
def fx : Nat := 96

/-- 2π in fixed point: floor(2π·2^96). -/
def twoPiFx : Nat := 497805226624462170461043889244

/-- Sine and cosine series: term `t` of order `k`, multiplied on by `x²/((k+1)(k+2))` with alternating sign. -/
def trigSeries : Nat → Int → Int → Nat → Int → Int
  | 0, _, _, _, acc => acc
  | n + 1, x2, t, k, acc =>
    let t' := -(t * x2) / (2 ^ fx : Nat) / ((k + 1) * (k + 2) : Nat)
    trigSeries n x2 t' (k + 2) (acc + t')

/-- cos(2π·num/den) in fixed point, for num/den any rational turn. -/
def cosTurn (num : Int) (den : Nat) : Int :=
  let a : Int := num % (den : Int)
  -- fold into a half turn, then a quarter turn
  let h : Int := if 2 * a ≤ den then a else den - a
  let neg : Bool := 4 * h > den
  let q : Int := if neg then (den : Int) - 2 * h else 2 * h     -- numerator over 2·den
  let x : Int := q * twoPiFx / (2 * den : Nat)
  let x2 := x * x / (2 ^ fx : Nat)
  let c := trigSeries 40 x2 (2 ^ fx : Nat) 0 (2 ^ fx : Nat)
  if neg then -c else c

/-- sin(2π·num/den) in fixed point. -/
def sinTurn (num : Int) (den : Nat) : Int := cosTurn (4 * num - den) (4 * den)

/-- atan(x) for `0 ≤ x ≤ 1/4` in fixed point, by its series. -/
def atanSeries : Nat → Int → Int → Nat → Int → Int
  | 0, _, _, _, acc => acc
  | n + 1, x2, t, k, acc =>
    let t' := -(t * x2) / (2 ^ fx : Nat)
    atanSeries n x2 t' (k + 2) (acc + t' / (k + 2 : Nat))

/-- atan(n/d) in fixed point radians, `0 ≤ n ≤ d`: two halvings of the angle first. -/
def atanUnit (n d : Nat) : Int :=
  if d = 0 then 0 else
  let one : Nat := 2 ^ fx
  let halve (x : Nat) : Nat := x * one / (one + isqrt (one * one + x * x))
  let x : Nat := halve (halve (n * one / d))
  let x2 : Int := ((x * x / one : Nat) : Int)
  4 * atanSeries 64 x2 x 1 x

/-- The angle of the vector (x, y) in fixed-point degrees, −180° exclusive to +180° inclusive; 0 for the zero vector. -/
def atan2Deg (y x : Int) : Int :=
  let ax := x.natAbs; let ay := y.natAbs
  if ax = 0 ∧ ay = 0 then 0 else
  let toDeg (r : Int) : Int := r * 360 * (2 ^ fx : Nat) / twoPiFx
  let a : Int := if ay ≤ ax then toDeg (atanUnit ay ax) else 90 * (2 ^ fx : Nat) - toDeg (atanUnit ax ay)
  let b : Int := if x < 0 then 180 * (2 ^ fx : Nat) - a else a
  if y < 0 then -b else b

end Sys2Proof.Machine
end

