-- ==== Sys2Proof/Machine/Dict.lean ====
section
/-! DEFINITION. Machine/Dict.lean: the object dictionary: every entry of the spec's entry tables with its index, subindices, type,
access class, default and range (R373 to R376), and the key under which the state holds it. -/

namespace Sys2Proof.Machine

open Sys2Proof

/-- The types of Table 13.2. -/
inductive Ty where
  /-- Unsigned of a width. -/
  | u (w : Nat)
  /-- Two's complement of a width. -/
  | i (w : Nat)
  /-- 20-bit two's complement in four bytes. -/
  | s20
  /-- Binary32. -/
  | f32
  /-- The ten-byte stamp of R17. -/
  | time
  /-- UTF-8 up to a length. -/
  | str (n : Nat)
  /-- Bytes of exactly a length. -/
  | blob (n : Nat)
  /-- Bytes up to a length. -/
  | blobUpTo (n : Nat)
  /-- A record of fixed length. -/
  | record (n : Nat)
  deriving DecidableEq, Repr

/-- The access classes of Table 13.3. -/
inductive Access where
  | ro | rw | rws | wo | sealable | fac
  deriving DecidableEq, Repr

/-- The value rule of an entry: the range column or the field map of its chapter. -/
inductive Rule where
  /-- Every value of the type. -/
  | any
  /-- Between two bounds. -/
  | within (lo hi : Int)
  /-- At most a bound, or 0xFF for none. -/
  | orNone (hi : Int)
  /-- No bit outside the mask (R14). -/
  | mask (m : Nat)
  /-- A rule of its own, in Machine/Operands.lean. -/
  | special
  deriving DecidableEq, Repr

/-- One row of an entry table: `n` indices from `idx` in steps of `step`, subindices `lo` to `hi`. -/
structure Desc where
  idx : Nat
  n : Nat
  step : Nat
  lo : Nat
  hi : Nat
  ty : Ty
  acc : Access
  dflt : Int
  alt : List (Nat × Int)
  rule : Rule
  deriving DecidableEq, Repr

/-- Entry tables of index range 0x1000, part 1 of 2. -/
def dict1_1 : List Desc := [
  ⟨0x10F0, 1, 1, 1, 1, .u 64, .ro, 0, [], .any⟩,
  ⟨0x10F0, 1, 1, 2, 2, .i 64, .ro, 0, [], .any⟩,
  ⟨0x10F0, 1, 1, 3, 3, .u 32, .ro, 0, [], .any⟩,
  ⟨0x10F0, 1, 1, 4, 4, .i 64, .ro, 0, [], .any⟩,
  ⟨0x1000, 1, 1, 1, 1, .u 16, .ro, 3418, [], .any⟩,
  ⟨0x1000, 1, 1, 2, 2, .str 7, .ro, 0, [], .any⟩,
  ⟨0x1000, 1, 1, 3, 3, .str 2, .ro, 0, [], .any⟩,
  ⟨0x1000, 1, 1, 4, 4, .u 8, .ro, 0, [], .any⟩,
  ⟨0x1000, 1, 1, 5, 5, .u 16, .ro, 0, [], .any⟩,
  ⟨0x1000, 1, 1, 6, 6, .u 16, .ro, 0, [], .any⟩,
  ⟨0x1000, 1, 1, 7, 7, .blob 8, .ro, 0, [], .any⟩,
  ⟨0x1000, 1, 1, 8, 8, .u 8, .ro, 0, [], .any⟩,
  ⟨0x1000, 1, 1, 9, 9, .time, .ro, 0, [], .any⟩,
  ⟨0x1001, 1, 1, 0, 0, .u 8, .ro, 2, [], .any⟩,
  ⟨0x1002, 1, 1, 0, 0, .u 16, .ro, 16, [], .any⟩,
  ⟨0x1003, 1, 1, 1, 1, .u 64, .ro, 0, [], .any⟩,
  ⟨0x1003, 1, 1, 2, 2, .time, .ro, 0, [], .any⟩,
  ⟨0x1003, 1, 1, 3, 3, .u 32, .ro, 0, [], .any⟩,
  ⟨0x1004, 1, 1, 1, 1, .u 32, .ro, 0, [], .any⟩,
  ⟨0x1004, 1, 1, 2, 2, .time, .ro, 0, [], .any⟩,
  ⟨0x1004, 1, 1, 3, 3, .u 64, .ro, 0, [], .any⟩,
  ⟨0x1004, 1, 1, 4, 4, .u 32, .ro, 0, [], .any⟩,
  ⟨0x1005, 1, 1, 0, 0, .u 8, .ro, 0, [], .any⟩,
  ⟨0x1010, 1, 1, 0, 0, .u 8, .wo, 0, [], .within (1) (3)⟩,
  ⟨0x1011, 1, 1, 0, 0, .u 8, .sealable, 8, [], .within (1) (24)⟩,
  ⟨0x1012, 1, 1, 0, 0, .u 32, .ro, 0, [], .any⟩,
  ⟨0x1020, 1, 1, 0, 0, .blob 64, .sealable, 0, [], .special⟩,
  ⟨0x1021, 1, 1, 0, 0, .blob 16, .ro, 0, [], .any⟩,
  ⟨0x1022, 1, 1, 0, 0, .blobUpTo 4096, .wo, 0, [], .special⟩,
  ⟨0x1023, 1, 1, 0, 0, .u 32, .ro, 0, [], .any⟩,
  ⟨0x1030, 1, 1, 1, 1, .time, .ro, 0, [], .any⟩,
  ⟨0x1030, 1, 1, 2, 2, .u 8, .ro, 0, [], .any⟩,
  ⟨0x1031, 1, 1, 0, 0, .i 64, .wo, 0, [], .special⟩,
  ⟨0x1032, 1, 1, 0, 0, .i 16, .rw, 0, [], .within (-1000) (1000)⟩,
  ⟨0x1033, 1, 1, 1, 1, .u 32, .ro, 0, [], .any⟩,
  ⟨0x1033, 1, 1, 2, 2, .i 64, .ro, 0, [], .any⟩,
  ⟨0x1040, 1, 1, 0, 0, .u 16, .ro, 0, [], .any⟩,
  ⟨0x1041, 1, 1, 1, 1, .u 32, .ro, 0, [], .any⟩,
  ⟨0x1041, 1, 1, 2, 2, .time, .ro, 0, [], .any⟩,
  ⟨0x1041, 1, 1, 3, 3, .u 32, .ro, 0, [], .any⟩]

/-- Entry tables of index range 0x1000, part 2 of 2. -/
def dict1_2 : List Desc := [
  ⟨0x1041, 1, 1, 4, 4, .u 16, .ro, 0, [], .any⟩,
  ⟨0x1041, 1, 1, 5, 5, .u 32, .ro, 0, [], .any⟩,
  ⟨0x1060, 1, 1, 1, 1, .u 8, .rws, 0, [], .within (0) (127)⟩,
  ⟨0x1060, 1, 1, 2, 2, .u 8, .ro, 16, [], .any⟩,
  ⟨0x1060, 1, 1, 3, 3, .u 16, .rws, 4642, [], .special⟩,
  ⟨0x1060, 1, 1, 4, 4, .u 8, .rws, 26, [], .within (0) (31)⟩,
  ⟨0x1060, 1, 1, 5, 5, .u 8, .ro, 0, [], .any⟩,
  ⟨0x1060, 1, 1, 6, 6, .u 16, .ro, 0, [], .any⟩,
  ⟨0x1061, 1, 1, 1, 1, .u 32, .ro, 0, [], .any⟩,
  ⟨0x1061, 1, 1, 2, 2, .u 32, .ro, 0, [], .any⟩,
  ⟨0x1061, 1, 1, 3, 3, .u 32, .ro, 0, [], .any⟩,
  ⟨0x1061, 1, 1, 4, 4, .u 32, .ro, 0, [], .any⟩,
  ⟨0x1061, 1, 1, 5, 5, .u 32, .ro, 0, [], .any⟩,
  ⟨0x1061, 1, 1, 6, 6, .u 16, .ro, 0, [], .any⟩,
  ⟨0x1061, 1, 1, 7, 7, .u 32, .ro, 0, [], .any⟩,
  ⟨0x1062, 1, 1, 1, 1, .u 8, .ro, 0, [], .any⟩,
  ⟨0x1062, 1, 1, 2, 2, .u 16, .ro, 0, [], .any⟩,
  ⟨0x1062, 1, 1, 3, 3, .u 64, .ro, 0, [], .any⟩,
  ⟨0x1062, 1, 1, 4, 4, .u 16, .rw, 60, [], .within (1) (600)⟩,
  ⟨0x1063, 1, 1, 1, 1, .u 8, .ro, 0, [], .any⟩,
  ⟨0x1063, 1, 1, 2, 2, .u 32, .ro, 0, [], .any⟩]

/-- Entry tables of index range 0x2000, part 1 of 1. -/
def dict2_1 : List Desc := [
  ⟨0x2010, 1, 1, 1, 7, .u 16, .sealable, 385, [], .special⟩,
  ⟨0x2011, 1, 1, 1, 7, .u 16, .rw, 192, [], .special⟩,
  ⟨0x2012, 1, 1, 1, 7, .u 64, .ro, 0, [], .any⟩,
  ⟨0x2013, 1, 1, 1, 7, .u 32, .ro, 0, [], .any⟩,
  ⟨0x2014, 1, 1, 1, 7, .u 64, .ro, 0, [], .any⟩,
  ⟨0x2015, 1, 1, 1, 7, .u 32, .ro, 0, [], .any⟩,
  ⟨0x2016, 1, 1, 1, 7, .u 32, .ro, 0, [], .any⟩,
  ⟨0x2017, 1, 1, 1, 7, .u 16, .ro, 0, [], .any⟩,
  ⟨0x2018, 1, 1, 0, 0, .u 8, .sealable, 0, [], .mask 0x1⟩,
  ⟨0x2019, 1, 1, 1, 7, .s20, .ro, 0, [], .any⟩,
  ⟨0x201A, 1, 1, 1, 7, .u 8, .ro, 0, [], .any⟩,
  ⟨0x2800, 1, 1, 1, 15, .u 8, .sealable, 0, [], .special⟩,
  ⟨0x2801, 1, 1, 1, 15, .u 16, .ro, 0, [], .any⟩,
  ⟨0x2802, 1, 1, 1, 15, .u 16, .ro, 0, [], .any⟩,
  ⟨0x2808, 1, 1, 1, 4, .u 8, .sealable, 255, [], .special⟩,
  ⟨0x2809, 1, 1, 1, 4, .u 16, .ro, 65280, [], .any⟩,
  ⟨0x280A, 1, 1, 0, 0, .u 8, .ro, 0, [], .any⟩,
  ⟨0x280B, 1, 1, 1, 4, .u 8, .sealable, 0, [], .mask 0x3E⟩,
  ⟨0x2810, 1, 1, 1, 33, .i 32, .ro, 0, [], .any⟩,
  ⟨0x2811, 1, 1, 1, 33, .i 32, .ro, 0, [], .any⟩,
  ⟨0x2000, 1, 1, 0, 0, .u 16, .sealable, 0, [], .special⟩,
  ⟨0x2001, 1, 1, 1, 7, .u 32, .sealable, 1000000, [], .within (1) (4294967295)⟩,
  ⟨0x2002, 1, 1, 0, 0, .u 32, .rws, 230000, [], .any⟩,
  ⟨0x2003, 1, 1, 0, 0, .u 32, .rws, 5243, [], .within (0) (262144)⟩,
  ⟨0x2004, 1, 1, 0, 0, .u 8, .rw, 40, [], .within (2) (127)⟩]

/-- Entry tables of index range 0x3000, part 1 of 1. -/
def dict3_1 : List Desc := [
  ⟨0x3000, 1, 1, 1, 7, .i 32, .ro, 0, [], .any⟩,
  ⟨0x3001, 1, 1, 1, 7, .f32, .ro, 0, [], .any⟩,
  ⟨0x3002, 1, 1, 1, 7, .f32, .ro, 0, [], .any⟩,
  ⟨0x3003, 1, 1, 1, 7, .f32, .ro, 0, [], .any⟩,
  ⟨0x3004, 1, 1, 1, 7, .f32, .ro, 0, [], .any⟩,
  ⟨0x3005, 1, 1, 1, 7, .f32, .ro, 0, [], .any⟩,
  ⟨0x3006, 1, 1, 1, 7, .u 16, .ro, 0, [], .any⟩,
  ⟨0x3010, 1, 1, 1, 3, .f32, .ro, 0, [], .any⟩,
  ⟨0x3011, 1, 1, 1, 3, .f32, .ro, 0, [], .any⟩,
  ⟨0x3012, 1, 1, 1, 3, .f32, .ro, 0, [], .any⟩,
  ⟨0x3013, 1, 1, 1, 3, .f32, .ro, 0, [], .any⟩,
  ⟨0x3014, 1, 1, 1, 3, .f32, .ro, 0, [], .any⟩,
  ⟨0x3015, 1, 1, 1, 3, .f32, .ro, 0, [], .any⟩,
  ⟨0x3016, 1, 1, 1, 3, .f32, .ro, 0, [], .any⟩,
  ⟨0x3017, 1, 1, 2, 3, .f32, .ro, 0, [], .any⟩,
  ⟨0x3018, 1, 1, 1, 5, .f32, .ro, 0, [], .any⟩,
  ⟨0x3019, 1, 1, 0, 0, .u 8, .ro, 1, [], .any⟩,
  ⟨0x3020, 1, 1, 1, 2, .f32, .ro, 0, [], .any⟩,
  ⟨0x3021, 1, 1, 0, 0, .u 8, .ro, 0, [], .any⟩,
  ⟨0x3022, 1, 1, 0, 0, .u 8, .ro, 0, [], .any⟩,
  ⟨0x3023, 1, 1, 1, 1, .u 64, .ro, 0, [], .any⟩,
  ⟨0x3023, 1, 1, 2, 2, .u 32, .ro, 0, [], .any⟩,
  ⟨0x3023, 1, 1, 3, 3, .u 32, .ro, 0, [], .any⟩,
  ⟨0x3030, 1, 1, 1, 3, .u 64, .ro, 0, [], .any⟩,
  ⟨0x3030, 1, 1, 4, 4, .u 8, .ro, 0, [], .any⟩,
  ⟨0x3030, 1, 1, 5, 5, .u 16, .ro, 0, [], .any⟩,
  ⟨0x3080, 7, 2, 1, 128, .f32, .ro, 0, [], .any⟩,
  ⟨0x3081, 7, 2, 1, 128, .f32, .ro, 0, [], .any⟩,
  ⟨0x308E, 1, 1, 1, 7, .f32, .ro, 0, [], .any⟩,
  ⟨0x30A0, 5, 1, 1, 8, .f32, .ro, 0, [], .any⟩,
  ⟨0x30A0, 5, 1, 9, 9, .f32, .ro, 0, [], .any⟩,
  ⟨0x30A0, 5, 1, 10, 10, .f32, .ro, 0, [], .any⟩,
  ⟨0x30A0, 5, 1, 11, 11, .f32, .ro, 0, [], .any⟩]

/-- Entry tables of index range 0x4000, part 1 of 2. -/
def dict4_1 : List Desc := [
  ⟨0x4000, 1, 1, 1, 10, .u 64, .ro, 0, [], .any⟩,
  ⟨0x4001, 1, 1, 1, 10, .u 32, .ro, 0, [], .any⟩,
  ⟨0x4002, 1, 1, 1, 10, .u 64, .ro, 0, [], .any⟩,
  ⟨0x4003, 1, 1, 1, 10, .u 32, .ro, 0, [], .any⟩,
  ⟨0x4004, 1, 1, 1, 1, .u 64, .ro, 0, [], .any⟩,
  ⟨0x4004, 1, 1, 2, 2, .u 32, .ro, 0, [], .any⟩,
  ⟨0x4004, 1, 1, 3, 3, .i 64, .ro, 0, [], .any⟩,
  ⟨0x4004, 1, 1, 4, 4, .i 64, .ro, 0, [], .any⟩,
  ⟨0x4004, 1, 1, 5, 5, .u 8, .ro, 255, [], .any⟩,
  ⟨0x4004, 1, 1, 6, 6, .u 64, .ro, 0, [], .any⟩,
  ⟨0x4005, 1, 1, 1, 1, .u 32, .sealable, 0, [], .any⟩,
  ⟨0x4005, 1, 1, 2, 2, .i 32, .sealable, 3930, [], .within (-10000) (10000)⟩,
  ⟨0x4005, 1, 1, 3, 3, .u 8, .sealable, 255, [], .orNone 31⟩,
  ⟨0x4005, 1, 1, 4, 4, .i 32, .sealable, 9000, [], .within (-4000) (15000)⟩,
  ⟨0x4005, 1, 1, 5, 5, .i 32, .ro, 0, [], .any⟩,
  ⟨0x4005, 1, 1, 6, 6, .u 32, .ro, 0, [], .any⟩,
  ⟨0x4005, 1, 1, 7, 7, .u 32, .ro, 0, [], .any⟩,
  ⟨0x4005, 1, 1, 8, 8, .u 32, .ro, 0, [], .any⟩,
  ⟨0x4006, 1, 1, 0, 0, .u 8, .sealable, 0, [], .within (0) (1)⟩,
  ⟨0x4007, 1, 1, 1, 1, .u 64, .ro, 0, [], .any⟩,
  ⟨0x4007, 1, 1, 2, 2, .u 64, .ro, 0, [], .any⟩,
  ⟨0x4008, 1, 1, 0, 0, .u 64, .ro, 0, [], .any⟩,
  ⟨0x4020, 1, 1, 1, 1, .u 32, .rws, 1000, [], .within (1) (4294967295)⟩,
  ⟨0x4020, 1, 1, 2, 2, .u 16, .rws, 500, [], .within (1) (65000)⟩,
  ⟨0x4010, 1, 1, 1, 1, .u 64, .ro, 0, [], .any⟩,
  ⟨0x4010, 1, 1, 2, 2, .u 64, .ro, 0, [], .any⟩,
  ⟨0x4010, 1, 1, 3, 3, .u 64, .ro, 0, [], .any⟩,
  ⟨0x4010, 1, 1, 4, 4, .u 64, .ro, 0, [], .any⟩,
  ⟨0x4010, 1, 1, 5, 5, .f32, .ro, 0, [], .any⟩,
  ⟨0x4010, 1, 1, 6, 6, .f32, .ro, 0, [], .any⟩,
  ⟨0x4010, 1, 1, 7, 7, .u 8, .ro, 0, [], .any⟩,
  ⟨0x4010, 1, 1, 8, 8, .u 8, .ro, 0, [], .any⟩,
  ⟨0x4010, 1, 1, 9, 9, .f32, .ro, 0, [], .any⟩,
  ⟨0x4010, 1, 1, 10, 10, .time, .ro, 0, [], .any⟩,
  ⟨0x4010, 1, 1, 11, 11, .f32, .ro, 0, [], .any⟩,
  ⟨0x4010, 1, 1, 12, 12, .time, .ro, 0, [], .any⟩,
  ⟨0x4010, 1, 1, 13, 13, .f32, .ro, 0, [], .any⟩,
  ⟨0x4011, 1, 1, 0, 0, .u 8, .wo, 0, [], .within (1) (1)⟩,
  ⟨0x4800, 1, 1, 0, 0, .u 8, .rws, 3, [], .special⟩,
  ⟨0x4801, 1, 1, 1, 1, .time, .ro, 0, [], .any⟩]

/-- Entry tables of index range 0x4000, part 2 of 2. -/
def dict4_2 : List Desc := [
  ⟨0x4801, 1, 1, 2, 2, .u 64, .ro, 0, [], .any⟩,
  ⟨0x4810, 1, 1, 1, 8, .u 16, .rw, 16, [(2, 272), (3, 528), (4, 784), (5, 1040), (6, 1296), (7, 1552), (8, 1808)], .special⟩,
  ⟨0x4811, 1, 1, 1, 8, .u 32, .rw, 10000, [], .within (1) (1000000)⟩,
  ⟨0x4812, 1, 1, 1, 8, .u 8, .rw, 50, [], .within (1) (50)⟩,
  ⟨0x4813, 1, 1, 1, 8, .u 32, .ro, 0, [], .any⟩,
  ⟨0x4814, 1, 1, 1, 8, .u 8, .ro, 0, [], .any⟩,
  ⟨0x4815, 1, 1, 1, 8, .u 32, .ro, 0, [], .any⟩,
  ⟨0x4816, 1, 1, 1, 8, .i 64, .ro, 0, [], .any⟩,
  ⟨0x4820, 1, 1, 0, 0, .u 32, .rws, 100, [], .within (10) (10000)⟩,
  ⟨0x4821, 1, 1, 1, 1, .u 32, .ro, 0, [], .any⟩,
  ⟨0x4821, 1, 1, 2, 2, .time, .ro, 0, [], .any⟩,
  ⟨0x4821, 1, 1, 3, 3, .u 16, .ro, 0, [], .any⟩,
  ⟨0x4822, 1, 1, 1, 1, .time, .ro, 0, [], .any⟩,
  ⟨0x4822, 1, 1, 2, 2, .u 16, .ro, 0, [], .any⟩,
  ⟨0x4822, 1, 1, 3, 3, .u 64, .ro, 0, [], .any⟩,
  ⟨0x4822, 1, 1, 4, 4, .u 8, .ro, 0, [], .any⟩]

/-- Entry tables of index range 0x5000, part 1 of 1. -/
def dict5_1 : List Desc := [
  ⟨0x5000, 1, 1, 0, 0, .u 32, .rws, 81919, [], .special⟩,
  ⟨0x5001, 1, 1, 0, 0, .u 32, .rw, 0, [], .special⟩,
  ⟨0x5002, 1, 1, 0, 0, .u 32, .ro, 0, [], .any⟩,
  ⟨0x5003, 1, 1, 1, 32, .u 32, .ro, 0, [], .any⟩,
  ⟨0x5004, 1, 1, 0, 0, .u 32, .ro, 0, [], .any⟩,
  ⟨0x5010, 1, 1, 1, 1, .u 16, .rws, 9000, [], .any⟩,
  ⟨0x5010, 1, 1, 2, 2, .u 16, .rws, 11000, [], .any⟩,
  ⟨0x5010, 1, 1, 3, 3, .u 16, .rws, 500, [], .any⟩,
  ⟨0x5010, 1, 1, 4, 4, .u 16, .rws, 200, [], .any⟩,
  ⟨0x5010, 1, 1, 5, 5, .u 32, .rws, 4294967295, [], .any⟩,
  ⟨0x5010, 1, 1, 6, 6, .u 16, .rws, 1000, [], .any⟩,
  ⟨0x5010, 1, 1, 7, 7, .u 32, .rws, 5000, [], .any⟩,
  ⟨0x5010, 1, 1, 8, 8, .u 32, .rws, 10000, [], .any⟩,
  ⟨0x5010, 1, 1, 9, 9, .u 32, .rws, 50000, [], .any⟩,
  ⟨0x5010, 1, 1, 10, 10, .u 32, .rws, 1000, [], .any⟩,
  ⟨0x5010, 1, 1, 11, 11, .u 8, .rws, 1, [], .within (1) (255)⟩,
  ⟨0x5800, 1, 1, 0, 0, .u 32, .ro, 0, [], .any⟩,
  ⟨0x5801, 1, 1, 1, 128, .record 32, .ro, 0, [], .any⟩]

/-- Entry tables of index range 0x6000, part 1 of 2. -/
def dict6_1 : List Desc := [
  ⟨0x6000, 1, 1, 1, 1, .u 8, .sealable, 255, [], .orNone 31⟩,
  ⟨0x6000, 1, 1, 2, 2, .i 32, .sealable, 2500, [], .within (-4000) (15000)⟩,
  ⟨0x6000, 1, 1, 3, 3, .u 16, .sealable, 20, [], .within (1) (500)⟩,
  ⟨0x6010, 1, 1, 1, 7, .u 32, .ro, 4194304, [], .any⟩,
  ⟨0x6020, 3, 16, 1, 7, .u 32, .ro, 4194304, [], .any⟩,
  ⟨0x6011, 1, 1, 1, 7, .i 32, .ro, 0, [], .any⟩,
  ⟨0x6021, 3, 16, 1, 7, .i 32, .ro, 0, [], .any⟩,
  ⟨0x6012, 1, 1, 1, 7, .u 16, .ro, 0, [], .any⟩,
  ⟨0x6022, 3, 16, 1, 7, .u 16, .ro, 0, [], .any⟩,
  ⟨0x6013, 1, 1, 1, 1, .i 32, .ro, 2500, [], .any⟩,
  ⟨0x6023, 3, 16, 1, 1, .i 32, .ro, 0, [], .any⟩,
  ⟨0x6013, 1, 1, 2, 2, .u 8, .ro, 1, [], .any⟩,
  ⟨0x6023, 3, 16, 2, 2, .u 8, .ro, 0, [], .any⟩,
  ⟨0x6013, 1, 1, 3, 3, .time, .ro, 0, [], .any⟩,
  ⟨0x6023, 3, 16, 3, 3, .time, .ro, 0, [], .any⟩,
  ⟨0x6013, 1, 1, 4, 4, .str 16, .ro, 0, [], .any⟩,
  ⟨0x6023, 3, 16, 4, 4, .str 16, .ro, 0, [], .any⟩,
  ⟨0x6013, 1, 1, 5, 5, .u 8, .ro, 128, [], .any⟩,
  ⟨0x6023, 3, 16, 5, 5, .u 8, .ro, 0, [], .any⟩,
  ⟨0x6050, 1, 1, 1, 7, .u 32, .ro, 4194304, [], .any⟩,
  ⟨0x6051, 1, 1, 1, 7, .i 32, .ro, 0, [], .any⟩,
  ⟨0x6052, 1, 1, 1, 7, .u 16, .ro, 0, [], .any⟩,
  ⟨0x6053, 1, 1, 1, 1, .i 32, .ro, 2500, [], .any⟩,
  ⟨0x6053, 1, 1, 2, 2, .u 64, .ro, 0, [], .any⟩,
  ⟨0x6053, 1, 1, 3, 3, .u 32, .ro, 0, [], .any⟩,
  ⟨0x6053, 1, 1, 4, 4, .u 8, .ro, 4, [], .any⟩,
  ⟨0x6053, 1, 1, 5, 5, .u 32, .ro, 0, [], .any⟩,
  ⟨0x6800, 1, 1, 0, 0, .u 32, .wo, 0, [], .special⟩,
  ⟨0x6801, 1, 1, 1, 1, .u 8, .ro, 0, [], .any⟩,
  ⟨0x6801, 1, 1, 2, 2, .u 8, .ro, 255, [], .any⟩,
  ⟨0x6801, 1, 1, 3, 3, .u 8, .ro, 255, [], .any⟩,
  ⟨0x6801, 1, 1, 4, 4, .u 8, .ro, 0, [], .any⟩,
  ⟨0x6801, 1, 1, 5, 5, .u 8, .ro, 0, [], .any⟩,
  ⟨0x6801, 1, 1, 6, 6, .u 8, .ro, 0, [], .any⟩,
  ⟨0x6801, 1, 1, 7, 7, .u 32, .ro, 0, [], .any⟩,
  ⟨0x6802, 1, 1, 1, 7, .i 32, .rws, 0, [], .any⟩,
  ⟨0x6803, 1, 1, 1, 3, .i 32, .rws, 0, [], .any⟩,
  ⟨0x6804, 1, 1, 2, 3, .i 32, .rws, -120000, [(3, 120000)], .any⟩,
  ⟨0x6805, 1, 1, 1, 7, .f32, .ro, 0, [], .any⟩,
  ⟨0x6806, 1, 1, 1, 7, .f32, .ro, 0, [], .any⟩]

/-- Entry tables of index range 0x6000, part 2 of 2. -/
def dict6_2 : List Desc := [
  ⟨0x6807, 1, 1, 1, 7, .f32, .ro, 0, [], .any⟩,
  ⟨0x6808, 1, 1, 1, 7, .u 32, .rws, 4194304, [], .special⟩,
  ⟨0x6809, 1, 1, 1, 7, .i 32, .rws, 0, [], .special⟩,
  ⟨0x680A, 1, 1, 1, 7, .u 16, .rws, 0, [], .within (0) (256)⟩,
  ⟨0x680B, 1, 1, 1, 1, .i 32, .ro, 0, [], .any⟩,
  ⟨0x680B, 1, 1, 2, 2, .u 16, .ro, 0, [], .any⟩,
  ⟨0x680B, 1, 1, 3, 3, .u 8, .ro, 0, [], .any⟩,
  ⟨0x680C, 1, 1, 0, 0, .str 16, .rws, 0, [], .any⟩,
  ⟨0x6810, 1, 1, 1, 1, .u 32, .sealable, 50, [], .any⟩,
  ⟨0x6810, 1, 1, 2, 2, .u 32, .sealable, 100, [], .any⟩,
  ⟨0x6810, 1, 1, 3, 3, .u 32, .sealable, 20, [], .any⟩,
  ⟨0x6810, 1, 1, 4, 4, .u 32, .sealable, 50, [], .any⟩,
  ⟨0x6810, 1, 1, 5, 5, .u 32, .sealable, 2, [], .any⟩,
  ⟨0x6810, 1, 1, 6, 6, .u 32, .sealable, 2, [], .any⟩,
  ⟨0x6811, 1, 1, 1, 1, .u 32, .sealable, 2000, [], .any⟩,
  ⟨0x6811, 1, 1, 2, 2, .u 32, .sealable, 524, [], .any⟩,
  ⟨0x6811, 1, 1, 3, 3, .u 16, .sealable, 8, [], .any⟩,
  ⟨0x6812, 1, 1, 1, 8, .blob 32, .ro, 0, [], .any⟩,
  ⟨0x6820, 1, 1, 0, 0, .u 32, .ro, 0, [], .any⟩,
  ⟨0x6821, 1, 1, 1, 16, .record 32, .ro, 0, [], .any⟩,
  ⟨0x6822, 1, 1, 0, 0, .u 32, .ro, 0, [], .any⟩]

/-- Entry tables of index range 0x7000, part 1 of 1. -/
def dict7_1 : List Desc := [
  ⟨0x7000, 1, 1, 1, 32, .u 32, .rws, 0, [], .special⟩,
  ⟨0x7001, 1, 1, 1, 32, .f32, .rws, 1065353216, [], .any⟩,
  ⟨0x7002, 1, 1, 1, 32, .f32, .rws, 0, [], .any⟩,
  ⟨0x7003, 1, 1, 1, 32, .u 32, .ro, 50331648, [], .any⟩,
  ⟨0x7004, 1, 1, 1, 32, .u 64, .ro, 0, [], .any⟩,
  ⟨0x7005, 1, 1, 1, 32, .f32, .ro, 0, [], .any⟩,
  ⟨0x7006, 1, 1, 1, 32, .i 32, .ro, -2147483648, [], .any⟩,
  ⟨0x7007, 1, 1, 1, 32, .i 32, .ro, 0, [], .any⟩,
  ⟨0x7008, 1, 1, 1, 32, .u 32, .ro, 4194304, [], .any⟩,
  ⟨0x7009, 1, 1, 1, 32, .time, .ro, 0, [], .any⟩,
  ⟨0x7050, 4, 2, 1, 17, .u 16, .rws, 0, [], .special⟩,
  ⟨0x7051, 4, 2, 1, 17, .i 32, .rws, 0, [], .special⟩,
  ⟨0x7010, 1, 1, 0, 0, .u 32, .rw, 4294967295, [], .any⟩,
  ⟨0x7011, 1, 1, 1, 3, .u 16, .rw, 0, [], .special⟩,
  ⟨0x7012, 1, 1, 1, 3, .u 32, .rw, 100000, [], .within (10) (10000000)⟩,
  ⟨0x7013, 1, 1, 1, 3, .u 32, .ro, 0, [], .any⟩,
  ⟨0x7014, 1, 1, 0, 0, .u 32, .ro, 0, [], .any⟩,
  ⟨0x7020, 3, 1, 1, 16, .u 64, .rw, 0, [], .special⟩,
  ⟨0x7030, 3, 1, 1, 16, .u 32, .ro, 50331648, [], .any⟩,
  ⟨0x7034, 3, 1, 1, 16, .u 32, .ro, 50331648, [], .any⟩,
  ⟨0x7038, 3, 1, 1, 16, .u 64, .ro, 0, [], .any⟩,
  ⟨0x7040, 1, 1, 0, 0, .u 32, .wo, 0, [], .special⟩,
  ⟨0x7041, 1, 1, 1, 3, .u 8, .ro, 0, [], .any⟩,
  ⟨0x7042, 1, 1, 1, 3, .u 32, .ro, 50331648, [], .any⟩,
  ⟨0x7043, 1, 1, 1, 3, .u 64, .ro, 0, [], .any⟩,
  ⟨0x7060, 1, 1, 0, 0, .u 32, .wo, 0, [], .special⟩,
  ⟨0x7061, 1, 1, 1, 1, .u 8, .ro, 0, [], .any⟩,
  ⟨0x7061, 1, 1, 2, 2, .u 8, .ro, 255, [], .any⟩,
  ⟨0x7061, 1, 1, 3, 3, .u 8, .ro, 0, [], .any⟩,
  ⟨0x7061, 1, 1, 4, 4, .u 8, .ro, 0, [], .any⟩,
  ⟨0x7062, 1, 1, 1, 2, .i 32, .rws, 0, [(2, 2000000)], .any⟩,
  ⟨0x7063, 1, 1, 1, 3, .f32, .ro, 0, [], .any⟩,
  ⟨0x7064, 1, 1, 1, 1, .u 16, .sealable, 8, [], .any⟩,
  ⟨0x7064, 1, 1, 2, 2, .u 16, .sealable, 4, [], .any⟩,
  ⟨0x7070, 1, 1, 1, 4, .u 16, .ro, 1, [(2, 1025), (3, 2049), (4, 3072)], .any⟩,
  ⟨0x7071, 1, 1, 1, 8, .u 32, .ro, 0, [], .any⟩,
  ⟨0x7072, 1, 1, 1, 8, .u 16, .ro, 0, [], .any⟩,
  ⟨0x7073, 1, 1, 0, 0, .u 8, .ro, 0, [], .any⟩]

/-- Entry tables of index range 0x8000, part 1 of 1. -/
def dict8_1 : List Desc := [
  ⟨0x8000, 1, 1, 0, 0, .u 16, .sealable, 768, [], .special⟩,
  ⟨0x8001, 1, 1, 0, 0, .u 8, .sealable, 255, [], .orNone 31⟩,
  ⟨0x8002, 1, 1, 1, 5, .i 32, .sealable, -2000, [(2, 0), (3, 1500), (4, 3000), (5, 5000)], .special⟩,
  ⟨0x8003, 1, 1, 0, 0, .blob 24, .sealable, 0, [], .special⟩,
  ⟨0x8004, 1, 1, 0, 0, .blob 24, .sealable, 0, [], .special⟩,
  ⟨0x8005, 1, 1, 0, 0, .u 8, .rw, 0, [], .within (0) (7)⟩,
  ⟨0x8006, 1, 1, 1, 24, .u 64, .sealable, 18446744073709551615, [], .special⟩,
  ⟨0x8007, 1, 1, 1, 5, .u 16, .sealable, 0, [], .special⟩,
  ⟨0x8008, 1, 1, 1, 8, .u 8, .sealable, 255, [], .orNone 191⟩,
  ⟨0x8009, 1, 1, 0, 0, .blob 24, .rw, 0, [], .special⟩,
  ⟨0x8020, 6, 1, 1, 5, .blob 16, .sealable, 0, [], .special⟩,
  ⟨0x8020, 6, 1, 6, 6, .u 8, .sealable, 1, [], .special⟩,
  ⟨0x8020, 6, 1, 7, 7, .u 8, .sealable, 1, [], .special⟩,
  ⟨0x8030, 1, 1, 0, 0, .u 32, .ro, 0, [], .any⟩,
  ⟨0x8031, 1, 1, 0, 0, .blob 24, .ro, 0, [], .any⟩,
  ⟨0x8032, 1, 1, 0, 0, .u 32, .ro, 2231102702, [], .any⟩,
  ⟨0x8033, 1, 1, 1, 192, .i 16, .ro, 0, [], .any⟩,
  ⟨0x8034, 1, 1, 1, 1, .u 32, .ro, 0, [], .any⟩,
  ⟨0x8034, 1, 1, 2, 2, .u 32, .ro, 0, [], .any⟩,
  ⟨0x8034, 1, 1, 3, 3, .u 32, .ro, 0, [], .any⟩,
  ⟨0x8034, 1, 1, 4, 4, .u 32, .ro, 0, [], .any⟩,
  ⟨0x8034, 1, 1, 5, 5, .u 32, .ro, 0, [], .any⟩,
  ⟨0x8034, 1, 1, 6, 6, .u 32, .ro, 0, [], .any⟩,
  ⟨0x8034, 1, 1, 7, 7, .u 32, .ro, 0, [], .any⟩,
  ⟨0x8034, 1, 1, 8, 8, .u 32, .ro, 0, [], .any⟩,
  ⟨0x8035, 1, 1, 0, 0, .blob 25, .rw, 0, [], .special⟩,
  ⟨0x8036, 1, 1, 1, 1, .u 16, .ro, 0, [], .any⟩,
  ⟨0x8036, 1, 1, 2, 2, .u 16, .ro, 0, [], .any⟩,
  ⟨0x8036, 1, 1, 3, 3, .u 32, .ro, 0, [], .any⟩,
  ⟨0x8037, 1, 1, 1, 1, .u 32, .ro, 0, [], .any⟩,
  ⟨0x8037, 1, 1, 2, 2, .u 32, .ro, 0, [], .any⟩,
  ⟨0x8038, 1, 1, 1, 1, .u 8, .ro, 0, [], .any⟩,
  ⟨0x8038, 1, 1, 2, 2, .u 16, .ro, 0, [], .any⟩]

/-- Entry tables of index range 0x9000, part 1 of 1. -/
def dict9_1 : List Desc := [
  ⟨0x9000, 1, 1, 1, 1, .u 32, .ro, 524288, [], .any⟩,
  ⟨0x9000, 1, 1, 2, 2, .u 16, .ro, 2048, [], .any⟩,
  ⟨0x9000, 1, 1, 3, 3, .u 16, .ro, 2048, [], .any⟩,
  ⟨0x9000, 1, 1, 4, 4, .u 16, .ro, 12, [], .any⟩,
  ⟨0x9001, 1, 1, 1, 1, .u 32, .ro, 0, [], .any⟩,
  ⟨0x9001, 1, 1, 2, 2, .u 32, .ro, 0, [], .any⟩,
  ⟨0x9001, 1, 1, 3, 3, .u 32, .ro, 0, [], .any⟩,
  ⟨0x9001, 1, 1, 4, 4, .u 32, .ro, 0, [], .any⟩,
  ⟨0x9001, 1, 1, 5, 5, .time, .ro, 0, [], .any⟩,
  ⟨0x9002, 1, 1, 1, 1, .u 16, .ro, 0, [], .any⟩,
  ⟨0x9002, 1, 1, 2, 2, .u 16, .ro, 0, [], .any⟩,
  ⟨0x9002, 1, 1, 3, 3, .u 32, .ro, 0, [], .any⟩,
  ⟨0x9002, 1, 1, 4, 4, .u 16, .ro, 0, [], .any⟩,
  ⟨0x9002, 1, 1, 5, 5, .u 16, .ro, 0, [], .any⟩,
  ⟨0x9002, 1, 1, 6, 6, .u 16, .ro, 0, [], .any⟩,
  ⟨0x9002, 1, 1, 7, 7, .u 16, .ro, 0, [], .any⟩,
  ⟨0x9003, 1, 1, 1, 1, .u 32, .ro, 0, [], .any⟩,
  ⟨0x9003, 1, 1, 2, 2, .u 32, .ro, 0, [], .any⟩,
  ⟨0x9003, 1, 1, 3, 3, .u 8, .ro, 0, [], .any⟩,
  ⟨0x9003, 1, 1, 4, 4, .u 16, .ro, 0, [], .any⟩,
  ⟨0x9003, 1, 1, 5, 5, .u 32, .ro, 0, [], .any⟩,
  ⟨0x9004, 1, 1, 0, 0, .u 32, .ro, 0, [], .any⟩,
  ⟨0x9005, 1, 1, 1, 1, .u 16, .rws, 24, [], .within (1) (720)⟩,
  ⟨0x9005, 1, 1, 2, 2, .u 32, .ro, 0, [], .any⟩,
  ⟨0x9005, 1, 1, 3, 3, .u 32, .ro, 0, [], .any⟩,
  ⟨0x9006, 1, 1, 1, 1, .u 64, .ro, 0, [], .any⟩,
  ⟨0x9006, 1, 1, 2, 2, .u 32, .ro, 0, [], .any⟩,
  ⟨0x9006, 1, 1, 3, 3, .u 8, .ro, 0, [], .any⟩,
  ⟨0x9006, 1, 1, 4, 4, .u 32, .ro, 0, [], .any⟩,
  ⟨0x9007, 1, 1, 0, 0, .blob 32, .ro, 0, [], .any⟩]

/-- Entry tables of index range 0xA000, part 1 of 1. -/
def dictA_1 : List Desc := [
  ⟨0xA000, 1, 1, 1, 16, .u 32, .sealable, 65536257, [(5, 65536256), (6, 65536256), (7, 65536769), (9, 65536514), (10, 65536258), (11, 65536258), (12, 65536256), (13, 3932161280), (14, 65536258), (15, 65536256)], .special⟩,
  ⟨0xA001, 1, 1, 1, 16, .u 16, .sealable, 0, [(1, 20), (2, 20), (3, 20), (6, 255)], .special⟩,
  ⟨0xA002, 1, 1, 1, 16, .u 16, .ro, 0, [], .any⟩,
  ⟨0xA003, 1, 1, 1, 16, .u 32, .ro, 0, [], .any⟩,
  ⟨0xA004, 1, 1, 1, 16, .u 32, .ro, 0, [], .any⟩,
  ⟨0xA005, 1, 1, 1, 16, .time, .ro, 0, [], .any⟩,
  ⟨0xA010, 1, 1, 0, 0, .u 16, .rw, 0, [], .special⟩,
  ⟨0xA011, 1, 1, 0, 0, .u 16, .ro, 0, [], .any⟩,
  ⟨0xA012, 1, 1, 0, 0, .u 16, .ro, 0, [], .any⟩,
  ⟨0xA013, 1, 1, 0, 0, .u 32, .wo, 0, [], .special⟩,
  ⟨0xA014, 1, 1, 0, 0, .u 32, .ro, 0, [], .any⟩,
  ⟨0xA015, 1, 1, 1, 1, .u 32, .ro, 0, [], .any⟩,
  ⟨0xA015, 1, 1, 2, 2, .u 32, .ro, 0, [], .any⟩,
  ⟨0xA016, 1, 1, 1, 1, .i 32, .ro, 0, [], .any⟩,
  ⟨0xA016, 1, 1, 2, 2, .u 16, .ro, 0, [], .any⟩,
  ⟨0xA016, 1, 1, 3, 3, .i 32, .ro, 0, [], .any⟩,
  ⟨0xA020, 1, 1, 0, 0, .u 32, .ro, 0, [], .any⟩,
  ⟨0xA021, 1, 1, 1, 128, .record 32, .ro, 0, [], .any⟩]

/-- Entry tables of index range 0xB000, part 1 of 2. -/
def dictB_1 : List Desc := [
  ⟨0xB000, 1, 1, 0, 0, .u 16, .rws, 15, [], .mask 0x3F⟩,
  ⟨0xB001, 1, 1, 0, 0, .i 16, .rws, 0, [], .within (-1000) (1000)⟩,
  ⟨0xB002, 1, 1, 1, 4, .u 16, .ro, 0, [], .any⟩,
  ⟨0xB003, 1, 1, 1, 4, .blob 8, .ro, 0, [], .any⟩,
  ⟨0xB004, 1, 1, 1, 4, .blob 8, .rws, 0, [], .special⟩,
  ⟨0xB005, 1, 1, 1, 4, .u 32, .ro, 0, [], .any⟩,
  ⟨0xB006, 1, 1, 1, 4, .u 32, .ro, 0, [], .any⟩,
  ⟨0xB007, 1, 1, 1, 4, .u 32, .ro, 0, [], .any⟩,
  ⟨0xB010, 1, 1, 1, 1, .u 8, .ro, 0, [], .any⟩,
  ⟨0xB010, 1, 1, 2, 2, .u 16, .ro, 65535, [], .any⟩,
  ⟨0xB010, 1, 1, 3, 3, .u 16, .ro, 1, [], .any⟩,
  ⟨0xB010, 1, 1, 4, 4, .u 8, .ro, 0, [], .any⟩,
  ⟨0xB010, 1, 1, 5, 5, .u 8, .ro, 0, [], .any⟩,
  ⟨0xB010, 1, 1, 6, 6, .u 16, .ro, 65535, [], .any⟩,
  ⟨0xB011, 1, 1, 1, 3, .record 16, .ro, 0, [], .any⟩,
  ⟨0xB012, 1, 1, 1, 1, .u 16, .ro, 1, [], .any⟩,
  ⟨0xB012, 1, 1, 2, 2, .u 8, .ro, 0, [], .any⟩,
  ⟨0xB012, 1, 1, 3, 3, .u 32, .ro, 0, [], .any⟩,
  ⟨0xB012, 1, 1, 4, 4, .u 32, .ro, 0, [], .any⟩,
  ⟨0xB012, 1, 1, 5, 5, .u 32, .ro, 0, [], .any⟩,
  ⟨0xB020, 1, 1, 0, 0, .u 8, .ro, 0, [], .any⟩,
  ⟨0xB021, 1, 1, 1, 1, .i 32, .ro, 0, [], .any⟩,
  ⟨0xB021, 1, 1, 2, 2, .u 32, .ro, 0, [], .any⟩,
  ⟨0xB021, 1, 1, 3, 3, .i 32, .ro, 0, [], .any⟩,
  ⟨0xB021, 1, 1, 4, 4, .u 8, .ro, 0, [], .any⟩,
  ⟨0xB021, 1, 1, 5, 5, .u 32, .ro, 0, [], .any⟩,
  ⟨0xB021, 1, 1, 6, 6, .u 32, .ro, 0, [], .any⟩,
  ⟨0xB021, 1, 1, 7, 7, .u 32, .ro, 0, [], .any⟩,
  ⟨0xB021, 1, 1, 8, 8, .u 8, .ro, 0, [], .any⟩,
  ⟨0xB022, 1, 1, 0, 0, .i 32, .rws, 0, [], .within (-100000) (100000)⟩,
  ⟨0xB050, 1, 1, 1, 1, .u 32, .ro, 0, [], .any⟩,
  ⟨0xB050, 1, 1, 2, 2, .u 32, .ro, 0, [], .any⟩,
  ⟨0xB050, 1, 1, 3, 3, .time, .ro, 0, [], .any⟩,
  ⟨0xB030, 1, 1, 0, 0, .u 8, .wo, 0, [], .within (1) (2)⟩,
  ⟨0xB031, 1, 1, 1, 1, .u 8, .ro, 0, [], .any⟩,
  ⟨0xB031, 1, 1, 2, 2, .u 16, .ro, 0, [], .any⟩,
  ⟨0xB031, 1, 1, 3, 3, .u 64, .ro, 0, [], .any⟩,
  ⟨0xB031, 1, 1, 4, 4, .u 16, .ro, 0, [], .any⟩,
  ⟨0xB031, 1, 1, 5, 5, .u 16, .ro, 0, [], .any⟩,
  ⟨0xB031, 1, 1, 6, 6, .u 16, .ro, 0, [], .any⟩]

/-- Entry tables of index range 0xB000, part 2 of 2. -/
def dictB_2 : List Desc := [
  ⟨0xB032, 1, 1, 1, 1, .u 16, .rw, 2, [], .within (1) (100)⟩,
  ⟨0xB032, 1, 1, 2, 2, .u 16, .rw, 60, [], .within (1) (600)⟩,
  ⟨0xB040, 1, 1, 1, 8, .u 32, .rws, 0, [], .special⟩,
  ⟨0xB041, 1, 1, 1, 8, .u 64, .ro, 0, [], .any⟩,
  ⟨0xB042, 1, 1, 1, 8, .u 64, .ro, 0, [], .any⟩,
  ⟨0xB043, 1, 1, 1, 8, .f32, .ro, 0, [], .any⟩,
  ⟨0xB044, 1, 1, 1, 8, .u 64, .ro, 0, [], .any⟩,
  ⟨0xB045, 1, 1, 1, 8, .u 16, .ro, 0, [], .any⟩]

/-- Entry tables of index range 0xC000, part 1 of 1. -/
def dictC_1 : List Desc := [
  ⟨0xC000, 1, 1, 0, 0, .u 8, .wo, 0, [], .within (1) (2)⟩,
  ⟨0xC001, 1, 1, 0, 0, .u 8, .ro, 0, [], .any⟩,
  ⟨0xC002, 1, 1, 0, 0, .u 32, .ro, 0, [], .any⟩,
  ⟨0xC003, 1, 1, 0, 0, .blobUpTo 256, .rw, 0, [], .special⟩,
  ⟨0xC004, 1, 1, 1, 1, .u 64, .ro, 0, [], .any⟩,
  ⟨0xC004, 1, 1, 2, 2, .time, .ro, 0, [], .any⟩,
  ⟨0xC004, 1, 1, 3, 3, .u 8, .ro, 0, [], .any⟩,
  ⟨0xC004, 1, 1, 4, 4, .u 16, .ro, 0, [], .any⟩,
  ⟨0xC005, 1, 1, 1, 10, .u 64, .ro, 0, [], .any⟩,
  ⟨0xC006, 1, 1, 0, 0, .u 32, .ro, 4294967295, [], .any⟩,
  ⟨0xC800, 1, 1, 0, 0, .blob 64, .ro, 0, [], .any⟩,
  ⟨0xC801, 1, 1, 0, 0, .blob 64, .ro, 0, [], .any⟩,
  ⟨0xC802, 1, 1, 1, 1, .u 32, .ro, 0, [], .any⟩,
  ⟨0xC802, 1, 1, 2, 2, .u 32, .ro, 0, [], .any⟩,
  ⟨0xC802, 1, 1, 3, 3, .u 8, .ro, 0, [], .any⟩,
  ⟨0xC802, 1, 1, 4, 4, .time, .ro, 0, [], .any⟩,
  ⟨0xC810, 1, 1, 1, 1, .u 32, .ro, 4294967295, [], .any⟩,
  ⟨0xC810, 1, 1, 2, 2, .u 32, .rw, 4294967295, [], .special⟩,
  ⟨0xC810, 1, 1, 3, 3, .u 16, .ro, 0, [], .any⟩,
  ⟨0xC810, 1, 1, 4, 4, .u 8, .rws, 1, [], .within (0) (1)⟩,
  ⟨0xC810, 1, 1, 5, 5, .u 32, .ro, 0, [], .any⟩,
  ⟨0xC811, 1, 1, 1, 160, .record 886, .ro, 0, [], .any⟩,
  ⟨0xC812, 1, 1, 0, 0, .blob 32, .ro, 0, [], .any⟩,
  ⟨0xC820, 1, 1, 1, 1, .u 32, .ro, 0, [], .any⟩,
  ⟨0xC820, 1, 1, 2, 2, .u 16, .ro, 0, [], .any⟩,
  ⟨0xC820, 1, 1, 3, 3, .u 32, .ro, 0, [], .any⟩,
  ⟨0xC820, 1, 1, 4, 4, .u 8, .ro, 1, [], .any⟩,
  ⟨0xC820, 1, 1, 5, 5, .u 32, .ro, 0, [], .any⟩]

/-- Entry tables of index range 0xD000, part 1 of 1. -/
def dictD_1 : List Desc := [
  ⟨0xD000, 1, 1, 1, 8, .u 64, .rws, 0, [], .special⟩,
  ⟨0xD001, 1, 1, 0, 0, .u 8, .ro, 0, [], .any⟩,
  ⟨0xD002, 1, 1, 0, 0, .u 8, .wo, 0, [], .within (1) (1)⟩,
  ⟨0xD003, 1, 1, 1, 8, .u 32, .ro, 0, [], .any⟩,
  ⟨0xD004, 1, 1, 0, 0, .time, .ro, 0, [], .any⟩]

/-- Entry tables of index range 0xE000, part 1 of 2. -/
def dictE_1 : List Desc := [
  ⟨0xE020, 1, 1, 1, 5, .u 16, .ro, 0, [], .any⟩,
  ⟨0xE021, 1, 1, 1, 5, .u 16, .ro, 0, [], .any⟩,
  ⟨0xE022, 1, 1, 1, 5, .u 32, .ro, 0, [], .any⟩,
  ⟨0xE023, 1, 1, 0, 0, .u 16, .rw, 250, [], .within (50) (1000)⟩,
  ⟨0xE024, 1, 1, 1, 5, .u 16, .ro, 0, [], .any⟩,
  ⟨0xE025, 1, 1, 0, 0, .u 8, .wo, 0, [], .within (1) (1)⟩,
  ⟨0xE026, 1, 1, 1, 1, .u 16, .ro, 0, [], .any⟩,
  ⟨0xE026, 1, 1, 2, 2, .u 16, .ro, 0, [], .any⟩,
  ⟨0xE010, 1, 1, 1, 8, .u 8, .rws, 0, [(1, 0), (2, 0), (3, 1), (4, 1), (5, 2), (6, 2), (7, 3), (8, 3)], .mask 0x3⟩,
  ⟨0xE011, 1, 1, 1, 5, .u 32, .ro, 0, [(1, 50331649), (2, 201327105), (3, 805307393), (4, 3221227009), (5, 3584)], .any⟩,
  ⟨0xE012, 1, 1, 1, 5, .u 32, .ro, 0, [], .any⟩,
  ⟨0xE013, 1, 1, 1, 4, .u 8, .ro, 0, [], .any⟩,
  ⟨0xE014, 1, 1, 1, 1, .u 8, .ro, 0, [], .any⟩,
  ⟨0xE014, 1, 1, 2, 2, .u 8, .ro, 255, [], .any⟩,
  ⟨0xE014, 1, 1, 3, 3, .u 64, .ro, 0, [], .any⟩,
  ⟨0xE014, 1, 1, 4, 4, .time, .ro, 0, [], .any⟩,
  ⟨0xE030, 1, 1, 1, 5, .u 32, .ro, 1, [(2, 513), (3, 1025), (4, 1537), (5, 3584)], .any⟩,
  ⟨0xE031, 1, 1, 1, 5, .u 32, .ro, 0, [], .any⟩,
  ⟨0xE032, 1, 1, 1, 5, .u 32, .ro, 0, [], .any⟩,
  ⟨0xE033, 1, 1, 1, 5, .u 32, .ro, 0, [], .any⟩,
  ⟨0xE034, 1, 1, 1, 5, .u 32, .ro, 0, [], .any⟩,
  ⟨0xE035, 1, 1, 1, 5, .time, .ro, 0, [], .any⟩,
  ⟨0xE036, 1, 1, 1, 11, .u 32, .ro, 0, [], .any⟩,
  ⟨0xE037, 1, 1, 1, 11, .u 32, .ro, 0, [], .any⟩,
  ⟨0xE038, 1, 1, 1, 11, .u 16, .ro, 0, [], .any⟩,
  ⟨0xE039, 1, 1, 0, 0, .u 8, .wo, 0, [], .within (1) (1)⟩,
  ⟨0xE03A, 1, 1, 1, 1, .u 16, .rws, 100, [], .within (10) (10000)⟩,
  ⟨0xE03A, 1, 1, 2, 2, .u 32, .ro, 0, [], .any⟩,
  ⟨0xE03A, 1, 1, 3, 3, .u 32, .ro, 0, [], .any⟩,
  ⟨0xE03A, 1, 1, 4, 4, .u 32, .ro, 0, [], .any⟩,
  ⟨0xE03A, 1, 1, 5, 5, .u 32, .ro, 0, [], .any⟩,
  ⟨0xE03A, 1, 1, 6, 6, .u 8, .ro, 0, [], .any⟩,
  ⟨0xE03A, 1, 1, 7, 7, .u 8, .ro, 0, [], .any⟩,
  ⟨0xE03B, 1, 1, 1, 1, .u 8, .ro, 0, [], .any⟩,
  ⟨0xE03B, 1, 1, 2, 2, .u 8, .ro, 255, [], .any⟩,
  ⟨0xE03B, 1, 1, 3, 3, .time, .ro, 0, [], .any⟩,
  ⟨0xE03B, 1, 1, 4, 4, .u 16, .ro, 0, [], .any⟩,
  ⟨0xE000, 1, 1, 0, 0, .u 16, .ro, 0, [], .any⟩,
  ⟨0xE001, 1, 1, 1, 1, .u 8, .ro, 1, [], .any⟩,
  ⟨0xE001, 1, 1, 2, 2, .u 8, .ro, 1, [], .any⟩]

/-- Entry tables of index range 0xE000, part 2 of 2. -/
def dictE_2 : List Desc := [
  ⟨0xE001, 1, 1, 3, 3, .u 8, .ro, 1, [], .any⟩,
  ⟨0xE001, 1, 1, 4, 4, .u 8, .ro, 4, [], .any⟩,
  ⟨0xE001, 1, 1, 5, 5, .u 16, .ro, 2048, [], .any⟩,
  ⟨0xE040, 1, 1, 0, 0, .u 32, .ro, 0, [], .any⟩,
  ⟨0xE041, 1, 1, 1, 128, .record 32, .ro, 0, [], .any⟩,
  ⟨0xE060, 1, 1, 0, 0, .u 16, .wo, 0, [], .special⟩,
  ⟨0xE061, 1, 1, 1, 5, .u 32, .ro, 0, [], .any⟩,
  ⟨0xE061, 1, 1, 6, 6, .u 32, .ro, 0, [], .any⟩,
  ⟨0xE070, 1, 1, 1, 1, .u 32, .ro, 0, [], .any⟩,
  ⟨0xE070, 1, 1, 2, 2, .u 32, .ro, 0, [], .any⟩,
  ⟨0xE070, 1, 1, 3, 3, .u 32, .ro, 0, [], .any⟩]

/-- Entry tables of index range 0xF000, part 1 of 1. -/
def dictF_1 : List Desc := [
  ⟨0xF000, 256, 1, 0, 0, .blob 256, .rw, 0, [], .special⟩,
  ⟨0xF000, 256, 1, 1, 32, .u 64, .rw, 0, [], .special⟩]

/-- The entry tables of one index range (Table 13.1). -/
def dictOf (nib : Nat) : List Desc :=
  if nib = 0x1 then dict1_1 ++ dict1_2 else
  if nib = 0x2 then dict2_1 else
  if nib = 0x3 then dict3_1 else
  if nib = 0x4 then dict4_1 ++ dict4_2 else
  if nib = 0x5 then dict5_1 else
  if nib = 0x6 then dict6_1 ++ dict6_2 else
  if nib = 0x7 then dict7_1 else
  if nib = 0x8 then dict8_1 else
  if nib = 0x9 then dict9_1 else
  if nib = 0xA then dictA_1 else
  if nib = 0xB then dictB_1 ++ dictB_2 else
  if nib = 0xC then dictC_1 else
  if nib = 0xD then dictD_1 else
  if nib = 0xE then dictE_1 ++ dictE_2 else
  if nib = 0xF then dictF_1 else
  []

/-- Whether an index range is point-indexed (Table 13.1). -/
def pointRange (nib : Nat) : Bool := nib = 2 ∨ nib = 3 ∨ nib = 4 ∨ nib = 5 ∨ nib = 6 ∨ nib = 0xC

/-- Whether an index names an entry of one point (R374). -/
def isPointIdx (idx : Nat) : Bool := pointRange (idx / 0x1000) && idx % 0x1000 < 0x800

/-- The point an index names (R374); 0 for device-level entries. -/
def pointOfIdx (idx : Nat) : Nat := if isPointIdx idx then idx % 0x1000 / 0x100 else 0

/-- The index of the same entry of P0 (R374). -/
def baseIdx (idx : Nat) : Nat := idx - 0x100 * pointOfIdx idx

/-- Whether a row describes P0's `idx:sub`. -/
def Desc.covers (d : Desc) (idx sub : Nat) : Bool :=
  d.lo ≤ sub && sub ≤ d.hi && d.idx ≤ idx && (idx - d.idx) % d.step = 0 && (idx - d.idx) / d.step < d.n

/-- The row of an entry, none where the entry does not exist (R373). -/
def findDesc (idx sub : Nat) : Option Desc :=
  if sub < 256 ∧ idx < 65536 then (dictOf (idx / 0x1000)).find? (fun d => d.covers (baseIdx idx) sub) else none

/-- The key of an entry: index and subindex as one number. -/
def keyOf (idx sub : Nat) : Nat := idx * 256 + sub

/-- The value of an alternative list at a subindex. -/
def altOf : List (Nat × Int) → Nat → Int → Int
  | [], _, d => d
  | (k, v) :: r, i, d => if k = i then v else altOf r i d

/-- The default of a number entry (R15); 0 for keys that are no entry. Entries whose default the tables leave to the factory read Config. -/
def dfltN (k : Nat) : Int :=
  let idx := k / 256
  let sub := k % 256
  match findDesc idx sub with
  | none => 0
  | some d =>
    if d.idx = 0x201A then ((7 * pointOfIdx idx + sub - 1 : Nat) : Int)
    else if d.idx = 0x2810 then Config.coeff250 sub
    else if d.idx = 0x2811 then Config.coeff500 sub
    else if k = 0x100004 then Config.siliconRev
    else if k = 0x100005 then Config.romRev
    else if k = 0xE07002 then Config.trimCrc
    else altOf d.alt sub d.dflt

/-- The default of a byte-string entry (R15): zero bytes of a fixed length, empty otherwise; PRODUCT, GRADE and SERIAL as Table 12.11 gives them. -/
def dfltB (k : Nat) : List Byte :=
  if k = 0x100002 then [0x42, 0x52, 0x4E, 0x34, 0x38, 0x38, 0x30]
  else if k = 0x100003 then [0x54, 0x34]
  else if k = 0x100007 then Config.serial
  else match findDesc (k / 256) (k % 256) with
    | some d => (match d.ty with | .blob n => List.replicate n 0 | .record n => List.replicate n 0 | _ => [])
    | none => []

/-! ### Keys of the entries, by the spec's names: `p` point, `j` offset of the index, `q` plate slot, `i` subindex -/

namespace K

/-- SAMPLE_INDEX, 0x10F0:01 (Table 01.2). -/
def SAMPLE_INDEX : Nat := (0x10F0) * 256 + 1
/-- INDEX_SHIFT, 0x10F0:02 (Table 01.2). -/
def INDEX_SHIFT : Nat := (0x10F0) * 256 + 2
/-- REBASE_COUNT, 0x10F0:03 (Table 01.2). -/
def REBASE_COUNT : Nat := (0x10F0) * 256 + 3
/-- LAST_REBASE, 0x10F0:04 (Table 01.2). -/
def LAST_REBASE : Nat := (0x10F0) * 256 + 4
/-- LAT_WORST, 0xE020:01–05 (Table 01.4). -/
def LAT_WORST (i : Nat) : Nat := (0xE020) * 256 + i
/-- LAT_WORST_1S, 0xE021:01–05 (Table 01.4). -/
def LAT_WORST_1S (i : Nat) : Nat := (0xE021) * 256 + i
/-- LAT_OVER, 0xE022:01–05 (Table 01.4). -/
def LAT_OVER (i : Nat) : Nat := (0xE022) * 256 + i
/-- LAT_THRESHOLD, 0xE023:00 (Table 01.4). -/
def LAT_THRESHOLD : Nat := (0xE023) * 256 + 0
/-- II_WORST, 0xE024:01–05 (Table 01.4). -/
def II_WORST (i : Nat) : Nat := (0xE024) * 256 + i
/-- LAT_CLEAR, 0xE025:00 (Table 01.4). -/
def LAT_CLEAR : Nat := (0xE025) * 256 + 0
/-- VCORE_MV, 0xE026:01 (Table 01.4). -/
def VCORE_MV : Nat := (0xE026) * 256 + 1
/-- REPLICA_DELAY, 0xE026:02 (Table 01.4). -/
def REPLICA_DELAY : Nat := (0xE026) * 256 + 2
/-- LANE_MAP, 0xE010:01–08 (Table 01.5). -/
def LANE_MAP (i : Nat) : Nat := (0xE010) * 256 + i
/-- LANE_STATE, 0xE011:01–05 (Table 01.5). -/
def LANE_STATE (i : Nat) : Nat := (0xE011) * 256 + i
/-- LANE_CORRECTED, 0xE012:01–05 (Table 01.5). -/
def LANE_CORRECTED (i : Nat) : Nat := (0xE012) * 256 + i
/-- LANE_LOAD, 0xE013:01–04 (Table 01.5). -/
def LANE_LOAD (i : Nat) : Nat := (0xE013) * 256 + i
/-- SUB_COUNT, 0xE014:01 (Table 01.5). -/
def SUB_COUNT : Nat := (0xE014) * 256 + 1
/-- SUB_FROM, 0xE014:02 (Table 01.5). -/
def SUB_FROM : Nat := (0xE014) * 256 + 2
/-- SUB_INDEX, 0xE014:03 (Table 01.5). -/
def SUB_INDEX : Nat := (0xE014) * 256 + 3
/-- SUB_TIME, 0xE014:04 (Table 01.5). -/
def SUB_TIME : Nat := (0xE014) * 256 + 4
/-- PORT_CFG, 0x2010:01–07 (Table 02.6). -/
def PORT_CFG (p i : Nat) : Nat := (0x2010 + 0x100 * p) * 256 + i
/-- PORT_STATUS, 0x2011:01–07 (Table 02.6). -/
def PORT_STATUS (p i : Nat) : Nat := (0x2011 + 0x100 * p) * 256 + i
/-- OVR_TIME, 0x2012:01–07 (Table 02.6). -/
def OVR_TIME (p i : Nat) : Nat := (0x2012 + 0x100 * p) * 256 + i
/-- OVR_COUNT, 0x2013:01–07 (Table 02.6). -/
def OVR_COUNT (p i : Nat) : Nat := (0x2013 + 0x100 * p) * 256 + i
/-- LINK_TIME, 0x2014:01–07 (Table 02.6). -/
def LINK_TIME (p i : Nat) : Nat := (0x2014 + 0x100 * p) * 256 + i
/-- LINK_COUNT, 0x2015:01–07 (Table 02.6). -/
def LINK_COUNT (p i : Nat) : Nat := (0x2015 + 0x100 * p) * 256 + i
/-- REARM_COUNT, 0x2016:01–07 (Table 02.6). -/
def REARM_COUNT (p i : Nat) : Nat := (0x2016 + 0x100 * p) * 256 + i
/-- EYE, 0x2017:01–07 (Table 02.6). -/
def EYE (p i : Nat) : Nat := (0x2017 + 0x100 * p) * 256 + i
/-- DEC_CONFIG, 0x2018:00 (Table 02.6). -/
def DEC_CONFIG (p : Nat) : Nat := (0x2018 + 0x100 * p) * 256 + 0
/-- RAW_SAMPLE, 0x2019:01–07 (Table 02.6). -/
def RAW_SAMPLE (p i : Nat) : Nat := (0x2019 + 0x100 * p) * 256 + i
/-- PHYS_PORT, 0x201A:01–07 (Table 02.6). -/
def PHYS_PORT (p i : Nat) : Nat := (0x201A + 0x100 * p) * 256 + i
/-- MCLK_CFG, 0x2800:01–0F (Table 02.11). -/
def MCLK_CFG (i : Nat) : Nat := (0x2800) * 256 + i
/-- RETURN_DELAY, 0x2801:01–0F (Table 02.11). -/
def RETURN_DELAY (i : Nat) : Nat := (0x2801) * 256 + i
/-- RETURN_SKEW_WORST, 0x2802:01–0F (Table 02.11). -/
def RETURN_SKEW_WORST (i : Nat) : Nat := (0x2802) * 256 + i
/-- SPARE_WIRING, 0x2808:01–04 (Table 02.11). -/
def SPARE_WIRING (i : Nat) : Nat := (0x2808) * 256 + i
/-- SPARE_STATE, 0x2809:01–04 (Table 02.11). -/
def SPARE_STATE (i : Nat) : Nat := (0x2809) * 256 + i
/-- PORT_SUB_COUNT, 0x280A:00 (Table 02.11). -/
def PORT_SUB_COUNT : Nat := (0x280A) * 256 + 0
/-- SPARE_CAP, 0x280B:01–04 (Table 02.11). -/
def SPARE_CAP (i : Nat) : Nat := (0x280B) * 256 + i
/-- COEFF_250, 0x2810:01–21 (Table 02.11). -/
def COEFF_250 (i : Nat) : Nat := (0x2810) * 256 + i
/-- COEFF_500, 0x2811:01–21 (Table 02.11). -/
def COEFF_500 (i : Nat) : Nat := (0x2811) * 256 + i
/-- POINT_CFG, 0x2000:00 (Table 03.1). -/
def POINT_CFG (p : Nat) : Nat := (0x2000 + 0x100 * p) * 256 + 0
/-- CH_FS, 0x2001:01–07 (Table 03.1). -/
def CH_FS (p i : Nat) : Nat := (0x2001 + 0x100 * p) * 256 + i
/-- V_NOMINAL, 0x2002:00 (Table 03.1). -/
def V_NOMINAL (p : Nat) : Nat := (0x2002 + 0x100 * p) * 256 + 0
/-- ZC_HYST, 0x2003:00 (Table 03.1). -/
def ZC_HYST (p : Nat) : Nat := (0x2003 + 0x100 * p) * 256 + 0
/-- THD_ORDER, 0x2004:00 (Table 03.1). -/
def THD_ORDER (p : Nat) : Nat := (0x2004 + 0x100 * p) * 256 + 0
/-- CORR_SAMPLE, 0x3000:01–07 (Table 03.11). -/
def CORR_SAMPLE (p i : Nat) : Nat := (0x3000 + 0x100 * p) * 256 + i
/-- RMS_CYC, 0x3001:01–07 (Table 03.11). -/
def RMS_CYC (p i : Nat) : Nat := (0x3001 + 0x100 * p) * 256 + i
/-- RMS, 0x3002:01–07 (Table 03.11). -/
def RMS (p i : Nat) : Nat := (0x3002 + 0x100 * p) * 256 + i
/-- MEAN, 0x3003:01–07 (Table 03.11). -/
def MEAN (p i : Nat) : Nat := (0x3003 + 0x100 * p) * 256 + i
/-- MEAN_CYC, 0x3004:01–07 (Table 03.11). -/
def MEAN_CYC (p i : Nat) : Nat := (0x3004 + 0x100 * p) * 256 + i
/-- PEAK, 0x3005:01–07 (Table 03.11). -/
def PEAK (p i : Nat) : Nat := (0x3005 + 0x100 * p) * 256 + i
/-- QUAL, 0x3006:01–07 (Table 03.11). -/
def QUAL (p i : Nat) : Nat := (0x3006 + 0x100 * p) * 256 + i
/-- P_CYC, 0x3010:01–03 (Table 03.11). -/
def P_CYC (p i : Nat) : Nat := (0x3010 + 0x100 * p) * 256 + i
/-- P, 0x3011:01–03 (Table 03.11). -/
def P (p i : Nat) : Nat := (0x3011 + 0x100 * p) * 256 + i
/-- Q, 0x3012:01–03 (Table 03.11). -/
def Q (p i : Nat) : Nat := (0x3012 + 0x100 * p) * 256 + i
/-- S, 0x3013:01–03 (Table 03.11). -/
def S (p i : Nat) : Nat := (0x3013 + 0x100 * p) * 256 + i
/-- PF, 0x3014:01–03 (Table 03.11). -/
def PF (p i : Nat) : Nat := (0x3014 + 0x100 * p) * 256 + i
/-- PHI, 0x3015:01–03 (Table 03.11). -/
def PHI (p i : Nat) : Nat := (0x3015 + 0x100 * p) * 256 + i
/-- COSPHI1, 0x3016:01–03 (Table 03.11). -/
def COSPHI1 (p i : Nat) : Nat := (0x3016 + 0x100 * p) * 256 + i
/-- VANGLE, 0x3017:02–03 (Table 03.11). -/
def VANGLE (p i : Nat) : Nat := (0x3017 + 0x100 * p) * 256 + i
/-- TOTALS, 0x3018:01–05 (Table 03.11). -/
def TOTALS (p i : Nat) : Nat := (0x3018 + 0x100 * p) * 256 + i
/-- QUADRANT, 0x3019:00 (Table 03.11). -/
def QUADRANT (p : Nat) : Nat := (0x3019 + 0x100 * p) * 256 + 0
/-- FREQ, 0x3020:01–02 (Table 03.11). -/
def FREQ (p i : Nat) : Nat := (0x3020 + 0x100 * p) * 256 + i
/-- TRACK_STATE, 0x3021:00 (Table 03.11). -/
def TRACK_STATE (p : Nat) : Nat := (0x3021 + 0x100 * p) * 256 + 0
/-- SEQUENCE, 0x3022:00 (Table 03.11). -/
def SEQUENCE (p : Nat) : Nat := (0x3022 + 0x100 * p) * 256 + 0
/-- LAST_BOUNDARY, 0x3023:01 (Table 03.11). -/
def LAST_BOUNDARY (p : Nat) : Nat := (0x3023 + 0x100 * p) * 256 + 1
/-- ZC_FRAC, 0x3023:02 (Table 03.11). -/
def ZC_FRAC (p : Nat) : Nat := (0x3023 + 0x100 * p) * 256 + 2
/-- CYCLE_COUNT, 0x3023:03 (Table 03.11). -/
def CYCLE_COUNT (p : Nat) : Nat := (0x3023 + 0x100 * p) * 256 + 3
/-- WIN_INDEX, 0x3030:01–03 (Table 03.11). -/
def WIN_INDEX (p i : Nat) : Nat := (0x3030 + 0x100 * p) * 256 + i
/-- WIN_CYCLES, 0x3030:04 (Table 03.11). -/
def WIN_CYCLES (p : Nat) : Nat := (0x3030 + 0x100 * p) * 256 + 4
/-- WIN_STATUS, 0x3030:05 (Table 03.11). -/
def WIN_STATUS (p : Nat) : Nat := (0x3030 + 0x100 * p) * 256 + 5
/-- HARM_MAG, 0x3080–0x308C even:01–80 (Table 03.11). -/
def HARM_MAG (p j i : Nat) : Nat := (0x3080 + 0x100 * p + 2 * j) * 256 + i
/-- HARM_PHASE, 0x3081–0x308D odd:01–80 (Table 03.11). -/
def HARM_PHASE (p j i : Nat) : Nat := (0x3081 + 0x100 * p + 2 * j) * 256 + i
/-- THD, 0x308E:01–07 (Table 03.11). -/
def THD (p i : Nat) : Nat := (0x308E + 0x100 * p) * 256 + i
/-- RIPPLE_BAND, 0x30A0–0x30A4:01–08 (Table 03.11). -/
def RIPPLE_BAND (p j i : Nat) : Nat := (0x30A0 + 0x100 * p + 1 * j) * 256 + i
/-- RIPPLE_AC, 0x30A0–0x30A4:09 (Table 03.11). -/
def RIPPLE_AC (p j : Nat) : Nat := (0x30A0 + 0x100 * p + 1 * j) * 256 + 9
/-- RIPPLE_PP, 0x30A0–0x30A4:0A (Table 03.11). -/
def RIPPLE_PP (p j : Nat) : Nat := (0x30A0 + 0x100 * p + 1 * j) * 256 + 10
/-- RIPPLE_FACTOR, 0x30A0–0x30A4:0B (Table 03.11). -/
def RIPPLE_FACTOR (p j : Nat) : Nat := (0x30A0 + 0x100 * p + 1 * j) * 256 + 11
/-- EV_ENABLE, 0x5000:00 (Table 03.13). -/
def EV_ENABLE (p : Nat) : Nat := (0x5000 + 0x100 * p) * 256 + 0
/-- EV_STATUS, 0x5001:00 (Table 03.13). -/
def EV_STATUS (p : Nat) : Nat := (0x5001 + 0x100 * p) * 256 + 0
/-- EV_ACTIVE, 0x5002:00 (Table 03.13). -/
def EV_ACTIVE (p : Nat) : Nat := (0x5002 + 0x100 * p) * 256 + 0
/-- EV_COUNT, 0x5003:01–20 (Table 03.13). -/
def EV_COUNT (p i : Nat) : Nat := (0x5003 + 0x100 * p) * 256 + i
/-- EV_REARM, 0x5004:00 (Table 03.13). -/
def EV_REARM (p : Nat) : Nat := (0x5004 + 0x100 * p) * 256 + 0
/-- SAG_LEVEL, 0x5010:01 (Table 03.13). -/
def SAG_LEVEL (p : Nat) : Nat := (0x5010 + 0x100 * p) * 256 + 1
/-- SWELL_LEVEL, 0x5010:02 (Table 03.13). -/
def SWELL_LEVEL (p : Nat) : Nat := (0x5010 + 0x100 * p) * 256 + 2
/-- INT_LEVEL, 0x5010:03 (Table 03.13). -/
def INT_LEVEL (p : Nat) : Nat := (0x5010 + 0x100 * p) * 256 + 3
/-- LEVEL_HYST, 0x5010:04 (Table 03.13). -/
def LEVEL_HYST (p : Nat) : Nat := (0x5010 + 0x100 * p) * 256 + 4
/-- OC_LEVEL, 0x5010:05 (Table 03.13). -/
def OC_LEVEL (p : Nat) : Nat := (0x5010 + 0x100 * p) * 256 + 5
/-- FREQ_TOL, 0x5010:06 (Table 03.13). -/
def FREQ_TOL (p : Nat) : Nat := (0x5010 + 0x100 * p) * 256 + 6
/-- SHUNT_TOL, 0x5010:07 (Table 03.13). -/
def SHUNT_TOL (p : Nat) : Nat := (0x5010 + 0x100 * p) * 256 + 7
/-- DIV_TOL, 0x5010:08 (Table 03.13). -/
def DIV_TOL (p : Nat) : Nat := (0x5010 + 0x100 * p) * 256 + 8
/-- RIPPLE_LIMIT, 0x5010:09 (Table 03.13). -/
def RIPPLE_LIMIT (p : Nat) : Nat := (0x5010 + 0x100 * p) * 256 + 9
/-- DCI_LEVEL, 0x5010:0A (Table 03.13). -/
def DCI_LEVEL (p : Nat) : Nat := (0x5010 + 0x100 * p) * 256 + 10
/-- EV_HOLD, 0x5010:0B (Table 03.13). -/
def EV_HOLD (p : Nat) : Nat := (0x5010 + 0x100 * p) * 256 + 11
/-- EV_TOTAL, 0x5800:00 (Table 03.13). -/
def EV_TOTAL : Nat := (0x5800) * 256 + 0
/-- EV_LOG, 0x5801:01–80 (Table 03.13). -/
def EV_LOG (i : Nat) : Nat := (0x5801) * 256 + i
/-- ENERGY, 0x4000:01–0A (Table 04.7). -/
def ENERGY (p i : Nat) : Nat := (0x4000 + 0x100 * p) * 256 + i
/-- RESIDUE, 0x4001:01–0A (Table 04.7). -/
def RESIDUE (p i : Nat) : Nat := (0x4001 + 0x100 * p) * 256 + i
/-- DISPUTED, 0x4002:01–0A (Table 04.7). -/
def DISPUTED (p i : Nat) : Nat := (0x4002 + 0x100 * p) * 256 + i
/-- DISPUTED_RESIDUE, 0x4003:01–0A (Table 04.7). -/
def DISPUTED_RESIDUE (p i : Nat) : Nat := (0x4003 + 0x100 * p) * 256 + i
/-- NET_INDEX, 0x4004:01 (Table 04.7). -/
def NET_INDEX (p : Nat) : Nat := (0x4004 + 0x100 * p) * 256 + 1
/-- STEP_COUNT, 0x4004:02 (Table 04.7). -/
def STEP_COUNT (p : Nat) : Nat := (0x4004 + 0x100 * p) * 256 + 2
/-- LAST_NET, 0x4004:03 (Table 04.7). -/
def LAST_NET (p : Nat) : Nat := (0x4004 + 0x100 * p) * 256 + 3
/-- LAST_NET_COMP, 0x4004:04 (Table 04.7). -/
def LAST_NET_COMP (p : Nat) : Nat := (0x4004 + 0x100 * p) * 256 + 4
/-- DIRECTION, 0x4004:05 (Table 04.7). -/
def DIRECTION (p : Nat) : Nat := (0x4004 + 0x100 * p) * 256 + 5
/-- LAST_REVERSAL, 0x4004:06 (Table 04.7). -/
def LAST_REVERSAL (p : Nat) : Nat := (0x4004 + 0x100 * p) * 256 + 6
/-- CABLE_R20, 0x4005:01 (Table 04.7). -/
def CABLE_R20 (p : Nat) : Nat := (0x4005 + 0x100 * p) * 256 + 1
/-- CABLE_ALPHA, 0x4005:02 (Table 04.7). -/
def CABLE_ALPHA (p : Nat) : Nat := (0x4005 + 0x100 * p) * 256 + 2
/-- CABLE_TEMP_SRC, 0x4005:03 (Table 04.7). -/
def CABLE_TEMP_SRC (p : Nat) : Nat := (0x4005 + 0x100 * p) * 256 + 3
/-- CABLE_T_FALLBACK, 0x4005:04 (Table 04.7). -/
def CABLE_T_FALLBACK (p : Nat) : Nat := (0x4005 + 0x100 * p) * 256 + 4
/-- CABLE_T_USED, 0x4005:05 (Table 04.7). -/
def CABLE_T_USED (p : Nat) : Nat := (0x4005 + 0x100 * p) * 256 + 5
/-- CABLE_R_USED, 0x4005:06 (Table 04.7). -/
def CABLE_R_USED (p : Nat) : Nat := (0x4005 + 0x100 * p) * 256 + 6
/-- FALLBACK_STEPS, 0x4005:07 (Table 04.7). -/
def FALLBACK_STEPS (p : Nat) : Nat := (0x4005 + 0x100 * p) * 256 + 7
/-- COMP_CLIP_STEPS, 0x4005:08 (Table 04.7). -/
def COMP_CLIP_STEPS (p : Nat) : Nat := (0x4005 + 0x100 * p) * 256 + 8
/-- LEGAL_PAIR, 0x4006:00 (Table 04.7). -/
def LEGAL_PAIR (p : Nat) : Nat := (0x4006 + 0x100 * p) * 256 + 0
/-- DISPUTED_SINCE, 0x4007:01 (Table 04.7). -/
def DISPUTED_SINCE (p : Nat) : Nat := (0x4007 + 0x100 * p) * 256 + 1
/-- DISPUTED_UNTIL, 0x4007:02 (Table 04.7). -/
def DISPUTED_UNTIL (p : Nat) : Nat := (0x4007 + 0x100 * p) * 256 + 2
/-- UNRECORDED_MAX, 0x4008:00 (Table 04.7). -/
def UNRECORDED_MAX (p : Nat) : Nat := (0x4008 + 0x100 * p) * 256 + 0
/-- RP_THRESHOLD, 0x4020:01 (Table 04.7). -/
def RP_THRESHOLD (p : Nat) : Nat := (0x4020 + 0x100 * p) * 256 + 1
/-- RP_HOLD, 0x4020:02 (Table 04.7). -/
def RP_HOLD (p : Nat) : Nat := (0x4020 + 0x100 * p) * 256 + 2
/-- DMD_IMPORT, 0x4010:01 (Table 04.8). -/
def DMD_IMPORT (p : Nat) : Nat := (0x4010 + 0x100 * p) * 256 + 1
/-- DMD_EXPORT, 0x4010:02 (Table 04.8). -/
def DMD_EXPORT (p : Nat) : Nat := (0x4010 + 0x100 * p) * 256 + 2
/-- DMD_IMPORT_LAST, 0x4010:03 (Table 04.8). -/
def DMD_IMPORT_LAST (p : Nat) : Nat := (0x4010 + 0x100 * p) * 256 + 3
/-- DMD_EXPORT_LAST, 0x4010:04 (Table 04.8). -/
def DMD_EXPORT_LAST (p : Nat) : Nat := (0x4010 + 0x100 * p) * 256 + 4
/-- DMD_P_IMPORT_LAST, 0x4010:05 (Table 04.8). -/
def DMD_P_IMPORT_LAST (p : Nat) : Nat := (0x4010 + 0x100 * p) * 256 + 5
/-- DMD_P_EXPORT_LAST, 0x4010:06 (Table 04.8). -/
def DMD_P_EXPORT_LAST (p : Nat) : Nat := (0x4010 + 0x100 * p) * 256 + 6
/-- DMD_STATUS_LAST, 0x4010:07 (Table 04.8). -/
def DMD_STATUS_LAST (p : Nat) : Nat := (0x4010 + 0x100 * p) * 256 + 7
/-- DMD_STATUS_NOW, 0x4010:08 (Table 04.8). -/
def DMD_STATUS_NOW (p : Nat) : Nat := (0x4010 + 0x100 * p) * 256 + 8
/-- MAX_DMD_IMPORT, 0x4010:09 (Table 04.8). -/
def MAX_DMD_IMPORT (p : Nat) : Nat := (0x4010 + 0x100 * p) * 256 + 9
/-- MAX_DMD_IMPORT_TIME, 0x4010:0A (Table 04.8). -/
def MAX_DMD_IMPORT_TIME (p : Nat) : Nat := (0x4010 + 0x100 * p) * 256 + 10
/-- MAX_DMD_EXPORT, 0x4010:0B (Table 04.8). -/
def MAX_DMD_EXPORT (p : Nat) : Nat := (0x4010 + 0x100 * p) * 256 + 11
/-- MAX_DMD_EXPORT_TIME, 0x4010:0C (Table 04.8). -/
def MAX_DMD_EXPORT_TIME (p : Nat) : Nat := (0x4010 + 0x100 * p) * 256 + 12
/-- PEAK_STEP_P, 0x4010:0D (Table 04.8). -/
def PEAK_STEP_P (p : Nat) : Nat := (0x4010 + 0x100 * p) * 256 + 13
/-- MD_RESET, 0x4011:00 (Table 04.8). -/
def MD_RESET (p : Nat) : Nat := (0x4011 + 0x100 * p) * 256 + 0
/-- DMD_CFG, 0x4800:00 (Table 04.9). -/
def DMD_CFG : Nat := (0x4800) * 256 + 0
/-- DMD_START, 0x4801:01 (Table 04.9). -/
def DMD_START : Nat := (0x4801) * 256 + 1
/-- DMD_INDEX, 0x4801:02 (Table 04.9). -/
def DMD_INDEX : Nat := (0x4801) * 256 + 2
/-- PULSE_CFG, 0x4810:01–08 (Table 04.9). -/
def PULSE_CFG (i : Nat) : Nat := (0x4810) * 256 + i
/-- METER_CONST, 0x4811:01–08 (Table 04.9). -/
def METER_CONST (i : Nat) : Nat := (0x4811) * 256 + i
/-- PULSE_WIDTH, 0x4812:01–08 (Table 04.9). -/
def PULSE_WIDTH (i : Nat) : Nat := (0x4812) * 256 + i
/-- PULSE_COUNT, 0x4813:01–08 (Table 04.9). -/
def PULSE_COUNT (i : Nat) : Nat := (0x4813) * 256 + i
/-- PULSE_BACKLOG, 0x4814:01–08 (Table 04.9). -/
def PULSE_BACKLOG (i : Nat) : Nat := (0x4814) * 256 + i
/-- PULSE_LOST, 0x4815:01–08 (Table 04.9). -/
def PULSE_LOST (i : Nat) : Nat := (0x4815) * 256 + i
/-- PULSE_ACC, 0x4816:01–08 (Table 04.9). -/
def PULSE_ACC (i : Nat) : Nat := (0x4816) * 256 + i
/-- CKPT_INTERVAL, 0x4820:00 (Table 04.9). -/
def CKPT_INTERVAL : Nat := (0x4820) * 256 + 0
/-- CKPT_SEQ, 0x4821:01 (Table 04.9). -/
def CKPT_SEQ : Nat := (0x4821) * 256 + 1
/-- CKPT_TIME, 0x4821:02 (Table 04.9). -/
def CKPT_TIME : Nat := (0x4821) * 256 + 2
/-- CKPT_WRITE_WORST, 0x4821:03 (Table 04.9). -/
def CKPT_WRITE_WORST : Nat := (0x4821) * 256 + 3
/-- HOLDUP_LAST, 0x4822:01 (Table 04.9). -/
def HOLDUP_LAST : Nat := (0x4822) * 256 + 1
/-- HOLDUP_DURATION, 0x4822:02 (Table 04.9). -/
def HOLDUP_DURATION : Nat := (0x4822) * 256 + 2
/-- TAIL_INDEX, 0x4822:03 (Table 04.9). -/
def TAIL_INDEX : Nat := (0x4822) * 256 + 3
/-- RECOVERY, 0x4822:04 (Table 04.9). -/
def RECOVERY : Nat := (0x4822) * 256 + 4
/-- PLATE_TEMP_SRC, 0x6000:01 (Table 05.6). -/
def PLATE_TEMP_SRC (p : Nat) : Nat := (0x6000 + 0x100 * p) * 256 + 1
/-- PLATE_T_FALLBACK, 0x6000:02 (Table 05.6). -/
def PLATE_T_FALLBACK (p : Nat) : Nat := (0x6000 + 0x100 * p) * 256 + 2
/-- PLATE_T_HYST, 0x6000:03 (Table 05.6). -/
def PLATE_T_HYST (p : Nat) : Nat := (0x6000 + 0x100 * p) * 256 + 3
/-- PLATE_GAIN, 0x6010:01–07 (Table 05.6). -/
def PLATE_GAIN (p q i : Nat) : Nat := (0x6010 + 0x100 * p + 0x10 * q) * 256 + i
/-- PLATE_OFFSET, 0x6011:01–07 (Table 05.6). -/
def PLATE_OFFSET (p q i : Nat) : Nat := (0x6011 + 0x100 * p + 0x10 * q) * 256 + i
/-- PLATE_TRIM, 0x6012:01–07 (Table 05.6). -/
def PLATE_TRIM (p q i : Nat) : Nat := (0x6012 + 0x100 * p + 0x10 * q) * 256 + i
/-- PLATE_T, 0x6013:01 (Table 05.6). -/
def PLATE_T (p q : Nat) : Nat := (0x6013 + 0x100 * p + 0x10 * q) * 256 + 1
/-- PLATE_STATE, 0x6013:02 (Table 05.6). -/
def PLATE_STATE (p q : Nat) : Nat := (0x6013 + 0x100 * p + 0x10 * q) * 256 + 2
/-- PLATE_TIME, 0x6013:03 (Table 05.6). -/
def PLATE_TIME (p q : Nat) : Nat := (0x6013 + 0x100 * p + 0x10 * q) * 256 + 3
/-- PLATE_REF, 0x6013:04 (Table 05.6). -/
def PLATE_REF (p q : Nat) : Nat := (0x6013 + 0x100 * p + 0x10 * q) * 256 + 4
/-- PLATE_ORIGIN, 0x6013:05 (Table 05.6). -/
def PLATE_ORIGIN (p q : Nat) : Nat := (0x6013 + 0x100 * p + 0x10 * q) * 256 + 5
/-- ACTIVE_GAIN, 0x6050:01–07 (Table 05.6). -/
def ACTIVE_GAIN (p i : Nat) : Nat := (0x6050 + 0x100 * p) * 256 + i
/-- ACTIVE_OFFSET, 0x6051:01–07 (Table 05.6). -/
def ACTIVE_OFFSET (p i : Nat) : Nat := (0x6051 + 0x100 * p) * 256 + i
/-- ACTIVE_TRIM, 0x6052:01–07 (Table 05.6). -/
def ACTIVE_TRIM (p i : Nat) : Nat := (0x6052 + 0x100 * p) * 256 + i
/-- ACTIVE_T, 0x6053:01 (Table 05.6). -/
def ACTIVE_T (p : Nat) : Nat := (0x6053 + 0x100 * p) * 256 + 1
/-- ACTIVE_INDEX, 0x6053:02 (Table 05.6). -/
def ACTIVE_INDEX (p : Nat) : Nat := (0x6053 + 0x100 * p) * 256 + 2
/-- PLATE_GEN, 0x6053:03 (Table 05.6). -/
def PLATE_GEN (p : Nat) : Nat := (0x6053 + 0x100 * p) * 256 + 3
/-- ACTIVE_STATUS, 0x6053:04 (Table 05.6). -/
def ACTIVE_STATUS (p : Nat) : Nat := (0x6053 + 0x100 * p) * 256 + 4
/-- INTERP_COUNT, 0x6053:05 (Table 05.6). -/
def INTERP_COUNT (p : Nat) : Nat := (0x6053 + 0x100 * p) * 256 + 5
/-- CAL_CMD, 0x6800:00 (Table 05.7). -/
def CAL_CMD : Nat := (0x6800) * 256 + 0
/-- CAL_STATE, 0x6801:01 (Table 05.7). -/
def CAL_STATE : Nat := (0x6801) * 256 + 1
/-- CAL_POINT, 0x6801:02 (Table 05.7). -/
def CAL_POINT : Nat := (0x6801) * 256 + 2
/-- CAL_SLOT, 0x6801:03 (Table 05.7). -/
def CAL_SLOT : Nat := (0x6801) * 256 + 3
/-- CAL_REASON, 0x6801:04 (Table 05.7). -/
def CAL_REASON : Nat := (0x6801) * 256 + 4
/-- CAL_REASON_CH, 0x6801:05 (Table 05.7). -/
def CAL_REASON_CH : Nat := (0x6801) * 256 + 5
/-- CAL_PROGRESS, 0x6801:06 (Table 05.7). -/
def CAL_PROGRESS : Nat := (0x6801) * 256 + 6
/-- CAL_DONE, 0x6801:07 (Table 05.7). -/
def CAL_DONE : Nat := (0x6801) * 256 + 7
/-- CAL_LEVEL, 0x6802:01–07 (Table 05.7). -/
def CAL_LEVEL (i : Nat) : Nat := (0x6802) * 256 + i
/-- CAL_ANGLE, 0x6803:01–03 (Table 05.7). -/
def CAL_ANGLE (i : Nat) : Nat := (0x6803) * 256 + i
/-- CAL_VANGLE, 0x6804:02–03 (Table 05.7). -/
def CAL_VANGLE (i : Nat) : Nat := (0x6804) * 256 + i
/-- CAL_MEAS, 0x6805:01–07 (Table 05.7). -/
def CAL_MEAS (i : Nat) : Nat := (0x6805) * 256 + i
/-- CAL_NOISE, 0x6806:01–07 (Table 05.7). -/
def CAL_NOISE (i : Nat) : Nat := (0x6806) * 256 + i
/-- CAL_STAB, 0x6807:01–07 (Table 05.7). -/
def CAL_STAB (i : Nat) : Nat := (0x6807) * 256 + i
/-- DRAFT_GAIN, 0x6808:01–07 (Table 05.7). -/
def DRAFT_GAIN (i : Nat) : Nat := (0x6808) * 256 + i
/-- DRAFT_OFFSET, 0x6809:01–07 (Table 05.7). -/
def DRAFT_OFFSET (i : Nat) : Nat := (0x6809) * 256 + i
/-- DRAFT_TRIM, 0x680A:01–07 (Table 05.7). -/
def DRAFT_TRIM (i : Nat) : Nat := (0x680A) * 256 + i
/-- DRAFT_T, 0x680B:01 (Table 05.7). -/
def DRAFT_T : Nat := (0x680B) * 256 + 1
/-- DRAFT_T_SPAN, 0x680B:02 (Table 05.7). -/
def DRAFT_T_SPAN : Nat := (0x680B) * 256 + 2
/-- DRAFT_ORIGIN, 0x680B:03 (Table 05.7). -/
def DRAFT_ORIGIN : Nat := (0x680B) * 256 + 3
/-- CAL_REF_ID, 0x680C:00 (Table 05.7). -/
def CAL_REF_ID : Nat := (0x680C) * 256 + 0
/-- NOISE_LIMIT_ZERO, 0x6810:01 (Table 05.7). -/
def NOISE_LIMIT_ZERO : Nat := (0x6810) * 256 + 1
/-- NOISE_LIMIT_GAIN, 0x6810:02 (Table 05.7). -/
def NOISE_LIMIT_GAIN : Nat := (0x6810) * 256 + 2
/-- STAB_LIMIT_ZERO, 0x6810:03 (Table 05.7). -/
def STAB_LIMIT_ZERO : Nat := (0x6810) * 256 + 3
/-- STAB_LIMIT_GAIN, 0x6810:04 (Table 05.7). -/
def STAB_LIMIT_GAIN : Nat := (0x6810) * 256 + 4
/-- NOISE_LIMIT_ANGLE, 0x6810:05 (Table 05.7). -/
def NOISE_LIMIT_ANGLE : Nat := (0x6810) * 256 + 5
/-- STAB_LIMIT_ANGLE, 0x6810:06 (Table 05.7). -/
def STAB_LIMIT_ANGLE : Nat := (0x6810) * 256 + 6
/-- DRIFT_GAIN_LIMIT, 0x6811:01 (Table 05.7). -/
def DRIFT_GAIN_LIMIT : Nat := (0x6811) * 256 + 1
/-- DRIFT_OFFSET_LIMIT, 0x6811:02 (Table 05.7). -/
def DRIFT_OFFSET_LIMIT : Nat := (0x6811) * 256 + 2
/-- DRIFT_TRIM_LIMIT, 0x6811:03 (Table 05.7). -/
def DRIFT_TRIM_LIMIT : Nat := (0x6811) * 256 + 3
/-- SEALED_DIGEST, 0x6812:01–08 (Table 05.7). -/
def SEALED_DIGEST (i : Nat) : Nat := (0x6812) * 256 + i
/-- PLATE_HIST_TOTAL, 0x6820:00 (Table 05.7). -/
def PLATE_HIST_TOTAL : Nat := (0x6820) * 256 + 0
/-- PLATE_HIST, 0x6821:01–10 (Table 05.7). -/
def PLATE_HIST (i : Nat) : Nat := (0x6821) * 256 + i
/-- PLATE_ROLLBACK, 0x6822:00 (Table 05.7). -/
def PLATE_ROLLBACK : Nat := (0x6822) * 256 + 0
/-- INPUT_CFG, 0x7000:01–20 (Table 06.5). -/
def INPUT_CFG (i : Nat) : Nat := (0x7000) * 256 + i
/-- INPUT_SCALE, 0x7001:01–20 (Table 06.5). -/
def INPUT_SCALE (i : Nat) : Nat := (0x7001) * 256 + i
/-- INPUT_OFFS, 0x7002:01–20 (Table 06.5). -/
def INPUT_OFFS (i : Nat) : Nat := (0x7002) * 256 + i
/-- INPUT_LATEST, 0x7003:01–20 (Table 06.5). -/
def INPUT_LATEST (i : Nat) : Nat := (0x7003) * 256 + i
/-- INPUT_INDEX, 0x7004:01–20 (Table 06.5). -/
def INPUT_INDEX (i : Nat) : Nat := (0x7004) * 256 + i
/-- INPUT_VALUE, 0x7005:01–20 (Table 06.5). -/
def INPUT_VALUE (i : Nat) : Nat := (0x7005) * 256 + i
/-- INPUT_TEMP, 0x7006:01–20 (Table 06.5). -/
def INPUT_TEMP (i : Nat) : Nat := (0x7006) * 256 + i
/-- AUX_ZERO, 0x7007:01–20 (Table 06.5). -/
def AUX_ZERO (i : Nat) : Nat := (0x7007) * 256 + i
/-- AUX_GAIN, 0x7008:01–20 (Table 06.5). -/
def AUX_GAIN (i : Nat) : Nat := (0x7008) * 256 + i
/-- AUX_CAL_TIME, 0x7009:01–20 (Table 06.5). -/
def AUX_CAL_TIME (i : Nat) : Nat := (0x7009) * 256 + i
/-- TT_CODE, 0x7050 + 2t:01–11 (Table 06.5). -/
def TT_CODE (j i : Nat) : Nat := (0x7050 + 2 * j) * 256 + i
/-- TT_TEMP, 0x7051 + 2t:01–11 (Table 06.5). -/
def TT_TEMP (j i : Nat) : Nat := (0x7051 + 2 * j) * 256 + i
/-- SCAN_MASK, 0x7010:00 (Table 06.6). -/
def SCAN_MASK : Nat := (0x7010) * 256 + 0
/-- COUPLE_CFG, 0x7011:01–03 (Table 06.6). -/
def COUPLE_CFG (i : Nat) : Nat := (0x7011) * 256 + i
/-- PERIOD, 0x7012:01–03 (Table 06.6). -/
def PERIOD (i : Nat) : Nat := (0x7012) * 256 + i
/-- OVERRUN, 0x7013:01–03 (Table 06.6). -/
def OVERRUN (i : Nat) : Nat := (0x7013) * 256 + i
/-- MUX_WAIT, 0x7014:00 (Table 06.6). -/
def MUX_WAIT : Nat := (0x7014) * 256 + 0
/-- ENTRY, 0x7020–0x7022:01–10 (Table 06.6). -/
def ENTRY (j i : Nat) : Nat := (0x7020 + 1 * j) * 256 + i
/-- RESULT_A, 0x7030–0x7032:01–10 (Table 06.6). -/
def RESULT_A (j i : Nat) : Nat := (0x7030 + 1 * j) * 256 + i
/-- RESULT_B, 0x7034–0x7036:01–10 (Table 06.6). -/
def RESULT_B (j i : Nat) : Nat := (0x7034 + 1 * j) * 256 + i
/-- RES_INDEX, 0x7038–0x703A:01–10 (Table 06.6). -/
def RES_INDEX (j i : Nat) : Nat := (0x7038 + 1 * j) * 256 + i
/-- INJECT, 0x7040:00 (Table 06.7). -/
def INJECT : Nat := (0x7040) * 256 + 0
/-- INJ_STATE, 0x7041:01–03 (Table 06.7). -/
def INJ_STATE (i : Nat) : Nat := (0x7041) * 256 + i
/-- INJ_RESULT, 0x7042:01–03 (Table 06.7). -/
def INJ_RESULT (i : Nat) : Nat := (0x7042) * 256 + i
/-- INJ_INDEX, 0x7043:01–03 (Table 06.7). -/
def INJ_INDEX (i : Nat) : Nat := (0x7043) * 256 + i
/-- AUX_CAL_CMD, 0x7060:00 (Table 06.7). -/
def AUX_CAL_CMD : Nat := (0x7060) * 256 + 0
/-- AUX_CAL_STATE, 0x7061:01 (Table 06.7). -/
def AUX_CAL_STATE : Nat := (0x7061) * 256 + 1
/-- AUX_CAL_INPUT, 0x7061:02 (Table 06.7). -/
def AUX_CAL_INPUT : Nat := (0x7061) * 256 + 2
/-- AUX_CAL_REASON, 0x7061:03 (Table 06.7). -/
def AUX_CAL_REASON : Nat := (0x7061) * 256 + 3
/-- AUX_CAL_DONE, 0x7061:04 (Table 06.7). -/
def AUX_CAL_DONE : Nat := (0x7061) * 256 + 4
/-- AUX_CAL_LEVEL, 0x7062:01–02 (Table 06.7). -/
def AUX_CAL_LEVEL (i : Nat) : Nat := (0x7062) * 256 + i
/-- AUX_CAL_MEAS, 0x7063:01–03 (Table 06.7). -/
def AUX_CAL_MEAS (i : Nat) : Nat := (0x7063) * 256 + i
/-- AUXCAL_NOISE, 0x7064:01 (Table 06.7). -/
def AUXCAL_NOISE : Nat := (0x7064) * 256 + 1
/-- AUXCAL_STAB, 0x7064:02 (Table 06.7). -/
def AUXCAL_STAB : Nat := (0x7064) * 256 + 2
/-- COUPLE_STATE, 0x7070:01–04 (Table 06.8). -/
def COUPLE_STATE (i : Nat) : Nat := (0x7070) * 256 + i
/-- CHECK_FAIL, 0x7071:01–08 (Table 06.8). -/
def CHECK_FAIL (i : Nat) : Nat := (0x7071) * 256 + i
/-- CHECK_WORST, 0x7072:01–08 (Table 06.8). -/
def CHECK_WORST (i : Nat) : Nat := (0x7072) * 256 + i
/-- COUPLE_SUB_COUNT, 0x7073:00 (Table 06.8). -/
def COUPLE_SUB_COUNT : Nat := (0x7073) * 256 + 0
/-- BANK_STATE, 0xE030:01–05 (Table 07.6). -/
def BANK_STATE (i : Nat) : Nat := (0xE030) * 256 + i
/-- SYM_CORRECTED, 0xE031:01–05 (Table 07.6). -/
def SYM_CORRECTED (i : Nat) : Nat := (0xE031) * 256 + i
/-- UNCORRECTABLE, 0xE032:01–05 (Table 07.6). -/
def UNCORRECTABLE (i : Nat) : Nat := (0xE032) * 256 + i
/-- SCRUB_COUNT, 0xE033:01–05 (Table 07.6). -/
def SCRUB_COUNT (i : Nat) : Nat := (0xE033) * 256 + i
/-- LAST_ERROR, 0xE034:01–05 (Table 07.6). -/
def LAST_ERROR (i : Nat) : Nat := (0xE034) * 256 + i
/-- LAST_ERROR_TIME, 0xE035:01–05 (Table 07.6). -/
def LAST_ERROR_TIME (i : Nat) : Nat := (0xE035) * 256 + i
/-- CONFLICT_COUNT, 0xE036:01–0B (Table 07.6). -/
def CONFLICT_COUNT (i : Nat) : Nat := (0xE036) * 256 + i
/-- COLLISION_COUNT, 0xE037:01–0B (Table 07.6). -/
def COLLISION_COUNT (i : Nat) : Nat := (0xE037) * 256 + i
/-- WAIT_WORST, 0xE038:01–0B (Table 07.6). -/
def WAIT_WORST (i : Nat) : Nat := (0xE038) * 256 + i
/-- COUNTER_CLEAR, 0xE039:00 (Table 07.6). -/
def COUNTER_CLEAR : Nat := (0xE039) * 256 + 0
/-- MARCH_PERIOD, 0xE03A:01 (Table 07.6). -/
def MARCH_PERIOD : Nat := (0xE03A) * 256 + 1
/-- MARCH_CYCLES, 0xE03A:02 (Table 07.6). -/
def MARCH_CYCLES : Nat := (0xE03A) * 256 + 2
/-- MARCH_ABANDONED, 0xE03A:03 (Table 07.6). -/
def MARCH_ABANDONED : Nat := (0xE03A) * 256 + 3
/-- MARCH_FORCED, 0xE03A:04 (Table 07.6). -/
def MARCH_FORCED : Nat := (0xE03A) * 256 + 4
/-- MARCH_FAIL, 0xE03A:05 (Table 07.6). -/
def MARCH_FAIL : Nat := (0xE03A) * 256 + 5
/-- MARCH_NEXT, 0xE03A:06 (Table 07.6). -/
def MARCH_NEXT : Nat := (0xE03A) * 256 + 6
/-- SWEEP_MODE, 0xE03A:07 (Table 07.6). -/
def SWEEP_MODE : Nat := (0xE03A) * 256 + 7
/-- BANK_SUB_COUNT, 0xE03B:01 (Table 07.6). -/
def BANK_SUB_COUNT : Nat := (0xE03B) * 256 + 1
/-- BANK_SUB_FROM, 0xE03B:02 (Table 07.6). -/
def BANK_SUB_FROM : Nat := (0xE03B) * 256 + 2
/-- BANK_SUB_TIME, 0xE03B:03 (Table 07.6). -/
def BANK_SUB_TIME : Nat := (0xE03B) * 256 + 3
/-- BANK_SUB_DURATION, 0xE03B:04 (Table 07.6). -/
def BANK_SUB_DURATION : Nat := (0xE03B) * 256 + 4
/-- NVM_BYTES, 0x9000:01 (Table 08.9). -/
def NVM_BYTES : Nat := (0x9000) * 256 + 1
/-- SPARE_GROUPS, 0x9000:02 (Table 08.9). -/
def SPARE_GROUPS : Nat := (0x9000) * 256 + 2
/-- SPARE_FREE, 0x9000:03 (Table 08.9). -/
def SPARE_FREE : Nat := (0x9000) * 256 + 3
/-- NVM_STATE, 0x9000:04 (Table 08.9). -/
def NVM_STATE : Nat := (0x9000) * 256 + 4
/-- NVM_CORRECTED, 0x9001:01 (Table 08.9). -/
def NVM_CORRECTED : Nat := (0x9001) * 256 + 1
/-- NVM_UNCORRECTABLE, 0x9001:02 (Table 08.9). -/
def NVM_UNCORRECTABLE : Nat := (0x9001) * 256 + 2
/-- NVM_REMAPPED, 0x9001:03 (Table 08.9). -/
def NVM_REMAPPED : Nat := (0x9001) * 256 + 3
/-- NVM_LAST_ERROR, 0x9001:04 (Table 08.9). -/
def NVM_LAST_ERROR : Nat := (0x9001) * 256 + 4
/-- NVM_LAST_ERROR_TIME, 0x9001:05 (Table 08.9). -/
def NVM_LAST_ERROR_TIME : Nat := (0x9001) * 256 + 5
/-- RECALL_PRIV_TIME, 0x9002:01 (Table 08.9). -/
def RECALL_PRIV_TIME : Nat := (0x9002) * 256 + 1
/-- RECALL_SCAN_TIME, 0x9002:02 (Table 08.9). -/
def RECALL_SCAN_TIME : Nat := (0x9002) * 256 + 2
/-- RECALL_CORRECTED, 0x9002:03 (Table 08.9). -/
def RECALL_CORRECTED : Nat := (0x9002) * 256 + 3
/-- RECALL_COMPLETED, 0x9002:04 (Table 08.9). -/
def RECALL_COMPLETED : Nat := (0x9002) * 256 + 4
/-- RECALL_ROLLED_BACK, 0x9002:05 (Table 08.9). -/
def RECALL_ROLLED_BACK : Nat := (0x9002) * 256 + 5
/-- RECALL_CARRIES, 0x9002:06 (Table 08.9). -/
def RECALL_CARRIES : Nat := (0x9002) * 256 + 6
/-- RECALL_RECORD_FIX, 0x9002:07 (Table 08.9). -/
def RECALL_RECORD_FIX : Nat := (0x9002) * 256 + 7
/-- JOURNAL_UNITS, 0x9003:01 (Table 08.9). -/
def JOURNAL_UNITS : Nat := (0x9003) * 256 + 1
/-- JOURNAL_ROLLBACKS, 0x9003:02 (Table 08.9). -/
def JOURNAL_ROLLBACKS : Nat := (0x9003) * 256 + 2
/-- JOURNAL_STATE, 0x9003:03 (Table 08.9). -/
def JOURNAL_STATE : Nat := (0x9003) * 256 + 3
/-- JOURNAL_WORST, 0x9003:04 (Table 08.9). -/
def JOURNAL_WORST : Nat := (0x9003) * 256 + 4
/-- EARLY_CKPT, 0x9003:05 (Table 08.9). -/
def EARLY_CKPT : Nat := (0x9003) * 256 + 5
/-- CONSISTENCY_COUNT, 0x9004:00 (Table 08.9). -/
def CONSISTENCY_COUNT : Nat := (0x9004) * 256 + 0
/-- PATROL_PERIOD, 0x9005:01 (Table 08.9). -/
def PATROL_PERIOD : Nat := (0x9005) * 256 + 1
/-- PATROL_CYCLES, 0x9005:02 (Table 08.9). -/
def PATROL_CYCLES : Nat := (0x9005) * 256 + 2
/-- PATROL_NEXT, 0x9005:03 (Table 08.9). -/
def PATROL_NEXT : Nat := (0x9005) * 256 + 3
/-- STATE_SEQ, 0x9006:01 (Table 08.9). -/
def STATE_SEQ : Nat := (0x9006) * 256 + 1
/-- SAVE_SEQ, 0x9006:02 (Table 08.9). -/
def SAVE_SEQ : Nat := (0x9006) * 256 + 2
/-- SAVE_STATUS, 0x9006:03 (Table 08.9). -/
def SAVE_STATUS : Nat := (0x9006) * 256 + 3
/-- TALLY_DROPPED, 0x9006:04 (Table 08.9). -/
def TALLY_DROPPED : Nat := (0x9006) * 256 + 4
/-- STATUTE_DIGEST, 0x9007:00 (Table 08.9). -/
def STATUTE_DIGEST : Nat := (0x9007) * 256 + 0
/-- SCRATCH_PAGE, 0xF000–0xF0FF:00 (Table 08.10). -/
def SCRATCH_PAGE (j : Nat) : Nat := (0xF000 + 1 * j) * 256 + 0
/-- SCRATCH_GROUP, 0xF000–0xF0FF:01–20 (Table 08.10). -/
def SCRATCH_GROUP (j i : Nat) : Nat := (0xF000 + 1 * j) * 256 + i
/-- SESSION_CMD, 0xC000:00 (Table 09.9). -/
def SESSION_CMD (p : Nat) : Nat := (0xC000 + 0x100 * p) * 256 + 0
/-- SESSION_STATE, 0xC001:00 (Table 09.9). -/
def SESSION_STATE (p : Nat) : Nat := (0xC001 + 0x100 * p) * 256 + 0
/-- SESSION_NO, 0xC002:00 (Table 09.9). -/
def SESSION_NO (p : Nat) : Nat := (0xC002 + 0x100 * p) * 256 + 0
/-- HOST_DATA, 0xC003:00 (Table 09.9). -/
def HOST_DATA (p : Nat) : Nat := (0xC003 + 0x100 * p) * 256 + 0
/-- OPEN_INDEX, 0xC004:01 (Table 09.9). -/
def OPEN_INDEX (p : Nat) : Nat := (0xC004 + 0x100 * p) * 256 + 1
/-- OPEN_TIME, 0xC004:02 (Table 09.9). -/
def OPEN_TIME (p : Nat) : Nat := (0xC004 + 0x100 * p) * 256 + 2
/-- SESSION_TAGS, 0xC004:03 (Table 09.9). -/
def SESSION_TAGS (p : Nat) : Nat := (0xC004 + 0x100 * p) * 256 + 3
/-- SESSION_FLAGS, 0xC004:04 (Table 09.9). -/
def SESSION_FLAGS (p : Nat) : Nat := (0xC004 + 0x100 * p) * 256 + 4
/-- SESSION_DELTA, 0xC005:01–0A (Table 09.9). -/
def SESSION_DELTA (p i : Nat) : Nat := (0xC005 + 0x100 * p) * 256 + i
/-- LAST_SEQ, 0xC006:00 (Table 09.9). -/
def LAST_SEQ (p : Nat) : Nat := (0xC006 + 0x100 * p) * 256 + 0
/-- PUBKEY, 0xC800:00 (Table 09.10). -/
def PUBKEY : Nat := (0xC800) * 256 + 0
/-- TEST_PUBKEY, 0xC801:00 (Table 09.10). -/
def TEST_PUBKEY : Nat := (0xC801) * 256 + 0
/-- KEY_ID, 0xC802:01 (Table 09.10). -/
def KEY_ID : Nat := (0xC802) * 256 + 1
/-- TEST_KEY_ID, 0xC802:02 (Table 09.10). -/
def TEST_KEY_ID : Nat := (0xC802) * 256 + 2
/-- KEY_STATE, 0xC802:03 (Table 09.10). -/
def KEY_STATE : Nat := (0xC802) * 256 + 3
/-- KEY_TIME, 0xC802:04 (Table 09.10). -/
def KEY_TIME : Nat := (0xC802) * 256 + 4
/-- RING_NEWEST, 0xC810:01 (Table 09.10). -/
def RING_NEWEST : Nat := (0xC810) * 256 + 1
/-- RING_ACK, 0xC810:02 (Table 09.10). -/
def RING_ACK : Nat := (0xC810) * 256 + 2
/-- RING_PENDING, 0xC810:03 (Table 09.10). -/
def RING_PENDING : Nat := (0xC810) * 256 + 3
/-- RING_GUARD, 0xC810:04 (Table 09.10). -/
def RING_GUARD : Nat := (0xC810) * 256 + 4
/-- RING_OVERWRITTEN, 0xC810:05 (Table 09.10). -/
def RING_OVERWRITTEN : Nat := (0xC810) * 256 + 5
/-- RING_RECORD, 0xC811:01–A0 (Table 09.10). -/
def RING_RECORD (i : Nat) : Nat := (0xC811) * 256 + i
/-- LAST_DIGEST, 0xC812:00 (Table 09.10). -/
def LAST_DIGEST : Nat := (0xC812) * 256 + 0
/-- SIGN_COUNT, 0xC820:01 (Table 09.10). -/
def SIGN_COUNT : Nat := (0xC820) * 256 + 1
/-- SIGN_WORST, 0xC820:02 (Table 09.10). -/
def SIGN_WORST : Nat := (0xC820) * 256 + 2
/-- UNSIGNED_COUNT, 0xC820:03 (Table 09.10). -/
def UNSIGNED_COUNT : Nat := (0xC820) * 256 + 3
/-- RNG_STATE, 0xC820:04 (Table 09.10). -/
def RNG_STATE : Nat := (0xC820) * 256 + 4
/-- RNG_FAIL, 0xC820:05 (Table 09.10). -/
def RNG_FAIL : Nat := (0xC820) * 256 + 5
/-- DISP_CFG, 0x8000:00 (Table 10.4). -/
def DISP_CFG : Nat := (0x8000) * 256 + 0
/-- DISP_TEMP_SRC, 0x8001:00 (Table 10.4). -/
def DISP_TEMP_SRC : Nat := (0x8001) * 256 + 0
/-- BAND_EDGE, 0x8002:01–05 (Table 10.4). -/
def BAND_EDGE (i : Nat) : Nat := (0x8002) * 256 + i
/-- METRO_MASK, 0x8003:00 (Table 10.4). -/
def METRO_MASK : Nat := (0x8003) * 256 + 0
/-- SEG_BP, 0x8004:00 (Table 10.4). -/
def SEG_BP : Nat := (0x8004) * 256 + 0
/-- DISP_POINT, 0x8005:00 (Table 10.4). -/
def DISP_POINT : Nat := (0x8005) * 256 + 0
/-- DIGIT_CELL, 0x8006:01–18 (Table 10.4). -/
def DIGIT_CELL (i : Nat) : Nat := (0x8006) * 256 + i
/-- SLOT_CFG, 0x8007:01–05 (Table 10.4). -/
def SLOT_CFG (i : Nat) : Nat := (0x8007) * 256 + i
/-- MARK_SEG, 0x8008:01–08 (Table 10.4). -/
def MARK_SEG (i : Nat) : Nat := (0x8008) * 256 + i
/-- HOST_IMAGE, 0x8009:00 (Table 10.4). -/
def HOST_IMAGE : Nat := (0x8009) * 256 + 0
/-- STENCIL, 0x8020 + b:01–05 (Table 10.4). -/
def STENCIL (j i : Nat) : Nat := (0x8020 + 1 * j) * 256 + i
/-- FRAMES, 0x8020 + b:06 (Table 10.4). -/
def FRAMES (j : Nat) : Nat := (0x8020 + 1 * j) * 256 + 6
/-- CLEAR_FRAMES, 0x8020 + b:07 (Table 10.4). -/
def CLEAR_FRAMES (j : Nat) : Nat := (0x8020 + 1 * j) * 256 + 7
/-- DISP_STATE, 0x8030:00 (Table 10.5). -/
def DISP_STATE : Nat := (0x8030) * 256 + 0
/-- SHOWN_IMAGE, 0x8031:00 (Table 10.5). -/
def SHOWN_IMAGE : Nat := (0x8031) * 256 + 0
/-- IMAGE_CRC, 0x8032:00 (Table 10.5). -/
def IMAGE_CRC : Nat := (0x8032) * 256 + 0
/-- LEDGER, 0x8033:01–C0 (Table 10.5). -/
def LEDGER (i : Nat) : Nat := (0x8033) * 256 + i
/-- UPDATES, 0x8034:01 (Table 10.5). -/
def UPDATES : Nat := (0x8034) * 256 + 1
/-- DROPPED_TARGETS, 0x8034:02 (Table 10.5). -/
def DROPPED_TARGETS : Nat := (0x8034) * 256 + 2
/-- READBACK_FAIL, 0x8034:03 (Table 10.5). -/
def READBACK_FAIL : Nat := (0x8034) * 256 + 3
/-- BALANCE_FAIL, 0x8034:04 (Table 10.5). -/
def BALANCE_FAIL : Nat := (0x8034) * 256 + 4
/-- LEDGER_RECON, 0x8034:05 (Table 10.5). -/
def LEDGER_RECON : Nat := (0x8034) * 256 + 5
/-- CLEAR_COUNT, 0x8034:06 (Table 10.5). -/
def CLEAR_COUNT : Nat := (0x8034) * 256 + 6
/-- FALLBACK_STENCILS, 0x8034:07 (Table 10.5). -/
def FALLBACK_STENCILS : Nat := (0x8034) * 256 + 7
/-- DRV_REARM, 0x8034:08 (Table 10.5). -/
def DRV_REARM : Nat := (0x8034) * 256 + 8
/-- DRV_FAULT, 0x8035:00 (Table 10.5). -/
def DRV_FAULT : Nat := (0x8035) * 256 + 0
/-- PUMP_POS_MV, 0x8036:01 (Table 10.5). -/
def PUMP_POS_MV : Nat := (0x8036) * 256 + 1
/-- PUMP_NEG_MV, 0x8036:02 (Table 10.5). -/
def PUMP_NEG_MV : Nat := (0x8036) * 256 + 2
/-- PUMP_OVERV, 0x8036:03 (Table 10.5). -/
def PUMP_OVERV : Nat := (0x8036) * 256 + 3
/-- FRAME_CRC, 0x8037:01 (Table 10.5). -/
def FRAME_CRC : Nat := (0x8037) * 256 + 1
/-- READBACK_CRC, 0x8037:02 (Table 10.5). -/
def READBACK_CRC : Nat := (0x8037) * 256 + 2
/-- CLEAR_LAST_FRAMES, 0x8038:01 (Table 10.5). -/
def CLEAR_LAST_FRAMES : Nat := (0x8038) * 256 + 1
/-- CLEAR_LAST_TIME, 0x8038:02 (Table 10.5). -/
def CLEAR_LAST_TIME : Nat := (0x8038) * 256 + 2
/-- SRC_CFG, 0xA000:01–10 (Table 11.6). -/
def SRC_CFG (i : Nat) : Nat := (0xA000) * 256 + i
/-- SRC_PARAM, 0xA001:01–10 (Table 11.6). -/
def SRC_PARAM (i : Nat) : Nat := (0xA001) * 256 + i
/-- SRC_STATE, 0xA002:01–10 (Table 11.6). -/
def SRC_STATE (i : Nat) : Nat := (0xA002) * 256 + i
/-- ALARM_COUNT, 0xA003:01–10 (Table 11.6). -/
def ALARM_COUNT (i : Nat) : Nat := (0xA003) * 256 + i
/-- TAMPER_REARM, 0xA004:01–10 (Table 11.6). -/
def TAMPER_REARM (i : Nat) : Nat := (0xA004) * 256 + i
/-- LAST_ALARM, 0xA005:01–10 (Table 11.6). -/
def LAST_ALARM (i : Nat) : Nat := (0xA005) * 256 + i
/-- TAMPER_STATUS, 0xA010:00 (Table 11.7). -/
def TAMPER_STATUS : Nat := (0xA010) * 256 + 0
/-- TAMPER_MARKS, 0xA011:00 (Table 11.7). -/
def TAMPER_MARKS : Nat := (0xA011) * 256 + 0
/-- TDIS, 0xA012:00 (Table 11.7). -/
def TDIS : Nat := (0xA012) * 256 + 0
/-- TAMPER_CMD, 0xA013:00 (Table 11.7). -/
def TAMPER_CMD : Nat := (0xA013) * 256 + 0
/-- DEFERRED_LAST, 0xA014:00 (Table 11.7). -/
def DEFERRED_LAST : Nat := (0xA014) * 256 + 0
/-- DECISION_COUNT, 0xA015:01 (Table 11.7). -/
def DECISION_COUNT : Nat := (0xA015) * 256 + 1
/-- TWIN_COUNT, 0xA015:02 (Table 11.7). -/
def TWIN_COUNT : Nat := (0xA015) * 256 + 2
/-- DIE_TEMP, 0xA016:01 (Table 11.7). -/
def DIE_TEMP : Nat := (0xA016) * 256 + 1
/-- VBAT_MV, 0xA016:02 (Table 11.7). -/
def VBAT_MV : Nat := (0xA016) * 256 + 2
/-- REF_DEV, 0xA016:03 (Table 11.7). -/
def REF_DEV : Nat := (0xA016) * 256 + 3
/-- TLOG_TOTAL, 0xA020:00 (Table 11.7). -/
def TLOG_TOTAL : Nat := (0xA020) * 256 + 0
/-- TLOG, 0xA021:01–80 (Table 11.7). -/
def TLOG (i : Nat) : Nat := (0xA021) * 256 + i
/-- VENDOR_CODE, 0x1000:01 (Table 12.11). -/
def VENDOR_CODE : Nat := (0x1000) * 256 + 1
/-- PRODUCT, 0x1000:02 (Table 12.11). -/
def PRODUCT : Nat := (0x1000) * 256 + 2
/-- GRADE, 0x1000:03 (Table 12.11). -/
def GRADE : Nat := (0x1000) * 256 + 3
/-- SILICON_REV, 0x1000:04 (Table 12.11). -/
def SILICON_REV : Nat := (0x1000) * 256 + 4
/-- ROM_REV, 0x1000:05 (Table 12.11). -/
def ROM_REV : Nat := (0x1000) * 256 + 5
/-- PATCH_REV, 0x1000:06 (Table 12.11). -/
def PATCH_REV : Nat := (0x1000) * 256 + 6
/-- SERIAL, 0x1000:07 (Table 12.11). -/
def SERIAL : Nat := (0x1000) * 256 + 7
/-- SEALED, 0x1000:08 (Table 12.11). -/
def SEALED : Nat := (0x1000) * 256 + 8
/-- SEAL_TIME, 0x1000:09 (Table 12.11). -/
def SEAL_TIME : Nat := (0x1000) * 256 + 9
/-- MODE, 0x1001:00 (Table 12.11). -/
def MODE : Nat := (0x1001) * 256 + 0
/-- MODE_FLAGS, 0x1002:00 (Table 12.11). -/
def MODE_FLAGS : Nat := (0x1002) * 256 + 0
/-- MODE_INDEX, 0x1003:01 (Table 12.11). -/
def MODE_INDEX : Nat := (0x1003) * 256 + 1
/-- MODE_TIME, 0x1003:02 (Table 12.11). -/
def MODE_TIME : Nat := (0x1003) * 256 + 2
/-- SERVICE_COUNT, 0x1003:03 (Table 12.11). -/
def SERVICE_COUNT : Nat := (0x1003) * 256 + 3
/-- INTEGRITY_CAUSE, 0x1004:01 (Table 12.11). -/
def INTEGRITY_CAUSE : Nat := (0x1004) * 256 + 1
/-- INTEGRITY_TIME, 0x1004:02 (Table 12.11). -/
def INTEGRITY_TIME : Nat := (0x1004) * 256 + 2
/-- INTEGRITY_INDEX, 0x1004:03 (Table 12.11). -/
def INTEGRITY_INDEX : Nat := (0x1004) * 256 + 3
/-- INTEGRITY_COUNT, 0x1004:04 (Table 12.11). -/
def INTEGRITY_COUNT : Nat := (0x1004) * 256 + 4
/-- SEAL_REASON, 0x1005:00 (Table 12.11). -/
def SEAL_REASON : Nat := (0x1005) * 256 + 0
/-- MODE_CMD, 0x1010:00 (Table 12.11). -/
def MODE_CMD : Nat := (0x1010) * 256 + 0
/-- SERVICE_MAX, 0x1011:00 (Table 12.11). -/
def SERVICE_MAX : Nat := (0x1011) * 256 + 0
/-- SERVICE_LEFT, 0x1012:00 (Table 12.11). -/
def SERVICE_LEFT : Nat := (0x1012) * 256 + 0
/-- AUTH_KEY, 0x1020:00 (Table 12.12). -/
def AUTH_KEY : Nat := (0x1020) * 256 + 0
/-- AUTH_CHALLENGE, 0x1021:00 (Table 12.12). -/
def AUTH_CHALLENGE : Nat := (0x1021) * 256 + 0
/-- AUTH_CMD, 0x1022:00 (Table 12.12). -/
def AUTH_CMD : Nat := (0x1022) * 256 + 0
/-- AUTH_FAIL, 0x1023:00 (Table 12.12). -/
def AUTH_FAIL : Nat := (0x1023) * 256 + 0
/-- RTC_NOW, 0x1030:01 (Table 12.12). -/
def RTC_NOW : Nat := (0x1030) * 256 + 1
/-- RTC_VALID, 0x1030:02 (Table 12.12). -/
def RTC_VALID : Nat := (0x1030) * 256 + 2
/-- TIME_STEP, 0x1031:00 (Table 12.12). -/
def TIME_STEP : Nat := (0x1031) * 256 + 0
/-- UTC_OFFSET, 0x1032:00 (Table 12.12). -/
def UTC_OFFSET : Nat := (0x1032) * 256 + 0
/-- TIME_STEP_COUNT, 0x1033:01 (Table 12.12). -/
def TIME_STEP_COUNT : Nat := (0x1033) * 256 + 1
/-- TIME_STEP_LAST, 0x1033:02 (Table 12.12). -/
def TIME_STEP_LAST : Nat := (0x1033) * 256 + 2
/-- VDD33_MV, 0x1040:00 (Table 12.12). -/
def VDD33_MV : Nat := (0x1040) * 256 + 0
/-- POWER_LOSS_COUNT, 0x1041:01 (Table 12.12). -/
def POWER_LOSS_COUNT : Nat := (0x1041) * 256 + 1
/-- LAST_LOSS, 0x1041:02 (Table 12.12). -/
def LAST_LOSS : Nat := (0x1041) * 256 + 2
/-- RECALL_COUNT, 0x1041:03 (Table 12.12). -/
def RECALL_COUNT : Nat := (0x1041) * 256 + 3
/-- RECALL_DURATION, 0x1041:04 (Table 12.12). -/
def RECALL_DURATION : Nat := (0x1041) * 256 + 4
/-- BACKUP_RESETS, 0x1041:05 (Table 12.12). -/
def BACKUP_RESETS : Nat := (0x1041) * 256 + 5
/-- CAN_NODE, 0x1060:01 (Table 13.14). -/
def CAN_NODE : Nat := (0x1060) * 256 + 1
/-- CAN_NODE_ACTIVE, 0x1060:02 (Table 13.14). -/
def CAN_NODE_ACTIVE : Nat := (0x1060) * 256 + 2
/-- CAN_TIMING, 0x1060:03 (Table 13.14). -/
def CAN_TIMING : Nat := (0x1060) * 256 + 3
/-- CAN_ID_BASE, 0x1060:04 (Table 13.14). -/
def CAN_ID_BASE : Nat := (0x1060) * 256 + 4
/-- CAN_PENDING, 0x1060:05 (Table 13.14). -/
def CAN_PENDING : Nat := (0x1060) * 256 + 5
/-- CAN_SP_ACTUAL, 0x1060:06 (Table 13.14). -/
def CAN_SP_ACTUAL : Nat := (0x1060) * 256 + 6
/-- SPI_SHORT, 0x1061:01 (Table 13.14). -/
def SPI_SHORT : Nat := (0x1061) * 256 + 1
/-- SPI_CRC_ERR, 0x1061:02 (Table 13.14). -/
def SPI_CRC_ERR : Nat := (0x1061) * 256 + 2
/-- CAN_SEG_ERR, 0x1061:03 (Table 13.14). -/
def CAN_SEG_ERR : Nat := (0x1061) * 256 + 3
/-- CAN_CLASSIC, 0x1061:04 (Table 13.14). -/
def CAN_CLASSIC : Nat := (0x1061) * 256 + 4
/-- CAN_BUSOFF, 0x1061:05 (Table 13.14). -/
def CAN_BUSOFF : Nat := (0x1061) * 256 + 5
/-- CAN_ERR_COUNTERS, 0x1061:06 (Table 13.14). -/
def CAN_ERR_COUNTERS : Nat := (0x1061) * 256 + 6
/-- BUSY_COUNT, 0x1061:07 (Table 13.14). -/
def BUSY_COUNT : Nat := (0x1061) * 256 + 7
/-- TAB_STATE, 0x1062:01 (Table 13.14). -/
def TAB_STATE : Nat := (0x1062) * 256 + 1
/-- TAB_ID, 0x1062:02 (Table 13.14). -/
def TAB_ID : Nat := (0x1062) * 256 + 2
/-- TAB_F, 0x1062:03 (Table 13.14). -/
def TAB_F : Nat := (0x1062) * 256 + 3
/-- TAB_LIMIT, 0x1062:04 (Table 13.14). -/
def TAB_LIMIT : Nat := (0x1062) * 256 + 4
/-- STREAM_STATE, 0x1063:01 (Table 13.14). -/
def STREAM_STATE : Nat := (0x1063) * 256 + 1
/-- STREAM_LOST, 0x1063:02 (Table 13.14). -/
def STREAM_LOST : Nat := (0x1063) * 256 + 2
/-- THB_CFG, 0xB000:00 (Table 14.9). -/
def THB_CFG : Nat := (0xB000) * 256 + 0
/-- UP_ASYM, 0xB001:00 (Table 14.9). -/
def UP_ASYM : Nat := (0xB001) * 256 + 0
/-- PORT_STATE, 0xB002:01–04 (Table 14.9). -/
def PORT_STATE (i : Nat) : Nat := (0xB002) * 256 + i
/-- PEER_SERIAL, 0xB003:01–04 (Table 14.9). -/
def PEER_SERIAL (i : Nat) : Nat := (0xB003) * 256 + i
/-- PEER_PIN, 0xB004:01–04 (Table 14.9). -/
def PEER_PIN (i : Nat) : Nat := (0xB004) * 256 + i
/-- LINK_ERRORS, 0xB005:01–04 (Table 14.9). -/
def LINK_ERRORS (i : Nat) : Nat := (0xB005) * 256 + i
/-- LINK_GAPS, 0xB006:01–04 (Table 14.9). -/
def LINK_GAPS (i : Nat) : Nat := (0xB006) * 256 + i
/-- LINK_DOWNS, 0xB007:01–04 (Table 14.9). -/
def LINK_DOWNS (i : Nat) : Nat := (0xB007) * 256 + i
/-- ROLE, 0xB010:01 (Table 14.9). -/
def ROLE : Nat := (0xB010) * 256 + 1
/-- UNIT_NO, 0xB010:02 (Table 14.9). -/
def UNIT_NO : Nat := (0xB010) * 256 + 2
/-- MEMBERS, 0xB010:03 (Table 14.9). -/
def MEMBERS : Nat := (0xB010) * 256 + 3
/-- DEPTH, 0xB010:04 (Table 14.9). -/
def DEPTH : Nat := (0xB010) * 256 + 4
/-- DEPTH_BELOW, 0xB010:05 (Table 14.9). -/
def DEPTH_BELOW : Nat := (0xB010) * 256 + 5
/-- PREV_FIRST, 0xB010:06 (Table 14.9). -/
def PREV_FIRST : Nat := (0xB010) * 256 + 6
/-- CHILD_CENSUS, 0xB011:01–03 (Table 14.9). -/
def CHILD_CENSUS (i : Nat) : Nat := (0xB011) * 256 + i
/-- SITE_MEMBERS, 0xB012:01 (Table 14.9). -/
def SITE_MEMBERS : Nat := (0xB012) * 256 + 1
/-- SITE_DEPTH, 0xB012:02 (Table 14.9). -/
def SITE_DEPTH : Nat := (0xB012) * 256 + 2
/-- CENSUS_TIME, 0xB012:03 (Table 14.9). -/
def CENSUS_TIME : Nat := (0xB012) * 256 + 3
/-- JOIN_COUNT, 0xB012:04 (Table 14.9). -/
def JOIN_COUNT : Nat := (0xB012) * 256 + 4
/-- JOIN_REFUSED, 0xB012:05 (Table 14.9). -/
def JOIN_REFUSED : Nat := (0xB012) * 256 + 5
/-- TIME_STATE, 0xB020:00 (Table 14.10). -/
def TIME_STATE : Nat := (0xB020) * 256 + 0
/-- OFFSET, 0xB021:01 (Table 14.10). -/
def OFFSET : Nat := (0xB021) * 256 + 1
/-- LINK_DELAY, 0xB021:02 (Table 14.10). -/
def LINK_DELAY : Nat := (0xB021) * 256 + 2
/-- PULL, 0xB021:03 (Table 14.10). -/
def PULL : Nat := (0xB021) * 256 + 3
/-- HOPS, 0xB021:04 (Table 14.10). -/
def HOPS : Nat := (0xB021) * 256 + 4
/-- OFFSET_WORST, 0xB021:05 (Table 14.10). -/
def OFFSET_WORST : Nat := (0xB021) * 256 + 5
/-- LOCK_TIME, 0xB021:06 (Table 14.10). -/
def LOCK_TIME : Nat := (0xB021) * 256 + 6
/-- LOCK_LOSSES, 0xB021:07 (Table 14.10). -/
def LOCK_LOSSES : Nat := (0xB021) * 256 + 7
/-- REBASE_SEQ, 0xB021:08 (Table 14.10). -/
def REBASE_SEQ : Nat := (0xB021) * 256 + 8
/-- ROOT_PULL, 0xB022:00 (Table 14.10). -/
def ROOT_PULL : Nat := (0xB022) * 256 + 0
/-- INTRUSION_COUNT, 0xB050:01 (Table 14.10). -/
def INTRUSION_COUNT : Nat := (0xB050) * 256 + 1
/-- INTRUSION_LAST, 0xB050:02 (Table 14.10). -/
def INTRUSION_LAST : Nat := (0xB050) * 256 + 2
/-- INTRUSION_TIME, 0xB050:03 (Table 14.10). -/
def INTRUSION_TIME : Nat := (0xB050) * 256 + 3
/-- SITE_CMD, 0xB030:00 (Table 14.11). -/
def SITE_CMD : Nat := (0xB030) * 256 + 0
/-- SITE_STATE, 0xB031:01 (Table 14.11). -/
def SITE_STATE : Nat := (0xB031) * 256 + 1
/-- SITE_ID, 0xB031:02 (Table 14.11). -/
def SITE_ID : Nat := (0xB031) * 256 + 2
/-- SITE_F, 0xB031:03 (Table 14.11). -/
def SITE_F : Nat := (0xB031) * 256 + 3
/-- SITE_FROZEN, 0xB031:04 (Table 14.11). -/
def SITE_FROZEN : Nat := (0xB031) * 256 + 4
/-- SITE_UNLOCKED, 0xB031:05 (Table 14.11). -/
def SITE_UNLOCKED : Nat := (0xB031) * 256 + 5
/-- SITE_MISSED, 0xB031:06 (Table 14.11). -/
def SITE_MISSED : Nat := (0xB031) * 256 + 6
/-- SITE_LEAD, 0xB032:01 (Table 14.11). -/
def SITE_LEAD : Nat := (0xB032) * 256 + 1
/-- SITE_LIMIT, 0xB032:02 (Table 14.11). -/
def SITE_LIMIT : Nat := (0xB032) * 256 + 2
/-- VP_SEL, 0xB040:01–08 (Table 14.11). -/
def VP_SEL (i : Nat) : Nat := (0xB040) * 256 + i
/-- VP_IMPORT, 0xB041:01–08 (Table 14.11). -/
def VP_IMPORT (i : Nat) : Nat := (0xB041) * 256 + i
/-- VP_EXPORT, 0xB042:01–08 (Table 14.11). -/
def VP_EXPORT (i : Nat) : Nat := (0xB042) * 256 + i
/-- VP_P, 0xB043:01–08 (Table 14.11). -/
def VP_P (i : Nat) : Nat := (0xB043) * 256 + i
/-- VP_INDEX, 0xB044:01–08 (Table 14.11). -/
def VP_INDEX (i : Nat) : Nat := (0xB044) * 256 + i
/-- VP_STATUS, 0xB045:01–08 (Table 14.11). -/
def VP_STATUS (i : Nat) : Nat := (0xB045) * 256 + i
/-- STRING_CFG, 0xD000:01–08 (Table 15.2). -/
def STRING_CFG (i : Nat) : Nat := (0xD000) * 256 + i
/-- STRING_TAUT, 0xD001:00 (Table 15.2). -/
def STRING_TAUT : Nat := (0xD001) * 256 + 0
/-- STRING_CLEAR, 0xD002:00 (Table 15.2). -/
def STRING_CLEAR : Nat := (0xD002) * 256 + 0
/-- STRING_HITS, 0xD003:01–08 (Table 15.2). -/
def STRING_HITS (i : Nat) : Nat := (0xD003) * 256 + i
/-- TAINT_SINCE, 0xD004:00 (Table 15.2). -/
def TAINT_SINCE : Nat := (0xD004) * 256 + 0
/-- HEALTH_SUMMARY, 0xE000:00 (Table 15.7). -/
def HEALTH_SUMMARY : Nat := (0xE000) * 256 + 0
/-- SPARE_LANES, 0xE001:01 (Table 15.7). -/
def SPARE_LANES : Nat := (0xE001) * 256 + 1
/-- SPARE_BANKS, 0xE001:02 (Table 15.7). -/
def SPARE_BANKS : Nat := (0xE001) * 256 + 2
/-- SPARE_COUPLES, 0xE001:03 (Table 15.7). -/
def SPARE_COUPLES : Nat := (0xE001) * 256 + 3
/-- SPARE_PORTS, 0xE001:04 (Table 15.7). -/
def SPARE_PORTS : Nat := (0xE001) * 256 + 4
/-- SPARE_NVM, 0xE001:05 (Table 15.7). -/
def SPARE_NVM : Nat := (0xE001) * 256 + 5
/-- HEALTH_TOTAL, 0xE040:00 (Table 15.7). -/
def HEALTH_TOTAL : Nat := (0xE040) * 256 + 0
/-- HEALTH_LOG, 0xE041:01–80 (Table 15.7). -/
def HEALTH_LOG (i : Nat) : Nat := (0xE041) * 256 + i
/-- LANE_CMD, 0xE060:00 (Table 15.7). -/
def LANE_CMD : Nat := (0xE060) * 256 + 0
/-- LANE_RETEST, 0xE061:01–05 (Table 15.7). -/
def LANE_RETEST (i : Nat) : Nat := (0xE061) * 256 + i
/-- RESTORE_FAIL, 0xE061:06 (Table 15.7). -/
def RESTORE_FAIL : Nat := (0xE061) * 256 + 6
/-- FUSE_MAP, 0xE070:01 (Table 15.7). -/
def FUSE_MAP : Nat := (0xE070) * 256 + 1
/-- TRIM_CRC, 0xE070:02 (Table 15.7). -/
def TRIM_CRC : Nat := (0xE070) * 256 + 2
/-- FUSE_SENSE_FAIL, 0xE070:03 (Table 15.7). -/
def FUSE_SENSE_FAIL : Nat := (0xE070) * 256 + 3

end K

end Sys2Proof.Machine
end

