-- ==== Sys2Proof/Machine/Parts.lean ====
section
/-! DEFINITION. Machine/Parts.lean: the plain data of each part of the device that is no entry of the object dictionary. -/

namespace Sys2Proof.Machine

open Sys2Proof

/-- The modes of Table 00.3. -/
inductive Mode where
  | dormant | recalling | metering | service | holdup | lockdown
  deriving DecidableEq, Repr

/-- A value of an entry: a number, or bytes. -/
inductive Val where
  | num (v : Int)
  | bytes (b : List Byte)
  deriving DecidableEq, Repr

/-! ### Chapter 01: lanes -/

/-- LANE_STATE.STATE (Table 01.7). -/
inductive LaneState where
  | idle | inService | worn | shadowing | retired | testing
  deriving DecidableEq, Repr

/-- One physical lane: its state, the logical lane it carries, NO_SPARE, its last eight operations (the digit or adder corrected, 0 none),
its corrections and worst latency in the running 1 s interval, and whether LATENCY_HIGH was raised in this interval and in the last (R33, R38). -/
structure Lane where
  state : LaneState
  logical : Option (Fin 4)
  noSpare : Bool
  ops : List Nat
  corrected1s : Nat
  worst1s : Nat
  latHigh : Bool
  latHighLast : Bool
  deriving DecidableEq, Repr

/-- A substitution under way (R39): the lane that leaves, the lane that shadows it, the points still to hand over, and whether it restores
a retired lane (R441). -/
structure LaneSub where
  leaving : Fin 5
  shadow : Fin 5
  points : List (Fin 8)
  restore : Bool
  deriving DecidableEq, Repr

/-! ### Chapter 02: ports -/

/-- The link of a port: link start, good, or a fault episode (R66 to R69). -/
inductive LinkPhase where
  | start | good | fault
  deriving DecidableEq, Repr

/-- One port: the link, the clean blocks counted, the blocks of the eye search left and the transitions it saw, the phase in use, a fault
detected and not yet in force, a failed check in the present block, and whether the present block began before the port was used, so that it is
no whole block (R68). The sinc3 integrators, their last outputs at the output rate, and the last 33 sinc3 results newest first (R70); `odd`:
the first half of an output period at OSR 500 is in the integrators. -/
structure Port where
  phase : LinkPhase
  clean : Nat
  searchLeft : Nat
  searchSeen : Nat
  capture : Nat
  faultPending : Bool
  failedInBlock : Bool
  partBlock : Bool
  int1 : Int
  int2 : Int
  int3 : Int
  comb : List Int
  fir : List Int
  odd : Bool
  deriving DecidableEq, Repr

/-- SPARE_STATE.STATE (Table 02.13). -/
inductive SpareState where
  | idle | paired | serving | faulty
  deriving DecidableEq, Repr

/-- One understudy port: state, home port, periods that differed in the present 1 s interval, a substitution that takes effect at the next
period, and whether a string forced it (R83 to R85, R436). -/
structure Spare where
  state : SpareState
  home : Option (Fin 56)
  differing : Nat
  pending : Bool
  forced : Bool
  deriving DecidableEq, Repr

/-- A word in a decimator's output register: index, code, qualifier (R73, R75). -/
structure Word20 where
  idx : Nat
  code : Int
  qual : Nat
  deriving DecidableEq, Repr

/-- One channel of a point: the output register; the OVR episode, SETTLE samples left and restart LINK samples left (R74, R76, R77); the raw
words and the y0 values with their qualifiers, newest first (R81, R157); the latest corrected sample; `cleared`: flags of PORT_STATUS that a
write cleared and hardware has not set since (R78). -/
structure Chan where
  out : Option Word20
  ovrEpisode : Bool
  settle : Nat
  restart : Nat
  cleared : Nat
  raw : List (Int × Nat)
  hist : List (Int × Nat)
  y : Int
  qy : Nat
  n : Nat
  deriving DecidableEq, Repr

/-! ### Chapter 03: cycles, windows, events -/

/-- TRACK_STATE (Table 03.11). -/
inductive Track where
  | off | locked | substitute | fixed | starting
  deriving DecidableEq, Repr

/-- A boundary: its index, and its crossing instant in 1/65,536 sample period, none at a substitute (R94, R112). -/
structure Boundary where
  idx : Nat
  crossing : Option Nat
  deriving DecidableEq, Repr

/-- Sums of one channel over a span (R98): samples, Σx, Σx², greatest and least sample, qualifiers seen (one bit per value of R75). -/
structure ChanSum where
  s1 : Int
  s2 : Nat
  hi : Int
  lo : Int
  quals : Nat
  deriving DecidableEq, Repr

/-- Sums of a span: samples, per channel, and Σ v·i per phase. -/
structure Span where
  m : Nat
  chans : Vector ChanSum 7
  vi : Vector Int 3
  deriving DecidableEq, Repr

/-- A window being filled, or ended and waiting for its close index (R96, R97): first boundary, cycles so far, sums, whether a boundary was
a substitute, the channels that lost a sample, whether it began after a rebase, and the instants of its boundaries, newest first, in 1/65,536
sample period (R105). -/
structure Window where
  start : Boundary
  cycles : Nat
  sum : Span
  substitute : Bool
  incomplete : Nat
  rebased : Bool
  marks : List Nat
  deriving DecidableEq, Repr

/-- The corrected samples of one index on the seven channels, as the window FIFO took them (R105). -/
structure Trail where
  idx : Nat
  y : Vector Int 7
  deriving DecidableEq, Repr

/-- An ended window with its end boundary, and the samples the harmonic engine reads: newest first, from 48 before the window to `later` (at
most 48) after its end (R105). -/
structure EndedWindow where
  win : Window
  stop : Boundary
  trail : List Trail
  later : Nat
  deriving DecidableEq, Repr

/-- One event of a point (R113, R114): active, cycles for which the condition or the clearing condition has held, the first boundary of
those, the start index, the extreme in binary32 and the channels involved. -/
structure Event where
  active : Bool
  held : Nat
  heldFrom : Nat
  startIdx : Nat
  extreme : Nat
  whereMask : Nat
  deriving DecidableEq, Repr

/-- An entry of the event queue (R21, R117); `edge` 0 START, 1 END, 2 OVERFLOW; `last` the last merged index of an overflow entry. -/
structure EventEntry where
  point : Nat
  code : Nat
  edge : Nat
  whereMask : Nat
  idx : Nat
  value : Nat
  count : Nat
  last : Nat
  tags : Nat
  deriving DecidableEq, Repr

/-! ### Chapter 04: energy -/

/-- Step sums of one phase (Table 04.2). -/
structure PhaseSum where
  sv : Nat
  si : Nat
  av : Int
  bv : Int
  ai : Int
  bi : Int
  deriving DecidableEq, Repr

/-- The running step: fine accumulator F, samples, sums, first index and last accumulated index (R121), and the record tags under which its
samples were metered (R134). -/
structure StepSum where
  f : Int
  m : Nat
  phases : Vector PhaseSum 3
  startIdx : Nat
  lastIdx : Nat
  tags : Nat
  deriving DecidableEq, Repr

/-- The configuration in force on a point (R74, R88, R127): the words of POINT_CFG and DEC_CONFIG, PORT_CFG and CH_FS of each channel, and the
logical lane. -/
structure Applied where
  cfg : Nat
  osr500 : Bool
  ports : Vector Nat 7
  fs : Vector Nat 7
  lane : Nat
  deriving DecidableEq, Repr

/-- What a boundary hands to the netting unit: the boundary, whether samples before it form a step (R94, R149), and the step's sums with the
scale constants in force for it (R127), the cable constants with whether compensation was enabled (R128) and the cycle's span. -/
structure Closing where
  bound : Boundary
  isStep : Bool
  sums : StepSum
  ke : Vector Nat 3
  kl : Nat
  tUsed : Int
  rUsed : Nat
  tFallback : Bool
  cable : Bool
  cycle : Span
  prev : Boundary
  deriving DecidableEq, Repr

/-- The reverse-power evaluation of a point (R131): samples for which the condition or its end condition has held, and the first step of the
run; the most negative step as net and duration. -/
structure Reverse where
  active : Bool
  held : Nat
  heldFrom : Nat
  startIdx : Nat
  minNet : Int
  minDur : Nat
  deriving DecidableEq, Repr

/-- Internal state of one metering point. `trail`: the corrected samples the harmonic engine may still read (R105), newest first; `ended`: the
ended windows that wait for their close index, oldest first (R97). `cable`: cable compensation is enabled for the running step (R128).
`dmdFrom`: the first index of the running demand interval while the interval before still waits for its last step, and `dmdNext` the flags the
running one takes then (R132 to R135). `shWhole`: the shadowing lane has had a copy of the present sample from its first channel on (R39). -/
structure Point where
  app : Applied
  chans : Vector Chan 7
  track : Track
  armed : Bool
  bound : Boundary
  started : Bool
  prevBound : Boundary
  theta : Nat
  lenNum : Nat
  lenDen : Nat
  step : StepSum
  inStep : Bool
  cycle : Span
  ke : Vector Nat 3
  kl : Nat
  tUsed : Int
  rUsed : Nat
  tFallback : Bool
  cable : Bool
  closing : Option Closing
  win : Option Window
  winWait : Bool
  trail : List Trail
  ended : List EndedWindow
  events : Vector Event 17
  evCleared : Nat
  rp : Reverse
  qtLast : Int
  mLast : Nat
  dmdResImport : Nat
  dmdResExport : Nat
  dmdFrom : Option Nat
  dmdNext : Nat
  dmdImported : Bool
  dmdExported : Bool
  peakRun : Nat
  peakLast : Nat
  phys : Fin 5
  shadowed : Nat
  shWhole : Bool
  warm : Bool
  offFrom : Option Nat
  deriving DecidableEq, Repr

/-- The level of a pulse output: inactive, high with the time it has been high, or in the low gap after a shortened pulse (R140). -/
inductive PulsePhase where
  | idle | high | gap
  deriving DecidableEq, Repr

/-- A, PULSE_COUNT and PULSE_LOST of an output after the latest completed netting step of the point it follows (R145). -/
structure PulseKeep where
  acc : Int
  count : Nat
  lost : Nat
  deriving DecidableEq, Repr

/-- One pulse output (R137 to R141): settings in force, amount streamed in the running step and in the closed one, phase, level, the instant
(RTC ns) at which the present phase began, the polarity in force, whether a write to its settings waits for a boundary, and what a checkpoint
holds of it. -/
structure Pulse where
  cfg : Nat
  quantum : Nat
  streamed : Int
  closed : Int
  phase : PulsePhase
  level : Bool
  since : Nat
  activeLow : Bool
  waits : Bool
  keep : PulseKeep
  deriving DecidableEq, Repr

/-- Demand of the whole device (R132, R135): length of the running interval in s, and start and length of the interval before, which points
finish with their first later step. -/
structure Demand where
  len : Nat
  prevStart : Nat
  prevLen : Nat
  deriving DecidableEq, Repr

/-- What one booked step was (R124): its net, compensated net and length in sample periods, first and last index, end, set, and the record
tags its samples were metered under. -/
structure StepResult where
  net : Int
  comp : Int
  dur : Nat
  startIdx : Nat
  lastIdx : Nat
  endIdx : Nat
  disputed : Bool
  tags : Nat
  deriving DecidableEq, Repr

end Sys2Proof.Machine
end

