-- ==== Sys2Proof/Machine/PartsStore.lean ====
section
/-! DEFINITION. Machine/PartsStore.lean: the plain data of the non-volatile store, the journal, the logs, the links and the protocol (chapters
08, 12, 13). -/

namespace Sys2Proof.Machine

open Sys2Proof

/-! ### Protocol -/

/-- Status codes (Table 13.6). -/
inductive Status where
  | ok | recalling | unknownEntry | access | invalidValue | wrongState | length | operation | frame | busy | memoryError | writeLost
  | tableauClosed | notFrozen | authFailed | notApplied
  deriving DecidableEq, Repr

/-- The code of a status (Table 13.6). -/
def Status.code : Status → Nat
  | .ok => 0 | .recalling => 1 | .unknownEntry => 2 | .access => 3 | .invalidValue => 4 | .wrongState => 5 | .length => 6
  | .operation => 7 | .frame => 8 | .busy => 9 | .memoryError => 10 | .writeLost => 11 | .tableauClosed => 12 | .notFrozen => 13
  | .authFailed => 14 | .notApplied => 15

/-- A message (Table 13.4): a request as received, or a response. -/
structure Message where
  op : Nat
  tag : Nat
  index : Nat
  sub : Nat
  status : Status
  payload : List Byte
  deriving DecidableEq, Repr

/-- One host link: requests received and not yet answered, responses waiting, oldest first (R386, R393), and the bytes the device sent in
the latest SPI transaction (R384, R386). -/
structure LinkSt where
  queue : List Message
  out : List Message
  sent : List Byte
  deriving DecidableEq, Repr

/-- CAN FD receive and transmit state (R389 to R392): the reassembly (its OP and TAG, the next COUNT, the bytes so far, whether it is open, the
RTC ns of the latest segment), transmit and receive error counters, bus-off, the frames of the latest response sent (identifier and data), and
the node, timing and base in force. -/
structure CanSt where
  segOp : Nat
  segTag : Nat
  segCount : Nat
  segBytes : List Byte
  segOpen : Bool
  segTime : Nat
  txErr : Nat
  rxErr : Nat
  busOff : Bool
  frames : List (Nat × List Byte)
  nodeActive : Nat
  timingActive : Nat
  baseActive : Nat
  deriving DecidableEq, Repr

/-- A running stream (R398, R399): mask, step, source (corrected or released), the first index of the frame being filled, its samples so far
(key index × 64 + 7n + c), the payloads of the frames waiting with their tag, the drops since the last queued frame, and the tag of the next
frame. -/
structure Stream where
  running : Bool
  mask : Nat
  step : Nat
  corrected : Bool
  begin : Nat
  samples : List (Nat × Nat)
  frames : List (Nat × List Byte)
  lost : Nat
  tag : Nat
  deriving DecidableEq, Repr

/-- The open tableau (R45 to R50): its ID, freeze index, whether complete, whether from the site, the copied old values, the reads held until
it is complete, and the instant it opened. -/
structure Tableau where
  id : Nat
  freeze : Nat
  complete : Bool
  site : Bool
  nums : List (Nat × Int)
  held : List (Requester × Nat × Nat)
  opened : Nat
  deriving DecidableEq, Repr

/-! ### Journal -/

/-- One value a journal unit writes. -/
structure EntryWrite where
  key : Nat
  val : Val
  deriving DecidableEq, Repr

/-- What follows a unit's commit group: the answer to a write, the answer to a batch, or the step of a chapter that waits for it. -/
inductive Owner where
  /-- A stored WRITE of one entry (R378). -/
  | write (h : Requester) (index sub : Nat)
  /-- A BATCH with its sub-responses so far (R395). -/
  | batch (h : Requester) (reply : List Byte)
  /-- A plate commit (R169). -/
  | plates (point : Fin 8)
  /-- An auxiliary calibration commit (R200). -/
  | auxCal (input : Nat)
  /-- The LOCKDOWN state's copy in NVM (R346). -/
  | lockState (on : Bool)
  /-- Another change of device state (R245): until the commit group is written, NVM holds `old` of what the live state already shows. -/
  | device (old : List EntryWrite)
  /-- A session's opening unit (R267). -/
  | sessionOpen (point : Fin 8)
  /-- The closing unit of the sessions that end at one index (R271). -/
  | sessionClose (points : List (Fin 8))
  /-- A session's final unit (R271, step 4). -/
  | sessionDone (point : Fin 8)
  /-- A statute unit of the sealing sequence (R243). -/
  | statute (last : Bool)
  deriving DecidableEq, Repr

/-- A journal unit: what it writes, how many bytes its entries hold, and its owner (R245). -/
structure JUnit where
  writes : List EntryWrite
  size : Nat
  owner : Owner
  deriving DecidableEq, Repr

/-- The proof journal (R246): waiting units, the open unit, whether its commit group is written, units that were started and given up before
their commit group (rolled back at the next RECALL), the unit number, the start of its header, and the bytes of the journal area from the
oldest unretired unit on. -/
structure Journal where
  waiting : List JUnit
  openUnit : Option JUnit
  stale : List JUnit
  committed : Bool
  unitNo : Nat
  startedAt : Nat
  used : Nat
  deriving DecidableEq, Repr

/-! ### Logs -/

/-- The dual-copy structures of Table 08.1. -/
inductive LogKind where
  | event | tamper | history | health | ring
  deriving DecidableEq, Repr

/-- One copy slot that is not blank: storage sequence, record, and whether its CRC matches (R252). -/
structure CopySlot where
  seq : Nat
  bytes : List Byte
  good : Bool
  deriving DecidableEq, Repr

/-- A dual-copy structure: its sequence tally and its slots, key 2 × position + copy (R252, R253). -/
structure LogSt where
  total : Nat
  slots : List (Nat × CopySlot)
  deriving DecidableEq, Repr

/-- A record being written: its log, bytes (the storage sequence is put in when the first copy starts), the sequence once taken, the copies
written, and for a hallmark the point of its session. -/
structure RecJob where
  log : LogKind
  bytes : List Byte
  seq : Option Nat
  copies : Nat
  point : Option (Fin 8)
  deriving DecidableEq, Repr

/-- The merging of health events of one code and resource (R442). -/
structure HealthMerge where
  code : Nat
  resource : Nat
  last : Nat
  count : Nat
  deriving DecidableEq, Repr

/-! ### Checkpoints, saves, tallies -/

/-- The part of a point's state in a checkpoint that is no entry (R145): demand residues and directions, the first index of its running
interval where the one before still waits with the flags the running one takes, and the step peaks. -/
structure PointKeep where
  dmdResImport : Nat
  dmdResExport : Nat
  dmdFrom : Option Nat
  dmdNext : Nat
  dmdImported : Bool
  dmdExported : Bool
  peakRun : Nat
  peakLast : Nat
  deriving DecidableEq, Repr

/-- A remapping under way (R239): the worn group, its spare, and the cycles done: the content in the spare, the entry in copy A of the remap table. -/
structure Remap where
  group : Nat
  spare : Nat
  stage : Nat
  deriving DecidableEq, Repr

/-- The NVM array beside its contents (R229 to R241): remapped groups with their spare, remappings under way, worn groups still in service,
corrections of each group in this patrol cycle, the byte corrected at a group's latest corrected read and whether it was written since,
groups that hold an uncorrectable word, a journal unit whose group was lost, the statute copies found good, and the write inhibit. -/
structure Nvm where
  remap : List (Nat × Nat)
  remaps : List Remap
  worn : List Nat
  patrolCounts : List (Nat × Nat)
  lastByte : List (Nat × Nat)
  writtenSince : List Nat
  bad : List Nat
  journalBad : Bool
  patrolReading : Bool
  statAOk : Bool
  statBOk : Bool
  writeInhibit : Bool
  deriving DecidableEq, Repr

/-! ### Modes and power -/

/-- Start-up progress (Table 12.7): when RECALL began, the steps complete (bits 1 and 3 to 12), whether the recall checkpoint is written, and
the stamps of the restored state and of t_end (R148). -/
structure RecallSt where
  started : Nat
  steps : Nat
  ckptWritten : Bool
  stateTime : Nat
  lossTime : Nat
  deriving DecidableEq, Repr

/-- Sealing sequence (Table 12.4): not running, or waiting for key generation, statute commits, or the fuse. -/
inductive SealStep where
  | none | keygen | statute | fuse
  deriving DecidableEq, Repr

end Sys2Proof.Machine
end

