-- ==== Sys2Proof/Machine/PartsCal.lean ====
section
/-! DEFINITION. Machine/PartsCal.lean: the plain data of calibration runs and of the auxiliary converter bank (chapters 05 and 06). -/

namespace Sys2Proof.Machine

open Sys2Proof

/-! ### Calibration plates (chapter 05) -/

/-- Raw sums of one channel: samples, Σx, Σx². -/
structure CalSum where
  n : Nat
  s1 : Int
  s2 : Nat
  deriving DecidableEq, Repr

/-- Sums of one block or of the cycle under way (R162, R164): raw sums of each channel, the phasor sums of channels 0 to 5 on the V1 reference,
cycles so far, their duration in 1/65,536 sample period, and whether one of them was not LOCKED. -/
structure CalBlock where
  sums : Vector CalSum 7
  re : Vector Int 7
  im : Vector Int 7
  cycles : Nat
  span : Nat
  substitute : Bool
  deriving DecidableEq, Repr

/-- A step being measured (R162): operation (2 ZERO, 3 GAIN, 4 PHASE), measured channels, stated levels, whether the first boundary has come,
the cycle under way, the block being filled, the complete blocks (newest first), the temperatures at their ends, and whether a string was taut
during the step. -/
structure CalStep where
  op : Nat
  mask : Nat
  level : Vector Int 7
  begun : Bool
  cyc : CalBlock
  cur : CalBlock
  blocks : List CalBlock
  temps : List (Option Int)
  taut : Bool
  deriving DecidableEq, Repr

/-- A calibration run (R158 to R167): point and slot, the valid slots of the draft set, the step, the kept sums of the accepted ZERO and GAIN
steps with the stated level, the block-end temperatures of the accepted steps, whether a step was accepted or a coefficient written, the
taint, and once its unit is queued the time of the commit, the slots it changes and the plate history record it holds (R169). -/
structure CalRun where
  point : Fin 8
  slot : Fin 4
  valid : Nat
  step : Option CalStep
  zero : Vector (Option CalSum) 7
  gain : Vector (Option (CalSum × Int)) 7
  temps : List Int
  accepted : Bool
  changed : Bool
  tainted : Bool
  committed : Bool
  time : Nat
  slots : Nat
  hist : List Byte
  deriving DecidableEq, Repr

/-- One plate (R153). -/
structure Plate where
  valid : Bool
  t : Int
  gain : Vector Nat 7
  offset : Vector Int 7
  trim : Vector Nat 7
  deriving DecidableEq, Repr

/-- A point's part of calibration: whether new coefficients wait for a boundary (R157), and the latest index of a valid temperature (R155). -/
structure PlateUse where
  due : Bool
  lastValid : Nat
  deriving DecidableEq, Repr

/-! ### Auxiliary converter bank (chapter 06) -/

/-- One converter: powered down, starting up, acquiring or converting an input with the coefficients its acquisition began with, behind the
acquisitions of other converters on the same input that began before (R183); conversions that are still SETTLE (R191); the deviation of a
self-check that is due and has not run, and whether the latest one failed (R201). -/
structure Conv where
  off : Bool
  starting : Bool
  busy : Bool
  behind : List (Fin 8)
  check : Option Nat
  input : Nat
  gain : Nat
  zero : Int
  settle : Nat
  failed : Bool
  deriving DecidableEq, Repr

/-- A result being formed (R190, R191): conversions summed, their sum, the direction of the first overrange (high or not), a SETTLE seen. -/
structure AuxSum where
  n : Nat
  sum : Int
  ovr : Option Bool
  settled : Bool
  deriving DecidableEq, Repr

/-- A result whose conversions are done and that waits to be written (R186, R193). -/
structure AuxDue where
  entry : Nat
  word : Nat
  a : AuxSum
  b : AuxSum
  idx : Nat
  deriving DecidableEq, Repr

/-- What a couple's table does: nothing, waits a DELAY, converts a result, or has no further result in this pass and waits for its write. -/
inductive CouplePhase where
  | idle | delay | convert | tail
  deriving DecidableEq, Repr

/-- One logical couple (R187 to R197): phase, a pass that found every result masked, a grid point that passed during the pass, a ONESHOT pass
still to run, the RUN that the latest configuration gave, the pass's LAST, the entry and its results so far, its word, the sums, the conversions started on lead and partner, the
results waiting to be written, and the injection with its word; sampling instants in edges of the 40 MHz reference, 500 in each sample period. -/
structure Couple where
  phase : CouplePhase
  spin : Bool
  late : Bool
  shot : Bool
  run : Nat
  last : Nat
  entry : Nat
  k : Nat
  word : Nat
  a : AuxSum
  b : AuxSum
  startedA : Nat
  startedB : Nat
  idx : Nat
  due : List AuxDue
  injWord : Nat
  inj : AuxSum
  injStarted : Nat
  injDue : Bool
  injIdx : Nat
  deriving DecidableEq, Repr

/-- An auxiliary calibration run (R198 to R200): input, logical couple, the step (2 ZERO, 3 FULL) with its level and its bursts so far as
(Σx, Σx²), oldest first, the codes of bursts that are due and have not run (R195), whether all were CLEAN, the kept sums of the steps with their levels, and whether its unit is queued. -/
structure AuxRun where
  input : Nat
  couple : Fin 3
  step : Option (Nat × Int)
  bursts : List (Int × Nat)
  due : List (List Int)
  clean : Bool
  zero : Option (Int × Int)
  full : Option (Int × Int)
  committing : Bool
  deriving DecidableEq, Repr

/-! ### SRAM banks (chapter 07) -/

/-- BANK_STATE.STATE (Table 07.7). -/
inductive BankState where
  | idle | inService | worn | substituting | retired
  deriving DecidableEq, Repr

/-- One corrected symbol of a word: reads that corrected it, each after a write-back (R222), and whether a write-back came since. -/
structure SymHit where
  addr : Nat
  sym : Nat
  reads : Nat
  scrubbed : Bool
  deriving DecidableEq, Repr

/-- The data class of a word (Table 07.1), with the subject its loss concerns. -/
inductive WordClass where
  | metrological | steward
  | window (p : Fin 8) (c : Fin 7)
  | harmonic (p : Fin 8) (c : Fin 7)
  | display
  | dop (l : Link)
  | thiber (k : Fin 4)
  | signing
  deriving DecidableEq, Repr

/-- An access that a port granted: the request, the place of its word, and the word before it. -/
structure SramGrant where
  req : SramReq
  place : Nat
  before : Nat
  deriving DecidableEq, Repr

/-- One port of a bank (R210, R211): the requests that wait for it, and its latest access, unless a background access came after it (R212). -/
structure BankPort where
  waiting : List SramReq
  last : Option SramGrant
  deriving DecidableEq, Repr

/-- One physical bank: state, logical bank carried, NO_SPARE, corrections in the running 1 s interval, corrected symbols, words that wait for
their write-back (R216), and the two ports. -/
structure Bank where
  state : BankState
  logical : Option (Fin 4)
  noSpare : Bool
  corrected1s : Nat
  hits : List SymHit
  scrubs : List Nat
  portF : BankPort
  portS : BankPort
  deriving DecidableEq, Repr

/-- Phases of a test attempt (Table 07.4), and the 10 ms after an abandonment (R220). -/
inductive MarchPhase where
  | idle | mirror | copy | segment | copyBack | retry
  deriving DecidableEq, Repr

/-- The background test (R218 to R220): phase, region of B4 used as mirror next or now, consecutive abandonments of the region, whether the
attempt is forced, and whether its segment was abandoned. -/
structure March where
  phase : MarchPhase
  mirror : Fin 16
  tries : Nat
  forced : Bool
  abandoned : Bool
  deriving DecidableEq, Repr

/-- A bank substitution (R223): the worn bank, the regions B4 already serves, whether it waits for a copy-back, and its start in RTC ns. -/
structure BankSub where
  worn : Fin 5
  done : List Nat
  waits : Bool
  started : Nat
  deriving DecidableEq, Repr

end Sys2Proof.Machine
end

