-- ==== Sys2Proof/Machine/PartsSession.lean ====
section
/-! DEFINITION. Machine/PartsSession.lean: the plain data of sessions, hallmarks and the signing engine (chapter 09). -/

namespace Sys2Proof.Machine

open Sys2Proof

/-- Counters of one channel whose increase a hallmark reports (Table 09.6). -/
structure ChanCounts where
  ovrTime : Nat
  linkTime : Nat
  ovrCount : Nat
  linkCount : Nat
  rearm : Nat
  deriving DecidableEq, Repr

/-- A session descriptor: what is taken at B_o (R267). -/
structure Descriptor where
  no : Nat
  openIdx : Nat
  openTime : Nat
  pair : Nat
  plateGen : Nat
  regs : Vector Nat 10
  disputed : Vector Nat 10
  chans : Vector ChanCounts 7
  fallback : Nat
  clip : Nat
  host : List Byte
  deriving DecidableEq, Repr

/-- What a hallmark gathers after B_o (R145), beside SESSION_TAGS and SESSION_FLAGS: the session it belongs to, event starts, the highest step
power, the union of window QUAL, the highest CABLE_T_USED, the tamper sources and first tamper record, and whether a step booked to
the import side above zero and one to the export side. -/
structure Grown where
  no : Nat
  eventMask : Nat
  eventStarts : Nat
  maxStepP : Nat
  quals : Vector Nat 7
  tMax : Option Int
  sources : Nat
  ref : Nat
  imported : Bool
  exported : Bool
  deriving DecidableEq, Repr

/-- The close data of one session (R271, R283): everything the hallmark needs that is not in the descriptor. `regs` is none when the close
registers are unknown (RECOVERY 3). -/
structure CloseData where
  seq : Nat
  kind : Nat
  reissueOf : Nat
  closeIdx : Nat
  closeTime : Nat
  utc : Int
  tags : Nat
  flags : Nat
  recovery : Nat
  plateGen : Nat
  regs : Option (Vector Nat 10)
  disputed : Vector Nat 10
  incs : Vector ChanCounts 7
  ports : Vector Nat 7
  fallback : Nat
  clip : Nat
  grown : Grown
  stateTime : Nat
  lossTime : Nat
  unrecorded : Nat
  deriving DecidableEq, Repr

/-- One point's session (R265 to R272): the descriptor and whether its commit group is written; a boundary already found when OPEN or CLOSE was
accepted (`openSkip`, `closeSkip`); CLOSE accepted; the close data, whether its CLOSING unit is queued, whether that unit committed; OPEN
requests held while a plate commit runs (R266); OPEN_INDEX and OPEN_TIME of the latest committed descriptor (R268). -/
structure Session where
  desc : Option Descriptor
  committed : Bool
  openSkip : Bool
  closing : Bool
  closeSkip : Bool
  close : Option CloseData
  queued : Bool
  closed : Bool
  held : List Requester
  grown : Grown
  lastOpen : Nat
  lastTime : Nat
  deriving DecidableEq, Repr

/-- The outcome of the key choice of Table 09.7: a key, or a SIGN_STATE. -/
inductive KeyChoice where
  | production | test | unsigned (state : Nat)
  deriving DecidableEq, Repr

/-- A record at the signing engine: its point, when its building began, and once the key choice stands, the key, its private key and the
signed part. -/
structure SignRun where
  point : Fin 8
  started : Nat
  key : Option KeyChoice
  priv : Nat
  body : List Byte
  deriving DecidableEq, Repr

/-- Signing (R272 to R281): the records that wait for the engine, the record in it, the private keys in the key vault, whether a test key was
ever generated, whether the keys are destroyed, the digest of the latest stored record, and the number of records stored. -/
structure SignSt where
  queue : List (Fin 8)
  run : Option SignRun
  testKey : Option Nat
  prodKey : Option Nat
  testMade : Bool
  destroyed : Bool
  chain : List Byte
  stored : Nat
  deriving DecidableEq, Repr

/-- The content of a checkpoint or snapshot (R145). -/
structure Body where
  nums : List (Nat × Int)
  points : Vector PointKeep 8
  demand : Demand
  sessions : Vector Grown 8
  sealed : Bool
  deriving DecidableEq, Repr

/-- One checkpoint slot (R255). -/
structure CkptSlot where
  valid : Bool
  stateSeq : Nat
  seq : Nat
  time : Nat
  body : Option Body
  deriving DecidableEq, Repr

/-- One hold-up save area (Table 08.6): which sections are valid, STATE_SEQ, SAVE_SEQ, D, H, snapshot, tail, the display's image and ledgers,
device-state changes, and the events and records not yet logged. -/
structure SaveArea where
  sections : Nat
  stateSeq : Nat
  seq : Nat
  time : Nat
  tailIndex : Nat
  snapshot : Option Body
  tail : Option Body
  display : Option (Nat × List Int)
  deviceState : List EntryWrite
  events : List EventEntry
  records : List RecJob
  deriving DecidableEq, Repr

/-- Checkpoints and saves: the two slots, the checkpoint being written (its slot and content) and when it began, when the next is due, the
two save areas, and the tally copies in NVM with an update cut after its marker group (key, highest byte, new value; R249 to R251). -/
structure Store where
  slots : Vector CkptSlot 2
  writing : Option CkptSlot
  writeStart : Nat
  nextDue : Nat
  saves : Vector SaveArea 2
  tally : List (Nat × Int)
  marker : Option (Nat × Nat × Int)
  deriving DecidableEq, Repr

/-- The key choice or check outcome of a twin decision's first evaluation, beside what it decides (R168, R278, R337, R351, R354). -/
inductive TwinKind where
  | enterService (h : Requester) (first : Bool)
  | clearLockdown (h : Requester) (first : Bool)
  | sealing (h : Requester) (first : Nat)
  | calCommit (reason channels : Nat)
  | signing (first : KeyChoice)
  | decision
  deriving DecidableEq, Repr

/-- Nothing gathered. -/
def Grown.zero : Grown := ⟨0, 0, 0, 0, Vector.replicate 7 0, none, 0, 0xFFFFFFFF, false, false⟩

/-- No session. -/
def Session.init : Session := ⟨none, false, false, false, false, none, false, false, [], Grown.zero, 0, 0⟩

/-- No key and no record yet. -/
def SignSt.init : SignSt := ⟨[], none, none, none, false, false, List.replicate 32 0, 0⟩

end Sys2Proof.Machine
end

