-- ==== Sys2Proof/Machine/PartsTamper.lean ====
section
/-! DEFINITION. Machine/PartsTamper.lean: the plain data of the tamper sources, the arbiter and the backup domain (chapter 11). -/

namespace Sys2Proof.Machine

open Sys2Proof

/-- One tamper source (R318 to R322, R330): counting, with the events so far and their start; ACTIVE; consecutive samples or checks in the
active and in the inactive condition; alarms that wait for a decision, the first of them, and what their record names; the TIME of the latest
ALARM record and the alarms to count in the next one's SUPPRESSED; whether its TAMPER_STATUS bit was cleared by a write. In the backup domain:
the FIRST time, the DORMANT count, how many of those alarms ALARM_COUNT lacks, and the deferred latch. -/
structure TamperSrc where
  counting : Bool
  count : Nat
  start : Nat
  active : Bool
  high : Nat
  low : Nat
  waiting : Nat
  waitTime : Nat
  point : Nat
  value : Nat
  lastRecord : Option Nat
  suppressed : Nat
  cleared : Bool
  first : Option Nat
  dormant : Nat
  late : Nat
  latched : Bool
  deriving DecidableEq, Repr

/-- One source of a decision's set (R324): its alarms, the RTC ns of the first, POINT and VALUE of its record, and for a source that alarmed
while VDD33 was absent its FIRST time and whether it was latched (R332, R333). -/
structure Alarmed where
  source : Fin 16
  count : Nat
  time : Nat
  point : Nat
  value : Nat
  first : Option Nat
  latched : Bool
  deriving DecidableEq, Repr

/-- A decision that waits for its second evaluation (R324 to R326): its set in ascending source number, the first selection, its start as RTC
ns, and its sample index. -/
structure Decision where
  set : List Alarmed
  selected : Nat
  time : Nat
  idx : Nat
  deriving DecidableEq, Repr

/-- The arbiter and the two copies of TAMPER_STATUS and the marks (R321): in the backup domain and in NVM; records of the deferred decision
that wait for the ordinary region (R332), with the number of their first ALARM record and the sources of that decision; whether the backup
domain was reset (R334). -/
structure TamperSt where
  srcs : Vector TamperSrc 16
  run : Option Decision
  backupStatus : Nat
  backupMarks : Nat
  nvStatus : Nat
  nvMarks : Nat
  deferred : List RecJob
  deferredSet : Nat
  deferredRef : Nat
  backupLost : Bool
  deriving DecidableEq, Repr

/-- An armed source. -/
def TamperSrc.init : TamperSrc := ⟨false, 0, 0, false, 0, 0, 0, 0, 0xFF, 0, none, 0, false, none, 0, 0, false⟩

/-- No alarm, no decision. -/
def TamperSt.init : TamperSt := ⟨Vector.replicate 16 TamperSrc.init, none, 0, 0, 0, 0, [], 0, 0xFFFFFFFF, false⟩

end Sys2Proof.Machine
end

