-- ==== Sys2Proof/Machine/PartsDisplay.lean ====
section
/-! DEFINITION. Machine/PartsDisplay.lean: the plain data of the display driver (chapter 10). Images are bitmaps with bit s for SEGs (R294). -/

namespace Sys2Proof.Machine

open Sys2Proof

/-- What drives a region, with the band's stencils copied at the start (R296, R298): a stencil of transitions; the refresh after a
compensation, whose segments in `cleared` run CLEAR first (R303); the clearing, run `times` times (R308, R310). -/
inductive DriveKind where
  | stencil
  | refresh (cleared : Nat)
  | clearing (times : Nat)
  deriving DecidableEq, Repr

/-- A running stencil: kind, band, T00 to T11 and CLEAR, FRAMES and CLEAR_FRAMES, the frame under way, its reached and target states, the
ledgers at its start, the RTC ns of frame 0, and the segments it drives. -/
structure Drive where
  kind : DriveKind
  band : Nat
  codes : List (List Byte)
  frames : Nat
  clearFrames : Nat
  frame : Nat
  reached : Nat
  target : Nat
  ledger0 : List Int
  time0 : Nat
  segs : Nat
  deriving DecidableEq, Repr

/-- A compensation phase (R303, R310): what each segment still differs by at its start, the segments still driven, frames of the phase and the
frame under way. -/
structure Compensate where
  delta : List Int
  driven : Nat
  frames : Nat
  frame : Nat
  deriving DecidableEq, Repr

/-- One region (R294, R300, R301): the newest target, whether it waits to start and since when, the pending target while the region runs, the
running stencil or compensation, and the band of the stencil that the compensation follows. -/
structure Region where
  target : Nat
  due : Bool
  dueTime : Nat
  pending : Option Nat
  drive : Option Drive
  comp : Option Compensate
  deriving DecidableEq, Repr

/-- A record of the display store (R304): a start record holds what runs, an end record the image and the ledgers. -/
inductive StoreRec where
  | start (drives : List Drive) (image : Nat) (ledger : List Int)
  | stop (image : Nat) (ledger : List Int)
  deriving DecidableEq, Repr

/-- The recall clearing (R310): not wanted, waiting for the band, waiting for the frame boundary with a known band, compensating, clearing. -/
inductive ClearPhase where
  | none
  | wantBand
  | ready (band : Nat)
  | comp (band : Nat)
  | clear
  deriving DecidableEq, Repr

/-- The display driver: reached image, ledgers, the two regions, the clearing with its start and whether CLEAR runs twice, the pump and its
regulation, the RTC ns of the frame's start, BAND, T_FALLBACK, LEDGER_UNKNOWN, DRV_FAULT with the bits
that a write cleared, and the display store's two slots with their sequence numbers. -/
structure Display where
  shown : Nat
  ledger : List Int
  metro : Region
  host : Region
  clear : ClearPhase
  clearDrive : Option Drive
  clearComp : Option Compensate
  twice : Bool
  pump : Bool
  regulated : Bool
  frameStart : Nat
  band : Nat
  tFallback : Bool
  unknown : Bool
  fault : Nat
  faultCleared : Nat
  store : Vector (Option (Nat × StoreRec)) 2
  storeSeq : Nat
  deriving DecidableEq, Repr

/-- An idle region. -/
def Region.init : Region := ⟨0, false, 0, none, none, none⟩

/-- Zero ledgers. -/
def zeroLedger : List Int := List.replicate 192 0

/-- A display as at manufacture. -/
def Display.init : Display :=
  ⟨0, zeroLedger, Region.init, Region.init, .none, none, none, false, false, false, 0, 0, false, false, 0, 0,
    Vector.replicate 2 none, 0⟩

end Sys2Proof.Machine
end

