-- ==== Sys2Proof/Machine/PartsThiber.lean ====
section
/-! DEFINITION. Machine/PartsThiber.lean: the plain data of the Thiber engine (chapter 14). Port 0 is the upstream port, ports 1 to 3 the
downstream ports 0 to 2. -/

namespace Sys2Proof.Machine

open Sys2Proof

/-- PORT_STATE.STATE (Table 14.13). -/
inductive ThbState where
  | down | training | up | refused | disabled
  deriving DecidableEq, Repr

/-- The code of a port state (Table 14.13). -/
def ThbState.code : ThbState → Nat
  | .down => 0 | .training => 1 | .up => 2 | .refused => 3 | .disabled => 4

/-- CHILD_CENSUS (Table 14.5). -/
structure ChildEntry where
  serial : List Byte
  members : Nat
  depthBelow : Nat
  points : Nat
  unitNo : Nat
  state : Nat
  flags : Nat
  deriving DecidableEq, Repr

/-- The points of one VP_REPORT: END, MASK, FLAGS, and for each point reported its number, import, export and power. -/
structure VpReport where
  endIdx : Nat
  flags : Nat
  points : List (Nat × Nat × Nat × Nat)
  deriving DecidableEq, Repr

/-- One port (R402 to R407): state, LAST_DOWN, whether a TRAIN and a TRAIN with ACK has arrived and one with ACK was sent, the SEQ of the
latest frame received and of the next sent, consecutive discards, the latest frame sent; and of a child: census outcome known, entry,
PREV_FIRST, latest report, and its SITE_ACK. -/
structure ThbPort where
  state : ThbState
  lastDown : Nat
  gotTrain : Bool
  gotAck : Bool
  sentAck : Bool
  rxSeq : Option Nat
  txSeq : Nat
  discards : Nat
  tx : List Byte
  known : Bool
  child : ChildEntry
  prevFirst : Nat
  report : Option VpReport
  ack : Option (Nat × Nat × Nat)
  deriving DecidableEq, Repr

/-- The time servo (R413 to R418): the latest T1, T2 and T3, CORR, INDEX_SHIFT, VALID and REBASE_SEQ of the parent's latest SYNC; exchanges since
ACQUIRING began, whether the frequency is matched, consecutive exchanges within 4 ns, whether an exchange was made and its OFFSET, the matched
pull, the pull and instant from which the 0.1 ppm per second of LOCKED are measured, and the instant of NUMBERING. -/
structure ThbTime where
  t1 : Nat
  t2 : Nat
  t3 : Option Nat
  synced : Bool
  corr : Int
  shift : Int
  valid : Bool
  parentSeq : Option Nat
  exchanges : Nat
  matched : Bool
  good : Nat
  offset : Option Int
  matchedPull : Int
  pullBase : Int
  pullSince : Nat
  since : Nat
  deriving DecidableEq, Repr

/-- The site tableau on this device (R421 to R423): its own class once its image is complete (0 FROZEN, 1 UNLOCKED, 2 MISSED), its ID, F and
LIMIT, whether SITE_ACK was sent. -/
structure SiteSt where
  id : Nat
  f : Nat
  limit : Nat
  own : Option Nat
  answered : Bool
  deriving DecidableEq, Repr

/-- The Thiber engine: ports; whether RECALL's end has started census and whether it is complete; the top's blocks (first number, size, port it
went to); JOINs on their way (serial, port they came from); whether this unit was refused; time; the site tableau. -/
structure Thiber where
  ports : Vector ThbPort 4
  census : Bool
  complete : Bool
  blocks : List (Nat × Nat × Nat)
  joins : List (List Byte × Nat)
  refused : Bool
  time : ThbTime
  site : Option SiteSt
  deriving DecidableEq, Repr

/-- No child. -/
def ChildEntry.none : ChildEntry := ⟨List.replicate 8 0, 0, 0, 0, 0, 0, 0⟩

/-- A port before any training. -/
def ThbPort.init : ThbPort :=
  ⟨.down, 0, false, false, false, none, 0, 0, [], false, ChildEntry.none, 0xFFFF, none, none⟩

/-- No time learnt. -/
def ThbTime.init : ThbTime := ⟨0, 0, none, false, 0, 0, false, none, 0, false, 0, none, 0, 0, 0, 0⟩

/-- The engine at the start of RECALL. -/
def Thiber.init : Thiber := ⟨Vector.replicate 4 ThbPort.init, false, false, [], [], false, ThbTime.init, none⟩

end Sys2Proof.Machine
end

