-- ==== Sys2Proof/Machine/PartsMode.lean ====
section
/-! DEFINITION. Machine/PartsMode.lean: the plain data of SERVICE, authentication, sealing, straps and self-tests (chapters 12, 15 and 16). -/

namespace Sys2Proof.Machine

open Sys2Proof

/-- SERVICE and its guards: the debounced SVC level (R347), the RTC ns of the entry into SERVICE or ATTENDED (R352), an exit that waits for the
end of sealing (R355), the outstanding challenge (R349), the sealing sequence (Table 12.4) with the request it answers, whether the SEAL history
records are still to be written (R355), the straps read at RECALL (R390, R446), factory test mode (R445), a failed known-answer test (R439),
lane retests running (R441), PATCH_REV's patch rejected (Table 08.1), and a backup domain that kept the stamp of VDD33 loss (R361, R334). -/
structure ModeSt where
  svc : Bool
  entered : Nat
  exitDue : Bool
  challenge : Option (List Byte)
  sealStep : SealStep
  sealHistory : Bool
  addr : Nat
  ftm : Bool
  katBad : Bool
  retest : Option (Fin 5)
  lossKept : Bool
  statute : List Byte
  deriving DecidableEq, Repr

/-- Outside SERVICE, nothing running. -/
def ModeSt.init : ModeSt := ⟨false, 0, false, none, .none, false, 0, false, false, none, false, []⟩

end Sys2Proof.Machine
end

