-- ==== Sys2Proof/Machine/State.lean ====
section
/-! DEFINITION. Machine/State.lean: the whole state of the device as plain data, the reasons a step can stop, and the state after reset. -/

namespace Sys2Proof.Machine

open Sys2Proof

/-- Why a step can stop with a fault: no reason at all, for every command has an effect in every state. Safe. -/
inductive Fault where
  deriving DecidableEq, Repr

/-- Why a command can have no meaning. -/
inductive Refusal where
  /-- An arm of `exec` that has no meaning yet; raised by Machine/Dispatch.lean. Safe: the machine stops where the hardware goes on. -/
  | notModelled (mnemonic : String)
  deriving DecidableEq, Repr

/-! ### Initial values of the parts -/

/-- A word register of a channel with nothing in it, and a cleared interpolator history (R81: 16 zeros with qualifier LINK). -/
def Chan.init : Chan :=
  ⟨none, false, 0, 0, 0, List.replicate 16 (0, 3), List.replicate 16 (0, 3), 0, 3, 0⟩

/-- An empty channel sum. -/
def ChanSum.zero : ChanSum := ⟨0, 0, 0, 0, 0⟩

/-- An empty span. -/
def Span.zero : Span := ⟨0, Vector.replicate 7 ChanSum.zero, Vector.replicate 3 0⟩

/-- Empty phase sums. -/
def PhaseSum.zero : PhaseSum := ⟨0, 0, 0, 0, 0, 0⟩

/-- An empty step that begins at an index. -/
def StepSum.zero (start : Nat) : StepSum := ⟨0, 0, Vector.replicate 3 PhaseSum.zero, start, start, 0⟩

/-- An inactive event. -/
def Event.init : Event := ⟨false, 0, 0, 0, 0, 0⟩

/-- No reverse power. -/
def Reverse.init : Reverse := ⟨false, 0, 0, 0, 0, 1⟩

/-- A point as at manufacture: kind OFF, default configuration (R15), logical lane of the default map. -/
def Point.init (lane : Nat) (phys : Fin 5) : Point where
  app := ⟨0, false, Vector.replicate 7 0x0181, Vector.replicate 7 1000000, lane⟩
  chans := Vector.replicate 7 Chan.init
  track := .off
  armed := false
  bound := ⟨0, none⟩
  started := false
  prevBound := ⟨0, none⟩
  theta := 0
  lenNum := 1600
  lenDen := 1
  step := StepSum.zero 0
  inStep := false
  cycle := Span.zero
  ke := Vector.replicate 3 0
  kl := 0
  tUsed := 0
  rUsed := 0
  tFallback := false
  cable := false
  closing := none
  win := none
  winWait := false
  trail := []
  ended := []
  events := Vector.replicate 17 Event.init
  evCleared := 0
  rp := Reverse.init
  qtLast := 0
  mLast := 0
  dmdResImport := 0
  dmdResExport := 0
  dmdFrom := none
  dmdNext := 0
  dmdImported := false
  dmdExported := false
  peakRun := 0
  peakLast := 0
  phys := phys
  shadowed := 0
  shWhole := false
  warm := false
  offFrom := none

/-- A pulse output following point `m` by default (Table 04.10): EA_IMPORT, active high, inactive. -/
def Pulse.init (m : Nat) : Pulse := ⟨0x10 + 0x100 * m, 429496729600000, 0, 0, .idle, false, 0, false, false, ⟨0, 0, 0⟩⟩

/-- A port in link start (R68), its filters empty. -/
def Port.init : Port := ⟨.start, 0, 0, 0, 0, false, false, false, 0, 0, 0, [], [], false⟩

/-- An unpaired understudy (Table 02.13). -/
def Spare.init : Spare := ⟨.idle, none, 0, false, false⟩

/-- A physical lane in service with its own number, L4 idle (R35). -/
def Lane.init (l : Nat) : Lane :=
  if h : l < 4 then ⟨.inService, some ⟨l, h⟩, false, [], 0, 0, false, false⟩
  else ⟨.idle, none, false, [], 0, 0, false, false⟩

/-- A link with nothing waiting. -/
def LinkSt.init : LinkSt := ⟨[], [], []⟩

/-- A log as at manufacture: every copy slot blank (R252). -/
def LogSt.init : LogSt := ⟨0, []⟩

/-- CAN FD at rest, with the default settings and straps read 0 (Tables 13.14 and 13.15). -/
def CanSt.init : CanSt := ⟨0, 0, 0, [], false, 0, 0, 0, false, [], 16, 0x1222, 0x1A⟩

/-- No stream. -/
def Stream.init : Stream := ⟨false, 0, 1, false, 0, [], [], 0, 0⟩

/-- An empty journal. -/
def Journal.init : Journal := ⟨[], none, [], false, 0, 0, 0⟩

/-- No demand interval metered: the default length of DMD_CFG, 15 min. -/
def Demand.init : Demand := ⟨900, 0, 900⟩

/-- No start-up under way. -/
def RecallSt.init : RecallSt := ⟨0, 0, false, 0, 0⟩

/-- A checkpoint body of a device that has metered nothing (R148). -/
def Body.zero : Body :=
  ⟨[], Vector.replicate 8 ⟨0, 0, none, 0, false, false, 0, 0⟩, Demand.init, Vector.replicate 8 Grown.zero, false⟩

/-- The checkpoints and saves as at manufacture: slot 0 valid with the state of a device that has metered nothing, no save (R148). -/
def Store.init : Store where
  slots := #v[⟨true, 0, 0, Config.finalTest, some Body.zero⟩, ⟨false, 0, 0, 0, none⟩]
  writing := none
  writeStart := 0
  nextDue := 0
  saves := Vector.replicate 2 ⟨0, 0, 0, 0, 0, none, none, none, [], [], []⟩
  tally := []
  marker := none

/-- The NVM array as at manufacture. -/
def Nvm.init : Nvm := ⟨[], [], [], [], [], [], [], false, false, true, true, false⟩

/-- A converter powered down. -/
def Conv.init : Conv := ⟨true, false, false, [], none, 0, 4194304, 0, 0, false⟩

/-- A result with no conversion. -/
def AuxSum.zero : AuxSum := ⟨0, 0, none, false⟩

/-- A logical couple at rest. -/
def Couple.init : Couple := ⟨.idle, false, false, false, 0, 0, 0, 0, 0, AuxSum.zero, AuxSum.zero, 0, 0, 0, [], 0, AuxSum.zero, 0, false, 0⟩

/-- An empty plate slot. -/
def Plate.empty : Plate := ⟨false, 0, Vector.replicate 7 4194304, Vector.replicate 7 0, Vector.replicate 7 0⟩

/-- A bank as at manufacture: B0 to B3 in service with their own number, B4 idle (R208). -/
def Bank.init (b : Nat) : Bank :=
  if h : b < 4 then ⟨.inService, some ⟨b, h⟩, false, 0, [], [], ⟨[], none⟩, ⟨[], none⟩⟩ else ⟨.idle, none, false, 0, [], [], ⟨[], none⟩, ⟨[], none⟩⟩

/-- No test attempt. -/
def March.init : March := ⟨.idle, 0, 0, false, false⟩


/-- The state of the device. -/
structure State where
  /-- The value of every number entry whose value differs from its default, by key (index × 256 + subindex), keys rising (R15, R376). -/
  nums : List (Nat × Int)
  /-- The value of every byte-string entry that has been written, by key, keys rising (R376). -/
  blobs : List (Nat × List Byte)
  /-- The commands that wait to be run, the next first. The model's own. -/
  pending : List Instr
  /-- The counter of free values. The model's own. -/
  free : Nat
  /-- The mode in force (Table 00.3, R343). -/
  mode : Mode
  /-- ATTENDED in LOCKDOWN (R351). -/
  attended : Bool
  /-- The transition that waits for its mode index (R344). -/
  modeNext : Option Mode
  /-- The last mode indices with the modes that began there, newest first (R143, R344). -/
  modeHist : List (Nat × Mode)
  /-- The real-time clock, TAI in ns (R358). -/
  rtc : Nat
  /-- The sample index of the period that runs (R24). -/
  index : Nat
  /-- The time step that takes effect at the next period, in ns (R359). -/
  timeStepNext : Int
  /-- Where start-up stands (Table 12.7). -/
  startup : RecallSt
  /-- Decisions that wait for their second evaluation, the first due first (R167, R350, Table 11.3). -/
  twins : List TwinKind
  /-- The LOCKDOWN latch of the backup domain (R346). -/
  lockLatch : Bool
  /-- The LOCKDOWN state in NVM (R346). -/
  lockNvm : Bool
  /-- An integrity fault has occurred since RECALL began (R345). -/
  integrityFlag : Bool
  /-- The five physical lanes (R27, R35 to R41): state, logical lane, digit histories, the open latency interval. -/
  lanes : Vector Lane 5
  /-- The substitution or restore under way (R39, R441). -/
  laneSub : Option LaneSub
  /-- The 60 modulator ports (R53 to R78): link state, phase, block counters, delays, filter history. -/
  ports : Vector Port 60
  /-- The four understudies and the port each is paired with (R83 to R85). -/
  spares : Vector Spare 4
  /-- Which of the 15 port groups get MCLK (R58). -/
  mclk : Vector Bool 15
  /-- The number of the running block of 1,024 edges (R66). -/
  blockNo : Nat
  /-- A faulty port found no understudy (R85). -/
  portNoSpare : Bool
  /-- Which groups have learned their return delay (R65). -/
  learned : Vector Bool 15
  /-- The eight points: tracker, step sums, windows, events, reverse power, demand residues, filters and the configuration in force (chapters 03 and 04). -/
  points : Vector Point 8
  /-- The eight pulse outputs: settings in force, residue, phase and level (R137 to R142). -/
  pulses : Vector Pulse 8
  /-- The demand interval that runs and the one that ended (R132 to R135). -/
  demand : Demand
  /-- The event queue, oldest first (R21, R112). -/
  evq : List EventEntry
  /-- Events that found the queue full and merge (R21). -/
  evOver : List EventEntry
  /-- Records that wait to be written to a log or the ring, oldest first (R253). -/
  jobs : List RecJob
  /-- The five logs: next sequence and the copy slots (R252). -/
  logs : Vector LogSt 5
  /-- Health records of the last second that merge (R442). -/
  merges : List HealthMerge
  /-- The journal: units that wait, the unit that runs, units to retire (R244 to R248). -/
  journal : Journal
  /-- Checkpoint slots, save areas and the tally copies (R249 to R259). -/
  store : Store
  /-- The NVM array: spare groups in use, remap, groups in error, statute copies, injection, write inhibit (R229 to R243). -/
  nvm : Nvm
  /-- The host scratch area by byte address, in canonical form: addresses rising, no zero byte listed (R237). -/
  scratch : List Host.Cell
  /-- The SPI link: requests received and not answered, responses that wait, bytes sent last (R384 to R386, R393). -/
  spi : LinkSt
  /-- The CAN FD link: requests received and not answered, responses that wait (R390 to R393). -/
  can : LinkSt
  /-- The CAN controller: error counters, bus-off, reassembly, settings in force (R389 to R392, R401). -/
  bus : CanSt
  /-- The sample stream: what it takes, what it gathered, frames that wait (R398, R399). -/
  stream : Stream
  /-- The open tableau: ID, freeze index, image, reads that wait (R45 to R50, R396, R397). -/
  tab : Option Tableau
  /-- The last local tableau ID given (R396). -/
  tabLast : Nat
  /-- Batches that hold a read of an image not complete, in the order they came (R395, R397). -/
  heldBatches : List (Requester × List Byte)
  /-- The calibration run (R158 to R170). -/
  cal : Option CalRun
  /-- The plate in force on each point (R153 to R157). -/
  plateUse : Vector PlateUse 8
  /-- The plates sealed with the device, by point and slot (R171). -/
  sealedRef : Vector (Vector Plate 4) 8
  /-- The eight auxiliary converters (R176 to R187). -/
  convs : Vector Conv 8
  /-- The three couples: table position, pass, result sums, injection (R187 to R197). -/
  couples : Vector Couple 3
  /-- The sample index of each auxiliary input's latest result, moved along by a rebase (R25, R129). -/
  inputAt : Vector Nat 32
  /-- The auxiliary calibration run (R198 to R200). -/
  auxRun : Option AuxRun
  /-- The five banks: state, logical bank, symbol errors, wear (R207 to R226). -/
  banks : Vector Bank 5
  /-- The march test attempt (R218 to R220). -/
  march : March
  /-- The bank substitution under way (R223). -/
  bankSub : Option BankSub
  /-- The words of the banks, 80 bits of ten symbols each, by place 8192 × bank + 512 × region + word; unlisted words are all zero bits (R207). -/
  sram : List (Nat × Nat)
  /-- The place that the sweep reads next (R224). -/
  sweepAt : Nat
  /-- Reads that each string has met since it was made taut (R432, R435). -/
  stringReads : Vector Nat 8
  /-- The eight sessions: descriptors, gathered fields, requests that wait (R265 to R273). -/
  sessions : Vector Session 8
  /-- The signer: keys, the queue of messages, the random source (R274 to R287). -/
  sign : SignSt
  /-- The display: stencils, ledgers, compensation, pump, records (R290 to R317). -/
  disp : Display
  /-- The sixteen tamper sources, their counters and windows, the backup domain's copies (R318 to R342). -/
  tamper : TamperSt
  /-- The four Thiber ports, numbering, time exchange, site tableau and joins (R402 to R431). -/
  thb : Thiber
  /-- SERVICE: straps, challenge, authentication, sealing, retests (R347 to R355, R439 to R441, R445). -/
  svc : ModeSt
  deriving DecidableEq, Repr

/-- The machine right after reset: a device as it leaves manufacture, DORMANT, every entry at its default (R15), checkpoint slot 0 written (R148),
nothing pending. Its RTC starts at 0 with RTC_VALID 0 (DESIGN CHOICE, log entry 1: the spec gives the RTC no reset value). -/
def State.reset : State where
  nums := []
  blobs := []
  pending := []
  free := 0
  mode := .dormant
  attended := false
  modeNext := none
  modeHist := []
  rtc := 0
  index := 0
  timeStepNext := 0
  startup := RecallSt.init
  twins := []
  lockLatch := false
  lockNvm := false
  integrityFlag := false
  lanes := Vector.ofFn fun l => Lane.init l
  laneSub := none
  ports := Vector.replicate 60 Port.init
  spares := Vector.replicate 4 Spare.init
  mclk := Vector.replicate 15 false
  blockNo := 0
  portNoSpare := false
  learned := Vector.replicate 15 false
  points := Vector.ofFn fun p => Point.init (p.val / 2) ⟨p.val / 2, by omega⟩
  pulses := Vector.ofFn fun m => Pulse.init m
  demand := Demand.init
  evq := []
  evOver := []
  jobs := []
  logs := Vector.replicate 5 LogSt.init
  merges := []
  journal := Journal.init
  store := Store.init
  nvm := Nvm.init
  scratch := []
  spi := LinkSt.init
  can := LinkSt.init
  bus := CanSt.init
  stream := Stream.init
  tab := none
  tabLast := 0
  heldBatches := []
  cal := none
  plateUse := Vector.replicate 8 ⟨false, 0⟩
  sealedRef := Vector.replicate 8 (Vector.replicate 4 Plate.empty)
  convs := Vector.replicate 8 Conv.init
  couples := Vector.replicate 3 Couple.init
  inputAt := Vector.replicate 32 0
  auxRun := none
  banks := Vector.ofFn fun b => Bank.init b
  march := March.init
  bankSub := none
  sram := []
  sweepAt := 0
  stringReads := Vector.replicate 8 0
  sessions := Vector.replicate 8 Session.init
  sign := SignSt.init
  disp := Display.init
  tamper := TamperSt.init
  thb := Thiber.init
  svc := ModeSt.init

end Sys2Proof.Machine
end

