-- ==== Sys2Proof/Machine/Ops.lean ====
section
/-! DEFINITION. Machine/Ops.lean: the named operations every family uses: entries and their tableau copies, time, tags, logs, health events,
integrity faults and mode changes. -/

namespace Sys2Proof.Machine

open Sys2Proof

/-! ### Sparse maps in canonical form: keys strictly rising -/

/-- The value of a key. -/
def lookupL {α : Type} : List (Nat × α) → Nat → Option α
  | [], _ => none
  | (a, v) :: r, k => if a = k then some v else lookupL r k

/-- The map with a key set. -/
def insertL {α : Type} (k : Nat) (v : α) : List (Nat × α) → List (Nat × α)
  | [] => [(k, v)]
  | (a, w) :: r => if k < a then (k, v) :: (a, w) :: r else if k = a then (k, v) :: r else (a, w) :: insertL k v r

/-- The map without a key. -/
def eraseL {α : Type} (k : Nat) : List (Nat × α) → List (Nat × α)
  | [] => []
  | (a, w) :: r => if a = k then eraseL k r else (a, w) :: eraseL k r

/-- The map with a key set, where the key's default value is not listed. -/
def putL {α : Type} [DecidableEq α] (d : α) (k : Nat) (v : α) (l : List (Nat × α)) : List (Nat × α) :=
  if v = d then eraseL k l else insertL k v l

namespace State

/-- The value of a number entry: listed, or its default (R15). -/
def getN (s : State) (k : Nat) : Int := (lookupL s.nums k).getD (dfltN k)

/-- The same as a natural number. -/
def getU (s : State) (k : Nat) : Nat := (s.getN k).toNat

/-- The value of a byte-string entry. -/
def getB (s : State) (k : Nat) : List Byte := (lookupL s.blobs k).getD (dfltB k)

/-- The state with a number entry set. -/
def setN (s : State) (k : Nat) (v : Int) : State := { s with nums := putL (dfltN k) k v s.nums }

/-- The state with a byte-string entry set. -/
def setB (s : State) (k : Nat) (v : List Byte) : State := { s with blobs := putL (dfltB k) k v s.blobs }

/-- The state with an entry set. -/
def setV (s : State) (k : Nat) : Val → State
  | .num v => s.setN k v
  | .bytes b => s.setB k b

end State

/-! ### The frozen set and copy-on-write (R46, R47, Table 13.10) -/

/-- Whether an entry belongs to the frozen set. -/
def isFrozen (k : Nat) : Bool :=
  let idx := k / 256
  let sub := k % 256
  let b := baseIdx idx
  (idx = 0x10F0 && sub ≤ 4)
  || (0x2011 ≤ b && b ≤ 0x2017) || b = 0x2019 || b = 0x201A
  || (0x3000 ≤ b && b ≤ 0x30A4)
  || (0x4000 ≤ b && b ≤ 0x4008) || b = 0x4010
  || idx = 0x4801 || (0x4813 ≤ idx && idx ≤ 0x4816)
  || (0x5001 ≤ b && b ≤ 0x5004)
  || (0x6050 ≤ b && b ≤ 0x6053)
  || (0x7003 ≤ idx && idx ≤ 0x7006) || (0x7030 ≤ idx && idx ≤ 0x703A) || (0x7041 ≤ idx && idx ≤ 0x7043)
  || (0xA002 ≤ idx && idx ≤ 0xA005) || (0xA010 ≤ idx && idx ≤ 0xA012)
  || b = 0xC001 || b = 0xC002 || b = 0xC004 || b = 0xC005

namespace State

/-- Before an entry changes because of index `n`: its old value goes into the tableau image, once, when `n` lies above the freeze index (R47). -/
def cow (s : State) (n k : Nat) : State :=
  match s.tab with
  | some t =>
    if t.freeze < n ∧ isFrozen k = true ∧ (lookupL t.nums k).isNone = true then
      { s with tab := some { t with nums := insertL k (s.getN k) t.nums } }
    else s
  | none => s

/-- Set a number entry because of sample index `n`, with the tableau's copy first. -/
def setQ (s : State) (n k : Nat) (v : Int) : State := (s.cow n k).setN k v

/-- Set a number entry at the present index. -/
def put (s : State) (k : Nat) (v : Int) : State := s.setQ s.index k v

/-- Add to a saturating counter of `w` bits because of index `n`. -/
def addSatQ (s : State) (n w k d : Nat) : State := s.setQ n k (satAdd w (s.getU k) d : Nat)

/-- Add to a saturating counter of `w` bits at the present index. -/
def addSat (s : State) (w k d : Nat) : State := s.addSatQ s.index w k d

/-- Add to a wrapping counter of `w` bits because of index `n`. -/
def addWrapQ (s : State) (n w k d : Nat) : State := s.setQ n k (wrapAdd w (s.getU k) d : Nat)

/-- Add to a wrapping counter of `w` bits at the present index. -/
def addWrap (s : State) (w k d : Nat) : State := s.addWrapQ s.index w k d

/-- Raise a worst-value entry. -/
def raise (s : State) (k v : Nat) : State := if s.getU k < v then s.put k v else s

/-- Take a fresh free value's number. -/
def fresh (s : State) : Nat × State := (s.free, { s with free := s.free + 1 })

/-! ### Time (R17, R24) -/

/-- The instant t(n) in ns of TAI. -/
def instant (s : State) (n : Nat) : Nat := ((n * 12500 : Nat) + s.getN K.INDEX_SHIFT : Int).toNat

end State

/-- The TIME code of an instant in ns: seconds and 16 ns units, rounded down (R17, R26). -/
def stampOf (ns : Nat) : Nat := ns / 1000000000 * 2 ^ 32 + ns % 1000000000 / 16

/-- The instant of a TIME code in ns. -/
def nsOfStamp (t : Nat) : Nat := t / 2 ^ 32 * 1000000000 + t % 2 ^ 32 * 16

namespace State

/-- The present RTC as TIME. -/
def now (s : State) : Nat := stampOf s.rtc

/-- The stamp of an index. -/
def stamp (s : State) (n : Nat) : Nat := stampOf (s.instant n)

/-- The RTC moved on to an instant, never back. -/
def at' (s : State) (ns : Nat) : State := { s with rtc := max s.rtc ns }

/-! ### Modes and tags (R6, R143, R344) -/

/-- The mode decided on: in force, or waiting for its mode index. -/
def decided (s : State) : Mode := s.modeNext.getD s.mode

/-- The mode at a sample index: the newest transition at or before it; in RECALL the mode in which it will end, as far as decided (R346). -/
def modeAt (s : State) (n : Nat) : Mode :=
  match s.modeHist.find? (fun h => h.1 ≤ n) with
  | some h => h.2
  | none => s.decided

/-- Whether any string is taut (R432). -/
def taut (s : State) : Bool := s.getN K.STRING_TAUT ≠ 0

/-- Whether the SEAL fuse is set (R19). -/
def sealed (s : State) : Bool := s.getU K.FUSE_MAP ≥ 2 ^ 31

/-- Record tags at an index: bit 0 SERVICE, bit 1 TEST, bit 2 LOCKDOWN (Table 03.10). -/
def tagsAt (s : State) (n : Nat) : Nat :=
  natOfBool (s.modeAt n = .service) + 2 * natOfBool s.taut + 4 * natOfBool (s.modeAt n = .lockdown)

/-- Record tags now. -/
def tags (s : State) : Nat :=
  natOfBool (s.mode = .service) + 2 * natOfBool s.taut + 4 * natOfBool (s.mode = .lockdown)

/-- Whether metering runs: every mode but DORMANT and RECALL before the restored state (R4). -/
def serves (s : State) : Bool :=
  match s.mode with | .metering | .service | .lockdown => true | _ => false

end State

/-! ### Logs (R252, R253) -/

/-- The place of a log in the state. -/
def LogKind.pos : LogKind → Fin 5
  | .event => 0 | .tamper => 1 | .history => 2 | .health => 3 | .ring => 4

/-- The positions of a log: 160 in the ring, 128 in every other (R252). -/
def LogKind.places : LogKind → Nat
  | .ring => 160
  | _ => 128

/-- The bytes of a record with its storage sequence in place: the first four bytes of tamper and health records, the last byte of an event
record, and STORAGE_SEQ of a hallmark, which stands in bytes 8 to 11 (Tables 03.10, 09.2, 11.4, 15.5); history records carry none. -/
def withSeq (k : LogKind) (q : Nat) (b : List Byte) : List Byte :=
  match k with
  | .tamper | .health => leBytes 4 q ++ b.drop 4
  | .event => b.take 31 ++ [byteOf (q % 256)]
  | .history | .ring => b

namespace State

/-- The log of a kind. -/
def log (s : State) (k : LogKind) : LogSt := s.logs[k.pos]

/-- The state with a log replaced. -/
def setLog (s : State) (k : LogKind) (l : LogSt) : State := { s with logs := s.logs.set k.pos l }

/-- Start the first waiting record: its log's sequence tally moves before the first copy is written (R253). -/
def startJob (s : State) : State :=
  match s.jobs with
  | j :: r =>
    match j.seq with
    | none =>
      let l := s.log j.log
      { (s.setLog j.log { l with total := wrapAdd 32 l.total 1 }) with
        jobs := { j with seq := some l.total, bytes := withSeq j.log l.total j.bytes } :: r }
    | some _ => s
  | [] => s

/-- Queue a record for its log. -/
def queueRecord (s : State) (j : RecJob) : State := startJob { s with jobs := s.jobs ++ [j] }

/-- The record of storage sequence `q`, where its position still holds it. -/
def recordOf (s : State) (k : LogKind) (q : Nat) : Option (List Byte) :=
  let l := s.log k
  let pos := 2 * (q % k.places)
  let pick (c : Nat) : Option (List Byte) :=
    match lookupL l.slots (pos + c) with
    | some x => if x.good ∧ x.seq = q then some x.bytes else none
    | none => none
  match pick (q % 2) with
  | some b => some b
  | none => pick ((q + 1) % 2)

/-! ### Health events (R442) -/

/-- A health event: a record, or one more event counted for the pair's next record within 1 s. -/
def health (s : State) (code resource detail : Nat) : State :=
  let old := s.merges.find? (fun m => m.code = code ∧ m.resource = resource)
  let rest := s.merges.filter (fun m => ¬ (m.code = code ∧ m.resource = resource))
  match old with
  | some m =>
    if s.rtc < m.last + 1000000000 then { s with merges := { m with count := m.count + 1 } :: rest }
    else
      let b := leBytes 4 0 ++ leBytes 2 code ++ leBytes 1 resource ++ leBytes 1 s.tags ++ leBytes 10 s.now
        ++ leBytes 6 s.index ++ leBytes 4 detail ++ leBytes 4 (satAdd 32 m.count 0)
      ({ s with merges := ⟨code, resource, s.rtc, 0⟩ :: rest }).queueRecord ⟨.health, b, none, 0, none⟩
  | none =>
    let b := leBytes 4 0 ++ leBytes 2 code ++ leBytes 1 resource ++ leBytes 1 s.tags ++ leBytes 10 s.now
      ++ leBytes 6 s.index ++ leBytes 4 detail ++ leBytes 4 0
    ({ s with merges := ⟨code, resource, s.rtc, 0⟩ :: s.merges }).queueRecord ⟨.health, b, none, 0, none⟩

/-! ### The journal (R245, R246) -/

/-- Queue a journal unit. -/
def queueUnit (s : State) (u : JUnit) : State :=
  { s with journal := { s.journal with waiting := s.journal.waiting ++ [u] } }

/-- Device state that the live state already shows is recorded in NVM by a journal unit (R245); `old`: what NVM holds until its commit group. -/
def recordDevice (s : State) (old new : List EntryWrite) : State := s.queueUnit ⟨new, 16 * new.length, .device old⟩

/-! ### Points, channels, ports -/

/-- The state with one point changed. -/
def updPoint (s : State) (p : Fin 8) (f : Point → Point) : State := { s with points := s.points.set p (f s.points[p]) }

/-- The state with one channel changed. -/
def updChan (s : State) (p : Fin 8) (c : Fin 7) (f : Chan → Chan) : State :=
  s.updPoint p fun x => { x with chans := x.chans.set c (f x.chans[c]) }

/-- The state with one port changed. -/
def updPort (s : State) (m : Fin 60) (f : Port → Port) : State := { s with ports := s.ports.set m (f s.ports[m]) }

/-- The state with one physical lane changed. -/
def updLane (s : State) (l : Fin 5) (f : Lane → Lane) : State := { s with lanes := s.lanes.set l (f s.lanes[l]) }

/-- The state with one understudy port changed. -/
def updSpare (s : State) (i : Fin 4) (f : Spare → Spare) : State := { s with spares := s.spares.set i (f s.spares[i]) }

/-- The state with one pulse output changed. -/
def updPulse (s : State) (m : Fin 8) (f : Pulse → Pulse) : State := { s with pulses := s.pulses.set m (f s.pulses[m]) }

end State

/-- The points in ascending order. -/
def allPoints : List (Fin 8) := [0, 1, 2, 3, 4, 5, 6, 7]

/-- The channels in ascending order. -/
def allChans : List (Fin 7) := [0, 1, 2, 3, 4, 5, 6]

/-- A state changed in turn for each element of a list. -/
def forEach {α : Type} (l : List α) (f : α → State → State) (s : State) : State := l.foldl (fun s a => f a s) s

end Sys2Proof.Machine
end

