-- ==== Sys2Proof/Machine/ModeOps.lean ====
section
/-! DEFINITION. Machine/ModeOps.lean: entering LOCKDOWN, integrity faults and slackening the strings, shared by every chapter that causes them
(R343, R346, R353, R432). -/

namespace Sys2Proof.Machine

open Sys2Proof

namespace State

/-- Every string slack: ENABLE 0 with the other fields kept, STRING_TAUT 0, and the end of the taint recorded (R432, R438). -/
def slackAll (s : State) : State :=
  if s.taut = false then s else
  let was := s.getU K.STRING_TAUT
  let s := forEach [1, 2, 3, 4, 5, 6, 7, 8] (fun i s => s.setN (K.STRING_CFG i) (s.getU (K.STRING_CFG i) % 2 ^ 63 : Nat)) s
  let s := s.health 19 0xFF was
  (s.setN K.STRING_TAUT 0).setN K.TAINT_SINCE s.now

/-- Decide the transition to LOCKDOWN: it takes effect at the mode index, the backup latch sets now, and device state follows as a journal
unit (R344, R346). `att`: ATTENDED is set, where LOCKDOWN is entered from SERVICE by a response (R352). -/
def toLockdown (s : State) (att : Bool) : State :=
  if s.decided = .lockdown then { s with lockLatch := true } else
  let s := { s with modeNext := some .lockdown, lockLatch := true, attended := att && decide (s.decided = Mode.service) }
  s.queueUnit ⟨[], 8, .lockState true⟩

/-- An integrity fault (R353): the entries, INTEGRITY, a health record, and LOCKDOWN without a decision or a mark. -/
def integrity (s : State) (cause detail idx : Nat) : State :=
  let word := cause * 2 ^ 24 + detail % 2 ^ 24
  let s := (((s.setN K.INTEGRITY_CAUSE (word : Nat)).setN K.INTEGRITY_TIME s.now).setN K.INTEGRITY_INDEX (idx : Nat))
  let s := (s.addSat 32 K.INTEGRITY_COUNT 1).health 17 0xFF word
  ({ s with integrityFlag := true }).toLockdown (s.attended)

end State

end Sys2Proof.Machine
end

