-- ==== Sys2Proof/Machine/Lanes.lean ====
section
/-! DEFINITION. Machine/Lanes.lean: lane load and release slots, the latency monitor, corrected and uncorrectable lane faults, wear,
shadowing and handover (R27 to R41, R440, R441). -/

namespace Sys2Proof.Machine

open Sys2Proof

/-- The kind of a POINT_CFG word (Table 03.2): 0 OFF, 1 to 3 AC, 4 DC. -/
def kindOf (cfg : Nat) : Nat := cfg % 8

/-- The load units of a point (R29). -/
def loadUnits (kind : Nat) (osr500 : Bool) : Nat := if kind = 0 then 0 else if osr500 then 7 else 14

namespace State

/-- The load of a logical lane were the points to have these kinds, OSRs and lanes (R29). -/
def loadWith (_ : State) (l : Nat) (kind : Fin 8 → Nat) (osr : Fin 8 → Bool) (lane : Fin 8 → Nat) : Nat :=
  (allPoints.map fun p => if lane p = l then loadUnits (kind p) (osr p) else 0).sum

/-- The configured kind, OSR and lane of a point. -/
def cfgKind (s : State) (p : Fin 8) : Nat := kindOf (s.getU (K.POINT_CFG p))
def cfgOsr (s : State) (p : Fin 8) : Bool := s.getU (K.DEC_CONFIG p) % 2 = 1
def cfgLane (s : State) (p : Fin 8) : Nat := s.getU (K.LANE_MAP (p + 1))

/-- LANE_LOAD of a logical lane (R29), by the configuration in force. -/
def laneLoad (s : State) (l : Nat) : Nat :=
  s.loadWith l (fun p => kindOf s.points[p].app.cfg) (fun p => s.points[p].app.osr500) (fun p => s.points[p].app.lane)

end State

/-- Slots of a lane as R28 fills them: each group of seven is free, held by an OSR 250 point, or split in halves. -/
structure SlotGroup where
  first : Option (Fin 8)
  second : Option (Fin 8)
  full : Bool
  deriving DecidableEq, Repr

/-- R28's walk: the groups after placing a point. -/
def placePoint (osr500 : Bool) (p : Fin 8) (g0 g1 : SlotGroup) : SlotGroup × SlotGroup :=
  let free (g : SlotGroup) : Bool := g.first.isNone && !g.full
  let half (g : SlotGroup) : Bool := g.first.isSome && !g.full && g.second.isNone
  if osr500 then
    if half g0 then ({ g0 with second := some p }, g1)
    else if half g1 then (g0, { g1 with second := some p })
    else if free g0 then ({ g0 with first := some p }, g1)
    else (g0, { g1 with first := some p })
  else if free g0 then (⟨some p, none, true⟩, g1)
  else (g0, ⟨some p, none, true⟩)

namespace State

/-- The slot groups of a logical lane (R28). -/
def slotGroups (s : State) (l : Nat) : SlotGroup × SlotGroup :=
  allPoints.foldl (fun g p =>
    let a := s.points[p].app
    if a.lane = l ∧ kindOf a.cfg ≠ 0 then placePoint a.osr500 p g.1 g.2 else g) (⟨none, none, false⟩, ⟨none, none, false⟩)

/-- The release slot j of a channel (R28), and whether it is released in the period after its words are loaded. -/
def releaseSlot (s : State) (p : Fin 8) (c : Fin 7) : Nat × Bool :=
  let g := s.slotGroups s.points[p].app.lane
  if g.1.first = some p then (c, false)
  else if g.1.second = some p then (c, true)
  else if g.2.first = some p then (7 + c, false)
  else (7 + c, true)

/-- The 40 MHz cycle of a channel's slot within the period (R27). -/
def releaseCycle (s : State) (p : Fin 8) (c : Fin 7) : Nat := 32 * (s.releaseSlot p c).1 + 8 * s.points[p].app.lane

/-! ### Wear and substitution -/

/-- Points a lane presently serves. -/
def servedBy (s : State) (l : Fin 5) : List (Fin 8) := allPoints.filter fun p => s.points[p].phys = l

/-- A physical lane's state, NO_SPARE and logical lane as the low bits of LANE_STATE (Table 01.7). -/
def laneCode (x : Lane) : Nat :=
  (match x.state with | .idle => 0 | .inService => 1 | .worn => 2 | .shadowing => 3 | .retired => 4 | .testing => 5) + 256 * natOfBool x.noSpare
    + 512 * (match x.logical with | some k => k.val | none => 7)

/-- The lane that such a code describes. -/
def laneOfCode (w : Nat) (x : Lane) : Lane :=
  let k := field w 11 9
  { x with
    state := match w % 8 with | 0 => .idle | 1 => .inService | 2 => .worn | 3 => .shadowing | 4 => .retired | _ => .testing
    noSpare := bit w 8, logical := if h : k < 4 then some ⟨k, h⟩ else none }

/-- What NVM records of a substitution (R40): the carriage of both lanes, and SUB_COUNT to SUB_TIME. -/
def laneRecord (s : State) (a b : Fin 5) : List EntryWrite :=
  (([a, b] : List (Fin 5)).map fun (l : Fin 5) => (⟨K.LANE_STATE (l + 1), .num (laneCode s.lanes[l] : Nat)⟩ : EntryWrite))
    ++ ([K.SUB_COUNT, K.SUB_FROM, K.SUB_INDEX, K.SUB_TIME].map fun k => ⟨k, .num (s.getN k)⟩)

/-- The last point of a substitution is handed over (R39 step 4, R441), and NVM records it (R40, R245). -/
def finishSub (s : State) (sub : LaneSub) (n : Nat) : State :=
  let old := s.laneRecord sub.leaving sub.shadow
  let out := s.lanes[sub.leaving]
  let lg := match out.logical with | some k => k.val | none => 7
  let s := s.updLane sub.shadow fun x => { x with state := .inService, logical := out.logical }
  let s := s.updLane sub.leaving fun x =>
    { x with logical := none, noSpare := false, state := if sub.restore then .idle else .retired }
  let s := { s with laneSub := none }
  let s := if sub.restore then s.health 5 sub.shadow lg else
    let s := s.setN K.SUB_COUNT (min (s.getN K.SUB_COUNT + 1) 4)
    let s := ((s.setN K.SUB_FROM (sub.leaving.val : Nat)).setN K.SUB_INDEX (n : Nat)).setN K.SUB_TIME (s.stamp n)
    s.health 3 sub.leaving lg
  s.recordDevice old (s.laneRecord sub.leaving sub.shadow)

/-- Hand a point over to the shadowing lane at index `n` (R39 step 3). -/
def handOver (s : State) (p : Fin 8) (n : Nat) : State :=
  match s.laneSub with
  | none => s
  | some sub =>
    if p ∈ sub.points then
      let rest := sub.points.filter (· ≠ p)
      let s := s.updPoint p fun x => { x with phys := sub.shadow, shadowed := 0, shWhole := false, warm := false }
      if rest = [] then s.finishSub sub n else { s with laneSub := some { sub with points := rest } }
    else s

/-- Points of kind OFF release no words, so nothing has to warm: they pass over at once (R29, R39). -/
def handOverOff (s : State) (n : Nat) : State :=
  match s.laneSub with
  | none => s
  | some sub => forEach (sub.points.filter fun p => kindOf s.points[p].app.cfg = 0) (fun p s => s.handOver p n) s

/-- Start shadowing (R39 step 1). A sample of which the shadowing lane misses the first channels is no shadowed sample. -/
def startShadow (s : State) (leaving shadow : Fin 5) (restore : Bool) : State :=
  let pts := s.servedBy leaving
  let s := forEach pts (fun p s => s.updPoint p fun x => { x with shadowed := 0, shWhole := false, warm := false }) s
  let s := s.updLane shadow fun x => { x with state := .shadowing }
  let sub : LaneSub := ⟨leaving, shadow, pts, restore⟩
  if pts = [] then s.finishSub sub s.index
  else ({ s with laneSub := some sub }).handOverOff s.index

/-- Whether a shadowing lane only shadows: no point has been handed over to it. -/
def onlyShadows (s : State) (l : Fin 5) : Bool := (s.servedBy l).isEmpty

/-- Shadowing ends: the worn lane serves its points on with NO_SPARE. A lane that only shadows retires (Table 01.8). One that serves points
handed over to it serves them on, worn and with NO_SPARE, as the table says of a lane that carries a logical lane (DESIGN CHOICE, log entry 22). -/
def endShadow (s : State) (sub : LaneSub) : State :=
  let s := if s.onlyShadows sub.shadow then s.updLane sub.shadow fun x => { x with state := .retired }
    else s.updLane sub.shadow fun x => { x with state := .worn, noSpare := true }
  let s := s.updLane sub.leaving fun x => { x with noSpare := !sub.restore }
  { s with laneSub := none }

/-- Declare a lane worn (R38, R39, Table 01.8); `p` the point served at the declaration. -/
def declareWorn (s : State) (l : Fin 5) (p : Nat) : State :=
  let x := s.lanes[l]
  match x.state with
  | .inService =>
    let s := (s.updLane l fun x => { x with state := .worn }).health 2 l p
    if l ≠ 4 ∧ s.lanes[(4 : Fin 5)].state = .idle ∧ s.laneSub = none then s.startShadow l 4 false
    else s.updLane l fun x => { x with noSpare := true }
  | .shadowing =>
    match s.laneSub with
    | some sub => (s.health 2 l p).endShadow sub
    | none => s
  | _ => s

/-- One operation of a lane: the digit or adder corrected, 0 for none (R37, R38). -/
def laneOp (s : State) (l : Fin 5) (p d : Nat) : State :=
  let s := s.updLane l fun x => { x with ops := d :: x.ops.take 7, corrected1s := x.corrected1s + natOfBool (d ≠ 0) }
  if d = 0 then s else
  let s := s.addSat 32 (K.LANE_CORRECTED (l + 1)) 1
  let x := s.lanes[l]
  if 3 ≤ x.ops.count d ∨ 16 ≤ x.corrected1s then s.declareWorn l p else s

/-- The operations of a word in turn. -/
def laneOps (s : State) (l : Fin 5) (p : Nat) (ds : List Nat) : State := forEach ds (fun d s => s.laneOp l p d) s

/-- The latency monitor on one word (R33). It measures the lane that serves the point; the copies that a shadowing lane processes are no samples
released to it for service and enter no figure (DESIGN CHOICE, log entry 22). -/
def laneLatency (s : State) (l : Fin 5) (lat ii : Nat) : State :=
  let s := (s.raise (K.LAT_WORST (l + 1)) (min lat 65535)).raise (K.II_WORST (l + 1)) (min ii 65535)
  let s := s.updLane l fun x => { x with worst1s := max x.worst1s (min lat 65535) }
  let cnt := natOfBool (s.getU K.LAT_THRESHOLD < lat) + natOfBool (800 < ii)
  if cnt = 0 then s else
  let s := s.addSat 32 (K.LAT_OVER (l + 1)) cnt
  if s.lanes[l].latHigh then s
  else (s.updLane l fun x => { x with latHigh := true }).health 1 l lat

/-- What L4, or a lane being restored, does with its copy of a word while it shadows the point (R39, R41). An uncorrectable operation ends
shadowing while the lane only shadows, and is an integrity fault once it serves a point. -/
def shadowWord (s : State) (p : Fin 8) (n : Nat) (o : LaneObs) : State :=
  match s.laneSub with
  | none => s
  | some sub =>
    if p ∈ sub.points then
      if o.shadowUncorrectable then
        if s.onlyShadows sub.shadow then s.endShadow sub else s.integrity 2 (sub.shadow * 256 + p) n
      else if o.shadowMismatch then (s.health 4 sub.shadow (p * 2 ^ 24 + n % 2 ^ 24)).endShadow sub
      else s.laneOps sub.shadow p o.shadowCorrections
    else s

/-- A sample that the shadowing lane has had from its first channel to its last counts towards the 64 that warm it (R39 step 2). -/
def shadowCount (s : State) (p : Fin 8) (c : Fin 7) : State :=
  match s.laneSub with
  | some sub =>
    if p ∈ sub.points then s.updPoint p fun x =>
      let x := if c = 0 then { x with shWhole := true } else x
      if c = 6 ∧ x.shWhole = true then { x with shadowed := x.shadowed + 1 } else x
    else s
  | none => s

/-- The lane's part of a word: faults, latency, wear, and the shadowing lane's copy. A substitution that this word's operations start takes
copies from the next release slot on (R39 step 1). -/
def laneWord (s : State) (p : Fin 8) (c : Fin 7) (n : Nat) (o : LaneObs) : State :=
  let l := s.points[p].phys
  let shadowed := s.laneSub.isSome
  let s := if o.uncorrectable then s.integrity 2 (l * 256 + p) n else s
  let s := s.laneLatency l o.latency o.interval
  let s := s.laneOps l p o.corrections
  if shadowed then (s.shadowWord p n o).shadowCount p c else s

end State

end Sys2Proof.Machine
end

