-- ==== Sys2Proof/Machine/TamperOps.lean ====
section
/-! DEFINITION. Machine/TamperOps.lean: counting events of the tamper sources, alarms, TAMPER_STATUS and its copies, and the backup domain
(R318 to R322, R328 to R331). -/

namespace Sys2Proof.Machine

open Sys2Proof

/-- The sources of the backup domain (Table 11.1). -/
def backupSource (n : Fin 16) : Bool := n.val ≤ 4 || n.val = 7 || n.val = 8 || n.val = 10

/-- The sources in ascending order. -/
def allSources : List (Fin 16) := List.finRange 16

/-- A set of sources as a mask. -/
def sourceMask (l : List (Fin 16)) : Nat := l.foldl (fun m n => setBit m n.val) 0

namespace State

/-- One source. -/
def src (s : State) (n : Fin 16) : TamperSrc := s.tamper.srcs[n]

/-- The state with one source changed. -/
def updSrc (s : State) (n : Fin 16) (f : TamperSrc → TamperSrc) : State :=
  { s with tamper := { s.tamper with srcs := s.tamper.srcs.set n (f s.tamper.srcs[n]) } }

/-- Class, COUNT and WINDOW of a source (Table 11.8). -/
def srcClass (s : State) (n : Fin 16) : Nat := s.getU (K.SRC_CFG (n + 1)) % 4
def srcCount (s : State) (n : Fin 16) : Nat := field (s.getU (K.SRC_CFG (n + 1))) 15 8
def srcWindow (s : State) (n : Fin 16) : Nat := field (s.getU (K.SRC_CFG (n + 1))) 31 16

/-- Whether a source is disabled for life (R328). -/
def srcFused (s : State) (n : Fin 16) : Bool := bit (s.getU K.TDIS) n

/-- Whether VDD33 is good and alarms go to the arbiter (R324, R331). -/
def mainOn (s : State) : Bool := match s.mode with | .dormant | .holdup => false | _ => true

/-- SRC_STATE of a source (Table 11.10). -/
def srcWord (s : State) (n : Fin 16) : Nat :=
  let x := s.src n
  let counting := x.counting && !(s.srcFused n)
  (if counting then min x.count 255 else 0) * 256 + 32 * natOfBool (bit (s.getU K.TAMPER_MARKS) n) + 16 * natOfBool x.latched
    + 8 * natOfBool x.active + (if s.srcFused n then 2 else natOfBool counting)

/-- SRC_STATE follows the source. -/
def syncSrc (s : State) (n : Fin 16) : State := s.put (K.SRC_STATE (n + 1)) (s.srcWord n : Nat)

/-- The backup copy of TAMPER_STATUS and the marks follows at once, the NVM copy as device state through the journal (R321). -/
def keepMarks (s : State) : State :=
  let st := s.getU K.TAMPER_STATUS
  let mk := s.getU K.TAMPER_MARKS
  ({ s with tamper := { s.tamper with backupStatus := st, backupMarks := mk } }).queueUnit
    ⟨[⟨K.TAMPER_STATUS, .num (st : Nat)⟩, ⟨K.TAMPER_MARKS, .num (mk : Nat)⟩], 8, .device []⟩

/-- Set bit `n` of TAMPER_STATUS; a bit that a write cleared counts a re-arm (R321, R322). -/
def setSticky (s : State) (n : Fin 16) : State :=
  let old := s.getU K.TAMPER_STATUS
  let again := !(bit old n) && (s.src n).cleared
  let s := s.put K.TAMPER_STATUS ((setBit old n : Nat) : Int)
  let s := if again then (s.addSat 32 (K.TAMPER_REARM (n + 1)) 1).updSrc n fun x => { x with cleared := false } else s
  if bit old n then s else s.keepMarks

/-- An alarm of a source in the backup domain while VDD33 is absent, at RTC ns `t` (R330). `late`: ALARM_COUNT does not hold it yet. -/
def dormantAlarm (s : State) (n : Fin 16) (t : Nat) (late : Bool) : State :=
  let s := { s with tamper := { s.tamper with backupStatus := setBit s.tamper.backupStatus n } }
  let cls := s.srcClass n
  s.updSrc n fun x => { x with
    first := if x.dormant = 0 then some (stampOf t) else x.first
    dormant := min (x.dormant + 1) 255, late := if late then min (x.late + 1) 255 else x.late
    latched := x.latched || decide (1 ≤ cls) }

/-- An alarm of a source now (R320, R321): pending for the arbiter while VDD33 is good, kept in the backup domain otherwise. -/
def alarm (s : State) (n : Fin 16) (point value : Nat) : State :=
  if s.mainOn = false then s.dormantAlarm n s.rtc true else
  let s := (s.setSticky n).addSat 32 (K.ALARM_COUNT (n + 1)) 1
  let s := s.put (K.LAST_ALARM (n + 1)) (s.now : Nat)
  let t := s.rtc
  s.updSrc n fun x => { x with
    waiting := x.waiting + 1
    waitTime := if x.waiting = 0 then t else x.waitTime
    point := if x.waiting = 0 then point else min point x.point
    value := if x.waiting = 0 then value else x.value }

/-- An event of a source now (R320). VALUE: for T5 the point × 256 + the port, for T6 the output. -/
def source (s : State) (n : Fin 16) (v : Nat) : State :=
  if s.srcFused n ∨ (backupSource n = false ∧ s.mainOn = false) then s
  else if n = 5 ∧ bit (s.getU (K.SRC_PARAM 6)) (v / 256) = false then s
  else
    let point := if n = 5 then v / 256 else 0xFF
    let value := if n = 5 then v % 256 else if n = 6 then v else 0
    let x := s.src n
    let running := x.counting && decide (s.rtc ≤ x.start + s.srcWindow n * 1000000)
    let cnt := if running then x.count + 1 else 1
    let start := if running then x.start else s.rtc
    if s.srcCount n ≤ cnt then
      ((s.updSrc n fun x => { x with counting := false, count := 0 }).alarm n point value).syncSrc n
    else (s.updSrc n fun x => { x with counting := true, count := cnt, start := start }).syncSrc n

/-- TAMPER_WINDOW_EXPIRY: the window of a counting source has passed (R320). -/
def windowOver (s : State) (n : Fin 16) : State :=
  let x := s.src n
  if x.counting ∧ x.start + s.srcWindow n * 1000000 < s.rtc then
    (s.updSrc n fun x => { x with counting := false, count := 0 }).syncSrc n
  else s

/-- ACTIVE of a source changes (R319). -/
def setActive (s : State) (n : Fin 16) (on : Bool) : State := (s.updSrc n fun x => { x with active := on }).syncSrc n

/-- One strobed sample of a ball: DEBOUNCE samples at the active level are an event, DEBOUNCE at the inactive level end ACTIVE (R318, R319). -/
def strobe (s : State) (n : Fin 16) (high : Bool) : State :=
  let p := s.getU (K.SRC_PARAM (n + 1))
  let deb := p % 256
  let act := high != bit p 15
  let x := s.src n
  if act then
    let s := s.updSrc n fun x => { x with high := min (x.high + 1) 255, low := 0 }
    if deb ≤ x.high + 1 ∧ x.active = false then (s.setActive n true).source n 0 else s
  else
    let s := s.updSrc n fun x => { x with low := min (x.low + 1) 255, high := 0 }
    if deb ≤ x.low + 1 ∧ x.active = true then s.setActive n false else s

/-- A check that must fail `k` times in a row (T3, T4): the k-th failing check is the event, a passing check ends ACTIVE. -/
def checkRun (s : State) (n : Fin 16) (k : Nat) (bad : Bool) : State :=
  if bad then
    let c := (s.src n).high + 1
    let s := s.updSrc n fun x => { x with high := min c k }
    if c = k then (s.setActive n true).source n 0 else s
  else (s.updSrc n fun x => { x with high := 0 }).setActive n false

/-- Write 1 to clear TAMPER_STATUS (R322). -/
def clearSticky (s : State) (w : Nat) : State :=
  let old := s.getU K.TAMPER_STATUS
  let hit := old &&& w
  if hit = 0 then s else
  let s := s.put K.TAMPER_STATUS ((old ^^^ hit : Nat) : Int)
  (forEach (allSources.filter fun (n : Fin 16) => bit hit n.val) (fun n s => s.updSrc n fun x => { x with cleared := true }) s).keepMarks

/-- Main sources stop counting at power-fail detection, and alarms that no decision has answered go into the backup domain with their time
(R331). -/
def stopMain (s : State) : State :=
  let keep (n : Fin 16) (k t : Nat) (s : State) : State :=
    if k = 0 then s else
    let s := s.dormantAlarm n t false
    s.updSrc n fun x => { x with dormant := min (x.dormant + (k - 1)) 255 }
  let s := match s.tamper.run with
    | some d =>
      let s := forEach d.set (fun e s => keep e.source e.count e.time s) s
      { s with tamper := { s.tamper with run := none } }
    | none => s
  forEach allSources (fun (n : Fin 16) s =>
    let s := if backupSource n then s else s.updSrc n fun x => { x with counting := false, count := 0, high := 0, low := 0, active := false }
    let x := s.src n
    let s := keep n x.waiting x.waitTime s
    s.updSrc n fun x => { x with waiting := 0 }) s

end State

end Sys2Proof.Machine
end

