-- ==== Sys2Proof/Machine/Ports.lean ====
section
/-! DEFINITION. Machine/Ports.lean: modulator ports, capture, link checks, decimation, qualifiers, overrange and the understudies
(R53 to R85). -/

namespace Sys2Proof.Machine

open Sys2Proof

/-! ### Channel roles (Table 02.1) -/

/-- Whether a channel has a role on a kind. -/
def hasRole (kind c : Nat) : Bool :=
  match kind with
  | 1 => c = 0 || c = 3 || c = 6
  | 2 => c = 0 || c = 1 || c = 3 || c = 4 || c = 6
  | 3 => c < 7
  | 4 => c < 5
  | _ => false

/-- Whether a channel is required on a kind (R55). -/
def isRequired (kind c : Nat) : Bool :=
  match kind with
  | 1 => c = 0 || c = 3
  | 2 => c = 0 || c = 1 || c = 3 || c = 4
  | 3 => c < 6
  | 4 => c = 0 || c = 3
  | _ => false

/-- Whether a channel is used: a role, and USE in its PORT_CFG (R56). -/
def Applied.uses (a : Applied) (c : Fin 7) : Bool := hasRole (kindOf a.cfg) c && a.ports[c] % 2 = 1

/-- The home port of a channel (R54). -/
def homePort (p : Fin 8) (c : Fin 7) : Fin 60 := ⟨7 * p + c, by omega⟩

/-- The clock group of a port (R57). -/
def groupOf (m : Fin 60) : Fin 15 := ⟨m / 4, by omega⟩

/-- The port of an understudy. -/
def sparePort (i : Fin 4) : Fin 60 := ⟨56 + i, by omega⟩

/-- The point and channel a home port belongs to (R54). -/
def chanOfPort (m : Fin 60) : Option (Fin 8 × Fin 7) :=
  if h : m.val < 56 then some (⟨m / 7, by omega⟩, ⟨m % 7, by omega⟩) else none

namespace State

/-- The port that serves a channel: PHYS_PORT. -/
def physPort (s : State) (p : Fin 8) (c : Fin 7) : Fin 60 :=
  let v := s.getU (K.PHYS_PORT p (c + 1))
  if h : v < 60 then ⟨v, h⟩ else homePort p c

/-- Clock-return mode of a group (R64). -/
def clkReturn (s : State) (g : Fin 15) : Bool := s.getU (K.MCLK_CFG (g + 1)) % 2 = 1

/-- The understudy paired with a home port. -/
def spareOf (s : State) (m : Fin 60) : Option (Fin 4) :=
  ([0, 1, 2, 3] : List (Fin 4)).find? fun i =>
    s.spares[i].state = .paired && (match s.spares[i].home with | some h => h.val = m.val | none => false)

/-- The channel a port presently serves: its own where it is a home port still in use, the home's where it is a serving understudy. -/
def servedChan (s : State) (m : Fin 60) : Option (Fin 8 × Fin 7) :=
  match chanOfPort m with
  | some (p, c) => if s.physPort p c = m then some (p, c) else none
  | none =>
    (allPoints.flatMap fun p => allChans.map fun c => (p, c)).find? fun pc => s.physPort pc.1 pc.2 = m

/-- Whether a port is used: its channel is used, or it is a paired understudy (R58, R66). -/
def portUsed (s : State) (m : Fin 60) : Bool :=
  match s.servedChan m with
  | some (p, c) => s.points[p].app.uses c
  | none => (m.val ≥ 56) && (([0, 1, 2, 3] : List (Fin 4)).any fun i => sparePort i = m && s.spares[i].state = .paired)

/-- The group whose clock a port follows: an understudy follows the home port's group (R82). -/
def clockGroup (s : State) (m : Fin 60) : Fin 15 :=
  match ([0, 1, 2, 3] : List (Fin 4)).find? fun i => sparePort i = m with
  | some i => (match s.spares[i].home with | some h => ⟨h / 4, by omega⟩ | none => groupOf m)
  | none => groupOf m

/-! ### Write-1-to-clear flags (R78) -/

/-- Set bits of PORT_STATUS from hardware at index `n`; a flag that a write cleared counts a re-arm when it sets again. -/
def setPortFlag (s : State) (n : Nat) (p : Fin 8) (c : Fin 7) (mask : Nat) : State :=
  let k := K.PORT_STATUS p (c + 1)
  let old := s.getU k
  let newly := mask &&& (old ^^^ 0xFFFF)
  let again := newly &&& s.points[p].chans[c].cleared
  let s := s.setQ n k ((old ||| mask : Nat) : Int)
  if again = 0 then s
  else (s.addSatQ n 32 (K.REARM_COUNT p (c + 1)) (popCount 16 again)).updChan p c fun x => { x with cleared := x.cleared ^^^ again }

/-- Write 1 to clear PORT_STATUS; QUAL is ignored (R78). -/
def clearPortFlags (s : State) (p : Fin 8) (c : Fin 7) (w : Nat) : State :=
  let k := K.PORT_STATUS p (c + 1)
  let old := s.getU k
  let hit := old &&& w &&& 0x3F
  (s.put k ((old ^^^ hit : Nat) : Int)).updChan p c fun x => { x with cleared := x.cleared ||| hit }

/-! ### Link faults (R66 to R69, R82 to R85) -/

/-- Unpair an understudy as FAULTY (Table 02.5). -/
def spareFaulty (s : State) (i : Fin 4) : State :=
  let home := match s.spares[i].home with | some h => h.val | none => 0xFF
  (s.updSpare i fun x => { x with state := .faulty, home := none, pending := false }).health 7 (56 + i) home

/-- The channel's link is in fault: from the next period (R67); an episode unless it is link start (R69), reported to T5. -/
def channelFault (s : State) (p : Fin 8) (m : Fin 60) : State :=
  match s.ports[m].phase with
  | .good =>
    if s.ports[m].faultPending then s else
    (s.updPort m fun x => { x with faultPending := true, clean := 0 }).source 5 (p * 256 + m)
  | _ => s.updPort m fun x => { x with clean := 0 }

/-- A check fails on a home port that serves its channel: a paired understudy that passes every check takes over, otherwise the channel is in
link fault (R83, Table 02.5). -/
def homeFails (s : State) (p : Fin 8) (m : Fin 60) (forced : Bool) : State :=
  match s.spareOf m with
  | some i =>
    let u := s.ports[sparePort i]
    if u.phase = .good ∧ u.failedInBlock = false ∧ u.faultPending = false then
      s.updSpare i fun x => { x with pending := true, forced := forced }
    else s.channelFault p m
  | none => if s.ports[m].phase = .good then { s.channelFault p m with portNoSpare := true } else s.channelFault p m

/-- Whether the home port of an understudy has failed a check in this block. -/
def homeFailing (s : State) (i : Fin 4) : Bool :=
  match s.spares[i].home with
  | some h => s.ports[homePort ⟨h / 7, by omega⟩ ⟨h % 7, by omega⟩].failedInBlock
  | none => false

/-- The substitution that waits for the next period falls away, because the understudy fails in the same block: the channel is in link fault
and the understudy stays PAIRED (Table 02.5). -/
def cancelSpare (s : State) (i : Fin 4) : State :=
  let was := s.spares[i].pending
  let s := s.updSpare i fun x => { x with pending := false }
  match was, s.spares[i].home with
  | true, some h => s.channelFault ⟨h / 7, by omega⟩ ⟨h, by omega⟩
  | _, _ => s

/-- A check of Table 02.2 fails on a port, with its flag of PORT_STATUS (bit 1 STUCK, 2 DENSITY, 3 SKEW). -/
def checkFails (s : State) (m : Fin 60) (flag : Nat) (forced : Bool) : State :=
  if s.portUsed m = false then s else
  let s := s.updPort m fun x => { x with failedInBlock := true }
  match s.servedChan m with
  | some (p, c) =>
    let s := s.setPortFlag s.index p c (2 ^ flag)
    if m.val < 56 then s.homeFails p m forced else s.channelFault p m
  | none =>
    match ([0, 1, 2, 3] : List (Fin 4)).find? fun i => sparePort i = m with
    | some i => if s.homeFailing i then s.cancelSpare i else s.spareFaulty i
    | none => s

/-- A return check fails: on all four ports of the group, with flag SKEW (Table 02.2). -/
def groupFails (s : State) (g : Fin 15) : State :=
  if s.clkReturn g then forEach (List.finRange 4) (fun j s => s.checkFails ⟨4 * g.val + j.val, by omega⟩ 3 false) s else s

/-- A pending substitution takes hold at cycle 0 and is recorded in NVM as device state (R83, R84, R245); one that a string forced is not
recorded (R436). -/
def applySpare (s : State) (i : Fin 4) : State :=
  let x := s.spares[i]
  match x.pending, x.home with
  | true, some h =>
    let hp : Fin 60 := ⟨h, by omega⟩
    match chanOfPort hp with
    | some (p, c) =>
      let s := s.setQ s.index (K.PHYS_PORT p (c + 1)) ((56 + i : Nat) : Int)
      let s := s.updSpare i fun x => { x with state := .serving, pending := false }
      if x.forced then s
      else
        let n : Int := min (s.getN K.PORT_SUB_COUNT + 1) 4
        let old : List EntryWrite := [⟨K.PHYS_PORT p (c + 1), .num (h.val : Nat)⟩, ⟨K.PORT_SUB_COUNT, .num (s.getN K.PORT_SUB_COUNT)⟩]
        let s := (s.setN K.PORT_SUB_COUNT n).health 6 h (56 + i)
        s.recordDevice old [⟨K.PHYS_PORT p (c + 1), .num (56 + i : Nat)⟩, ⟨K.PORT_SUB_COUNT, .num n⟩]
    | none => s
  | _, _ => s

/-- A detected fault takes hold at cycle 0: a new episode, which ends a running overrange episode (R67, R68, R77). -/
def applyFault (s : State) (m : Fin 60) : State :=
  if s.ports[m].faultPending then
    let s := s.updPort m fun x => { x with faultPending := false, phase := .fault, clean := 0 }
    match s.servedChan m with
    | some (p, c) =>
      (s.addSatQ s.index 32 (K.LINK_COUNT p (c + 1)) 1).updChan p c fun x => { x with ovrEpisode := false, settle := 0 }
    | none => s
  else s

/-! ### Blocks (R62 to R68) -/

end State

/-- Distance of a phase from the nearest transition, counted round the eight phases: phase 7 lies one step from phase 0 of the next period. The
spec does not say whether the distance wraps (DESIGN CHOICE, log entry 53). -/
def phaseGap (mask ph : Nat) : Nat :=
  ((List.range 8).map fun t => if mask.testBit t then min ((ph + 8 - t) % 8) ((t + 8 - ph) % 8) else 8).foldl min 8

/-- The phase farthest from every transition, the lower on a tie; 0 without a transition (R62, R63). -/
def eyeCentre (mask : Nat) : Nat :=
  if mask % 256 = 0 then 0 else
  ((List.range 8).foldl (fun (b : Nat × Nat) ph => if b.1 < phaseGap mask ph then (phaseGap mask ph, ph) else b) (0, 0)).2

namespace State

/-- The PORT_CFG word in force for a port; SPARE_CAP for an understudy (R82). -/
def captureCfg (s : State) (m : Fin 60) : Nat :=
  match chanOfPort m with
  | some (p, c) => s.points[p].app.ports[c]
  | none => s.getU (K.SPARE_CAP (m - 55)) % 64

/-- The capture phase in use (R60): the eye search's with EYE_AUTO, else CAP_PHASE; 0 in clock-return mode (R63). Where EYE_AUTO is set on a link
that is already good, so that no search has run for it, the phase of the port's last search stands, or 0 without one (DESIGN CHOICE, log entry
53). -/
def capturePhase (s : State) (m : Fin 60) : Nat :=
  let cfg := s.captureCfg m
  if m.val < 56 ∧ s.clkReturn (groupOf m) then 0
  else if m.val < 56 ∧ bit cfg 7 then s.ports[m].capture
  else field cfg 3 1

/-- Whether a LINK string forces a condition on a port in this block (Table 15.1): SUB 0 STUCK, 1 DENSITY, 2 SKEW, 3 EYE. -/
def linkString (s : State) (m : Fin 60) (cond : Nat) : Bool :=
  ([1, 2, 3, 4, 5, 6, 7, 8] : List Nat).any fun i =>
    let w := s.getU (K.STRING_CFG i)
    bit w 63 && field w 3 0 = 5 && field w 15 8 = m && field w 23 16 = cond && decide (s.blockNo % 256 ≤ field w 39 32)

/-- Count a perturbed operation of the LINK strings that act on a port in this block (STRING_HITS, Table 15.2). -/
def linkStringHits (s : State) (m : Fin 60) : State :=
  forEach [1, 2, 3, 4, 5, 6, 7, 8] (fun i s =>
    let w := s.getU (K.STRING_CFG i)
    if bit w 63 && field w 3 0 = 5 && field w 15 8 = m && decide (s.blockNo % 256 ≤ field w 39 32)
    then s.addSat 32 (K.STRING_HITS i) 1 else s) s

/-- The EYE entry and EYE_NARROW of a block (R63). Phases 7 and 0 are adjacent (DESIGN CHOICE, log entry 53). -/
def eyeMonitor (s : State) (m : Fin 60) (mask : Nat) : State :=
  match s.servedChan m with
  | none => s
  | some (p, c) =>
    let ret := m.val < 56 && s.clkReturn (groupOf m)
    let cap := s.capturePhase m
    let w := (8 - popCount 8 mask) * 256 + eyeCentre mask * 16 + cap
    let s := s.put (K.EYE p (c + 1)) (w : Nat)
    if !ret && (mask.testBit cap || mask.testBit ((cap + 1) % 8) || mask.testBit ((cap + 7) % 8)) then s.setPortFlag s.index p c 32 else s

/-- The group learns its return delay from its first 1,024 returned edges (R65); later blocks raise the largest deviation. -/
def returnMonitor (s : State) (m : Fin 60) (o : BlockObs) : State :=
  let g := groupOf m
  if m.val < 56 ∧ s.clkReturn g then
    if s.learned[g] then s.raise (K.RETURN_SKEW_WORST (g + 1)) (min o.skewWorst 65535)
    else s.setN (K.RETURN_DELAY (g + 1)) ((min o.returnMean 65535 : Nat) : Int)
  else s

/-- The clean-block count and the end of link start or link fault, with three SETTLE samples (R68). -/
def countBlock (s : State) (m : Fin 60) : State :=
  let x := s.ports[m]
  if x.failedInBlock then s.updPort m fun x => { x with clean := 0, failedInBlock := false }
  else if x.phase = .good then s
  else if x.clean + 1 < 4 then s.updPort m fun x => { x with clean := x.clean + 1 }
  else
    let s := s.updPort m fun x => { x with clean := 0, phase := .good }
    match s.servedChan m with
    | some (p, c) => s.updChan p c fun x => { x with settle := 3 }
    | none => s

/-- Whether a port is observed: it is used and its clock runs (R66). -/
def portObserved (s : State) (m : Fin 60) : Bool := s.portUsed m && s.mclk[s.clockGroup m]

/-- The transition phases of a block, with the one that a LINK string adds (Table 15.1). -/
def blockMask (s : State) (o : BlockObs) : Nat :=
  if s.linkString o.port 3 then setBit o.transitions (s.capturePhase o.port) else o.transitions

/-- One port's checks at a block end (R63, R65, R66): eye, return delay, and the checks that fail. -/
def blockChecks (s : State) (o : BlockObs) : State :=
  let m := o.port
  if s.portObserved m = false then s else
  let s := s.linkStringHits m
  let s := (s.eyeMonitor m (s.blockMask o)).returnMonitor m o
  let s := if s.linkString m 0 then s.checkFails m 1 true else s
  let s := if s.linkString m 2 then s.checkFails m 3 true else s
  if o.ones ≤ 51 ∨ 973 ≤ o.ones then s.checkFails m 2 false
  else if s.linkString m 1 then s.checkFails m 2 true else s

/-- One port's count at a block end (R62, R65, R68): a block that began before the port was used counts in nothing, a block before the group's
delay is learned in no clean count, and the first two blocks of an eye search in the search. -/
def blockCounts (s : State) (o : BlockObs) : State :=
  let m := o.port
  if s.portObserved m = false then s else
  let mask := s.blockMask o
  let x := s.ports[m]
  if x.partBlock then s.updPort m fun x => { x with partBlock := false, failedInBlock := false }
  else if m.val < 56 ∧ s.clkReturn (groupOf m) = true ∧ s.learned[groupOf m] = false then s.updPort m fun x => { x with failedInBlock := false }
  else if x.phase = .start ∧ 0 < x.searchLeft then
    let seen := x.searchSeen ||| mask % 256
    let done := x.searchLeft = 1
    s.updPort m fun x => { x with
      searchSeen := seen, searchLeft := if done ∧ seen = 255 then 1 else x.searchLeft - 1,
      capture := if done then eyeCentre seen else x.capture, failedInBlock := false }
  else s.countBlock m

/-- The ends of the blocks observed: the checks of the home ports, then of the understudies, so that a block in which both fail is known to be
one (Table 02.5), then every port's count. -/
def blocksEnd (s : State) (obs : List BlockObs) : State :=
  let s := forEach (obs.filter fun o => decide (o.port.val < 56)) (fun o s => s.blockChecks o) s
  let s := forEach (obs.filter fun o => !decide (o.port.val < 56)) (fun o s => s.blockChecks o) s
  forEach obs (fun o s => s.blockCounts o) s

/-- Groups whose first returned edges are now learned: those with a block observed. -/
def learnGroups (s : State) (obs : List BlockObs) : State :=
  forEach obs (fun o s =>
    let g := groupOf o.port
    if o.port.val < 56 ∧ s.clkReturn g = true ∧ s.mclk[g] = true then { s with learned := s.learned.set g true } else s) s

/-! ### Link start and clocks (R58, R68) -/

/-- A port begins in link start, with the eye search where EYE_AUTO asks for it in normal mode. Where its group already runs, the block under way
is no whole block (R68). -/
def linkStart (s : State) (m : Fin 60) : State :=
  let search := decide (m.val < 56) && bit (s.captureCfg m) 7 && !(s.clkReturn (groupOf m))
  let runs := s.mclk[s.clockGroup m]
  s.updPort m fun x => { x with
    phase := .start, clean := 0, searchLeft := if search then 2 else 0, searchSeen := 0, faultPending := false, failedInBlock := false
    partBlock := runs
    int1 := 0, int2 := 0, int3 := 0, comb := [], fir := [], odd := false }

/-- Whether a group must run: a port of it is used or is the home of a paired or serving understudy; group 14 never (R58). -/
def groupNeeded (s : State) (g : Fin 15) : Bool :=
  g.val < 14 && (([0, 1, 2, 3] : List (Fin 4)).any fun j =>
    let v := 4 * g.val + j.val
    if h : v < 56 then
      let m : Fin 60 := ⟨v, by omega⟩
      (match chanOfPort m with | some (p, c) => s.points[p].app.uses c | none => false)
      || ([0, 1, 2, 3] : List (Fin 4)).any fun i => (s.spares[i].state = .paired || s.spares[i].state = .serving) &&
          (match s.spares[i].home with | some h => h.val = v | none => false)
    else false)

/-- Start or hold every group as the uses in force ask (R58). A return delay once learned stands until the next RECALL (R65). -/
def clockGroups (s : State) : State :=
  forEach (List.finRange 15) (fun g s =>
    let need := s.groupNeeded g
    if s.mclk[g] = need then s else { s with mclk := s.mclk.set g need }) s

end State

/-! ### Decimation (R70) -/

/-- The three integrators over the low `k` bits of a word, first edge in bit 0. -/
def cic : Nat → Nat → Int × Int × Int → Int × Int × Int
  | 0, _, a => a
  | k + 1, w, (a, b, c) =>
    let a := a + (if w % 2 = 1 then 1 else -1)
    let b := b + a
    cic k (w / 2) (a, b, c + b)

/-- One period's 250 bits through a port's sinc3 filter at R = 250, or through half of one at R = 500. `half`: the bits are the first half of the
500 of an even index, the same on every port (R72, R73). -/
def Port.filter (x : Port) (w : Nat) (osr500 half : Bool) : Port :=
  let r := cic 250 w (x.int1, x.int2, x.int3)
  let x := { x with int1 := r.1, int2 := r.2.1, int3 := r.2.2 }
  if osr500 ∧ half = true then { x with odd := true } else
  let o1 := x.comb.getD 0 0
  let o2 := x.comb.getD 1 0
  let o3 := x.comb.getD 2 0
  let y := x.int3 - 3 * o1 + 3 * o2 - o3
  { x with odd := false, comb := x.int3 :: x.comb.take 2, fir := y :: x.fir.take 32 }

/-- The compensation taps of an OSR. -/
def coeff (osr500 : Bool) (i : Nat) : Int := if osr500 then Config.coeff500 (i + 1) else Config.coeff250 (i + 1)

/-- The full-width code: the 33-tap filter over the sinc3 results, scaled so that ones-density d gives (2d − 1) × 655,360, negated by INVERT,
rounded with ties towards +∞ (R70). -/
def Port.fullWidth (x : Port) (osr500 invert : Bool) : Int :=
  let idx := List.range 33
  let acc := (idx.map fun i => coeff osr500 i * x.fir.getD i 0).sum
  let gain := (idx.map fun i => coeff osr500 i).sum
  let r : Int := if osr500 then 125000000 else 15625000
  let num := 655360 * (if invert then -acc else acc)
  let den := gain * r
  if den < 0 then roundUp (-num) den.natAbs else roundUp num den.natAbs

namespace State

/-- The OSR a port's decimator runs at: its point's, or its home point's. -/
def portOsr (s : State) (m : Fin 60) : Bool :=
  match chanOfPort m with
  | some (p, _) => s.points[p].app.osr500
  | none => (([0, 1, 2, 3] : List (Fin 4)).any fun i => sparePort i = m &&
      (match s.spares[i].home with
       | some h => s.points[(⟨h / 7, by omega⟩ : Fin 8)].app.osr500
       | none => false))

/-- Every running port filters its bits of the period. At OSR 500 the second half of an index's bits is in the odd periods, in which its word
loads (R73). -/
def filterAll (s : State) (bits : List Nat) : State :=
  let half := decide (s.index % 2 = 0)
  forEach (List.finRange 60) (fun m s =>
    if s.mclk[s.clockGroup m] then s.updPort m fun x => x.filter (bits.getD m 0) (s.portOsr m) half else s) s

/-- A port's filters are cleared (R74). -/
def clearFilter (s : State) (m : Fin 60) : State :=
  s.updPort m fun x => { x with int1 := 0, int2 := 0, int3 := 0, comb := [], fir := [], odd := false }

/-- The word of index `j` of a channel loads: qualifier by R75, code, and the counters of R67, R76 and R77. -/
def loadWord (s : State) (p : Fin 8) (c : Fin 7) (j : Nat) : State :=
  let a := s.points[p].app
  let unit := if a.osr500 then 2 else 1
  let m := s.physPort p c
  let x := s.points[p].chans[c]
  if a.uses c = false then s.updChan p c fun x => { x with out := some ⟨j, 0, 4⟩ }
  else if s.ports[m].phase ≠ .good then
    let s := s.updChan p c fun x => { x with out := some ⟨j, 0, 3⟩, ovrEpisode := false, settle := 0, restart := x.restart - 1 }
    if s.ports[m].phase = .fault then s.addSatQ j 64 (K.LINK_TIME p (c + 1)) unit else s
  else if 0 < x.restart then
    s.updChan p c fun x => { x with
      out := some ⟨j, 0, 3⟩, restart := x.restart - 1, settle := if x.restart = 1 then 3 else 0, ovrEpisode := false }
  else
    let v := s.ports[m].fullWidth a.osr500 (bit a.ports[c] 6)
    if v < -524288 ∨ 524287 < v then
      let s := s.setPortFlag j p c 1
      let s := s.addSatQ j 64 (K.OVR_TIME p (c + 1)) unit
      -- the third SETTLE sample ended an episode (R77)
      let s := if x.ovrEpisode = true ∧ 0 < x.settle then s else s.addSatQ j 32 (K.OVR_COUNT p (c + 1)) 1
      s.updChan p c fun x => { x with out := some ⟨j, clampInt (-524288) 524287 v, 2⟩, ovrEpisode := true, settle := 3 }
    else if 0 < x.settle then
      s.updChan p c fun x => { x with out := some ⟨j, v, 1⟩, settle := x.settle - 1 }
    else s.updChan p c fun x => { x with out := some ⟨j, v, 0⟩, ovrEpisode := false }

/-- H of the hold-up save under way (R146): no later sample is processed. -/
def tailH (s : State) : Nat := s.store.saves[(⟨s.getU K.SAVE_SEQ % 2, by omega⟩ : Fin 2)].tailIndex

/-- Cycle 0 of period `n`: index n − 2 at OSR 250, n − 3 at OSR 500 when even (R73). -/
def loadPoint (s : State) (p : Fin 8) : State :=
  let a := s.points[p].app
  let n := s.index
  if kindOf a.cfg = 0 ∨ (s.mode = .holdup ∧ s.tailH + (if a.osr500 then 3 else 2) < n) then s
  else if a.osr500 then
    if 3 ≤ n ∧ (n - 3) % 2 = 0 then forEach allChans (fun c s => s.loadWord p c (n - 3)) s else s
  else if 2 ≤ n then forEach allChans (fun c s => s.loadWord p c (n - 2)) s
  else s

/-- Home and understudy streams compared bit by bit while both pass every check (R83, Table 02.5); intervals of 1 s as in R33. -/
def comparePairs (s : State) (bits : List Nat) : State :=
  forEach [0, 1, 2, 3] (fun (i : Fin 4) s =>
    let s := if s.index % 80000 = 0 then s.updSpare i fun x => { x with differing := 0 } else s
    match s.spares[i].state, s.spares[i].home with
    | .paired, some h =>
      let hp : Fin 60 := ⟨h, by omega⟩
      let u := s.ports[sparePort i]
      if s.ports[hp].phase = .good ∧ u.phase = .good ∧ s.ports[hp].failedInBlock = false ∧ u.failedInBlock = false
          ∧ bits.getD h 0 % 2 ^ 250 ≠ bits.getD (56 + i) 0 % 2 ^ 250 then
        let s : State := match chanOfPort hp with
          | some (p, c) => s.setPortFlag s.index p c 16
          | none => s
        let s := s.updSpare i fun x => { x with differing := x.differing + 1 }
        if 16 ≤ s.spares[i].differing then s.spareFaulty i else s
      else s
    | _, _ => s) s

/-- The ports' part of a period: faults and substitutions take hold, the filters run, the words load (R67, R73, R83). -/
def portPeriod (s : State) (bits : List Nat) : State :=
  let s := forEach [0, 1, 2, 3] (fun i s => s.applySpare i) s
  let s := forEach (List.finRange 60) (fun m s => s.applyFault m) s
  let s := s.filterAll bits
  let s := s.comparePairs bits
  forEach allPoints (fun p s => s.loadPoint p) s

/-! ### Pairing (R82, R84, R436) -/

/-- Pair an understudy with the home port its SPARE_WIRING names; a serving or faulty understudy stays as it is. -/
def pairSpare (s : State) (i : Fin 4) : State :=
  let w := s.getU (K.SPARE_WIRING (i + 1))
  match s.spares[i].state with
  | .idle | .paired =>
    if h : w < 56 then
      (s.updSpare i fun x => { x with state := .paired, home := some ⟨w, h⟩, pending := false }).linkStart (sparePort i)
    else s.updSpare i fun x => { x with state := .idle, home := none, pending := false }
  | _ => s

/-- SPARE_STATE of an understudy (Table 02.13). -/
def spareWord (s : State) (i : Fin 4) : Nat :=
  let x := s.spares[i]
  (match x.home with | some h => h.val | none => 0xFF) * 256
    + (match x.state with | .idle => 0 | .paired => 1 | .serving => 2 | .faulty => 3)

/-- A substitution a string forced ends at the point's netting step once the string is slack (R436). -/
def forcedReturn (s : State) (p : Fin 8) : State :=
  forEach [0, 1, 2, 3] (fun (i : Fin 4) s =>
    match s.spares[i].state, s.spares[i].home with
    | .serving, some h =>
      if s.spares[i].forced = true ∧ h.val / 7 = p.val ∧
          ([0, 1, 2, 3] : List Nat).all (fun cnd => !(([1, 2, 3, 4, 5, 6, 7, 8] : List Nat).any fun k =>
            let w := s.getU (K.STRING_CFG k)
            bit w 63 && field w 3 0 = 5 && field w 15 8 = h.val && field w 23 16 = cnd)) = true then
        match chanOfPort ⟨h, by omega⟩ with
        | some (q, c) =>
          (s.setQ s.index (K.PHYS_PORT q (c + 1)) (h.val : Nat)).updSpare i fun x => { x with state := .paired, forced := false }
        | none => s
      else s
    | _, _ => s) s

end State

end Sys2Proof.Machine
end

