-- ==== Sys2Proof/Machine/SessionOps.lean ====
section
/-! DEFINITION. Machine/SessionOps.lean: what other chapters add to a session between B_o and B_c: events, window qualifiers, taint, time steps
and tamper sources (R145, Tables 09.3 and 09.4). -/

namespace Sys2Proof.Machine

open Sys2Proof

namespace State

/-- The state with one session changed. -/
def updSession (s : State) (p : Fin 8) (f : Session → Session) : State := { s with sessions := s.sessions.set p (f s.sessions[p]) }

/-- The state with what one session gathers changed. -/
def updGrown (s : State) (p : Fin 8) (f : Grown → Grown) : State := s.updSession p fun x => { x with grown := f x.grown }

/-- Whether a session runs on a point: B_o is taken and B_c is not. -/
def inSession (s : State) (p : Fin 8) : Bool := s.sessions[p].desc.isSome && s.sessions[p].close.isNone

/-- Add bits to SESSION_TAGS of a point because of index `n`. -/
def addTags (s : State) (n : Nat) (p : Fin 8) (w : Nat) : State :=
  s.setQ n (K.SESSION_TAGS p) ((s.getU (K.SESSION_TAGS p) ||| w : Nat) : Int)

/-- Add bits to SESSION_FLAGS of a point because of index `n`. -/
def addFlags (s : State) (n : Nat) (p : Fin 8) (w : Nat) : State :=
  s.setQ n (K.SESSION_FLAGS p) ((s.getU (K.SESSION_FLAGS p) ||| w : Nat) : Int)

/-- An event that started at index `idx` (EVENT_MASK, EVENT_STARTS): it belongs to the session when it started in it. -/
def sessionEvent (s : State) (p : Fin 8) (b : Fin 17) (idx : Nat) : State :=
  match s.sessions[p].desc, s.sessions[p].close with
  | some d, none =>
    if d.openIdx ≤ idx then
      s.updGrown p fun g => { g with eventMask := setBit g.eventMask b, eventStarts := satAdd 16 g.eventStarts 1 }
    else s
  | _, _ => s

/-- A window's QUAL of a channel joins QUAL_UNION (Table 09.6). -/
def sessionQual (s : State) (p : Fin 8) (c : Fin 7) (w : Nat) : State :=
  if s.inSession p then s.updGrown p fun g => { g with quals := g.quals.set c (g.quals[c] ||| w) } else s

/-- A string is taut: every session from B_o to its signature takes TAGS TEST (Table 09.3). -/
def sessionTaint (s : State) : State :=
  forEach allPoints (fun p s =>
    let x := s.sessions[p]
    match x.desc, x.close with
    | some _, none => s.addTags s.index p 2
    | some _, some c => s.updSession p fun x => { x with close := some { c with tags := c.tags ||| 2 } }
    | none, _ => s) s

/-- A time step or a rebase fell in every running session (Table 09.4). -/
def sessionTimeStep (s : State) : State := forEach allPoints (fun p s => if s.inSession p then s.addFlags s.index p 64 else s) s

/-- The sources of a tamper decision and its first record enter every running session (R323, R340). -/
def sessionTamper (s : State) (mask ref : Nat) : State :=
  forEach allPoints (fun p s =>
    if s.inSession p then
      (s.updGrown p fun g => { g with sources := g.sources ||| mask, ref := if g.ref = 0xFFFFFFFF then ref else g.ref }).addFlags s.index p 32
    else s) s

end State

end Sys2Proof.Machine
end

