-- ==== Sys2Proof/Machine/Events.lean ====
section
/-! DEFINITION. Machine/Events.lean: the event queue, starts and ends of a point's events, EV_STATUS and its re-arms (R21, R113 to R117). -/

namespace Sys2Proof.Machine

open Sys2Proof

namespace State

/-- Queue an event entry: 64 fit; beyond that, events of one point and code merge into one overflow entry (R21). -/
def pushEvent (s : State) (e : EventEntry) : State :=
  if s.evq.length < 64 then { s with evq := s.evq ++ [e] }
  else if s.evOver.any (fun o => o.point = e.point ∧ o.code = e.code) then
    { s with evOver := s.evOver.map fun o =>
        if o.point = e.point ∧ o.code = e.code then { o with count := satAdd 32 o.count 1, last := e.idx } else o }
  else { s with evOver := s.evOver ++ [{ e with edge := 2, count := 1, last := e.idx }] }

/-- Whether an event is enabled (EV_ENABLE). -/
def evEnabled (s : State) (p : Fin 8) (b : Fin 17) : Bool := bit (s.getU (K.EV_ENABLE p)) b

/-- Set EV_STATUS from hardware; a bit that a write cleared counts a re-arm when it sets again (R116). -/
def setEvStatus (s : State) (n : Nat) (p : Fin 8) (b : Fin 17) : State :=
  let k := K.EV_STATUS p
  let old := s.getU k
  let again := !(bit old b) && bit s.points[p].evCleared b
  let s := s.setQ n k ((setBit old b : Nat) : Int)
  if again then (s.addSatQ n 32 (K.EV_REARM p) 1).updPoint p fun x => { x with evCleared := clearBit x.evCleared b } else s

/-- Write 1 to clear EV_STATUS (R116). -/
def clearEvStatus (s : State) (p : Fin 8) (w : Nat) : State :=
  let k := K.EV_STATUS p
  let hit := s.getU k &&& w
  (s.put k ((s.getU k ^^^ hit : Nat) : Int)).updPoint p fun x => { x with evCleared := x.evCleared ||| hit }

/-- An event starts at `idx`, found at index `n`, whose mode tags its record (R6, R114, R116, R117, R150). -/
def startEvent (s : State) (n : Nat) (p : Fin 8) (b : Fin 17) (idx value whereMask : Nat) : State :=
  let s := s.updPoint p fun x => { x with events := x.events.set b ⟨true, 0, 0, idx, value, whereMask⟩ }
  let s := s.setQ n (K.EV_ACTIVE p) ((setBit (s.getU (K.EV_ACTIVE p)) b : Nat) : Int)
  let s := (s.addSatQ n 32 (K.EV_COUNT p (b + 1)) 1).sessionEvent p b idx
  (s.setEvStatus n p b).pushEvent ⟨p, b, 0, whereMask, idx, value, 0, 0, s.tagsAt n⟩

/-- An active event ends at `idx`, found at index `n` (R6, R114, R117). -/
def endEvent (s : State) (n : Nat) (p : Fin 8) (b : Fin 17) (idx : Nat) : State :=
  let e := s.points[p].events[b]
  if e.active then
    let s := s.updPoint p fun x => { x with events := x.events.set b Event.init }
    let s := s.setQ n (K.EV_ACTIVE p) ((clearBit (s.getU (K.EV_ACTIVE p)) b : Nat) : Int)
    s.pushEvent ⟨p, b, 1, e.whereMask, idx, e.extreme, min (idx - e.startIdx) (2 ^ 32 - 1), 0, s.tagsAt n⟩
  else s

/-- Every active event of a point ends at an index (R114: restart, power loss). -/
def endAllEvents (s : State) (p : Fin 8) (idx : Nat) : State :=
  let s := forEach (List.finRange 17) (fun b s => s.endEvent idx p b idx) s
  s.updPoint p fun x => { x with events := Vector.replicate 17 Event.init, rp := Reverse.init }

/-- A level event at a boundary `n` that ends the cycle from `from'` (R114): condition, clearing condition, the cycle's value and which of two
values is the more extreme, and the channels concerned. -/
def levelEvent (s : State) (n : Nat) (p : Fin 8) (b : Fin 17) (from' : Nat) (cond clear : Bool) (value : Nat)
    (lowest : Bool) (whereMask : Nat) : State :=
  let e := s.points[p].events[b]
  let hold := s.getU (K.EV_HOLD p)
  let pick (a c : Nat) : Nat := if lowest then (if F32.lt c a then c else a) else F32.maxOf a c
  let upd (e : Event) (s : State) : State := s.updPoint p fun x => { x with events := x.events.set b e }
  if s.evEnabled p b = false then
    if e.active then s.endEvent n p b n else upd Event.init s
  else if e.active then
    let e := { e with extreme := pick e.extreme value, whereMask := e.whereMask ||| whereMask }
    if clear then
      let e := { e with held := e.held + 1, heldFrom := if e.held = 0 then from' else e.heldFrom }
      if hold ≤ e.held then (upd e s).endEvent n p b e.heldFrom else upd e s
    else upd { e with held := 0 } s
  else if cond then
    let e : Event := { e with
      held := e.held + 1, heldFrom := if e.held = 0 then from' else e.heldFrom,
      extreme := if e.held = 0 then value else pick e.extreme value,
      whereMask := if e.held = 0 then whereMask else e.whereMask ||| whereMask }
    if hold ≤ e.held then s.startEvent n p b e.heldFrom e.extreme e.whereMask else upd e s
  else upd Event.init s

/-- A window event, or one without a hold: starts when its condition holds and ends when its clearing condition does (R114). -/
def plainEvent (s : State) (n : Nat) (p : Fin 8) (b : Fin 17) (cond clear : Bool) (value whereMask : Nat) : State :=
  let e := s.points[p].events[b]
  if s.evEnabled p b = false then (if e.active then s.endEvent n p b n else s)
  else if e.active then
    if clear then s.endEvent n p b n
    else
      let e := { e with extreme := F32.maxOf e.extreme value, whereMask := e.whereMask ||| whereMask }
      s.updPoint p fun x => { x with events := x.events.set b e }
  else if cond then s.startEvent n p b n value whereMask
  else s

/-- LINK and OVR at a released sample `n` (Table 03.9): any used channel in a link fault episode; any overrange episode running. -/
def sampleEvents (s : State) (p : Fin 8) (n : Nat) : State :=
  let a := s.points[p].app
  let mask (f : Fin 7 → Bool) : Nat := (allChans.map fun c => if a.uses c && f c then 2 ^ c.val else 0).sum
  let link := mask fun c => s.ports[s.physPort p c].phase = .fault
  let ovr := mask fun c => s.points[p].chans[c].ovrEpisode
  let s := s.plainEvent n p 0 (decide (link ≠ 0)) (decide (link = 0)) 0 link
  s.plainEvent n p 1 (decide (ovr ≠ 0)) (decide (ovr = 0)) 0 ovr

/-- EVENT_RECORD: the steward takes the oldest entry of the queue and has its record written (R115, R117, Table 03.10). -/
def recordEvent (s : State) : State :=
  match s.evq with
  | [] => s
  | e :: r =>
    let body := leBytes 1 e.point ++ leBytes 1 e.code ++ leBytes 1 e.edge ++ leBytes 1 e.whereMask ++ leBytes 6 e.idx
      ++ leBytes 10 (s.stamp e.idx)
      ++ (if e.edge = 2 then leBytes 6 e.last else leBytes 4 e.value ++ [0, 0])
      ++ leBytes 4 e.count ++ leBytes 1 e.tags ++ [0]
    let s := match s.evOver with
      | [] => { s with evq := r }
      | o :: os => { s with evq := r ++ [o], evOver := os }
    s.queueRecord ⟨.event, body, none, 0, none⟩

end State

end Sys2Proof.Machine
end

