-- ==== Sys2Proof/Machine/Quantities.lean ====
section
/-! DEFINITION. Machine/Quantities.lean: correction, cycle tracker, spans, windows, published quantities, harmonics, ripple, and the events on
them (R88 to R114). -/

namespace Sys2Proof.Machine

open Sys2Proof

/-! ### Correction chain (R91, R81) -/

/-- y0 of a released word. -/
def correctWord (gain : Nat) (offset : Int) (x : Int) (q : Nat) : Int :=
  if q = 3 ∨ q = 4 then 0 else clampInt (-134217728) 134217727 ((x * gain + 8192) / 16384 - offset)

/-- Weight of the history value `k` samples back: whole at trim 0, one sample back at trim 256 and OSR 250, a tap otherwise (R81). -/
def interpWeight (osr500 : Bool) (t k : Nat) : Int :=
  if t = 0 then (if k = 0 then 2 ^ 30 else 0)
  else if t = 256 ∧ osr500 = false then (if k = 1 then 2 ^ 30 else 0)
  else Config.interpTap osr500 t k

/-- y and qy of a history, newest first: the weighted sum rounded with ties up; the highest qualifier of non-zero weight in the order of R75. -/
def interpolate (osr500 : Bool) (t : Nat) (hist : List (Int × Nat)) : Int × Nat :=
  let ws := (List.range 16).map fun k => (interpWeight osr500 t k, hist.getD k (0, 3))
  let y := roundUp ((ws.map fun w => w.1 * w.2.1).sum) (2 ^ 30)
  let q := (ws.map fun w => if w.1 = 0 then 0 else w.2.2).foldl max 0
  (y, q)

/-- Number of phases of a kind. -/
def phasesOf (kind : Nat) : Nat := if kind = 4 then 1 else if kind ≤ 3 then kind else 0

/-- Voltage and current channel of phase `k` (0-based). -/
def vChan (k : Fin 3) : Fin 7 := ⟨k, by omega⟩
def iChan (k : Fin 3) : Fin 7 := ⟨k + 3, by omega⟩

/-- The phases of a kind in order. -/
def phaseList (kind : Nat) : List (Fin 3) := ([0, 1, 2] : List (Fin 3)).filter fun k => k.val < phasesOf kind

/-- Whether a kind is AC. -/
def isAc (kind : Nat) : Bool := 1 ≤ kind && kind ≤ 3

/-- Nominal frequency in mHz and cycles of a window (R96). -/
def nominalMilliHz (cfg : Nat) : Nat := if bit cfg 4 then 60000 else 50000
def windowCycles (cfg : Nat) : Nat := if kindOf cfg = 4 then 200 else if bit cfg 4 then 12 else 10

/-- The correction of the word released on a channel: raw and y0 histories, y and qy. -/
def State.correct (s : State) (p : Fin 8) (c : Fin 7) (w : Word20) : State :=
  let y0 := correctWord (s.getU (K.ACTIVE_GAIN p (c + 1))) (s.getN (K.ACTIVE_OFFSET p (c + 1))) w.code w.qual
  let s := s.updChan p c fun x =>
    let h := (y0, w.qual) :: x.hist.take 15
    let r := interpolate s.points[p].app.osr500 (s.getU (K.ACTIVE_TRIM p (c + 1))) h
    { x with raw := (w.code, w.qual) :: x.raw.take 15, hist := h, y := r.1, qy := r.2, n := w.idx }
  s.setQ w.idx (K.CORR_SAMPLE p (c + 1)) s.points[p].chans[c].y

/-! ### Spans -/

/-- One sample into a channel sum. -/
def ChanSum.add (a : ChanSum) (first : Bool) (y : Int) (q : Nat) : ChanSum :=
  ⟨a.s1 + y, a.s2 + (y * y).toNat, if first then y else max a.hi y, if first then y else min a.lo y, setBit a.quals q⟩

/-- One span after another. -/
def ChanSum.join (a b : ChanSum) (empty : Bool) : ChanSum :=
  if empty then b else ⟨a.s1 + b.s1, a.s2 + b.s2, max a.hi b.hi, min a.lo b.lo, a.quals ||| b.quals⟩

/-- One sample of every channel into a span. -/
def Span.add (sp : Span) (y : Fin 7 → Int) (q : Fin 7 → Nat) : Span where
  m := sp.m + 1
  chans := Vector.ofFn fun c => sp.chans[c].add (sp.m = 0) (y c) (q c)
  vi := Vector.ofFn fun k => sp.vi[k] + y (vChan k) * y (iChan k)

/-- A window's span with a cycle added. -/
def Span.join (a b : Span) : Span where
  m := a.m + b.m
  chans := Vector.ofFn fun c => a.chans[c].join b.chans[c] (a.m = 0)
  vi := Vector.ofFn fun k => a.vi[k] + b.vi[k]

/-- The window FIFO dropped a sample of a channel from the window (R21): bit 7 of the cycle's qualifier set. -/
def Span.drop (sp : Span) (c : Fin 7) : Span :=
  { sp with chans := sp.chans.set c { sp.chans[c] with quals := setBit sp.chans[c].quals 7 } }

/-- The channels of which a span lost a sample. -/
def Span.dropped (sp : Span) : Nat :=
  (allChans.map fun (c : Fin 7) => if bit sp.chans[c].quals 7 then 2 ^ c.val else 0).sum

/-! ### Physical values in binary32 (R90, R99) -/

/-- Full scale of y: 2^27 units of 2^−8 code per CH_FS, and thousandths to units. -/
def yUnit : Nat := 1000 * 2 ^ 27

/-- RMS of a channel sum. -/
def rmsF (a : ChanSum) (m fs : Nat) : Nat := F32.ofSqrt (a.s2 * (fs * fs)) (m * (yUnit * yUnit))

/-- Mean of a channel sum. -/
def meanF (a : ChanSum) (m fs : Nat) : Nat := F32.ofRat (a.s1 * fs) (m * yUnit)

/-- Active power of a phase. -/
def powerF (vi : Int) (m fsv fsi : Nat) : Nat := F32.ofRat (vi * (fsv * fsi : Nat)) (m * (yUnit * yUnit))

/-- sqrt(n/d) with 160 fractional bits, for sums of roots. -/
def rootFx (n d : Nat) : Nat := if d = 0 then 0 else isqrt (n * 2 ^ 320 / d)

/-- QUAL bits of a set of qualifiers (Table 03.12). -/
def qualBits (q : Nat) : Nat := natOfBool (bit q 2) + 2 * natOfBool (bit q 1) + 4 * natOfBool (bit q 3) + 8 * natOfBool (bit q 4)

/-! ### Cycle tracker (R93 to R95) -/

/-- Whether an index is a boundary for the tracker's else-branch: no crossing for 2,200 periods, or the substitute period over (R93). -/
def substituteDue (x : Point) (n : Nat) : Bool :=
  let pSub := if bit x.app.cfg 4 then 1334 else 1600
  match x.track with
  | .starting | .locked => decide (x.bound.idx + 2200 ≤ n)
  | .substitute => decide (x.bound.idx + pSub ≤ n)
  | _ => false

/-- The boundary entries of a point (Table 03.11). -/
def State.boundaryEntries (s : State) (p : Fin 8) (n frac : Nat) (track : Nat) : State :=
  let s := (s.setQ n (K.LAST_BOUNDARY p) (n : Nat)).setQ n (K.ZC_FRAC p) (frac : Nat)
  (s.addWrapQ n 32 (K.CYCLE_COUNT p) 1).setQ n (K.TRACK_STATE p) (track : Nat)

/-- The step ends at a boundary: its sums wait for the netting unit, and the next step begins (R94, R122). `prev` is the sample before. -/
def Point.close (x : Point) (b : Boundary) (frac prev : Nat) : Point :=
  let len : Nat × Nat := match x.inStep, x.bound.crossing, b.crossing with
    | true, some c0, some c1 => if c0 < c1 then (c1 - c0, 65536) else (1600, 1)
    | _, _, _ => if bit x.app.cfg 4 then (4000, 3) else (1600, 1)
  let theta : Nat := match b.crossing with
    | some _ => (roundUp (2 ^ 32 * ((65536 - frac) * (b.idx - prev)) * len.2 : Nat) (65536 * len.1)).toNat % 2 ^ 32
    | none => 0
  { x with
    closing := some ⟨b, x.inStep, x.step, x.ke, x.kl, x.tUsed, x.rUsed, x.tFallback, x.cable, x.cycle, x.bound⟩
    prevBound := x.bound, bound := b, inStep := true, armed := false
    step := StepSum.zero b.idx, cycle := Span.zero
    theta := theta, lenNum := len.1, lenDen := len.2 }

/-- θ moves on with each sample that is no boundary (R122). -/
def Point.turn (x : Point) : Point :=
  let d := (roundUp (2 ^ 32 * x.lenDen : Nat) x.lenNum).toNat
  { x with theta := (x.theta + (if x.app.osr500 then 2 * d else d)) % 2 ^ 32 }

/-- A substitute boundary at index `n` (R93, else-branch). -/
def State.substituteAt (s : State) (p : Fin 8) (n : Nat) : State :=
  let s := s.updPoint p fun x => { (x.close ⟨n, none⟩ 0 n) with track := .substitute }
  s.boundaryEntries p n 0 2

/-- The cycle tracker on sample `n` of channel 0 (R93), given the sample before it. -/
def State.trackAc (s : State) (p : Fin 8) (n : Nat) (prev : Chan) : State :=
  let c := s.points[p].chans[(0 : Fin 7)]
  let first := !s.points[p].started
  let s := if first then s.updPoint p fun x => { x with started := true, bound := ⟨n, none⟩ } else s
  let hyst : Int := s.getN (K.ZC_HYST p) * 256
  let s := if c.qy = 3 ∨ c.qy = 4 then s.updPoint p fun x => { x with armed := false }
    else if c.y ≤ -hyst then s.updPoint p fun x => { x with armed := true } else s
  let x := s.points[p]
  if x.armed = true ∧ first = false ∧ prev.y < 0 ∧ 0 ≤ c.y ∧ (x.track = .starting ∨ x.bound.idx + 1066 ≤ n) ∧ prev.qy ≠ 3 ∧ prev.qy ≠ 4 then
    let frac := (roundUp (65536 * (-prev.y)) (c.y - prev.y).natAbs).toNat
    let crossing := prev.n * 65536 + frac * (n - prev.n)
    let s := s.updPoint p fun x => { (x.close ⟨n, some crossing⟩ frac prev.n) with track := .locked }
    s.boundaryEntries p n frac 1
  else s.updPoint p fun x => x.turn

/-- A DC boundary at an index divisible by 80 (R95). -/
def State.trackDc (s : State) (p : Fin 8) (n : Nat) : State :=
  if n % 80 = 0 then (s.updPoint p fun x => x.close ⟨n, none⟩ 0 n).boundaryEntries p n 0 3 else s

/-- The tracker's part of a released sample of channel 0. -/
def State.track (s : State) (p : Fin 8) (n : Nat) (prev : Chan) : State :=
  if kindOf s.points[p].app.cfg = 4 then s.trackDc p n else s.trackAc p n prev

/-! ### Windows (R96, R97) -/

/-- The instant of a boundary in 1/65,536 sample period: its crossing, or t(B) of a substitute (R105). -/
def Boundary.mark (b : Boundary) : Nat := b.crossing.getD (b.idx * 65536)

/-- A window that begins at a boundary. -/
def Window.begin (b : Boundary) (ac rebased : Bool) : Window := ⟨b, 0, Span.zero, ac && b.crossing.isNone, 0, rebased, [b.mark]⟩

/-- A point's window ends at a boundary and waits for its close index, with the samples processed so far; those at or after the boundary, and
the 48 before it, stay for the next window (R97, R105). -/
def Point.endWindow (x : Point) (w : Window) (b : Boundary) : Point :=
  let later := (x.trail.takeWhile fun (e : Trail) => decide (b.idx ≤ e.idx)).length
  { x with ended := x.ended ++ [⟨w, b, x.trail, later⟩], trail := x.trail.take (later + 48) }

/-- The samples of one index enter the trails: of the open window, of every ended window until 48 samples lie after it, and, with no window open,
the latest 49 (R105). -/
def Point.addTrail (x : Point) (t : Trail) : Point :=
  { x with
    trail := t :: (if x.win.isSome then x.trail else x.trail.take 48)
    ended := x.ended.map fun (e : EndedWindow) => if e.later < 48 then { e with trail := t :: e.trail, later := e.later + 1 } else e }

/-- The window's part of a boundary: the ended cycle joins the open window; a full window waits for its close index; the next begins. -/
def Point.windowAt (x : Point) (cl : Closing) : Point :=
  let ac := isAc (kindOf x.app.cfg)
  let b := cl.bound
  match x.win with
  | none => if ac ∨ b.idx % 16000 = 0 then { x with win := some (Window.begin b ac x.winWait), winWait := false } else x
  | some w =>
    let w := { w with
      sum := w.sum.join cl.cycle, cycles := w.cycles + 1, substitute := w.substitute || (ac && b.crossing.isNone)
      incomplete := w.incomplete ||| cl.cycle.dropped, marks := b.mark :: w.marks }
    if w.cycles = windowCycles x.app.cfg then
      { x.endWindow w b with win := some (Window.begin b ac false) }
    else { x with win := some w }

/-- The cycle quantities of a step's cycle (Table 03.4), at boundary `n`. -/
def State.cycleQuantities (s : State) (p : Fin 8) (cl : Closing) : State :=
  let n := cl.bound.idx
  let a := s.points[p].app
  let m := cl.cycle.m
  let s := forEach allChans (fun c s =>
    let used := a.uses c
    let z := cl.cycle.chans[c]
    (s.setQ n (K.RMS_CYC p (c + 1)) ((if used then rmsF z m a.fs[c] else 0 : Nat) : Int)).setQ n (K.MEAN_CYC p (c + 1))
      ((if used then meanF z m a.fs[c] else 0 : Nat) : Int)) s
  let ks := phaseList (kindOf a.cfg)
  let s := forEach ks (fun k s => s.setQ n (K.P_CYC p (k + 1))
    ((powerF cl.cycle.vi[k] m a.fs[vChan k] a.fs[iChan k] : Nat) : Int)) s
  let tot := (ks.map fun k => cl.cycle.vi[k] * (a.fs[vChan k] * a.fs[iChan k] : Nat)).sum
  let s := s.setQ n (K.TOTALS p 5) ((F32.ofRat tot (m * (yUnit * yUnit)) : Nat) : Int)
  if isAc (kindOf a.cfg) then
    let f := match cl.prev.crossing, cl.bound.crossing with
      | some c0, some c1 => if c0 < c1 then F32.ofRat (80000 * 65536) (c1 - c0) else F32.ofRat (nominalMilliHz a.cfg) 1000
      | _, _ => F32.ofRat (nominalMilliHz a.cfg) 1000
    s.setQ n (K.FREQ p 2) ((f : Nat) : Int)
  else s

/-! ### Cycle events (R112 to R114) -/

/-- Whether a voltage channel's cycle value lies below `lvl` × 0.01 % of V_NOMINAL: RMS on AC, mean on DC. -/
def vBelow (ac : Bool) (z : ChanSum) (m fs v : Nat) (lvl : Int) : Bool :=
  if ac then 0 ≤ lvl && decide ((z.s2 * (fs * fs) * 10 ^ 8 : Nat) < (lvl * v) * (lvl * v) * (m * 2 ^ 54 : Nat))
  else decide (z.s1 * fs * 10 ^ 4 < lvl * v * (m * 2 ^ 27 : Nat))

/-- Whether it lies above. -/
def vAbove (ac : Bool) (z : ChanSum) (m fs v : Nat) (lvl : Int) : Bool :=
  if ac then lvl < 0 || decide ((lvl * v) * (lvl * v) * (m * 2 ^ 54 : Nat) < (z.s2 * (fs * fs) * 10 ^ 8 : Nat))
  else decide (lvl * v * (m * 2 ^ 27 : Nat) < z.s1 * fs * 10 ^ 4)

/-- Whether a current's cycle value exceeds num/den of OC_LEVEL: RMS on AC, |mean| on DC. -/
def iAbove (ac : Bool) (z : ChanSum) (m fs oc num den : Nat) : Bool :=
  if ac then (num * oc) * (num * oc) * (m * 2 ^ 54) < z.s2 * (fs * fs) * (den * den)
  else num * oc * (m * 2 ^ 27) < z.s1.natAbs * fs * den

/-- The least and the greatest of a list of codings. -/
def minF (l : List Nat) : Nat := l.foldl (fun a b => if F32.lt b a then b else a) (l.headD 0)
def maxF (l : List Nat) : Nat := l.foldl F32.maxOf (l.headD 0)

/-- Bit mask of the channels of a list for which a test holds. -/
def maskOf (l : List (Fin 7)) (f : Fin 7 → Bool) : Nat := (l.map fun c => if f c then 2 ^ c.val else 0).sum

/-- REF_LOST at a boundary of an AC point (Table 03.9): the tracker stands on substitute boundaries. -/
def State.lostReference (s : State) (p : Fin 8) (n : Nat) : State :=
  if isAc (kindOf s.points[p].app.cfg) then
    let lost := decide (s.points[p].track = Track.substitute)
    s.plainEvent n p 7 lost (!lost) 0 1
  else s

/-- The cycle events of a point at a boundary that ends a cycle, in ascending bit number (R115). -/
def State.cycleEvents (s : State) (p : Fin 8) (cl : Closing) : State :=
  let a := s.points[p].app
  let kind := kindOf a.cfg
  let ac := isAc kind
  let n := cl.bound.idx
  let m := cl.cycle.m
  let v := s.getU (K.V_NOMINAL p)
  let ks := phaseList kind
  let vs := ks.map vChan
  let is' := ks.map iChan
  let z (c : Fin 7) := cl.cycle.chans[c]
  let val (c : Fin 7) : Nat := if ac then rmsF (z c) m a.fs[c] else meanF (z c) m a.fs[c]
  let absVal (c : Fin 7) : Nat := val c % 2 ^ 31
  let from' := cl.prev.idx
  let hyst := s.getN (K.LEVEL_HYST p)
  let sag := s.getN (K.SAG_LEVEL p)
  let swell := s.getN (K.SWELL_LEVEL p)
  let int := s.getN (K.INT_LEVEL p)
  let below (l : Int) (c : Fin 7) : Bool := vBelow ac (z c) m a.fs[c] v l
  let above (l : Int) (c : Fin 7) : Bool := vAbove ac (z c) m a.fs[c] v l
  let oc := s.getU (K.OC_LEVEL p)
  let s := s.levelEvent n p 2 from' (vs.any (below sag)) (vs.all fun c => !below (sag + hyst) c) (minF (vs.map val)) true (maskOf vs (below sag))
  let s := s.levelEvent n p 3 from' (vs.any (above swell)) (vs.all fun c => !above (swell - hyst) c) (maxF (vs.map val)) false
    (maskOf vs (above swell))
  let s := s.levelEvent n p 4 from' (vs.all (below int)) (vs.all fun c => !below (int + hyst) c) (minF (vs.map val)) true (maskOf vs (below int))
  let ocs (num den : Nat) (c : Fin 7) : Bool := iAbove ac (z c) m a.fs[c] oc num den
  let s := s.levelEvent n p 5 from' (is'.any (ocs 1 1)) (is'.all fun c => !ocs 9 10 c) (maxF (is'.map absVal)) false (maskOf is' (ocs 1 1))
  let s := s.lostReference p n
  if kind ≠ 4 then s else
  -- with a channel unused the condition cannot hold, so an active event meets its clearing condition (Table 03.9)
  let sh := a.uses 4
  let d9 := (z 3).s1 * (a.fs[(3 : Fin 7)] : Nat) - (z 4).s1 * (a.fs[(4 : Fin 7)] : Nat)
  let lim9 := s.getU (K.SHUNT_TOL p) * a.fs[(3 : Fin 7)] * (m * 2 ^ 27)
  let s := s.levelEvent n p 9 from' (sh && decide (lim9 < d9.natAbs * 10 ^ 6)) (!sh || decide (d9.natAbs * 10 ^ 7 ≤ 9 * lim9))
    (if sh then F32.ofRat d9.natAbs (m * yUnit) else 0) false (if sh then 0x18 else 0)
  let dv := a.uses 1 && a.uses 2
  let d10 := (z 1).s1 * (a.fs[(1 : Fin 7)] : Nat) - (z 2).s1 * (a.fs[(2 : Fin 7)] : Nat) - (z 0).s1 * (a.fs[(0 : Fin 7)] : Nat)
  let lim10 := s.getU (K.DIV_TOL p) * a.fs[(0 : Fin 7)] * (m * 2 ^ 27)
  s.levelEvent n p 10 from' (dv && decide (lim10 < d10.natAbs * 10 ^ 6)) (!dv || decide (d10.natAbs * 10 ^ 7 ≤ 9 * lim10))
    (if dv then F32.ofRat d10.natAbs (m * yUnit) else 0) false (if dv then 0x7 else 0)

/-! ### Harmonics (R105 to R109) -/

/-- What the harmonic or ripple engine analyses on one channel of a window: the resampled points of an AC window or the samples of a DC window,
oldest first, in units of 2^−8 code; the OSR; and the window's length in 1/65,536 sample period. -/
structure Spectrum where
  y : List Int
  osr500 : Bool
  span : Nat
  deriving DecidableEq, Repr

/-- The spectra of a window's seven channels. -/
abbrev Spectra := Vector Spectrum 7

/-- One resampled point of a channel at `pos`, in 2^−28 sample period: 96 taps over the sample at or before it, the 48 after and the 47 before
(R105 step 1). -/
def resampleAt (trail : List Trail) (c : Fin 7) (osr500 sixty : Bool) (pos : Nat) : Int :=
  let newer := trail.takeWhile fun (e : Trail) => decide (pos < e.idx * 2 ^ 28)
  let base := match (trail.drop newer.length).head? with | some e => e.idx | none => pos / 2 ^ 28
  let unit := if osr500 then 2 else 1
  let sample (k : Nat) : Int :=
    match if newer.length + k < 48 then none else trail[newer.length + k - 48]? with
    | some e => e.y[c]
    | none => Config.unheldSample (base + 48 * unit - k * unit)
  roundUp ((List.range 96).map fun k => Config.resampleTap osr500 sixty (pos - base * 2 ^ 28) k * sample k).sum (2 ^ 30)

/-- The 4,096 points of a channel: point j in cycle c = floor(j × N ÷ 4,096), at its fraction of the way between the cycle's two boundary
instants, which `marks` holds newest first (R105 step 1). -/
def resample (trail : List Trail) (c : Fin 7) (osr500 sixty : Bool) (marks : List Nat) (ncyc : Nat) : List Int :=
  let ms := marks.reverse
  (List.range 4096).map fun j =>
    let m0 := ms.getD (j * ncyc / 4096) 0
    let m1 := ms.getD (j * ncyc / 4096 + 1) 0
    resampleAt trail c osr500 sixty (m0 * 4096 + j * ncyc % 4096 * (m1 - m0))

/-- The spectrum an ended window gives on a channel. -/
def EndedWindow.spectrum (ew : EndedWindow) (a : Applied) (c : Fin 7) : Spectrum :=
  let w := ew.win
  let dc := (ew.trail.filter fun (e : Trail) => decide (w.start.idx ≤ e.idx) && decide (e.idx < ew.stop.idx)).reverse.map fun e => e.y[c]
  ⟨if isAc (kindOf a.cfg) then resample ew.trail c a.osr500 (bit a.cfg 4) w.marks (windowCycles a.cfg) else dc, a.osr500, ew.stop.mark - w.start.mark⟩

/-- The spectra of an ended window. -/
def EndedWindow.spectra (ew : EndedWindow) (a : Applied) : Spectra := Vector.ofFn fun c => ew.spectrum a c

/-- The nominal magnitude response of the decimation chain, relative to its DC gain, at `num`/`den` of the output rate, with `fx` fractional bits:
the sinc3 filter of R bits per word and the 33 taps (R70, R71). -/
def chainGain (osr500 : Bool) (num : Int) (den : Nat) : Nat :=
  let r : Nat := if osr500 then 500 else 250
  let taps := List.range 33
  let re := (taps.map fun k => coeff osr500 k * cosTurn (k * num) den).sum
  let im := (taps.map fun k => coeff osr500 k * sinTurn (k * num) den).sum
  let dc := (taps.map fun k => coeff osr500 k).sum.natAbs
  let low := (sinTurn num (2 * den * r)).natAbs
  let sinc := if low = 0 then 2 ^ fx else (sinTurn num (2 * den)).natAbs * 2 ^ fx / (r * low)
  isqrt (re * re + im * im).toNat * sinc ^ 3 / (2 ^ (3 * fx) * max 1 dc)

/-- Sum over a channel's points of y × cos and y × −sin of bin `m`'s turns, with `fx` fractional bits. -/
def dftSum (y : List Int) (f : Int → Nat → Int) (m : Nat) : Int :=
  ((List.range y.length).map fun j => y.getD j 0 * f (m * j : Nat) y.length).sum

/-- The response that bin `m` of an AC window is divided by (R105 step 3). -/
def binGain (x : Spectrum) (m : Nat) : Nat := max 1 (chainGain x.osr500 (m * 65536 * (if x.osr500 then 2 else 1) : Nat) (max 1 x.span))

/-- Real and imaginary part of DFT bin `m` of a channel, divided by the chain's response, in units of 2^−8 code (R105 steps 2 and 3). -/
def binRe (f : Spectra) (c : Fin 7) (m : Nat) : Int := roundUp (dftSum f[c].y cosTurn m) (binGain f[c] m)
def binIm (f : Spectra) (c : Fin 7) (m : Nat) : Int := roundUp (-(dftSum f[c].y sinTurn m)) (binGain f[c] m)

/-- C_0 of a channel in units of 2^−8 code (R105 step 2, R112). -/
def orderZero (f : Spectra) (c : Fin 7) : Int := roundUp f[c].y.sum 4096

/-- Real and imaginary part of bin `m` of the ripple analysis of a DC window, in units of 2^−8 code: the mean removed, a periodic Hann window, the
DFT of the window's samples, divided by the chain's response (R110 steps 1 to 3). `t` gives the turns' weights. -/
def ripplePart (x : Spectrum) (t : Int → Nat → Int) (m : Nat) : Int :=
  let len := x.y.length
  let s1 := x.y.sum
  let h := max 1 (chainGain x.osr500 (m : Nat) (max 1 len))
  let sum := ((List.range len).map fun j => (len * x.y.getD j 0 - s1) * ((2 ^ fx : Nat) - cosTurn (j : Nat) len) * t (m * j : Nat) len).sum
  roundUp sum (2 * max 1 len * 2 ^ fx * h)

/-- |X_m|² of the ripple analysis. -/
def ripplePower (f : Spectra) (c : Fin 7) (m : Nat) : Nat :=
  let re := ripplePart f[c] cosTurn m
  let im := ripplePart f[c] sinTurn m
  (re * re + im * im).toNat

/-- A phasor of the order-1 bin. -/
structure Phasor where
  re : Int
  im : Int
  deriving DecidableEq, Repr

/-- Power of bin `m`. -/
def binPower (f : Spectra) (c : Fin 7) (m : Nat) : Nat := (binRe f c m * binRe f c m + binIm f c m * binIm f c m).toNat

/-- 4,096² × G_h² of order h ≥ 1 with N cycles in the window (R106). -/
def groupSum (f : Spectra) (c : Fin 7) (n h : Nat) : Nat :=
  let k := n * h
  let w := n / 2
  binPower f c (k - w) + binPower f c (k + w) + 2 * ((List.range (2 * w - 1)).map fun i => binPower f c (k - w + 1 + i)).sum

/-- The order-1 phasor of a channel. -/
def phasor1 (f : Spectra) (c : Fin 7) (n : Nat) : Phasor := ⟨binRe f c n, binIm f c n⟩

/-- An angle in degrees as binary32. -/
def degF (y x : Int) : Nat := F32.ofRat (atan2Deg y x) (2 ^ fx)

/-- The harmonic entries of one channel: magnitudes, phases and THD, or zeros where the window has no result (R109). -/
def State.harmonicEntries (s : State) (p : Fin 8) (c : Fin 7) (n : Nat) (f : Spectra) (ncyc fs : Nat) (have' : Bool) : State :=
  let g (h : Nat) : Nat :=
    if h = 0 then F32.ofRat ((orderZero f c).natAbs * fs : Nat) yUnit
    else F32.ofSqrt (groupSum f c ncyc h * (fs * fs)) (4096 * 4096 * (yUnit * yUnit))
  let ph (h : Nat) : Nat :=
    if h = 0 then (if 0 ≤ orderZero f c then 0 else F32.ofRat 180 1)
    else degF (binIm f c (ncyc * h)) (binRe f c (ncyc * h))
  let s := forEach (List.range 128) (fun h s =>
    (s.setQ n (K.HARM_MAG p c (h + 1)) ((if have' then g h else 0 : Nat) : Int)).setQ n (K.HARM_PHASE p c (h + 1))
      ((if have' then ph h else 0 : Nat) : Int)) s
  let ord := s.getU (K.THD_ORDER p)
  let g1 := groupSum f c ncyc 1
  let low := decide (g1 * 2000000 < 2 ^ 54 * (4096 * 4096))
  let num := ((List.range (ord - 1)).map fun i => groupSum f c ncyc (i + 2)).sum
  s.setQ n (K.THD p (c + 1)) ((if have' && !low then F32.ofSqrt num g1 else 0 : Nat) : Int)

/-- Whether THD of a channel is replaced by 0.0 (R108). -/
def thdLow (f : Spectra) (c : Fin 7) (n : Nat) : Bool := groupSum f c n 1 * 2000000 < 2 ^ 54 * (4096 * 4096)

/-- Whether the fundamental lies below 1 % of the rated value (R100). -/
def fundLow (f : Spectra) (c : Fin 7) (n : Nat) : Bool := groupSum f c n 1 * 20000 < 2 ^ 54 * (4096 * 4096)

/-! ### DC ripple (R110) -/

/-- Bands of Table 03.7 in Hz. -/
def rippleBands : List (Nat × Nat) :=
  [(100, 200), (200, 500), (500, 1000), (1000, 2000), (2000, 5000), (5000, 10000), (10000, 20000), (20000, 39000)]

/-- Whether |mean| lies below 0.1 % of the rated value. -/
def meanLow (z : ChanSum) (m : Nat) : Bool := z.s1.natAbs * 1000 < m * 2 ^ 27

/-- The ripple entries of one channel. A channel whose window lost a sample reads 0.0 in all of them (DESIGN CHOICE, log entry 54: R109 speaks of
harmonics only), while the RIPPLE event is evaluated on its sums. -/
def State.rippleEntries (s : State) (p : Fin 8) (c : Fin 7) (n : Nat) (f : Spectra) (z : ChanSum) (m fs : Nat) (osr500 have' : Bool) : State :=
  let band (e : Nat × Nat) : Nat :=
    let lo := (e.1 + 4) / 5
    let sum := ((List.range ((e.2 + 4) / 5 - lo)).map fun i => ripplePower f c (lo + i)).sum
    F32.ofSqrt (8 * 2 * sum * (fs * fs)) (3 * (m * m) * (yUnit * yUnit))
  let s := forEach (List.range 8) (fun b s =>
    s.setQ n (K.RIPPLE_BAND p c (b + 1))
      ((if have' && !(osr500 && b = 7) then band (rippleBands.getD b (0, 0)) else 0 : Nat) : Int)) s
  let var := ((m * z.s2 : Nat) - z.s1 * z.s1 : Int).toNat
  let s := s.setQ n (K.RIPPLE_AC p c) ((if have' then F32.ofSqrt (var * (fs * fs)) (m * m * (yUnit * yUnit)) else 0 : Nat) : Int)
  let s := s.setQ n (K.RIPPLE_PP p c) ((if have' then F32.ofRat ((z.hi - z.lo) * fs) yUnit else 0 : Nat) : Int)
  s.setQ n (K.RIPPLE_FACTOR p c) ((if have' && !meanLow z m then F32.ofSqrt var (z.s1 * z.s1).toNat else 0 : Nat) : Int)

/-! ### Publication of a window (R97 to R104) -/

/-- Re-phased product V·conj(I): imaginary part positive when current lags. -/
def Phasor.cross (v i : Phasor) : Phasor := ⟨v.re * i.re + v.im * i.im, v.im * i.re - v.re * i.im⟩

/-- |X|². -/
def Phasor.norm (v : Phasor) : Nat := (v.re * v.re + v.im * v.im).toNat

/-- Whether an angle of fixed-point degrees lies within 30° of `deg`. -/
def near30 (a : Int) (deg : Int) : Bool := (a - deg * (2 ^ fx : Nat)).natAbs ≤ 30 * 2 ^ fx

/-- S_k below 0.1 % of the rated apparent power (R100): the RMS product against FS·FS/2 on AC and FS·FS on DC. -/
def lowPower (ac : Bool) (v2 i2 m : Nat) : Bool :=
  let k : Nat := if ac then 2000 else 1000
  v2 * i2 * (k * k) < (m * 2 ^ 54) * (m * 2 ^ 54)

/-- S_TOTAL, with 160 fractional bits, below 0.1 % of the summed rated apparent power Σ FS·FS × 10^−6, halved on AC (R100). -/
def lowTotal (ac : Bool) (sFx rated : Nat) : Bool :=
  let k : Nat := if ac then 2000 else 1000
  sFx * k * 10 ^ 6 < rated * 2 ^ 160

/-- Per-phase quantities of a window at close index `n`. -/
def State.phaseQuantities (s : State) (p : Fin 8) (n : Nat) (w : Window) (f : Spectra) (k : Fin 3) : State :=
  let a := s.points[p].app
  let ac := isAc (kindOf a.cfg)
  let m := w.sum.m
  let cv := vChan k
  let ci := iChan k
  let fsv := a.fs[cv]
  let fsi := a.fs[ci]
  let zv := w.sum.chans[cv]
  let zi := w.sum.chans[ci]
  let vi := w.sum.vi[k]
  let ncyc := windowCycles a.cfg
  let have' := ac && !(bit w.incomplete cv) && !(bit w.incomplete ci)
  let xv := phasor1 f cv ncyc
  let xi := phasor1 f ci ncyc
  let x := xv.cross xi
  let gg := groupSum f cv ncyc 1 * groupSum f ci ncyc 1
  let nn := xv.norm * xi.norm
  let lowS := lowPower ac zv.s2 zi.s2 m
  let lowA := !have' || fundLow f cv ncyc || fundLow f ci ncyc
  let qn := (x.im * x.im).toNat * gg * ((fsv * fsi) * (fsv * fsi))
  let q := F32.ofSqrt qn (nn * (4096 ^ 4 * (yUnit * yUnit) * (yUnit * yUnit)))
  let qSigned := if x.im < 0 ∧ q ≠ 0 then 2 ^ 31 + q else q
  let s := s.setQ n (K.P p (k + 1)) ((powerF vi m fsv fsi : Nat) : Int)
  let s := s.setQ n (K.Q p (k + 1)) ((if have' then qSigned else 0 : Nat) : Int)
  let s := s.setQ n (K.S p (k + 1)) ((F32.ofSqrt (zv.s2 * zi.s2 * ((fsv * fsi) * (fsv * fsi))) (m * m * (yUnit ^ 4)) : Nat) : Int)
  let pf := F32.ofSqrt (vi * vi).toNat (zv.s2 * zi.s2)
  let s := s.setQ n (K.PF p (k + 1)) ((if lowS then 0 else if vi < 0 ∧ pf ≠ 0 then 2 ^ 31 + pf else pf : Nat) : Int)
  let s := s.setQ n (K.PHI p (k + 1)) ((if lowA then 0 else degF x.im x.re : Nat) : Int)
  let cph := F32.ofSqrt (x.re * x.re).toNat nn
  let s := s.setQ n (K.COSPHI1 p (k + 1)) ((if lowA || lowS then 0 else if x.re < 0 ∧ cph ≠ 0 then 2 ^ 31 + cph else cph : Nat) : Int)
  if k = 0 then s else
  let x1 := phasor1 f 0 ncyc
  let r := xv.cross x1
  let lowV := !have' || fundLow f cv ncyc || fundLow f 0 ncyc
  s.setQ n (K.VANGLE p (k + 1)) ((if lowV then 0 else degF r.im r.re : Nat) : Int)

/-- Reactive power of a phase, exact sign and root with 160 fractional bits, in units of the physical scale. -/
def qFx (a : Applied) (w : Window) (f : Spectra) (k : Fin 3) : Int :=
  let ncyc := windowCycles a.cfg
  let xv := phasor1 f (vChan k) ncyc
  let xi := phasor1 f (iChan k) ncyc
  let x := xv.cross xi
  let fs := a.fs[vChan k] * a.fs[iChan k]
  if bit w.incomplete (vChan k) || bit w.incomplete (iChan k) then 0 else
  let r := rootFx ((x.im * x.im).toNat * (groupSum f (vChan k) ncyc 1 * groupSum f (iChan k) ncyc 1) * (fs * fs))
    (xv.norm * xi.norm * (4096 ^ 4 * yUnit ^ 4))
  if x.im < 0 then -(r : Int) else r

/-- Totals, quadrant and sequence of a window (R98, R100, R102, R103). -/
def State.totalQuantities (s : State) (p : Fin 8) (n : Nat) (w : Window) (f : Spectra) : State :=
  let a := s.points[p].app
  let kind := kindOf a.cfg
  let ac := isAc kind
  let m := w.sum.m
  let ks := phaseList kind
  let fs (k : Fin 3) : Nat := a.fs[vChan k] * a.fs[iChan k]
  let pNum := (ks.map fun k => w.sum.vi[k] * (fs k : Nat)).sum
  let sFx := (ks.map fun k => rootFx (w.sum.chans[vChan k].s2 * w.sum.chans[iChan k].s2 * (fs k * fs k)) (m * m * yUnit ^ 4)).sum
  let q := if ac then (ks.map (qFx a w f)).sum else 0
  let rated := (ks.map fs).sum
  let low := lowTotal ac sFx rated
  let s := s.setQ n (K.TOTALS p 1) ((F32.ofRat pNum (m * (yUnit * yUnit)) : Nat) : Int)
  let s := s.setQ n (K.TOTALS p 2) ((F32.ofRat q (2 ^ 160) : Nat) : Int)
  let s := s.setQ n (K.TOTALS p 3) ((F32.ofRat sFx (2 ^ 160) : Nat) : Int)
  let s := s.setQ n (K.TOTALS p 4) ((if low then 0 else F32.ofRat (pNum * (2 ^ 160 : Nat)) (m * (yUnit * yUnit) * sFx) : Nat) : Int)
  let quad : Nat := if 0 ≤ pNum then (if 0 ≤ q then 1 else 4) else (if 0 ≤ q then 2 else 3)
  let s := s.setQ n (K.QUADRANT p) ((quad : Nat) : Int)
  let ncyc := windowCycles a.cfg
  let ang (k : Fin 3) : Int := let r := (phasor1 f (vChan k) ncyc).cross (phasor1 f 0 ncyc); atan2Deg r.im r.re
  let ok := kind = 3 && !(([0, 1, 2] : List (Fin 7)).any fun c => bit w.incomplete c || fundLow f c ncyc)
  let seq : Nat := if !ok then 0
    else if near30 (ang 1) (-120) && near30 (ang 2) 120 then 1
    else if near30 (ang 1) 120 && near30 (ang 2) (-120) then 2 else 0
  s.setQ n (K.SEQUENCE p) ((seq : Nat) : Int)

/-- QUAL of a channel for a window (Table 03.12). A channel that lost a sample sets INCOMPLETE and not LOW_LEVEL: it has no G_1 to compare
(DESIGN CHOICE, log entry 54: R109 and R108 leave it open). -/
def chanQual (a : Applied) (w : Window) (f : Spectra) (c : Fin 7) : Nat :=
  if a.uses c = false then 8 else
  let kind := kindOf a.cfg
  let ac := isAc kind
  let z := w.sum.chans[c]
  let inc := bit w.incomplete c
  let ncyc := windowCycles a.cfg
  let m := w.sum.m
  let lowS := (phaseList kind).any fun k => iChan k = c &&
    lowPower ac w.sum.chans[vChan k].s2 w.sum.chans[iChan k].s2 m
  let low := lowS || (if ac then !inc && (thdLow f c ncyc || fundLow f c ncyc) else meanLow z m)
  qualBits z.quals + 16 * natOfBool w.substitute + 32 * natOfBool inc + 64 * natOfBool low + 128 * natOfBool w.rebased
    + 256 * natOfBool (kind = 4 && a.osr500)

/-- The window events of a point at close index `n` (R112 to R114), in ascending bit number. -/
def State.windowEvents (s : State) (p : Fin 8) (n : Nat) (ew : EndedWindow) (f : Spectra) : State :=
  let a := s.points[p].app
  let kind := kindOf a.cfg
  let ac := isAc kind
  let w := ew.win
  let m := w.sum.m
  let s := if ac then
      let fn := nominalMilliHz a.cfg
      let tol := s.getU (K.FREQ_TOL p)
      let nn := windowCycles a.cfg * 80000 * 65536 * 1000
      let dur : Option Nat := match w.start.crossing, ew.stop.crossing with
        | some c0, some c1 => if w.substitute then none else some (c1 - c0)
        | _, _ => none
      match dur with
      | some d =>
        -- W_min and W_max with tol and with 0.9 tol (ten times the frequencies)
        let beyond (t10 : Nat) : Bool :=
          decide (d < (nn * 10 + (10 * fn + t10) - 1) / (10 * fn + t10)) || (decide (t10 < 10 * fn) && decide (nn * 10 / (10 * fn - t10) < d))
        let dev := F32.ofRat (((nn : Int) - (fn * d : Nat)).natAbs : Nat) (1000 * d)
        s.plainEvent n p 6 (beyond (10 * tol)) (!beyond (9 * tol)) dev 1
      | none => s.plainEvent n p 6 false true 0 1
    else s
  let s := if kind = 3 then
      let neg := decide (s.getN (K.SEQUENCE p) = 2)
      s.plainEvent n p 8 neg (!neg) 0 7
    else s
  let s := if kind = 4 then
      let cs : List (Fin 7) := [0, 3]
      let lim := s.getU (K.RIPPLE_LIMIT p)
      let hit (c : Fin 7) : Bool :=
        let z := w.sum.chans[c]
        !meanLow z m && decide ((lim * lim : Nat) * (z.s1 * z.s1) < 10 ^ 12 * ((m * z.s2 : Nat) - z.s1 * z.s1))
      let fac (c : Fin 7) : Nat := s.getU (K.RIPPLE_FACTOR p c)
      s.plainEvent n p 11 (cs.any hit) (!cs.any hit) (maxF (cs.map fac)) (maskOf cs hit)
    else s
  let s := if ac then
      let cs := (phaseList kind).map iChan
      let dci := s.getU (K.DCI_LEVEL p)
      let hit (c : Fin 7) : Bool := !(bit w.incomplete c) && decide (dci * 2 ^ 27 < (orderZero f c).natAbs * a.fs[c])
      let val (c : Fin 7) : Nat := F32.ofRat ((orderZero f c).natAbs * a.fs[c] : Nat) yUnit
      s.plainEvent n p 12 (cs.any hit) (!cs.any hit) (maxF (cs.map val)) (maskOf cs hit)
    else s
  let inc := decide (w.incomplete ≠ 0)
  s.plainEvent n p 13 inc (!inc) 0 w.incomplete

/-- Publish the oldest ended window at its close index C = E + 3,200 (R97). Its quantities are scaled with the CH_FS and the use of channels in
force at C, and a window that a rebase ended publishes FREQ as N over its shorter span, on which FREQ_DEV is evaluated (DESIGN CHOICE, log entry
54: R98 and R96 leave both open). -/
def State.publish (s : State) (p : Fin 8) : State :=
  match s.points[p].ended with
  | [] => s
  | ew :: later =>
    let s := s.updPoint p fun x => { x with ended := later }
    let a := s.points[p].app
    let f := ew.spectra a
    let kind := kindOf a.cfg
    let ac := isAc kind
    let w := ew.win
    let n := ew.stop.idx + 3200
    let m := w.sum.m
    let s := forEach allChans (fun c s =>
      let used := a.uses c
      let z := w.sum.chans[c]
      let fs := a.fs[c]
      let s := s.setQ n (K.RMS p (c + 1)) ((if used then rmsF z m fs else 0 : Nat) : Int)
      let s := s.setQ n (K.MEAN p (c + 1)) ((if used then meanF z m fs else 0 : Nat) : Int)
      let s := s.setQ n (K.PEAK p (c + 1)) ((if used then F32.ofRat ((max z.hi.natAbs z.lo.natAbs) * fs : Nat) yUnit else 0 : Nat) : Int)
      let s := (s.setQ n (K.QUAL p (c + 1)) ((chanQual a w f c : Nat) : Int)).sessionQual p c (chanQual a w f c)
      let have' := used && !(bit w.incomplete c)
      let s := if ac then s.harmonicEntries p c n f (windowCycles a.cfg) fs have' else s
      if kind = 4 ∧ c.val < 5 then s.rippleEntries p c n f z m fs a.osr500 have' else s) s
    let s := forEach (phaseList kind) (fun k s => s.phaseQuantities p n w f k) s
    let s := s.totalQuantities p n w f
    let freq := match w.start.crossing, ew.stop.crossing with
      | some c0, some c1 =>
        if w.substitute = false ∧ c0 < c1 then F32.ofRat (windowCycles a.cfg * 80000 * 65536 : Nat) (c1 - c0)
        else F32.ofRat (nominalMilliHz a.cfg) 1000
      | _, _ => F32.ofRat (nominalMilliHz a.cfg) 1000
    let s := if ac then s.setQ n (K.FREQ p 1) ((freq : Nat) : Int) else s
    let s := ((s.setQ n (K.WIN_INDEX p 1) (w.start.idx : Nat)).setQ n (K.WIN_INDEX p 2) (ew.stop.idx : Nat)).setQ n (K.WIN_INDEX p 3) (n : Nat)
    let s := s.setQ n (K.WIN_CYCLES p) (windowCycles a.cfg : Nat)
    let un := allChans.foldl (fun u c => if a.uses c then u ||| chanQual a w f c else u) 0
    let s := s.setQ n (K.WIN_STATUS p) ((un : Nat) : Int)
    s.windowEvents p n ew f

end Sys2Proof.Machine
end

