-- ==== Sys2Proof/Machine/Energy.lean ====
section
/-! DEFINITION. Machine/Energy.lean: fine accumulators, booking of netting steps, cable compensation, reverse power, demand, pulses and the
disputed set (R119 to R143). -/

namespace Sys2Proof.Machine

open Sys2Proof

/-! ### Scale constants (R120, R128) -/

/-- Sample period in ns. -/
def tsNs (osr500 : Bool) : Nat := if osr500 then 25000 else 12500

/-- KE of full scales and OSR (R120). -/
def keOf (fsv fsi : Nat) (osr500 : Bool) : Nat :=
  (roundUp (fsv * fsi * tsNs osr500 * 2 ^ 42 : Nat) 3600000000000).toNat

/-- R_T in nΩ (R128). -/
def cableR (r20 : Nat) (alpha t : Int) : Nat := (max 0 (roundUp (r20 * (10 ^ 8 + alpha * (t - 2000))) (10 ^ 8))).toNat

/-- KL of a cable resistance (R128). -/
def klOf (fsi rt : Nat) (osr500 : Bool) : Nat :=
  (roundUp (fsi * fsi * rt * tsNs osr500 * 2 ^ 42 : Nat) 3600000000000000000000).toNat

/-- cos_j and sin_j of R122. -/
def cosTab (j : Nat) : Int := roundUp (2 ^ 23 * cosTurn j 65536) (2 ^ fx)
def sinTab (j : Nat) : Int := roundUp (2 ^ 23 * sinTurn j 65536) (2 ^ fx)

/-- A valid temperature of an auxiliary input at index `n` (R129): no older than 1 s in sample periods, which a rebase does not change, CLEAN, no
open wire, −40 °C to +150 °C. -/
def State.validTemp (s : State) (src n : Nat) : Option Int :=
  if h : src < 32 then
    let w := s.getU (K.INPUT_LATEST (src + 1))
    let i := s.inputAt[src]
    let t := s.getN (K.INPUT_TEMP (src + 1))
    if field w 25 24 = 0 ∧ bit w 26 = false ∧ n ≤ i + 80000 ∧ -4000 ≤ t ∧ t ≤ 15000 then some t else none
  else none

/-- The constants of a step taken at its start `n` (R120, R127 to R129). -/
def State.stepConstants (s : State) (p : Fin 8) (n : Nat) : State :=
  let a := s.points[p].app
  let dc := kindOf a.cfg = 4
  let ke : Vector Nat 3 := Vector.ofFn fun k => keOf a.fs[vChan k] a.fs[iChan k] a.osr500
  let r20 := s.getU (K.CABLE_R20 p)
  if dc = true ∧ r20 ≠ 0 then
    let src := s.getU (K.CABLE_TEMP_SRC p)
    let t := s.validTemp src n
    let tu := t.getD (s.getN (K.CABLE_T_FALLBACK p))
    let rt := cableR r20 (s.getN (K.CABLE_ALPHA p)) tu
    s.updPoint p fun x => { x with ke := ke, kl := klOf a.fs[(3 : Fin 7)] rt a.osr500, tUsed := tu, rUsed := rt, tFallback := t.isNone, cable := true }
  else s.updPoint p fun x => { x with ke := ke, kl := 0, tUsed := 0, rUsed := 0, tFallback := false, cable := false }

/-! ### Accumulation (R121) -/

/-- e of a sample (R121). -/
def energyOf (ks : List (Fin 3)) (ke : Vector Nat 3) (y : Fin 7 → Int) : Int :=
  (ks.map fun k => roundUp (y (vChan k) * y (iChan k) * (ke[k] : Nat)) (2 ^ 64)).sum

/-- One sample into the sums of a phase (Table 04.2). -/
def PhaseSum.add (a : PhaseSum) (yv yi c sn : Int) (ac : Bool) : PhaseSum where
  sv := a.sv + (yv * yv).toNat
  si := a.si + (yi * yi).toNat
  av := if ac then a.av + yv * c else 0
  bv := if ac then a.bv + yv * sn else 0
  ai := if ac then a.ai + yi * c else 0
  bi := if ac then a.bi + yi * sn else 0

/-- One sample of index `n`, metered under record tags `tags`, into a step. -/
def StepSum.add (st : StepSum) (ks : List (Fin 3)) (e : Int) (y : Fin 7 → Int) (c sn : Int) (ac : Bool) (n tags : Nat) : StepSum where
  f := st.f + e
  m := st.m + 1
  phases := Vector.ofFn fun k =>
    if k ∈ ks then st.phases[k].add (y (vChan k)) (y (iChan k)) c sn ac else st.phases[k]
  startIdx := st.startIdx
  lastIdx := n
  tags := st.tags ||| tags

/-! ### Pulses (R137 to R142) -/

/-- The quantum QP (R137). -/
def pulseQuantum (mc : Nat) : Nat := (roundUp (2 ^ 32 * 10 ^ 9 : Nat) mc).toNat

/-- The point and source of a PULSE_CFG word (Table 04.10). -/
def pulsePoint (cfg : Nat) : Nat := field cfg 10 8
def pulseSource (cfg : Nat) : Nat := field cfg 6 4

/-- What a sample streams to a source (R137): `e` metered, `ec` compensated, by DIRECTION for the BOTH sources. -/
def pulseAmount (src : Nat) (dir : Int) (e ec : Int) : Int :=
  match src with
  | 1 => e
  | 2 => -e
  | 3 => if dir = 1 then -e else e
  | 4 => ec
  | 5 => -ec
  | 6 => if dir = 1 then -ec else ec
  | _ => 0

/-- What a step books to a source's registers (R138). -/
def pulseBooked (src : Nat) (net comp : Int) : Int :=
  match src with
  | 1 => max net 0
  | 2 => max (-net) 0
  | 3 => (net.natAbs : Int)
  | 4 => max comp 0
  | 5 => max (-comp) 0
  | 6 => (comp.natAbs : Int)
  | _ => 0

namespace State

/-- Queue `k` pulses of an output: each counts in PULSE_COUNT, and in PULSE_LOST where the backlog is full (R137, R140). -/
def queuePulses (s : State) (n : Nat) (m : Fin 8) (k : Nat) : State :=
  if k = 0 then s else
  let back := s.getU (K.PULSE_BACKLOG (m + 1))
  let room := 255 - back
  let s := s.addWrapQ n 32 (K.PULSE_COUNT (m + 1)) k
  let s := s.setQ n (K.PULSE_BACKLOG (m + 1)) ((back + min k room : Nat) : Int)
  if room < k then s.addSatQ n 32 (K.PULSE_LOST (m + 1)) (k - room) else s

/-- Add to an output's accumulator, and issue a pulse for each quantum it holds; in HOLDUP nothing is issued (R137, R138, R142). -/
def addPulse (s : State) (n : Nat) (m : Fin 8) (d : Int) : State :=
  let a := s.getN (K.PULSE_ACC (m + 1)) + d
  let q := s.pulses[m].quantum
  if s.mode = .holdup ∨ a < q ∨ q = 0 then s.setQ n (K.PULSE_ACC (m + 1)) a
  else (s.setQ n (K.PULSE_ACC (m + 1)) (a % q)).queuePulses n m (a / q).toNat

/-- A sample's energy streams into every output that follows the point (R137). -/
def streamPulses (s : State) (p : Fin 8) (n : Nat) (e ec : Int) : State :=
  forEach allPoints (fun m s =>
    let cfg := s.pulses[m].cfg
    if pulsePoint cfg = p ∧ pulseSource cfg ≠ 0 then
      let d := pulseAmount (pulseSource cfg) (s.getN (K.DIRECTION p)) e ec
      (s.updPulse m fun x => { x with streamed := x.streamed + d }).addPulse n m d
    else s) s

/-- At a boundary the amount streamed in the ended step is set aside for its correction. -/
def closePulses (s : State) (p : Fin 8) : State :=
  forEach allPoints (fun m s =>
    if pulsePoint s.pulses[m].cfg = p then s.updPulse m fun x => { x with closed := x.closed + x.streamed, streamed := 0 } else s) s

/-- What a checkpoint holds of the outputs that follow a point (R145): A without what the running step has streamed, and the counts. -/
def keepPulses (s : State) (p : Fin 8) : State :=
  forEach allPoints (fun m s =>
    if pulsePoint s.pulses[m].cfg = p then
      let k : PulseKeep :=
        ⟨s.getN (K.PULSE_ACC (m + 1)) - s.pulses[m].streamed, s.getU (K.PULSE_COUNT (m + 1)), s.getU (K.PULSE_LOST (m + 1))⟩
      s.updPulse m fun x => { x with keep := k }
    else s) s

/-- The correction of a booked step (R138). -/
def correctPulses (s : State) (p : Fin 8) (n : Nat) (net comp : Int) : State :=
  forEach allPoints (fun m s =>
    let cfg := s.pulses[m].cfg
    if pulsePoint cfg = p ∧ pulseSource cfg ≠ 0 then
      let d := pulseBooked (pulseSource cfg) net comp - s.pulses[m].closed
      (s.updPulse m fun x => { x with closed := 0 }).addPulse n m d
    else s.updPulse m fun x => if pulsePoint cfg = p then { x with closed := 0 } else x) s

/-- Written pulse settings take effect (R141): A and the backlog become zero, the dropped pulses count as lost; a high pulse runs on. -/
def applyPulse (s : State) (n : Nat) (m : Fin 8) : State :=
  let cfg := s.getU (K.PULSE_CFG (m + 1))
  let q := pulseQuantum (s.getU (K.METER_CONST (m + 1)))
  if s.pulses[m].waits = false then s else
  let back := s.getU (K.PULSE_BACKLOG (m + 1))
  let s := s.setQ n (K.PULSE_ACC (m + 1)) 0
  let s := if back = 0 then s else (s.setQ n (K.PULSE_BACKLOG (m + 1)) 0).addSatQ n 32 (K.PULSE_LOST (m + 1)) back
  let k : PulseKeep := ⟨0, s.getU (K.PULSE_COUNT (m + 1)), s.getU (K.PULSE_LOST (m + 1))⟩
  s.updPulse m fun x =>
    let x := { x with cfg := cfg, quantum := q, streamed := 0, closed := 0, waits := false, keep := k }
    if x.phase = .high then x else { x with activeLow := bit cfg 0, level := bit cfg 0 }

/-- The settings of the outputs that now name a point take effect at its boundary (R141). -/
def applyPulses (s : State) (p : Fin 8) (n : Nat) : State :=
  forEach allPoints (fun m s => if pulsePoint (s.getU (K.PULSE_CFG (m + 1))) = p then s.applyPulse n m else s) s

/-- All samples of index `n` of a point are corrected: fine accumulator, step sums, cycle sums, pulses (R98, R121, R137). -/
def accumulate (s : State) (p : Fin 8) (n : Nat) : State :=
  let x := s.points[p]
  let kind := kindOf x.app.cfg
  let ks := phaseList kind
  let y (c : Fin 7) : Int := x.chans[c].y
  let q (c : Fin 7) : Nat := x.chans[c].qy
  let e := energyOf ks x.ke y
  let ec := e - roundUp (y 3 * y 3 * (x.kl : Nat)) (2 ^ 64)
  let j := x.theta / 65536
  let tags := s.tagsAt n
  let s := s.updPoint p fun x =>
    { x with step := x.step.add ks e y (cosTab j) (sinTab j) (isAc kind) n tags, cycle := x.cycle.add y q }.addTrail ⟨n, Vector.ofFn y⟩
  s.streamPulses p n e ec

/-! ### Demand (R132 to R136) -/

/-- The demand length of a DMD_CFG word in s (Table 04.11). -/
def demandLen (cfg : Nat) : Nat :=
  match cfg % 8 with | 0 => 60 | 1 => 300 | 2 => 600 | 3 => 900 | 4 => 1800 | _ => 3600

/-- The aligned interval an instant lies in (R132): whole lengths since the epoch, in TAI or in UTC by the host's offset. -/
def demandSlot (s : State) (ns : Nat) : Int :=
  let cfg := s.getU K.DMD_CFG
  let off : Int := if bit cfg 3 then 0 else s.getN K.UTC_OFFSET
  ((ns : Int) - off * 1000000000) / ((demandLen cfg * 1000000000 : Nat) : Int)

/-- A point's interval ends (R133, R134). The nominal length that divides is that of the interval that ends, which a change of DMD_CFG does not alter
(DESIGN CHOICE, log entry 37: R133 and R135 name no other). -/
def finishDemand (s : State) (p : Fin 8) (n : Nat) : State :=
  let x := s.points[p]
  let len := s.demand.prevLen
  let start := s.demand.prevStart
  let imp := s.getU (K.DMD_IMPORT p)
  let exp := s.getU (K.DMD_EXPORT p)
  let avg (v r : Nat) : Nat := F32.ofRat ((v * 2 ^ 32 + r) * 9 : Nat) (2500 * 2 ^ 32 * len)
  let ai := avg imp x.dmdResImport
  let ae := avg exp x.dmdResExport
  let st := s.getU (K.DMD_STATUS_NOW p)
  let s := ((s.setQ n (K.DMD_IMPORT_LAST p) (imp : Nat)).setQ n (K.DMD_EXPORT_LAST p) (exp : Nat))
  let s := ((s.setQ n (K.DMD_P_IMPORT_LAST p) (ai : Nat)).setQ n (K.DMD_P_EXPORT_LAST p) (ae : Nat))
  let s := s.setQ n (K.DMD_STATUS_LAST p) (st : Nat)
  let s := if bit st 2 || bit st 4 then s else
    let s := if F32.lt (s.getU (K.MAX_DMD_IMPORT p)) ai then
      (s.setQ n (K.MAX_DMD_IMPORT p) (ai : Nat)).setQ n (K.MAX_DMD_IMPORT_TIME p) (start : Nat) else s
    if F32.lt (s.getU (K.MAX_DMD_EXPORT p)) ae then
      (s.setQ n (K.MAX_DMD_EXPORT p) (ae : Nat)).setQ n (K.MAX_DMD_EXPORT_TIME p) (start : Nat) else s
  let s := ((s.setQ n (K.DMD_IMPORT p) 0).setQ n (K.DMD_EXPORT p) 0).setQ n (K.DMD_STATUS_NOW p)
    (((if s.getN (K.STEP_COUNT p) = 0 then 2 else 0) ||| x.dmdNext : Nat) : Int)
  let s := s.updPoint p fun x => { x with
    dmdResImport := 0, dmdResExport := 0, dmdFrom := none, dmdNext := 0, dmdImported := false, dmdExported := false, peakLast := x.peakRun, peakRun := 0 }
  s.setQ n (K.PEAK_STEP_P p) (s.points[p].peakLast : Nat)

/-- The interval that ended at `dmdFrom` is closed on a point once no step whose last sample lies before it is left to book: with the first sample
at or after it that is no boundary, or with the booking of that boundary's step (R132, R133). -/
def demandDue (s : State) (p : Fin 8) (n : Nat) : State :=
  match s.points[p].dmdFrom with
  | some first => if first ≤ n then s.finishDemand p n else s
  | none => s

/-- A step's amount of the legally relevant pair, in the interval of its last sample, with the interval's flags (R132 to R134). -/
def bookDemand (s : State) (p : Fin 8) (r : StepResult) : State :=
  let n := r.endIdx
  let s := s.demandDue p r.lastIdx
  let v : Int := if s.getN (K.LEGAL_PAIR p) = (1 : Int) then r.comp else r.net
  let tot := v.natAbs + (if 0 ≤ v then s.points[p].dmdResImport else s.points[p].dmdResExport)
  let k := if 0 ≤ v then K.DMD_IMPORT p else K.DMD_EXPORT p
  let s := s.setQ n k (((s.getU k + tot / 2 ^ 32) % 2 ^ 64 : Nat) : Int)
  let s := s.updPoint p fun x =>
    let x := if 0 ≤ v then { x with dmdResImport := tot % 2 ^ 32 } else { x with dmdResExport := tot % 2 ^ 32 }
    { x with dmdImported := x.dmdImported || decide (0 < v), dmdExported := x.dmdExported || decide (v < 0) }
  let x := s.points[p]
  let st := s.getU (K.DMD_STATUS_NOW p) ||| (natOfBool (x.dmdImported && x.dmdExported) + 4 * natOfBool (r.disputed || bit r.tags 2)
    + 8 * natOfBool (bit r.tags 0) + 16 * natOfBool (bit r.tags 1))
  let s := s.setQ n (K.DMD_STATUS_NOW p) (st : Nat)
  let pw := if r.dur = 0 then 0 else F32.ofRat (v.natAbs * 288 : Nat) (2 ^ 32 * r.dur)
  let s := s.updPoint p fun x => { x with peakRun := F32.maxOf x.peakRun pw }
  s.setQ n (K.PEAK_STEP_P p) ((F32.maxOf s.points[p].peakLast s.points[p].peakRun : Nat) : Int)

/-! ### Reverse power (R131) -/

/-- The reverse-power event on a booked step. -/
def reversePower (s : State) (p : Fin 8) (r : StepResult) : State :=
  let n := r.endIdx
  let th := s.getU (K.RP_THRESHOLD p)
  let holdNs := s.getU (K.RP_HOLD p) * 1000000
  let cond := decide (r.net * 7200 < -((th * r.dur * 25 * 2 ^ 32 : Nat) : Int))
  let clear := decide (-((9 * th * r.dur * 25 * 2 ^ 32 : Nat) : Int) ≤ r.net * 72000)
  let x := s.points[p].rp
  let lower (x : Reverse) : Reverse := if r.net * x.minDur < x.minNet * r.dur then { x with minNet := r.net, minDur := r.dur } else x
  let value (x : Reverse) : Nat := F32.ofRat (x.minNet * 288) (2 ^ 32 * x.minDur)
  let upd (x : Reverse) (s : State) : State := s.updPoint p fun y => { y with rp := x }
  if r.dur = 0 then s
  else if s.evEnabled p 16 = false then (upd Reverse.init s).endEvent n p 16 n
  else if x.active then
    let x := lower x
    let s := s.updPoint p fun y => { y with events := y.events.set 16 { y.events[(16 : Fin 17)] with extreme := value x } }
    if clear then
      let x := { x with held := x.held + r.dur, heldFrom := if x.held = 0 then r.startIdx else x.heldFrom }
      if holdNs ≤ x.held * 12500 then (upd Reverse.init s).endEvent n p 16 x.heldFrom else upd x s
    else upd { x with held := 0 } s
  else if cond then
    let x := if x.held = 0 then { x with heldFrom := r.startIdx, minNet := r.net, minDur := r.dur } else lower x
    let x := { x with held := x.held + r.dur }
    if holdNs ≤ x.held * 12500 then
      (upd { x with active := true, held := 0, startIdx := x.heldFrom } s).startEvent n p 16 x.heldFrom (value x) 0
    else upd x s
  else upd Reverse.init s

/-! ### Booking (R122 to R126, R143) -/

/-- book(reg, x) of R124 into the billing or the disputed set. -/
def bookReg (s : State) (n : Nat) (p : Fin 8) (disputed : Bool) (reg x : Nat) : State :=
  let k := if disputed then K.DISPUTED p reg else K.ENERGY p reg
  let kr := if disputed then K.DISPUTED_RESIDUE p reg else K.RESIDUE p reg
  let t := s.getU kr + x
  (s.setQ n k (((s.getU k + t / 2 ^ 32) % 2 ^ 64 : Nat) : Int)).setQ n kr ((t % 2 ^ 32 : Nat) : Int)

/-- The episode bounds of the disputed set (Table 04.7); DISPUTED_UNTIL reads all ones while in LOCKDOWN whether or not a step was booked (Views). -/
def disputedBounds (s : State) (p : Fin 8) (n start : Nat) (disputed : Bool) : State :=
  let inside := s.getN (K.DISPUTED_UNTIL p) = 2 ^ 64 - 1
  if disputed ∧ ¬ inside then (s.setQ n (K.DISPUTED_SINCE p) (start : Nat)).setQ n (K.DISPUTED_UNTIL p) (2 ^ 64 - 1)
  else if ¬ disputed ∧ inside then s.setQ n (K.DISPUTED_UNTIL p) (start : Nat)
  else s

/-- Reactive energy of a step (R122). -/
def stepQ (ks : List (Fin 3)) (cl : Closing) : Int :=
  (ks.map fun k =>
    let z := cl.sums.phases[k]
    roundUp (2 * (z.av * z.bi - z.bv * z.ai) * (cl.ke[k] : Nat)) (cl.sums.m * 2 ^ 110)).sum

/-- Apparent energy of a step (R123). -/
def stepS (ks : List (Fin 3)) (cl : Closing) : Nat :=
  (ks.map fun k =>
    let z := cl.sums.phases[k]
    (roundUp (isqrt (z.sv * z.si) * cl.ke[k] : Nat) (2 ^ 64)).toNat).sum

/-- Book a step with total reactive energy `qt` (R124, R126, R128), its demand and pulse correction. -/
def bookStep (s : State) (p : Fin 8) (cl : Closing) (qt : Int) : State × StepResult :=
  let a := s.points[p].app
  let kind := kindOf a.cfg
  let ks := phaseList kind
  let n := cl.bound.idx
  let st := stepS ks cl
  let net := cl.sums.f
  let ls := if kind = 4 then roundUp (cl.sums.phases[(0 : Fin 3)].si * cl.kl : Nat) (2 ^ 64) else 0
  let raw := net - ls
  let clip := kind = 4 && decide (0 ≤ net) && decide (raw < 0)
  let comp : Int := if kind = 4 then (if clip then 0 else raw) else 0
  let disputed : Bool := decide (s.modeAt cl.sums.lastIdx = Mode.lockdown)
  let dur := cl.sums.m * (if a.osr500 then 2 else 1)
  let r : StepResult := ⟨net, comp, dur, cl.sums.startIdx, cl.sums.lastIdx, n, disputed, cl.sums.tags⟩
  let s := s.disputedBounds p n cl.sums.startIdx disputed
  let s := if 0 ≤ net then (s.bookReg n p disputed 1 net.toNat).bookReg n p disputed 7 st
           else (s.bookReg n p disputed 2 (-net).toNat).bookReg n p disputed 8 st
  let quad := if 0 ≤ net then (if 0 ≤ qt then 3 else 6) else (if 0 ≤ qt then 4 else 5)
  let s := s.bookReg n p disputed quad qt.natAbs
  let s := if kind = 4 then
      let s := if clip then s.addSatQ n 32 (K.COMP_CLIP_STEPS p) 1 else s
      if 0 ≤ comp then s.bookReg n p disputed 9 comp.toNat else s.bookReg n p disputed 10 (-comp).toNat
    else s
  let s := if cl.cable then
      let s := (s.setQ n (K.CABLE_T_USED p) cl.tUsed).setQ n (K.CABLE_R_USED p) (cl.rUsed : Nat)
      if cl.tFallback then s.addSatQ n 32 (K.FALLBACK_STEPS p) 1 else s
    else s
  let s := s.setQ n (K.NET_INDEX p) (n : Nat)
  let s := (s.setQ n (K.LAST_NET p) net).setQ n (K.LAST_NET_COMP p) comp
  let dir : Int := if 0 < net then 0 else 1
  let s := if net = 0 then s else
    let old := s.getN (K.DIRECTION p)
    let s := if old ≠ 0xFF ∧ old ≠ dir then s.setQ n (K.LAST_REVERSAL p) (cl.sums.startIdx : Nat) else s
    s.setQ n (K.DIRECTION p) dir
  let s := (s.bookDemand p r).addWrapQ n 32 (K.STEP_COUNT p) 1
  ((s.correctPulses p n net comp).keepPulses p, r)

end State

end Sys2Proof.Machine
end

