-- ==== Sys2Proof/Machine/Calibration.lean ====
section
/-! DEFINITION. Machine/Calibration.lean: plates, interpolation over temperature, calibration runs, commits and the sealed reference
(R152 to R174). -/

namespace Sys2Proof.Machine

open Sys2Proof

/-! ### Plates (R153, R156) -/

/-- The slots of a plate set in ascending order. -/
def allSlots : List (Fin 4) := [0, 1, 2, 3]

namespace State

/-- A committed plate. -/
def plate (s : State) (p : Fin 8) (q : Fin 4) : Plate where
  valid := s.getN (K.PLATE_STATE p q) = 1
  t := s.getN (K.PLATE_T p q)
  gain := Vector.ofFn fun c => s.getU (K.PLATE_GAIN p q (c + 1))
  offset := Vector.ofFn fun c => s.getN (K.PLATE_OFFSET p q (c + 1))
  trim := Vector.ofFn fun c => s.getU (K.PLATE_TRIM p q (c + 1))

/-- The committed plate set of a point. -/
def plateSet (s : State) (p : Fin 8) : Vector Plate 4 := Vector.ofFn fun q => s.plate p q

end State

/-- The valid plates of a set sorted by temperature, given one coefficient of each: (t, c) pairs. -/
def sortedPairs (set : Vector Plate 4) (f : Plate → Int) : List (Int × Int) :=
  (allSlots.foldl (fun l q => if set[q].valid then insertPair (set[q].t, f set[q]) l else l) [])
where
  insertPair (a : Int × Int) : List (Int × Int) → List (Int × Int)
    | [] => [a]
    | b :: r => if a.1 < b.1 then a :: b :: r else b :: insertPair a r

/-- R156 on sorted pairs: constant outside, linear between neighbours, ties towards +∞. -/
def interpPairs (ti : Int) : List (Int × Int) → Int
  | [] => 0
  | [a] => a.2
  | a :: b :: r =>
    if ti ≤ a.1 then a.2
    else if ti < b.1 then a.2 + roundUp ((b.2 - a.2) * (ti - a.1)) (b.1 - a.1).toNat
    else interpPairs ti (b :: r)

/-- A coefficient of a plate set at a temperature (R156). -/
def interpPlates (set : Vector Plate 4) (ti : Int) (f : Plate → Int) : Int := interpPairs ti (sortedPairs set f)

/-- BELOW and ABOVE of a set at a temperature (Table 05.9). -/
def interpFlags (set : Vector Plate 4) (ti : Int) : Nat :=
  let ts := (sortedPairs set fun _ => 0).map Prod.fst
  if ts = [] then 0 else natOfBool (ts.all fun t => decide (ti < t)) + 2 * natOfBool (ts.all fun t => decide (t < ti))

namespace State

/-! ### Active coefficients (R155, R157) -/

/-- T_STALE and T_FALLBACK of ACTIVE_STATUS. -/
def tFallback (s : State) (p : Fin 8) : Bool := bit (s.getU (K.ACTIVE_STATUS p)) 2
def setTFlag (s : State) (n : Nat) (p : Fin 8) (b : Nat) (v : Bool) : State :=
  let w := s.getU (K.ACTIVE_STATUS p)
  s.setQ n (K.ACTIVE_STATUS p) ((if v then setBit w b else clearBit w b : Nat) : Int)

/-- New coefficients are formed: they wait for the point's next boundary. -/
def coefDue (s : State) (p : Fin 8) : State := { s with plateUse := s.plateUse.set p { s.plateUse[p] with due := true } }

/-- TI takes a value; new coefficients are formed where it changes (R157). -/
def setTi (s : State) (n : Nat) (p : Fin 8) (t : Int) : State :=
  if s.getN (K.ACTIVE_T p) = t then s else (s.setQ n (K.ACTIVE_T p) t).coefDue p

/-- The coefficients at TI written as the active ones (R156). -/
def formActive (s : State) (p : Fin 8) (n : Nat) : State :=
  let set := s.plateSet p
  let ti := s.getN (K.ACTIVE_T p)
  let s := forEach allChans (fun c s =>
    ((s.setQ n (K.ACTIVE_GAIN p (c + 1)) (interpPlates set ti fun x => (x.gain[c] : Nat))).setQ n (K.ACTIVE_OFFSET p (c + 1))
      (interpPlates set ti fun x => x.offset[c])).setQ n (K.ACTIVE_TRIM p (c + 1)) (interpPlates set ti fun x => (x.trim[c] : Nat))) s
  let st := s.getU (K.ACTIVE_STATUS p)
  s.setQ n (K.ACTIVE_STATUS p) ((st / 4 * 4 + interpFlags set ti : Nat) : Int)

/-- The interpolator histories re-formed from the kept raw words (R157), the sample of index `n` on channel 0 with them. -/
def reformHistory (s : State) (p : Fin 8) : State :=
  s.updPoint p fun x => { x with chans := Vector.ofFn fun c =>
    let ch := x.chans[c]
    let g := s.getU (K.ACTIVE_GAIN p (c + 1))
    let o := s.getN (K.ACTIVE_OFFSET p (c + 1))
    let h := ch.raw.map fun w => (correctWord g o w.1 w.2, w.2)
    let r := interpolate x.app.osr500 (s.getU (K.ACTIVE_TRIM p (c + 1))) h
    { ch with hist := h, y := r.1, qy := r.2 } }

/-- The plate history record of a change (Table 05.12), with INDEX left 0; REF is CAL_REF_ID's first 8 bytes as it stands. -/
def historyBytes (s : State) (p : Fin 8) (kind slots gen time : Nat) : List Byte :=
  leBytes 1 p ++ leBytes 1 kind ++ leBytes 1 slots
    ++ leBytes 1 (natOfBool (s.mode = Mode.service) + 2 * natOfBool s.taut + 4 * natOfBool s.sealed)
    ++ leBytes 4 gen ++ leBytes 6 0 ++ leBytes 10 time ++ ((s.getB K.CAL_REF_ID ++ List.replicate 8 0).take 8)

/-- PLATE_HIST of a rollback or of sealing, whose INDEX is 0 (Table 05.12). -/
def plateHistory (s : State) (p : Fin 8) (kind slots time : Nat) : State :=
  s.queueRecord ⟨.history, s.historyBytes p kind slots (s.getU (K.PLATE_GEN p)) time, none, 0, none⟩

/-- PLATE_APPLY at a point's boundary `n` (R157): new coefficients for all seven channels together. A commit's run ends here, and the history
record that its unit holds takes the activation's index and enters the log (R169, DESIGN CHOICE of the instant, log entry 55). -/
def applyPlates (s : State) (p : Fin 8) (n : Nat) : State :=
  if s.plateUse[p].due = false then s else
  let s := { s with plateUse := s.plateUse.set p { s.plateUse[p] with due := false } }
  let s := (s.formActive p n).reformHistory p
  let s := s.setQ n (K.CORR_SAMPLE p 1) s.points[p].chans[(0 : Fin 7)].y
  let s := (s.setQ n (K.ACTIVE_INDEX p) (n : Nat)).addWrapQ n 32 (K.INTERP_COUNT p) 1
  match s.cal with
  | some r =>
    if r.point = p ∧ r.committed = true then
      let s := s.queueRecord ⟨.history, r.hist.take 8 ++ leBytes 6 n ++ r.hist.drop 14, none, 0, none⟩
      { (((s.put K.CAL_STATE 0).put K.CAL_POINT 0xFF).put K.CAL_SLOT 0xFF) with cal := none }
    else s
  | none => s

/-- The temperature source's part of every boundary (R155): the first valid result ends the fallback; T_STALE after 1 s without one. -/
def tempBoundary (s : State) (p : Fin 8) (n : Nat) : State :=
  let src := s.getU (K.PLATE_TEMP_SRC p)
  if 32 ≤ src then s else
  match s.validTemp src n with
  | some t =>
    let s := { s with plateUse := s.plateUse.set p { s.plateUse[p] with lastValid := n } }
    let s := s.setTFlag n p 3 false
    if s.tFallback p then (s.setTFlag n p 2 false).setTi n p t else s
  | none => if s.plateUse[p].lastValid + 80000 < n then s.setTFlag n p 3 true else s

/-- TI_UPDATE at a boundary `n` (R155): the newest result with hysteresis. -/
def tiUpdate (s : State) (p : Fin 8) (n : Nat) : State :=
  let src := s.getU (K.PLATE_TEMP_SRC p)
  if 32 ≤ src ∨ s.tFallback p = true then s.tempBoundary p n else
  match s.validTemp src n with
  | some t =>
    let s := s.tempBoundary p n
    if s.getU (K.PLATE_T_HYST p) ≤ (t - s.getN (K.ACTIVE_T p)).natAbs then s.setTi n p t else s
  | none => s.tempBoundary p n

/-- PLATE_TEMP_SRC or PLATE_T_FALLBACK was written (`source`: the former). Without a source TI is the fallback. A source named where TI is the
fallback is read from its first valid result on, as after RECALL; where TI came from another source it stands, and the new source's results
enter with hysteresis (DESIGN CHOICE, log entry 55: R155 gives no rule for a change of source). -/
def tempConfig (s : State) (p : Fin 8) (source : Bool) : State :=
  let src := s.getU (K.PLATE_TEMP_SRC p)
  if 32 ≤ src then ((s.setTFlag s.index p 2 true).setTFlag s.index p 3 false).setTi s.index p (s.getN (K.PLATE_T_FALLBACK p))
  else if source then { s with plateUse := s.plateUse.set p { s.plateUse[p] with lastValid := s.index } }
  else s

/-- At RECALL (R155): TI is the fallback, and its coefficients correct every sample from the first. -/
def tempRecall (s : State) (p : Fin 8) : State :=
  let s := (s.setTFlag s.index p 2 true).setQ s.index (K.ACTIVE_T p) (s.getN (K.PLATE_T_FALLBACK p))
  let s := { s with plateUse := s.plateUse.set p ⟨true, s.index⟩ }
  s.formActive p s.index

end State

/-! ### Runs (R158 to R164) -/

/-- Empty raw sums. -/
def CalSum.zero : CalSum := ⟨0, 0, 0⟩

/-- Empty block. -/
def CalBlock.zero : CalBlock := ⟨Vector.replicate 7 CalSum.zero, Vector.replicate 7 0, Vector.replicate 7 0, 0, 0, false⟩

/-- Two sums together. -/
def CalSum.add (a b : CalSum) : CalSum := ⟨a.n + b.n, a.s1 + b.s1, a.s2 + b.s2⟩

/-- Two blocks together. -/
def CalBlock.add (a b : CalBlock) : CalBlock where
  sums := Vector.ofFn fun c => a.sums[c].add b.sums[c]
  re := Vector.ofFn fun c => a.re[c] + b.re[c]
  im := Vector.ofFn fun c => a.im[c] + b.im[c]
  cycles := a.cycles + b.cycles
  span := a.span + b.span
  substitute := a.substitute || b.substitute

/-- Cycles of a block (R162). -/
def blockCycles (cfg : Nat) : Nat := if kindOf cfg = 4 then 100 else if bit cfg 4 then 6 else 5

namespace State

/-- A step or commit ends with a reason, and the run is open again (R166, R167). -/
def calReason (s : State) (reason chs : Nat) : State :=
  let s := ((s.put K.CAL_REASON (reason : Nat)).put K.CAL_REASON_CH (chs : Nat)).put K.CAL_STATE 1
  { s with cal := s.cal.map fun r => { r with step := none } }

/-- A run's step changed. -/
def updStep (s : State) (f : CalStep → CalStep) : State :=
  { s with cal := s.cal.map fun r => { r with step := r.step.map f } }

/-- The sample of index `n` in the running step (R161, R162): its sums, or the end with QUALIFIER. -/
def calSample (s : State) (p : Fin 8) : State :=
  match s.cal with
  | some r =>
    match r.step with
    | some st =>
      if r.point = p ∧ st.begun = true ∧ st.blocks.length < 20 then
        let x := s.points[p]
        let word (c : Fin 7) : Int × Nat := x.chans[c].raw.headD (0, 4)
        let bad := maskOf allChans fun c => bit st.mask c && decide ((word c).2 ≠ 0)
        if bad ≠ 0 then s.calReason 1 bad else
        let j := x.theta / 65536
        let cs := cosTab j
        let sn := sinTab j
        let add (b : CalBlock) : CalBlock := { b with
          sums := Vector.ofFn fun c => if bit st.mask c then b.sums[c].add ⟨1, (word c).1, ((word c).1 * (word c).1).toNat⟩ else b.sums[c]
          re := Vector.ofFn fun c => if bit st.mask c then b.re[c] + (word c).1 * sn else b.re[c]
          im := Vector.ofFn fun c => if bit st.mask c then b.im[c] + (word c).1 * cs else b.im[c] }
        s.updStep fun st => { st with cyc := add st.cyc, taut := st.taut || s.taut }
      else s
    | none => s
  | none => s

/-- A boundary of the run's point (R162): the step begins, or a cycle joins its block, and a full block takes the temperature. -/
def calBoundary (s : State) (p : Fin 8) (cl : Closing) : State :=
  match s.cal with
  | some r =>
    match r.step with
    | some st =>
      if r.point ≠ p ∨ 20 ≤ st.blocks.length then s
      else if st.begun = false then s.updStep fun st => { st with begun := true, taut := s.taut, cyc := CalBlock.zero, cur := CalBlock.zero }
      else
        let span : Nat := match cl.prev.crossing, cl.bound.crossing with
          | some a, some b => b - a
          | _, _ => (cl.bound.idx - cl.prev.idx) * 65536
        let sub := cl.bound.crossing.isNone || cl.prev.crossing.isNone
        let cur := st.cur.add { st.cyc with cycles := 1, span := span, substitute := sub }
        if cur.cycles < blockCycles s.points[p].app.cfg then s.updStep fun st => { st with cur := cur, cyc := CalBlock.zero }
        else
          let src := s.getU (K.PLATE_TEMP_SRC p)
          let ts := if src < 32 then st.temps ++ [s.validTemp src cl.bound.idx] else st.temps
          (s.updStep fun st => { st with cur := CalBlock.zero, cyc := CalBlock.zero, blocks := cur :: st.blocks, temps := ts }).put K.CAL_PROGRESS
            ((st.blocks.length + 1 : Nat) : Int)
    | none => s
  | none => s

end State

/-! ### Figures of a step (R163 to R165), as exact rationals; roots and angles have `fx` fractional bits (log entry 52) -/

/-- A rational rounded to the nearest integer, ties towards +∞. -/
def roundQ (q : ℚ) : Int := roundUp q.num q.den

/-- Square root of a rational that is not negative: exact where it is a square. -/
def sqrtQ (q : ℚ) : ℚ := ((isqrt (q.num.toNat * q.den * 2 ^ (2 * fx)) : Nat) : ℚ) / ((2 ^ fx * q.den : Nat) : ℚ)

/-- a ÷ sqrt(v) rounded to the nearest integer, ties towards +∞, for positive `a` and `v`: exact, from (2a)² ÷ v. -/
def divRootQ (a v : ℚ) : Int :=
  let x := 4 * a * a / v
  ((isqrt (x.num / (x.den : Int)).toNat + 1) / 2 : Nat)

/-- Mean of raw sums. -/
def CalSum.mean (a : CalSum) : ℚ := if a.n = 0 then 0 else (a.s1 : ℚ) / (a.n : ℚ)

/-- Mean square of x − m0. -/
def CalSum.power (a : CalSum) (m0 : ℚ) : ℚ := if a.n = 0 then 0 else (a.s2 : ℚ) / (a.n : ℚ) - 2 * m0 * a.mean + m0 * m0

/-- The level of raw sums above m0: mean on DC, RMS on AC (R163). -/
def CalSum.levelOf (a : CalSum) (m0 : ℚ) (ac : Bool) : ℚ := if ac then sqrtQ (a.power m0) else a.mean - m0

/-- Mean of a list. -/
def meanQ (l : List ℚ) : ℚ := if l = [] then 0 else l.sum / (l.length : ℚ)

/-- Mean square deviation from the mean: the square of the noise. -/
def varQ (l : List ℚ) : ℚ := meanQ (l.map fun v => (v - meanQ l) * (v - meanQ l))

/-- |mean of the first half − mean of the second half| of values newest first. -/
def stabQ (l : List ℚ) : ℚ := |meanQ (l.take 10) - meanQ (l.drop 10)|

/-- The figures of one channel: measured value, block values, the level check, and the limits' unit. -/
structure CalFigure where
  meas : ℚ
  values : List ℚ
  level : Bool
  unit : ℚ
  deriving DecidableEq, Repr

/-- L × 2^19 ÷ CH_FS (R163). -/
def lCode (l : Int) (fs : Nat) : ℚ := (l : ℚ) * 2 ^ 19 / (fs : ℚ)

/-- The sum of a channel over all blocks. -/
def CalStep.total (st : CalStep) (c : Fin 7) : CalSum := (st.blocks.map fun b => b.sums[c]).foldl CalSum.add CalSum.zero

/-- Phasor of a channel in a block. -/
def CalBlock.phasor (b : CalBlock) (c : Fin 7) : Phasor := ⟨b.re[c], b.im[c]⟩

/-- Fundamental of a channel in a block, RMS in code. -/
def CalBlock.fundamental (b : CalBlock) (c : Fin 7) : ℚ :=
  if b.sums[c].n = 0 then 0 else sqrtQ ((2 * (b.phasor c).norm : Nat) : ℚ) / ((b.sums[c].n * 2 ^ 23 : Nat) : ℚ)

/-- Fixed-point degrees as a rational. -/
def degQ (a : Int) : ℚ := (a : ℚ) / ((2 ^ fx : Nat) : ℚ)

namespace State

/-- m0 of a channel in a run: the kept ZERO sums, else what the draft says (R163). -/
def runZero (s : State) (r : CalRun) (c : Fin 7) : ℚ :=
  match r.zero[c] with
  | some z => z.mean
  | none => (s.getN (K.DRAFT_OFFSET (c + 1)) : ℚ) * 2 ^ 14 / (s.getN (K.DRAFT_GAIN (c + 1)) : ℚ)

/-- GAIN and OFFSET from the kept sums (R163). -/
def reformDraft (s : State) (r : CalRun) (p : Fin 8) (c : Fin 7) : State :=
  let a := s.points[p].app
  let m0 := s.runZero r c
  let g : Int := match r.gain[c] with
    | some (z, l) =>
      let lc := 2 ^ 22 * lCode l a.fs[c]
      if isAc (kindOf a.cfg) then (if 0 < z.power m0 ∧ 0 < lc then divRootQ lc (z.power m0) else s.getN (K.DRAFT_GAIN (c + 1)))
      else if z.mean - m0 = 0 then s.getN (K.DRAFT_GAIN (c + 1)) else roundQ (lc / (z.mean - m0))
    | none => s.getN (K.DRAFT_GAIN (c + 1))
  (s.put (K.DRAFT_GAIN (c + 1)) g).put (K.DRAFT_OFFSET (c + 1)) (roundQ (m0 * (Int.cast g : ℚ) / 2 ^ 14))

/-- δ of a current channel or ε of a voltage channel in a block (R164): the plain difference from the stated angle, in degrees. -/
def blockAngle (s : State) (b : CalBlock) (c : Fin 7) : ℚ :=
  if c.val < 3 then
    let r := (b.phasor c).cross (b.phasor 0)
    if c = 0 then 0 else degQ (atan2Deg r.im r.re) - (s.getN (K.CAL_VANGLE (c + 1)) : ℚ) / 1000
  else
    let v : Fin 7 := ⟨c.val - 3, by omega⟩
    let r := (b.phasor v).cross (b.phasor c)
    degQ (atan2Deg r.im r.re) - (s.getN (K.CAL_ANGLE (c - 2)) : ℚ) / 1000

/-- The figures of a channel for the step's operation (Table 05.1). -/
def figure (s : State) (r : CalRun) (st : CalStep) (c : Fin 7) : CalFigure :=
  let a := s.points[r.point].app
  let ac := isAc (kindOf a.cfg)
  let lc := lCode st.level[c] a.fs[c]
  match st.op with
  | 2 =>
    let m := (st.total c).mean
    ⟨m, st.blocks.map (fun b => b.sums[c].mean), decide (|m| ≤ 5243), 2 ^ 19⟩
  | 3 =>
    let m0 := s.runZero r c
    let t := st.total c
    let near : Bool := if ac then decide (0 < lc) && decide ((9 * lc / 10) ^ 2 ≤ t.power m0) && decide (t.power m0 ≤ (11 * lc / 10) ^ 2)
      else decide (|t.mean - m0 - lc| * 10 ≤ |lc|)
    ⟨t.levelOf m0 ac, st.blocks.map (fun b => b.sums[c].levelOf m0 ac), decide ((if ac then 37073 else 52429) ≤ |lc|) && near, |lc|⟩
  | _ =>
    let vs := st.blocks.map fun b => s.blockAngle b c
    let m := meanQ vs
    let f := meanQ (st.blocks.map fun b => b.fundamental c)
    ⟨m, vs, decide (abs (f - abs lc) * 10 ≤ abs lc) && decide (|m| ≤ 1), 1⟩

/-- TRIM of the channels of an accepted PHASE step (R164): delays in degrees, then steps of 48.828125 ns at the mean frequency. -/
def phaseTrim (s : State) (st : CalStep) (c : Fin 7) : Int :=
  let ang (c : Fin 7) : ℚ := meanQ (st.blocks.map fun b => s.blockAngle b c)
  let d (c : Fin 7) : ℚ :=
    if c.val < 3 then -(ang c) else (if bit st.mask (c - 3) then -(ang ⟨c.val - 3, by omega⟩) else 0) + ang c
  let big := (allChans.filter fun (c : Fin 7) => bit st.mask c).foldl (fun m c => max m (d c)) (d (if bit st.mask 0 then 0 else c))
  let f := meanQ (st.blocks.map fun b => if b.span = 0 then 0 else ((b.cycles * 80000 * 65536 : Nat) : ℚ) / (b.span : ℚ))
  if f ≤ 0 then 0 else roundQ ((big - d c) * (64 * 10 ^ 9) / (360 * 3125 * f))

/-- CAL_MEAS, CAL_NOISE and CAL_STAB of a step's channels (R166): code or degrees, and ppm of the unit or degrees. -/
def reportFigures (s : State) (r : CalRun) (st : CalStep) : State :=
  forEach (allChans.filter fun (c : Fin 7) => bit st.mask c) (fun c s =>
    let g := s.figure r st c
    let k : ℚ := if st.op = 4 then 1 else if g.unit = 0 then 0 else 1000000 / g.unit
    let noise := varQ g.values * k * k
    let stab := stabQ g.values * k
    ((s.put (K.CAL_MEAS (c + 1)) (F32.ofRat g.meas.num g.meas.den : Nat)).put (K.CAL_NOISE (c + 1))
      (F32.ofSqrt noise.num.toNat noise.den : Nat)).put (K.CAL_STAB (c + 1)) (F32.ofRat stab.num stab.den : Nat)) s

/-- Limits of Table 05.1 in millionths (ZERO, GAIN) or thousandths (PHASE) of the figure's unit. -/
def noiseLimit (s : State) (op : Nat) : Nat :=
  if op = 2 then s.getU K.NOISE_LIMIT_ZERO else if op = 3 then s.getU K.NOISE_LIMIT_GAIN else s.getU K.NOISE_LIMIT_ANGLE * 1000
def stabLimit (s : State) (op : Nat) : Nat :=
  if op = 2 then s.getU K.STAB_LIMIT_ZERO else if op = 3 then s.getU K.STAB_LIMIT_GAIN else s.getU K.STAB_LIMIT_ANGLE * 1000

/-- CAL_STEP_END: the checks of Table 05.1 in the order of Table 05.2, and the accepted step's draft (R163 to R166). -/
def calStepEnd (s : State) : State :=
  match s.cal with
  | some r =>
    match r.step with
    | some st =>
      if st.blocks.length < 20 then s else
      let chs := allChans.filter fun (c : Fin 7) => bit st.mask c
      let s := s.reportFigures r st
      let limit (lim : Nat) (g : CalFigure) : ℚ := (lim : ℚ) * g.unit / 1000000
      let level := maskOf chs fun c => !(s.figure r st c).level
      let noise := maskOf chs fun c =>
        let g := s.figure r st c
        decide (limit (s.noiseLimit st.op) g * limit (s.noiseLimit st.op) g < varQ g.values)
      let unstable := maskOf chs fun c =>
        let g := s.figure r st c
        decide (limit (s.stabLimit st.op) g < stabQ g.values)
      let trims := if st.op = 4 then maskOf chs fun c => decide (256 < s.phaseTrim st c) else 0
      if st.op = 4 ∧ st.blocks.any (fun b => b.substitute) = true then s.calReason 4 st.mask
      else if st.temps.any (fun t => t.isNone) = true then s.calReason 5 st.mask
      else if level ≠ 0 then s.calReason 6 level
      else if noise ≠ 0 then s.calReason 7 noise
      else if unstable ≠ 0 then s.calReason 8 unstable
      else if trims ≠ 0 then s.calReason 9 trims
      else
        let zero := if st.op = 2 then Vector.ofFn fun c => if bit st.mask c then some (st.total c) else r.zero[c] else r.zero
        let gain := if st.op = 3 then Vector.ofFn fun c => if bit st.mask c then some (st.total c, st.level[c]) else r.gain[c] else r.gain
        let r' : CalRun := { r with
          step := none, zero := zero, gain := gain, temps := r.temps ++ st.temps.filterMap id, accepted := true, changed := true,
          tainted := r.tainted || st.taut, valid := setBit r.valid r.slot }
        let s := if st.op = 4 then forEach chs (fun c s => s.put (K.DRAFT_TRIM (c + 1)) (max 0 (s.phaseTrim st c))) s
          else forEach chs (fun c s => s.reformDraft r' r.point c) s
        let shift := if st.op = 2 then 0 else if st.op = 3 then 8 else 16
        let s := s.put K.CAL_DONE ((s.getU K.CAL_DONE ||| (st.mask * 2 ^ shift) : Nat) : Int)
        let ts := r'.temps
        let s := if ts = [] then s else
          (s.put K.DRAFT_T (roundUp ts.sum ts.length)).put K.DRAFT_T_SPAN (ts.foldl max (ts.headD 0) - ts.foldl min (ts.headD 0))
        ({ s with cal := some r' }).calReason 0 0
    | none => s
  | none => s

/-! ### Commands (R158 to R160, R167 to R172) -/

/-- CAL_CMD BEGIN (R159). -/
def calBegin (s : State) (p : Fin 8) (q : Fin 4) : State :=
  let pl := s.plate p q
  let s := forEach allChans (fun c s =>
    let g : Int := if pl.valid then (pl.gain[c] : Nat) else s.getN (K.ACTIVE_GAIN p (c + 1))
    let o : Int := if pl.valid then pl.offset[c] else s.getN (K.ACTIVE_OFFSET p (c + 1))
    let t : Int := if pl.valid then (pl.trim[c] : Nat) else s.getN (K.ACTIVE_TRIM p (c + 1))
    ((s.put (K.DRAFT_GAIN (c + 1)) g).put (K.DRAFT_OFFSET (c + 1)) o).put (K.DRAFT_TRIM (c + 1)) t) s
  let valid := (allSlots.map fun k => if (s.plate p k).valid then 2 ^ k.val else 0).sum
  let s := { s with cal := some ⟨p, q, valid, none, Vector.replicate 7 none, Vector.replicate 7 none, [], false, false, false, false, 0, 0, []⟩ }
  let s := ((s.put K.CAL_DONE 0).put K.DRAFT_ORIGIN 0).put K.CAL_PROGRESS 0
  let s := ((s.put K.DRAFT_T 0).put K.DRAFT_T_SPAN 0)
  ((s.put K.CAL_STATE 1).put K.CAL_POINT (p.val : Nat)).put K.CAL_SLOT (q.val : Nat)

/-- CAL_CMD ZERO, GAIN or PHASE (R162): measurement begins at the point's next boundary; an unused channel, or PHASE on a DC point, is
refused with its reason. -/
def calStep (s : State) (r : CalRun) (op mask : Nat) : State :=
  let a := s.points[r.point].app
  let used := maskOf allChans fun c => a.uses c
  if op = 4 ∧ isAc (kindOf a.cfg) = false then s.calReason 3 0
  else if op ≠ 4 ∧ mask &&& (used ^^^ 127) ≠ 0 then s.calReason 2 (mask &&& (used ^^^ 127))
  else
    let m := if op = 4 then used &&& 63 else mask
    let st : CalStep := ⟨op, m, Vector.ofFn fun c => s.getN (K.CAL_LEVEL (c + 1)), false, CalBlock.zero, CalBlock.zero, [], [], false⟩
    (({ s with cal := some { r with step := some st } }).put K.CAL_STATE 2).put K.CAL_PROGRESS 0

/-- A coefficient of the draft was written (R160): DRAFT_ORIGIN, and the channel's accepted steps fall away. -/
def draftWritten (s : State) (c : Fin 7) : State :=
  let s := s.put K.DRAFT_ORIGIN ((setBit (s.getU K.DRAFT_ORIGIN) c : Nat) : Int)
  let s := s.put K.CAL_DONE ((clearBit (clearBit (clearBit (s.getU K.CAL_DONE) c) (8 + c)) (16 + c) : Nat) : Int)
  { s with cal := s.cal.map fun r => { r with zero := r.zero.set c none, gain := r.gain.set c none, changed := true } }

/-- The temperature of the run's slot at commit (R167): the fallback without a source, the mean of the block-end results, or as it was. The mean
is rounded to 0.01 °C, ties upwards (DESIGN CHOICE, log entry 55: R167 states no rounding). -/
def runTemp (s : State) (r : CalRun) : Int :=
  if 32 ≤ s.getU (K.PLATE_TEMP_SRC r.point) then s.getN (K.PLATE_T_FALLBACK r.point)
  else if r.temps = [] then s.getN (K.PLATE_T r.point r.slot)
  else roundUp r.temps.sum r.temps.length

/-- The plate set a commit would write. Without a temperature source its one valid plate is at PLATE_T_FALLBACK, whichever slot it is (R167). -/
def newSet (s : State) (r : CalRun) : Vector Plate 4 := Vector.ofFn fun q =>
  let noSrc := decide (32 ≤ s.getU (K.PLATE_TEMP_SRC r.point))
  if bit r.valid q = false then { s.plate r.point q with valid := false }
  else if q = r.slot then
    ⟨true, s.runTemp r, Vector.ofFn fun c => s.getU (K.DRAFT_GAIN (c + 1)), Vector.ofFn fun c => s.getN (K.DRAFT_OFFSET (c + 1)),
      Vector.ofFn fun c => s.getU (K.DRAFT_TRIM (c + 1))⟩
  else if noSrc then { s.plate r.point q with t := s.getN (K.PLATE_T_FALLBACK r.point) }
  else s.plate r.point q

/-- Checks 4 to 6 of R167 with R172: reason and channels. -/
def twinChecks (s : State) (r : CalRun) : Nat × Nat :=
  let p := r.point
  let set := s.newSet r
  let ts := (sortedPairs set fun _ => 0).map Prod.fst
  let noSrc := decide (32 ≤ s.getU (K.PLATE_TEMP_SRC p))
  let span := r.temps.foldl max (r.temps.headD 0) - r.temps.foldl min (r.temps.headD 0)
  let close' := (ts.zip (ts.drop 1)).any fun ab => decide (ab.2 - ab.1 < 500)
  if noSrc && decide (ts.length ≠ 1) then (5, 0)
  else if 100 < span then (13, 0)
  else if close' then (14, 0)
  else if s.sealed = false then (0, 0)
  else
    let a := s.points[p].app
    let done := s.getU K.CAL_DONE
    let unmeasured := maskOf allChans fun c => a.uses c && (!(bit done c) || !(bit done (8 + c)) || bit (s.getU K.DRAFT_ORIGIN) c)
    if unmeasured ≠ 0 then (15, unmeasured) else
    let ref := s.sealedRef[p]
    let drift := maskOf allChans fun c => a.uses c && ts.any fun t =>
      decide (s.getU K.DRIFT_GAIN_LIMIT * 2 ^ 22
        < (interpPlates set t (fun x => (x.gain[c] : Nat)) - interpPlates ref t fun x => (x.gain[c] : Nat)).natAbs * 1000000)
      || decide (s.getU K.DRIFT_OFFSET_LIMIT * 256 < (interpPlates set t (fun x => x.offset[c]) - interpPlates ref t fun x => x.offset[c]).natAbs)
      || decide (s.getU K.DRIFT_TRIM_LIMIT
        < (interpPlates set t (fun x => (x.trim[c] : Nat)) - interpPlates ref t fun x => (x.trim[c] : Nat)).natAbs)
    if drift ≠ 0 then (16, drift) else (0, 0)

/-- CAL_CMD COMMIT up to the first evaluation (R167, R168). -/
def calCommit (s : State) (r : CalRun) : State :=
  if s.getN (K.SESSION_STATE r.point) ≠ 0 then s.calReason 10 0
  else if r.valid % 16 = 0 then s.calReason 11 0
  else if r.tainted then s.calReason 12 0
  else
    let o := s.twinChecks r
    { (s.put K.CAL_STATE 3) with twins := s.twins ++ [.calCommit o.1 o.2] }

/-- The writes of a slot in the commit unit (R169). -/
def slotWrites (s : State) (r : CalRun) (q : Fin 4) : List EntryWrite :=
  let p := r.point
  let pl := (s.newSet r)[q]
  let on := pl.valid
  let num (k : Nat) (v : Int) : EntryWrite := ⟨k, .num v⟩
  (allChans.flatMap fun (c : Fin 7) => [
    num (K.PLATE_GAIN p q (c + 1)) (if on then (pl.gain[c] : Nat) else 4194304),
    num (K.PLATE_OFFSET p q (c + 1)) (if on then pl.offset[c] else 0),
    num (K.PLATE_TRIM p q (c + 1)) (if on then (pl.trim[c] : Nat) else 0)])
  ++ [num (K.PLATE_T p q) (if on then pl.t else 0), num (K.PLATE_STATE p q) (if on then 1 else 0),
    num (K.PLATE_TIME p q) (if on then (s.now : Nat) else 0), ⟨K.PLATE_REF p q, .bytes (if on then s.getB K.CAL_REF_ID else [])⟩,
    num (K.PLATE_ORIGIN p q) (if on then (s.getU K.DRAFT_ORIGIN : Nat) else 0)]

/-- The slots a commit changes: the run's slot where the run changed it, and those dropped. -/
def changedSlots (s : State) (r : CalRun) : List (Fin 4) := allSlots.filter fun q =>
  ((s.plate r.point q).valid && !(bit r.valid q)) || (decide (q = r.slot) && bit r.valid q && r.changed)

/-- The commit unit is queued: the slots, PLATE_GEN and the plate history record (R169). -/
def queuePlates (s : State) (r : CalRun) : State :=
  let qs := s.changedSlots r
  let gen := satAdd 32 (s.getU (K.PLATE_GEN r.point)) 1
  let moved := allSlots.filter fun q => decide (q ∉ qs) && (s.newSet r)[q].valid && decide ((s.newSet r)[q].t ≠ s.getN (K.PLATE_T r.point q))
  let ts : List EntryWrite := moved.map fun (q : Fin 4) => ⟨K.PLATE_T r.point q, .num (s.newSet r)[q].t⟩
  let ws := (qs.flatMap fun q => s.slotWrites r q) ++ ts ++ [⟨K.PLATE_GEN r.point, .num (gen : Nat)⟩]
  let mask := ((qs ++ moved).map fun q => 2 ^ q.val).sum
  let s := { s with cal := some { r with time := s.now, slots := mask, hist := s.historyBytes r.point 0 mask gen s.now } }
  s.queueUnit ⟨ws, 104 * qs.length + 16 * moved.length + 56, .plates r.point⟩

/-- The second evaluation of a commit (R168): agreement queues the unit or refuses with the reason; disagreement is TWIN_MISMATCH and T13. -/
def calSecond (s : State) (first chs : Nat) (fault : Bool) : State :=
  match s.cal with
  | some r =>
    let o := s.twinChecks r
    if fault = true ∨ o.1 ≠ first then (s.calReason 17 0).source 13 4
    else if first ≠ 0 then s.calReason first chs
    else ((s.put K.CAL_REASON 0).put K.CAL_REASON_CH 0).queuePlates r
  | none => s

/-- The commit record of the new set is written (R169): the unit's values stand, and new coefficients wait for the boundary. -/
def platesCommitted (s : State) (p : Fin 8) : State :=
  ({ s with cal := s.cal.map fun (r : CalRun) => { r with committed := true } }).coefDue p

/-- The run ends without commit (R170): the draft is discarded, a unit not yet committed never will be. -/
def calAbort (s : State) : State :=
  match s.cal with
  | some r =>
    if r.committed then s else
    let mine (u : JUnit) : Bool := match u.owner with | .plates _ => true | _ => false
    let j := s.journal
    let j := { j with waiting := j.waiting.filter fun u => !(mine u) }
    let j := match j.openUnit with
      | some u => if mine u && !j.committed then { j with openUnit := none, stale := j.stale ++ [u] } else j
      | none => j
    let keep (t : TwinKind) : Bool := match t with | .calCommit _ _ => false | _ => true
    let s := { s with cal := none, journal := j, twins := s.twins.filter keep }
    let s := forEach allChans (fun c s => ((s.put (K.DRAFT_GAIN (c + 1)) 4194304).put (K.DRAFT_OFFSET (c + 1)) 0).put (K.DRAFT_TRIM (c + 1)) 0) s
    let s := (s.put K.DRAFT_ORIGIN 0).put K.CAL_REASON 18
    ((s.put K.CAL_STATE 0).put K.CAL_POINT 0xFF).put K.CAL_SLOT 0xFF
  | none => s

/-- Whether CAL_CMD is refused before anything else is looked at (R158, R377): in COMMITTING, and in MEASURING but for ABORT. -/
def calBusy (s : State) (op : Nat) : Bool :=
  decide (s.getN K.CAL_STATE = 3) || (decide (s.getN K.CAL_STATE = 2) && decide (op ≠ 7))

/-- CAL_CMD, accepted as a value (Table 05.10): the state it needs, else WRONG_STATE (R158). -/
def calCommand (s : State) (w : Nat) : Option State :=
  let op := field w 7 0
  let st := s.getN K.CAL_STATE
  if s.mode ≠ .service then none else
  match op, s.cal with
  | 1, none =>
    let p : Fin 8 := ⟨field w 10 8 % 8, by omega⟩
    let q : Fin 4 := ⟨field w 25 24 % 4, by omega⟩
    if kindOf s.points[p].app.cfg = 0 ∨ st ≠ 0 then none else some (s.calBegin p q)
  | 7, some r => if st = 3 then none else if r.committed then none else some s.calAbort
  | 2, some r => if st = 1 then some (s.calStep r 2 (field w 22 16)) else none
  | 3, some r => if st = 1 then some (s.calStep r 3 (field w 22 16)) else none
  | 4, some r => if st = 1 then some (s.calStep r 4 0) else none
  | 5, some r => if st = 1 then some { s with cal := some { r with valid := clearBit r.valid (field w 25 24) } } else none
  | 6, some r => if st = 1 then some (s.calCommit r) else none
  | _, _ => none

/-! ### Sealing (R171) -/

/-- The hash input of a point's plate set. -/
def plateBytes (s : State) (p : Fin 8) : List Byte := allSlots.flatMap fun q =>
  let pl := s.plate p q
  leBytes 1 (natOfBool pl.valid) ++ leBytes 4 (ofSigned 32 pl.t)
    ++ allChans.flatMap fun (c : Fin 7) => leBytes 4 pl.gain[c] ++ leBytes 4 (ofSigned 32 pl.offset[c]) ++ leBytes 2 pl.trim[c]

/-- A SEAL history record (R171). -/
def sealHistory (s : State) (p : Fin 8) : State :=
  let mask := (allSlots.map fun k => if s.sealedRef[p][k].valid then 2 ^ k.val else 0).sum
  s.plateHistory p 2 mask (s.getU K.SEAL_TIME)

end State

end Sys2Proof.Machine
end

