-- ==== Sys2Proof/Machine/AuxBank.lean ====
section
/-! DEFINITION. Machine/AuxBank.lean: the auxiliary converter bank: sequencer, results, injections, system calibration, self-checks and the
understudy couple (R176 to R205). -/

namespace Sys2Proof.Machine

open Sys2Proof

/-! ### Field maps (Tables 06.9 to 06.15) -/

/-- Fields of an ENTRY word. -/
def entInputA (w : Nat) : Nat := field w 4 0
def entInputB (w : Nat) : Nat := field w 12 8
def entKind (w : Nat) : Nat := field w 15 14
def entAvg (w : Nat) : Nat := field w 23 20
def entShift (w : Nat) : Nat := field w 27 24
def entRepeat (w : Nat) : Nat := field w 39 32

/-- An INJECT word as the SOLO entry it asks for (R197). -/
def injEntry (w : Nat) : Nat :=
  field w 4 0 + field w 14 12 * 2 ^ 16 + field w 23 20 * 2 ^ 20 + field w 19 16 * 2 ^ 24

/-- Whether AVG, SHIFT and AVG − SHIFT are allowed (R190). -/
def avgOk (avg shift : Nat) : Bool := avg ≤ 8 && shift ≤ 8 && avg ≤ shift + 4

/-- The logical couples and the converters in order. -/
def allCouples : List (Fin 3) := [0, 1, 2]
def allConvs : List (Fin 8) := [0, 1, 2, 3, 4, 5, 6, 7]

namespace State

/-- Whether an even input is a differential pair (R176). -/
def isDiff (s : State) (n : Nat) : Bool := n % 2 = 0 && bit (s.getU (K.INPUT_CFG (n + 1))) 4

/-- Whether a name is the negative leg of a differential pair. -/
def isNegLeg (s : State) (n : Nat) : Bool := n % 2 = 1 && s.isDiff (n - 1)

/-- The low and high ends of a raw code (R177). -/
def codeLow (s : State) (n : Nat) : Int := if s.isDiff n then -32768 else 0
def codeHigh (s : State) (n : Nat) : Int := if s.isDiff n then 32767 else 65535

/-- COUPLE_STATE fields of a physical couple. -/
def coupleSt (s : State) (c : Fin 4) : Nat := field (s.getU (K.COUPLE_STATE (c + 1))) 2 0
def coupleLogical (s : State) (c : Fin 4) : Nat := field (s.getU (K.COUPLE_STATE (c + 1))) 11 10
def coupleNoSpare (s : State) (c : Fin 4) : Bool := bit (s.getU (K.COUPLE_STATE (c + 1))) 9
def setCouple (s : State) (c : Fin 4) (logical st : Nat) (noSpare : Bool) : State :=
  s.setN (K.COUPLE_STATE (c + 1)) ((logical * 2 ^ 10 + natOfBool noSpare * 2 ^ 9 + st : Nat) : Int)

/-- The physical couple that carries a logical couple. -/
def carrier (s : State) (l : Fin 3) : Fin 4 :=
  (([0, 1, 2, 3] : List (Fin 4)).find? fun c => s.coupleLogical c = l.val).getD ⟨l, by omega⟩

/-- Lead and partner of a logical couple (R182). -/
def leadOf (s : State) (l : Fin 3) : Fin 8 := ⟨2 * s.carrier l, by omega⟩
def partnerOf (s : State) (l : Fin 3) : Fin 8 := ⟨2 * s.carrier l + 1, by omega⟩

/-- One converter or one logical couple changed. -/
def updConv (s : State) (a : Fin 8) (f : Conv → Conv) : State := { s with convs := s.convs.set a (f s.convs[a]) }
def updCouple (s : State) (l : Fin 3) (f : Couple → Couple) : State := { s with couples := s.couples.set l (f s.couples[l]) }

/-- Whether results, injections, bursts and checks may start (R204). -/
def auxRuns (s : State) : Bool :=
  match s.mode with | .metering | .service | .lockdown | .recalling => true | _ => false

end State

/-! ### Sums and values (R190 to R194) -/

/-- One conversion of raw code `c` into a sum (R190, R191); `lo`, `hi` the range ends. -/
def AuxSum.add (x : AuxSum) (c lo hi : Int) (gain : Nat) (zero : Int) (settle : Bool) : AuxSum :=
  let cc := clampInt lo hi (roundUp ((clampInt lo hi c - zero) * gain) (2 ^ 22))
  let dir : Option Bool := if c < lo then some false else if hi < c then some true else none
  { n := x.n + 1, sum := x.sum + cc, ovr := x.ovr.or dir, settled := x.settled || settle }

/-- Right shift of R190. -/
def shiftVal (sum : Int) (shift : Nat) : Int := if shift = 0 then sum else (sum + (2 ^ (shift - 1) : Nat)) / (2 ^ shift : Nat)

/-- VALUE and QUAL of a finished sum (R190, R191). -/
def AuxSum.value (x : AuxSum) (lo hi : Int) (avg shift : Nat) : Int × Nat :=
  match x.ovr with
  | some up => (shiftVal ((if up then hi else lo) * (2 ^ avg : Nat)) shift, 2)
  | none => (shiftVal x.sum shift, if x.settled then 1 else 0)

/-- i of R194 for a strictly monotonic table: the first segment whose far breakpoint lies beyond r, else the last; `g i` is the table's code. -/
def ttSegment (rising : Bool) (num : Int) (den : Nat) (g : Nat → Int) : Nat → Nat → Nat
  | 0, i => i
  | f + 1, i =>
    if i = 15 then 15
    else if (if rising then decide (num < g (i + 1) * den) else decide (g (i + 1) * den < num)) then i
    else ttSegment rising num den g f (i + 1)

namespace State

/-- Units per code: Lcode = L × U ÷ 2,500,000 µV. -/
def auxUnit (s : State) (input : Nat) : Int := if s.isDiff input then 32768 else 65536

/-! ### Conversions (R183 to R186) -/

/-- The converters whose running acquisition or conversion on an input began before (R183). -/
def ahead (s : State) (a : Fin 8) (input : Nat) : List (Fin 8) :=
  allConvs.filter fun b => decide (b ≠ a) && s.convs[b].busy && decide (s.convs[b].input = input)

/-- An acquisition with the coefficients in force (R200), behind those of `wait` (R183). -/
def acquire (s : State) (a : Fin 8) (input : Nat) (wait : List (Fin 8)) : State :=
  s.updConv a fun x => { x with
    busy := true, behind := wait, input := input, gain := s.getU (K.AUX_GAIN (input + 1)), zero := s.getN (K.AUX_ZERO (input + 1)) }

/-- Start converters together: a powered-down one first starts up, and the others wait for it (R185); `both`: the acquisitions share one edge, so
each waits for what either waits for (R183, R184). -/
def startConvs (s : State) (st : List (Fin 8 × Nat)) (both : Bool) : State :=
  if st.any (fun e => s.convs[e.1].off) then
    forEach st (fun e s => s.updConv e.1 fun x => if x.off then { x with starting := true } else x) s
  else
    let shared := if both then st.flatMap fun e => s.ahead e.1 e.2 else []
    forEach st (fun e s => s.acquire e.1 e.2 (if both then shared else s.ahead e.1 e.2)) s

/-! ### Interruptions (R195, R196, R199, R201) -/

/-- Whether an injection waits or runs on a couple. -/
def injecting (s : State) (l : Fin 3) : Bool :=
  s.getN (K.INJ_STATE (l + 1)) = 1 || (s.getN (K.INJ_STATE (l + 1)) = 2 && !s.couples[l].injDue)

/-- The auxiliary calibration run, where a burst of it is due on a couple. -/
def burstDue (s : State) (l : Fin 3) : Option AuxRun := s.auxRun.filter fun r => decide (r.couple = l) && r.step.isSome && !r.due.isEmpty

/-- Whether a self-check is due on a physical couple. -/
def checkDue (s : State) (c : Fin 4) : Bool := s.convs[(⟨2 * c, by omega⟩ : Fin 8)].check.isSome || s.convs[(⟨2 * c + 1, by omega⟩ : Fin 8)].check.isSome

/-- No understudy is free: every couple that waits for one carries NO_SPARE (R203). -/
def noSpareLeft (s : State) : State :=
  forEach ([0, 1, 2, 3] : List (Fin 4)) (fun d s => if s.coupleSt d = 2 then s.setCouple d (s.coupleLogical d) 2 true else s) s

/-- A couple is WORN (R201, R203): an idle C3 retires, which leaves the couples that wait for it without a spare. -/
def coupleWorn (s : State) (a : Fin 8) : State :=
  let c : Fin 4 := ⟨a / 2, by omega⟩
  match s.coupleSt c with
  | 0 => ((s.setCouple c 3 3 false).noSpareLeft).health 10 c a
  | 1 =>
    let spare := decide (s.coupleSt 3 = 0)
    (s.setCouple c (s.coupleLogical c) 2 (!spare)).health 10 c a
  | _ => s

/-- The self-check of one converter (R201): its largest deviation over the three levels; two consecutive failures wear its couple. -/
def checkConv (s : State) (a : Fin 8) : State :=
  match s.convs[a].check with
  | none => s
  | some d =>
    let s := s.raise (K.CHECK_WORST (a + 1)) (min d 65535)
    let was := s.convs[a].failed
    let s := s.updConv a fun x => { x with
      settle := x.settle - 3, failed := decide (33 < d), check := none, off := false, starting := false }
    if 33 < d then
      let s := s.addSat 32 (K.CHECK_FAIL (a + 1)) 1
      if was then s.coupleWorn a else s
    else s

/-- Both converters of a physical couple are checked in one interruption, once both are free. -/
def checkCouple (s : State) (c : Fin 4) : State :=
  let a : Fin 8 := ⟨2 * c, by omega⟩
  let b : Fin 8 := ⟨2 * c + 1, by omega⟩
  if s.convs[a].busy || s.convs[b].busy then s else (s.checkConv a).checkConv b

/-- A step or command of the run ends with a reason. -/
def auxReason (s : State) (r : Nat) : State :=
  let s := (s.put K.AUX_CAL_REASON (r : Nat)).put K.AUX_CAL_STATE 1
  { s with auxRun := s.auxRun.map fun x => { x with step := none, bursts := [], due := [], clean := true } }

/-- The checks of Table 06.2 on a finished step with level `l`: the reason, 0 when accepted. -/
def auxChecks (s : State) (r : AuxRun) (op : Nat) (l : Int) : Nat :=
  let u := s.auxUnit r.input
  let sum := (r.bursts.map Prod.fst).sum
  let first := ((r.bursts.take 8).map Prod.fst).sum
  let dev : Int := (r.bursts.map fun b => ((256 * b.2 : Nat) : Int) - b.1 * b.1).sum
  let nl := s.getU K.AUXCAL_NOISE
  let sl := s.getU K.AUXCAL_STAB
  let level : Bool :=
    if op = 2 then decide ((sum * 2500000 - l * u * 4096).natAbs ≤ (if s.isDiff r.input then 3277 else 6554) * 4096 * 2500000)
    else match r.zero with
      | some (s0, l0) =>
        decide (1250000 ≤ (l - l0).natAbs)
        && decide (((sum - s0) * 2500000 - (l - l0) * u * 4096).natAbs * 10 ≤ ((l - l0) * u * 4096).natAbs)
      | none => false
  if r.clean = false then 1
  else if level = false then 2
  else if (nl * nl * 4096 * 256 : Nat) < dev then 3
  else if sl * 2048 < (2 * first - sum).natAbs then 4
  else 0

/-- A burst runs: 256 raw conversions of the run's input on the lead converter (R199), which is up after it; after the sixteenth the checks
run. -/
def runBurst (s : State) (r : AuxRun) (codes : List Int) : State :=
  match r.step with
  | none => s
  | some (op, l) =>
    let lo := s.codeLow r.input
    let hi := s.codeHigh r.input
    let a := s.leadOf r.couple
    let cs := (List.range 256).map fun i => codes.getD i 0
    let beyond (c : Int) : Bool := decide (c < lo) || decide (hi < c)
    let clean := decide (s.convs[a].settle = 0) && !(cs.any beyond)
    let settle := cs.foldl (fun (n : Nat) c => if beyond c then 2 else n - 1) s.convs[a].settle
    let raw := cs.map (clampInt lo hi)
    let b : Int × Nat := (raw.sum, ((raw.map fun c => c * c).sum).toNat)
    let s := s.updConv a fun x => { x with settle := settle, off := false, starting := false }
    let r := { r with bursts := r.bursts ++ [b], clean := r.clean && clean }
    let s := { s with auxRun := some r }
    if r.bursts.length < 16 then s else
    let sum := (r.bursts.map Prod.fst).sum
    let first := ((r.bursts.take 8).map Prod.fst).sum
    let dev : Int := (r.bursts.map fun b => ((256 * b.2 : Nat) : Int) - b.1 * b.1).sum
    let s := ((s.put (K.AUX_CAL_MEAS 1) (F32.ofRat sum 4096 : Nat)).put (K.AUX_CAL_MEAS 2) (F32.ofSqrt dev.toNat (4096 * 256) : Nat)).put
      (K.AUX_CAL_MEAS 3) (F32.ofRat (2 * first - sum).natAbs 2048 : Nat)
    let reason := s.auxChecks r op l
    if reason ≠ 0 then s.auxReason reason else
    let r := if op = 2 then { r with zero := some (sum, l) } else { r with full := some (sum, l) }
    let done := s.getU K.AUX_CAL_DONE ||| (if op = 2 then 1 else 2)
    ({ s with auxRun := some r }.put K.AUX_CAL_DONE (done : Nat)).auxReason 0

/-- The bursts that are due on a couple run on its free lead converter, and then its self-check, each after the injection (R195). -/
def serveCouple (s : State) (l : Fin 3) : State :=
  if s.injecting l then s else
  let s := match s.burstDue l with
    | some r =>
      if s.convs[s.leadOf l].busy then s
      else forEach r.due (fun codes s => match s.auxRun with
        | some r => s.runBurst { r with due := r.due.drop 1 } codes
        | none => s) s
    | none => s
  if (s.burstDue l).isSome then s else s.checkCouple (s.carrier l)

/-! ### What a couple starts next (R182 to R185, R195 to R197, R202) -/

/-- C3 takes over the logical couple of a worn one at its next result start (R202); couples still worn are then without a spare. -/
def coupleHandover (s : State) (l : Fin 3) : State :=
  let c := s.carrier l
  if s.coupleSt c = 2 ∧ s.coupleSt 3 = 0 then
    let keys := [K.COUPLE_STATE (c + 1), K.COUPLE_STATE 4, K.COUPLE_SUB_COUNT]
    let words (s : State) : List EntryWrite := keys.map fun k => ⟨k, .num (s.getN k)⟩
    let old := words s
    let s := (s.setCouple c 3 3 false).setCouple 3 l 1 false
    let s := s.setN K.COUPLE_SUB_COUNT (min (s.getN K.COUPLE_SUB_COUNT + 1) 1)
    let s := (s.health 11 c l).noSpareLeft
    let s := { s with auxRun := s.auxRun.map fun (r : AuxRun) => if r.couple = l ∧ r.step.isSome then { r with clean := false } else r }
    s.recordDevice old (words s)
  else s

/-- The converters that the table would start next, with their inputs. -/
def nextStarts (s : State) (l : Fin 3) : List (Fin 8 × Nat) :=
  let x := s.couples[l]
  let la := s.leadOf l
  let pa := s.partnerOf l
  let free (a : Fin 8) : Bool := !s.convs[a].busy
  let n := 2 ^ entAvg x.word
  match entKind x.word with
  | 1 => if free la && free pa && decide (x.startedA < n) then [(la, entInputA x.word), (pa, entInputB x.word)] else []
  | 2 =>
    let one : List (Fin 8 × Nat) := if free la && decide (x.startedA < (n + 1) / 2) then [(la, entInputA x.word)] else []
    let a' := x.startedA + one.length
    let two : List (Fin 8 × Nat) := if free pa && decide (x.startedB < n / 2) && decide (x.startedB < a') then [(pa, entInputA x.word)] else []
    one ++ two
  | _ => if free la && decide (x.startedA < n) then [(la, entInputA x.word)] else []

/-- The injection's next conversion on the free lead converter (R197). -/
def injectStart (s : State) (l : Fin 3) : State :=
  let x := s.couples[l]
  let la := s.leadOf l
  if s.convs[la].busy ∨ 2 ^ entAvg x.injWord ≤ x.injStarted then s
  else if s.convs[la].off then s.startConvs [(la, entInputA x.injWord)] false
  else ((s.startConvs [(la, entInputA x.injWord)] false).updCouple l fun x => { x with injStarted := x.injStarted + 1 }).put
    (K.INJ_STATE (l + 1)) 2

/-- The table's next conversions; the first one of a result carries out a waiting handover (R202), and none begins where no result may (R204). -/
def tableStart (s : State) (l : Fin 3) : State :=
  let x := s.couples[l]
  if x.phase ≠ .convert then s
  else if x.startedA = 0 ∧ s.auxRuns = false then s
  else
    let s := if x.startedA = 0 then s.coupleHandover l else s
    let la := s.leadOf l
    let st := s.nextStarts l
    if st.any (fun e => s.convs[e.1].off) then s.startConvs st (decide (entKind x.word = 1))
    else (s.startConvs st (decide (entKind x.word = 1))).updCouple l fun x => { x with
      startedA := x.startedA + natOfBool (st.any fun e => e.1 = la), startedB := x.startedB + natOfBool (st.any fun e => e.1 ≠ la) }

/-- What is due on a couple starts: the injection, then a burst and the self-check, then the table, which goes on where it was (R195, R196). -/
def kick (s : State) (l : Fin 3) : State :=
  let s := s.serveCouple l
  if s.injecting l then s.injectStart l
  else if (s.burstDue l).isSome || s.checkDue (s.carrier l) then s
  else s.tableStart l

/-! ### Passes (R187 to R189) -/

/-- Begin the result at the couple's place: its settings, empty sums, the first conversions. -/
def beginResult (s : State) (l : Fin 3) : State :=
  let x := s.couples[l]
  let w := s.getU (K.ENTRY l (x.entry + 1))
  (s.updCouple l fun x => { x with phase := .convert, word := w, a := AuxSum.zero, b := AuxSum.zero, startedA := 0, startedB := 0 }).kick l

/-- Whether SCAN_MASK lets an entry's results run (R187). -/
def entryOpen (s : State) (w : Nat) : Bool :=
  let m := s.getU K.SCAN_MASK
  bit m (entInputA w) && (entKind w ≠ 1 || bit m (entInputB w))

/-- Go on to the next result of the pass that is not skipped, or to its end; a DELAY waits first, unless it has just ended (R187). -/
def nextResult (s : State) (l : Fin 3) (fuel : Nat) (delayed : Bool) : State :=
  match fuel with
  | 0 => s.updCouple l fun x => { x with phase := .tail }
  | f + 1 =>
    let x := s.couples[l]
    let w := s.getU (K.ENTRY l (x.entry + 1))
    if x.last < x.entry ∨ s.auxRuns = false then s.updCouple l fun x => { x with phase := .tail }
    else if entRepeat w < x.k ∨ s.entryOpen w = false then
      (s.updCouple l fun x => { x with entry := x.entry + 1, k := 0 }).nextResult l f false
    else if field w 63 48 ≠ 0 ∧ delayed = false then s.updCouple l fun x => { x with phase := .delay }
    else s.beginResult l

/-- RUN of a couple. -/
def runOf (s : State) (l : Fin 3) : Nat := field (s.getU (K.COUPLE_CFG (l + 1))) 1 0

/-- A pass starts (R188); one in which every result is skipped ends at once, and under CONTINUOUS is tried again when a setting changes. -/
def passStart (s : State) (l : Fin 3) : State :=
  let last := field (s.getU (K.COUPLE_CFG (l + 1))) 7 4
  let s := s.updCouple l fun x => { x with entry := 0, k := 0, last := last, spin := false, late := false }
  let s := s.nextResult l 20 false
  if s.couples[l].phase = .tail then
    let s := s.updCouple l fun x => { x with phase := .idle, spin := decide (s.runOf l = 1), shot := false }
    if s.runOf l = 3 then s.put (K.COUPLE_CFG (l + 1)) ((s.getU (K.COUPLE_CFG (l + 1)) - 3 : Nat) : Int) else s
  else s

/-- A pass ends with its last result written (R188). -/
def passEnd (s : State) (l : Fin 3) : State :=
  let x := s.couples[l]
  let s := s.updCouple l fun x => { x with phase := .idle }
  if s.auxRuns = false then s else
  match s.runOf l with
  | 1 => s.passStart l
  | 2 => if x.late then s.passStart l else s
  | 3 =>
    if x.shot then (s.updCouple l fun x => { x with shot := false }).passStart l
    else s.put (K.COUPLE_CFG (l + 1)) ((s.getU (K.COUPLE_CFG (l + 1)) - 3 : Nat) : Int)
  | _ => s

/-- AUX_PASS_START: a grid point of a PERIODIC couple (R188). -/
def auxPassStart (s : State) (l : Fin 3) : State :=
  let x := s.couples[l]
  if s.runOf l ≠ 2 ∨ s.auxRuns = false then s
  else if x.phase = .idle then s.passStart l
  else if x.late then s
  else (s.updCouple l fun x => { x with late := true }).addSat 32 (K.OVERRUN (l + 1)) 1

/-- AUX_DELAY_END: the wait is over and the result begins, or is skipped by SCAN_MASK (R187). -/
def auxDelayEnd (s : State) (l : Fin 3) : State :=
  if s.couples[l].phase = .delay then
    if s.runOf l = 0 then s.updCouple l fun x => { x with phase := .idle }
    else
      let s := s.nextResult l 20 true
      if s.couples[l].phase = .tail ∧ s.couples[l].due = [] then s.passEnd l else s
  else s

/-- A couple's COUPLE_CFG was written (R188, R189): a RUN that stays as it was starts no pass, but for one that found every result masked. -/
def coupleConfig (s : State) (l : Fin 3) : State :=
  let was := s.couples[l].run
  let s := s.updCouple l fun x => { x with run := s.runOf l }
  let x := s.couples[l]
  match s.runOf l with
  | 0 => s.updCouple l fun x => { x with spin := false, shot := false, phase := if x.phase = .delay then .idle else x.phase }
  | 3 => if x.phase = .idle then s.passStart l else s.updCouple l fun x => { x with shot := true }
  | r => if x.phase = .idle ∧ (was ≠ r ∨ x.spin) then s.passStart l else s

/-- SCAN_MASK or an entry was written: a couple whose whole pass was masked looks again on the next edge (R188). -/
def auxLook (s : State) : State :=
  forEach allCouples (fun l s => if s.couples[l].spin then s.passStart l else s) s

/-- The bank starts at RECALL once the privileged region is resolved (R204); ONESHOT is restored as OFF (R189). -/
def auxRecall (s : State) : State :=
  forEach allCouples (fun l s =>
    let s := s.updCouple l fun _ => { Couple.init with run := s.runOf l % 3 }
    match s.runOf l with
    | 0 => s
    | 3 => s.setN (K.COUPLE_CFG (l + 1)) ((s.getU (K.COUPLE_CFG (l + 1)) - 3 : Nat) : Int)
    | _ => s.passStart l) s

/-- INPUT_TEMP of a value (R194); none where the table is not strictly monotonic. -/
def tempOf (s : State) (tt : Nat) (value : Int) (avg shift : Nat) : Option Int :=
  let code (i : Nat) : Int := s.getN (K.TT_CODE tt (i + 1))
  let temp (i : Nat) : Int := s.getN (K.TT_TEMP tt (i + 1))
  let up := (List.range 16).all fun i => decide (code i < code (i + 1))
  let down := (List.range 16).all fun i => decide (code (i + 1) < code i)
  if up || down then
    -- VALUE in units of 2^-(AVG-SHIFT) raw codes: compare VALUE * 2^SHIFT with TT_CODE * 2^AVG
    let v := value * (2 ^ shift : Nat)
    let f : Nat := 2 ^ avg
    let i := ttSegment up v f code 16 0
    let d := (code (i + 1) - code i) * (f : Int)
    let n := (temp (i + 1) - temp i) * (v - code i * (f : Int))
    some (temp i + (if 0 < d then roundUp n d.toNat else roundUp (-n) d.natAbs))
  else none

/-- OPEN of a value (R192): r against OW_LEVEL in the direction of the current. -/
def openWire (s : State) (input : Nat) (value : Int) (avg shift : Nat) : Bool :=
  let cfg := s.getU (K.INPUT_CFG (input + 1))
  let lvl : Int := if s.isDiff input then toSigned 16 (field cfg 31 16) else (field cfg 31 16 : Nat)
  let v := value * (2 ^ shift : Nat)
  let o := lvl * (2 ^ avg : Nat)
  field cfg 1 0 ≠ 0 && (if bit cfg 2 then decide (o ≤ v) else decide (v ≤ o))

/-- A result word with the next SEQ of its register (Table 06.12). -/
def resultWord (s : State) (key input : Nat) (x : AuxSum) (avg shift : Nat) (degraded : Bool) : Nat :=
  let r := x.value (s.codeLow input) (s.codeHigh input) avg shift
  let seq := (field (s.getU key) 31 28 + 1) % 16
  seq * 2 ^ 28 + natOfBool degraded * 2 ^ 27 + natOfBool (s.openWire input r.1 avg shift) * 2 ^ 26 + r.2 * 2 ^ 24 + ofSigned 20 r.1

/-- The first sample index whose instant is not before an edge, 500 edges to a sample period: under a tableau with an earlier freeze index the
result of that edge does not show (R193). -/
def firstAfter (edge : Nat) : Nat := (edge + 499) / 500

/-- The input entries of a result sampled at an edge (R193, R194). -/
def writeInput (s : State) (at' input : Nat) (x : AuxSum) (avg shift : Nat) (degraded : Bool) : State :=
  let r := x.value (s.codeLow input) (s.codeHigh input) avg shift
  let cfg := s.getU (K.INPUT_CFG (input + 1))
  let conv := field cfg 6 5
  let w := s.resultWord (K.INPUT_LATEST (input + 1)) input x avg shift degraded
  let n := firstAfter at'
  let s := (s.setQ n (K.INPUT_LATEST (input + 1)) (w : Nat)).setQ n (K.INPUT_INDEX (input + 1)) (at' / 500 : Nat)
  let s := if h : input < 32 then { s with inputAt := s.inputAt.set input (at' / 500) } else s
  let sc := F32.toRat (s.getU (K.INPUT_SCALE (input + 1)))
  let of := F32.toRat (s.getU (K.INPUT_OFFS (input + 1)))
  let num := r.1 * (2 ^ shift : Nat)
  let den : Nat := 2 ^ avg
  let v := if conv = 1 then F32.ofRat (sc.num * num * (of.den : Int) + of.num * (sc.den * den : Nat)) (sc.den * den * of.den) else F32.ofRat num den
  let t : Int := if conv = 2 then (s.tempOf (field cfg 9 8) r.1 avg shift).getD (-2147483648) else -2147483648
  (s.setQ n (K.INPUT_VALUE (input + 1)) (v : Nat)).setQ n (K.INPUT_TEMP (input + 1)) t

/-- Whether a logical couple's results carry DEGRADED (R203). -/
def degraded (s : State) (l : Fin 3) : Bool := s.coupleSt (s.carrier l) = 2 && s.coupleNoSpare (s.carrier l)

/-- AUX_RESULT_WRITE of the table (R193): the oldest finished result. -/
def writeResult (s : State) (l : Fin 3) : State :=
  match s.couples[l].due with
  | [] => s
  | d :: r =>
    let avg := entAvg d.word
    let sh := entShift d.word
    let deg := s.degraded l
    let ka := K.RESULT_A l (d.entry + 1)
    let s := s.setQ (firstAfter d.idx) ka (s.resultWord ka (entInputA d.word) d.a avg sh deg : Nat)
    let s := if entKind d.word = 1 then
        let kb := K.RESULT_B l (d.entry + 1)
        s.setQ (firstAfter d.idx) kb (s.resultWord kb (entInputB d.word) d.b avg sh deg : Nat)
      else s
    let s := s.setQ (firstAfter d.idx) (K.RES_INDEX l (d.entry + 1)) (d.idx / 500 : Nat)
    let s := s.writeInput d.idx (entInputA d.word) d.a avg sh deg
    let s := if entKind d.word = 1 then s.writeInput d.idx (entInputB d.word) d.b avg sh deg else s
    let s := s.updCouple l fun x => { x with due := r }
    if r = [] ∧ s.couples[l].phase = .tail then s.passEnd l else s

/-- AUX_RESULT_WRITE of an injection (R193, R197). -/
def writeInjection (s : State) (l : Fin 3) : State :=
  let x := s.couples[l]
  if x.injDue = false then s else
  let avg := entAvg x.injWord
  let sh := entShift x.injWord
  let deg := s.degraded l
  let k := K.INJ_RESULT (l + 1)
  let n := firstAfter x.injIdx
  let s := s.setQ n k (s.resultWord k (entInputA x.injWord) x.inj avg sh deg : Nat)
  let s := (s.setQ n (K.INJ_INDEX (l + 1)) (x.injIdx / 500 : Nat)).setQ n (K.INJ_STATE (l + 1)) 3
  (s.writeInput x.injIdx (entInputA x.injWord) x.inj avg sh deg).updCouple l fun x => { x with injDue := false }

/-- The sums of a couple after a conversion of its injection, or of its table. -/
def sumConversion (s : State) (l : Fin 3) (lead : Bool) (put : AuxSum → AuxSum) (edge : Nat) : State :=
  let x := s.couples[l]
  if lead && decide (s.getN (K.INJ_STATE (l + 1)) = 2) && decide (x.inj.n < x.injStarted) then
    let s := s.updCouple l fun x => { x with inj := put x.inj, injIdx := edge }
    if (s.couples[l]).inj.n = 2 ^ entAvg x.injWord then s.updCouple l fun x => { x with injDue := true } else s
  else if x.phase = .convert then
    let twin := decide (entKind x.word = 1)
    let s := s.updCouple l fun x =>
      if twin && !lead then { x with b := put x.b, idx := edge } else { x with a := put x.a, idx := edge }
    let x := s.couples[l]
    let n := 2 ^ entAvg x.word
    if x.a.n = n ∧ (twin = false ∨ x.b.n = n) then
      let s := s.updCouple l fun x => { x with due := x.due ++ [⟨x.entry, x.word, x.a, x.b, x.idx⟩], k := x.k + 1 }
      if s.runOf l = 0 then s.updCouple l fun x => { x with phase := .tail } else s.nextResult l 20 false
    else s
  else s

/-- AUX_CONVERSION_END of a converter (R186, R190, R191): its raw code before clamping, its sampling instant as an edge, and how many of the
acquisitions behind its own on the input were delayed by it (R183). No conversion ends before one on its input that began earlier. -/
def conversionEnd (s : State) (a : Fin 8) (code : Int) (edge waits : Nat) : State :=
  let y := s.convs[a]
  if y.busy = false ∨ y.behind ≠ [] then s else
  let waiting := (allConvs.filter fun b => s.convs[b].behind.contains a).length
  let s := s.addSat 32 K.MUX_WAIT (min waits waiting)
  let s := forEach allConvs (fun b s => s.updConv b fun x => { x with behind := x.behind.filter fun c => c ≠ a }) s
  let lo := s.codeLow y.input
  let hi := s.codeHigh y.input
  let beyond := decide (code < lo) || decide (hi < code)
  let s := s.updConv a fun x => { x with busy := false, settle := if beyond then 2 else x.settle - 1 }
  match allCouples.find? fun l => (s.carrier l).val = a.val / 2 with
  | none => s
  | some l => (s.sumConversion l (decide (a = s.leadOf l)) (fun x => x.add code lo hi y.gain y.zero (decide (0 < y.settle))) edge).kick l

/-- AUX_STARTUP_DONE (R185). -/
def startupDone (s : State) (a : Fin 8) : State :=
  if s.convs[a].starting then
    let s := s.updConv a fun x => { x with starting := false, off := false }
    match allCouples.find? fun l => (s.carrier l).val = a.val / 2 with
    | some l => s.kick l
    | none => s
  else s

/-- AUX_POWER_DOWN (R185). -/
def convPowerDown (s : State) (a : Fin 8) : State :=
  if s.convs[a].busy ∨ s.convs[a].starting then s else s.updConv a fun x => { x with off := true }

/-- INJECT accepted (R197): it runs as soon as the lead converter is free. -/
def inject (s : State) (l : Fin 3) (w : Nat) : State :=
  let s := (s.put (K.INJ_STATE (l + 1)) 1).updCouple l fun x => { x with injWord := injEntry w, inj := AuxSum.zero, injStarted := 0 }
  s.kick l

/-- AUX_SELF_CHECK (R201): every converter's check becomes due with the largest deviation it will show; a couple that carries no table is checked
at once, the others by their couple's order of interruptions. -/
def selfCheck (s : State) (dev : List Nat) : State :=
  if s.auxRuns = false then s else
  let s := forEach allConvs (fun a s => s.updConv a fun x => { x with check := some (dev.getD a 0) }) s
  let s := forEach allCouples (fun l s => s.kick l) s
  forEach ([0, 1, 2, 3] : List (Fin 4)) (fun c s => if s.coupleLogical c = 3 then s.checkCouple c else s) s

/-- AUX_CAL_BURST (R199): a burst becomes due; it runs in the couple's order of interruptions. -/
def auxBurst (s : State) (codes : List Int) : State :=
  match s.auxRun with
  | some r =>
    if r.step.isSome ∧ r.bursts.length + r.due.length < 16 then ({ s with auxRun := some { r with due := r.due ++ [codes] } }).kick r.couple
    else s
  | none => s

/-! ### System calibration (R198 to R200) -/

/-- Whether an input belongs to the sealed configuration (R198). -/
def sealedInput (s : State) (input : Nat) : Bool :=
  s.sealed && allPoints.any fun p => s.getN (K.CABLE_TEMP_SRC p) = input || s.getN (K.PLATE_TEMP_SRC p) = input

/-- AUX_GAIN and AUX_ZERO of a run (R200). -/
def auxCoefficients (s : State) (r : AuxRun) : Option (Int × Int) :=
  match r.zero, r.full with
  | some (s0, l0), some (s1, l1) =>
    let u := s.auxUnit r.input
    let d := s1 - s0
    let n := 2 ^ 22 * (l1 - l0) * u * 4096
    let g := if d < 0 then roundUp (-n) (2500000 * d.natAbs) else roundUp n (2500000 * d.natAbs)
    let z := if g ≤ 0 then 0 else roundUp (s0 * 2500000 * g - l0 * u * 2 ^ 22 * 4096) (4096 * 2500000 * g.toNat)
    some (g, z)
  | _, _ => none

/-- The auxiliary run ends without commit (R200). -/
def auxAbort (s : State) : State :=
  match s.auxRun with
  | some _ =>
    let mine (u : JUnit) : Bool := match u.owner with | .auxCal _ => true | _ => false
    let j := s.journal
    let j := { j with waiting := j.waiting.filter fun u => !(mine u) }
    let j := match j.openUnit with
      | some u => if mine u && !j.committed then { j with openUnit := none, stale := j.stale ++ [u] } else j
      | none => j
    let s := { s with auxRun := none, journal := j }
    ((s.put K.AUX_CAL_REASON 8).put K.AUX_CAL_STATE 0).put K.AUX_CAL_INPUT 0xFF
  | none => s

/-- The commit record of an auxiliary calibration is written (R200): the run ends. -/
def auxCommitted (s : State) : State :=
  let s := { s with auxRun := none }
  ((s.put K.AUX_CAL_REASON 0).put K.AUX_CAL_STATE 0).put K.AUX_CAL_INPUT 0xFF

/-- AUX_CAL_CMD, accepted as a value: its effect where the state allows it, else WRONG_STATE (R198 to R200). -/
def auxCommand (s : State) (w : Nat) : State × Bool :=
  let op := field w 7 0
  let st := s.getN K.AUX_CAL_STATE
  if s.mode ≠ .service then (s, false) else
  match op, s.auxRun with
  | 1, none =>
    let input := field w 12 8
    if s.sealedInput input then (s.put K.AUX_CAL_REASON 7, false)
    else
      let l : Fin 3 := ⟨field w 17 16 % 3, by omega⟩
      let s := { s with auxRun := some ⟨input, l, none, [], [], true, none, none, false⟩ }
      (((s.put K.AUX_CAL_STATE 1).put K.AUX_CAL_INPUT (input : Nat)).put K.AUX_CAL_DONE 0, true)
  | 5, some _ => (s.auxAbort, true)
  | 2, some r =>
    if st ≠ 1 ∨ r.committing then (s, false)
    else ({ s with auxRun := some { r with step := some (2, s.getN (K.AUX_CAL_LEVEL 1)), bursts := [], due := [], clean := true } }.put K.AUX_CAL_STATE 2, true)
  | 3, some r =>
    if st ≠ 1 ∨ r.committing then (s, false)
    else if r.zero.isNone then (s.auxReason 5, true)
    else ({ s with auxRun := some { r with step := some (3, s.getN (K.AUX_CAL_LEVEL 2)), bursts := [], due := [], clean := true } }.put K.AUX_CAL_STATE 2, true)
  | 4, some r =>
    if st ≠ 1 ∨ r.committing then (s, false)
    else match s.auxCoefficients r with
      | none => (s.auxReason 5, true)
      | some (g, z) =>
        if g < 3774874 ∨ 4613734 < g ∨ 3277 < z.natAbs then (s.auxReason 6, true)
        else
          let ws : List EntryWrite := [⟨K.AUX_GAIN (r.input + 1), .num g⟩, ⟨K.AUX_ZERO (r.input + 1), .num z⟩,
            ⟨K.AUX_CAL_TIME (r.input + 1), .num (s.now : Nat)⟩]
          (({ s with auxRun := some { r with committing := true } }).queueUnit ⟨ws, 18, .auxCal r.input⟩, true)
  | _, _ => (s, false)

/-! ### Checks on the bank's configuration (R176, R184, R190) -/

/-- Whether an ENTRY word keeps the rules of the bank. -/
def entryOk (s : State) (w : Nat) : Bool :=
  let k := entKind w
  k ≠ 3 && avgOk (entAvg w) (entShift w) && (k ≠ 2 || field w 18 16 = 0) && (k ≠ 1 || entInputA w ≠ entInputB w)
  && !s.isNegLeg (entInputA w) && (k ≠ 1 || !s.isNegLeg (entInputB w))

/-- Whether an INJECT word keeps them. -/
def injectOk (s : State) (w : Nat) : Bool :=
  field w 9 8 ≠ 3 && avgOk (field w 23 20) (field w 19 16) && !s.isNegLeg (field w 4 0)

/-- Whether an entry of a table names an input. -/
def namesInput (s : State) (n : Nat) : Bool :=
  allCouples.any fun l => (List.range 16).any fun e =>
    let w := s.getU (K.ENTRY l (e + 1))
    entInputA w = n || (entKind w = 1 && entInputB w = n)

/-- Whether an INPUT_CFG word keeps the rules of an input (R176, Table 06.9). -/
def inputCfgOk (s : State) (n w : Nat) : Bool :=
  field w 1 0 ≠ 3 && field w 6 5 ≠ 3 && (!(bit w 4) || (n % 2 = 0 && field w 6 5 ≠ 2 && !s.namesInput (n + 1)))

/-- INPUT_TEMP of an input that takes no temperature (any more) reads 0x8000_0000: CONV is not TEMP, or its table is not monotonic (R194). -/
def tempsCleared (s : State) : State :=
  forEach (List.range 32) (fun n s =>
    let cfg := s.getU (K.INPUT_CFG (n + 1))
    if field cfg 6 5 = 2 ∧ (s.tempOf (field cfg 9 8) 0 0 0).isSome then s
    else if s.getN (K.INPUT_TEMP (n + 1)) = -2147483648 then s
    else s.put (K.INPUT_TEMP (n + 1)) (-2147483648)) s

/-- The open-wire current at ball AINn in µA, sourced positive, sunk negative (R179): in every mode but DORMANT and HOLDUP, and in HOLDUP until the
running results are complete (R204); the odd ball of a pair carries the pair's current in the opposite direction. -/
def openWireCurrent (s : State) (n : Nat) : Int :=
  let cfg := s.getU (K.INPUT_CFG ((if s.isNegLeg n then n - 1 else n) + 1))
  let running := allCouples.any fun l => s.couples[l].phase = .convert || s.injecting l
  let on := match s.mode with | .dormant => false | .holdup => running | _ => true
  let i : Int := match field cfg 1 0 with | 1 => 2 | 2 => 20 | _ => 0
  if on = false then 0 else if bit cfg 2 = s.isNegLeg n then -i else i

/-- Power-fail detection (R204): no result, injection, burst or check begins any more; an injection that has not begun is dropped, and what runs
completes. -/
def auxPowerFail (s : State) : State :=
  let s := forEach allConvs (fun a s => s.updConv a fun x => { x with check := none }) s.auxAbort
  let s := forEach allCouples (fun l s => if s.getN (K.INJ_STATE (l + 1)) = 1 then s.put (K.INJ_STATE (l + 1)) 0 else s) s
  forEach allCouples (fun l s => s.kick l) s

end State

end Sys2Proof.Machine
end

