-- ==== Sys2Proof/Machine/Banks.lean ====
section
/-! DEFINITION. Machine/Banks.lean: arbitration, check symbols, scrubbing, the background march and the bank understudy (R207 to R227). -/

namespace Sys2Proof.Machine

open Sys2Proof

/-- Rank of a master (Table 07.2), 1 highest, by counter subindex minus one. -/
def masterRank (m : Fin 11) : Nat := #v[1, 2, 3, 4, 5, 6, 8, 7, 9, 11, 10][m]

/-- Whether a master uses port S (Table 07.2). -/
def onPortS (m : Fin 11) : Bool := decide (6 ≤ m.val)

/-- The master X, the host DMA (Table 07.2). -/
def masterX : Fin 11 := 9

/-- The place of a word of a physical bank, and of a word of a logical bank: 8192 × bank + 512 × region + word (R207, R208). -/
def wordPlace (bank : Nat) (region : Fin 16) (word : Fin 512) : Nat := 8192 * bank + 512 * region + word

/-- The bank, the region and the word of a place. -/
def placeBank (a : Nat) : Fin 5 := ⟨a / 8192 % 5, by omega⟩
def placeRegion (a : Nat) : Fin 16 := ⟨a / 512 % 16, by omega⟩
def placeWord (a : Nat) : Fin 512 := ⟨a % 512, by omega⟩

/-- The class of the word at a place of the logical banks (R209). -/
def classAt (a : Nat) : WordClass :=
  let k := Config.wordClass a
  let n := k / 8
  match k % 8 with
  | 0 => .metrological
  | 1 => .steward
  | 2 => .window ⟨n % 8, by omega⟩ ⟨n / 8 % 7, by omega⟩
  | 3 => .harmonic ⟨n % 8, by omega⟩ ⟨n / 8 % 7, by omega⟩
  | 4 => .display
  | 5 => .dop (if n % 2 = 0 then .spi else .can)
  | 6 => .thiber ⟨n % 4, by omega⟩
  | _ => .signing

/-- The place of the other copy of a word of a two-copy class: in another logical bank (R209). -/
def otherCopy (a : Nat) : Nat :=
  let k := Config.otherCopy a
  8192 * ((a / 8192 + 1 + k % 3) % 4) + k / 3 % 8192

/-- The word of ten symbols that holds eight data symbols: the two check symbols are computed on every write (R207, R215). -/
def codeWord (data : Nat) : Nat := data % 2 ^ 64 + (Config.checkSymbols (data % 2 ^ 64) % 2 ^ 16) * 2 ^ 64

/-- The data of a word with the bytes of a mask replaced (R207). -/
def mergeBytes (old new : Nat) (mask : Fin 256) : Nat :=
  ((List.range 8).map fun k => (if bit mask k then field new (8 * k + 7) (8 * k) else field old (8 * k + 7) (8 * k)) * 2 ^ (8 * k)).sum

/-- Whether two writes of a word have a byte in common with different data (R213). -/
def writesDiffer (x y : Fin 256 × Nat) : Bool :=
  (List.range 8).any fun k => bit x.1 k && bit y.1 k && field x.2 (8 * k + 7) (8 * k) ≠ field y.2 (8 * k + 7) (8 * k)

/-- The march C− (R218): each element's operations on a word, a write or a read of pattern 0 or pattern 1. -/
def marchC : List (List (Bool × Bool)) :=
  [[(true, false)], [(false, false), (true, true)], [(false, true), (true, false)], [(false, false), (true, true)],
    [(false, true), (true, false)], [(false, false)]]

/-- The 80 bits that the march leaves in every word it passed: the pattern of its last write. -/
def marchLeaves : Nat := if ((marchC.flatten.filter Prod.fst).getLast?.map Prod.snd).getD false then 2 ^ 80 - 1 else 0

/-- Whether a class is held twice (Table 07.1). -/
def twoCopies : WordClass → Bool
  | .metrological | .steward => true
  | _ => false

namespace State

/-- One bank changed. -/
def updBank (s : State) (b : Fin 5) (f : Bank → Bank) : State := { s with banks := s.banks.set b (f s.banks[b]) }

/-- The strings in order. -/
def strings : List (Fin 8) := [0, 1, 2, 3, 4, 5, 6, 7]

/-- The word of a taut string, or none (R432). -/
def tautWord (s : State) (i : Fin 8) : Option Nat :=
  let w := s.getU (K.STRING_CFG (i + 1))
  if bit w 63 then some w else none

/-- A string counts a perturbed operation. -/
def stringHit (s : State) (i : Fin 8) : State := s.addSat 32 (K.STRING_HITS (i + 1)) 1

/-- Whether an INVERT string reverses the ranks on a bank (R214): SUB 0 port F, 1 port S. -/
def inverted (s : State) (b : Fin 5) : Bool := strings.any fun i =>
  match s.tautWord i with
  | some w => field w 3 0 = 2 && field w 15 8 = b
  | none => false

/-! ### Words and where they are served (R207, R219, R223) -/

/-- Whether the words are listed in canonical form: places strictly rising from a bound, and no zero word listed. -/
def wordsFrom : Nat → List (Nat × Nat) → Bool
  | _, [] => true
  | lo, (a, w) :: r => decide (lo ≤ a) && decide (w ≠ 0) && wordsFrom (a + 1) r

/-- The ten symbols of the word at a place of the physical banks. -/
def wordAt (s : State) (a : Nat) : Nat := (lookupL s.sram a).getD 0
def setWord (s : State) (a w : Nat) : State := { s with sram := putL 0 a w s.sram }

/-- Every word of a region copied into another region. -/
def copyRegion (s : State) (b : Nat) (r : Fin 16) (b' : Nat) (r' : Fin 16) : State :=
  forEach (List.finRange 512) (fun w s => s.setWord (wordPlace b' r' w) (s.wordAt (wordPlace b r w))) s

/-- The march has passed over a region: every cell holds its last pattern (R218). -/
def marchedRegion (s : State) (b : Nat) (r : Fin 16) : State :=
  forEach (List.finRange 512) (fun w s => s.setWord (wordPlace b r w) marchLeaves) s

/-- Whether the region under test is borrowed or being copied back (R219). -/
def borrowed (s : State) : Bool := match s.march.phase with | .segment | .copyBack => true | _ => false

/-- The physical bank that carries a logical bank. -/
def bankOf (s : State) (l : Fin 4) : Fin 5 := (([0, 1, 2, 3, 4] : List (Fin 5)).find? fun b => s.banks[b].logical = some l).getD 4

/-- The region of a bank substitution whose copy is under way (R223). -/
def copying (s : State) : Option (Fin 16) :=
  match s.bankSub with
  | some sub => if sub.waits then none else (List.finRange 16).find? fun r => r.val ∉ sub.done
  | none => none

/-- Whether a region of a logical bank is the one under test. -/
def underTest (s : State) (l : Fin 4) (r : Fin 16) : Bool := s.getU K.MARCH_NEXT = 16 * l.val + r.val

/-- The physical bank and region that serve a region of a logical bank: the mirror while the region is borrowed or copied back (R219), B4 for a
region that a substitution has switched (R223), else the bank that carries it. -/
def regionServed (s : State) (l : Fin 4) (r : Fin 16) : Fin 5 × Fin 16 :=
  if s.borrowed && s.underTest l r then (4, s.march.mirror)
  else match s.bankSub with
    | some sub => if s.bankOf l = sub.worn ∧ r.val ∈ sub.done then (4, r) else (s.bankOf l, r)
    | none => (s.bankOf l, r)

/-- The second place that a write of a region reaches: the mirror while the region is copied into it, the region itself during copy-back, and B4
while a substitution copies it (Table 07.4, R219, R223). -/
def alsoWritten (s : State) (l : Fin 4) (r : Fin 16) : Option (Fin 5 × Fin 16) :=
  if s.underTest l r && decide (s.march.phase = .copy) then some (4, s.march.mirror)
  else if s.underTest l r && decide (s.march.phase = .copyBack) then some (s.bankOf l, r)
  else match s.bankSub with
    | some sub => if s.bankOf l = sub.worn ∧ s.copying = some r then some (4, r) else none
    | none => none

/-- The latest accesses of a bank's ports lie before a background access: a request that waits for it is in no conflict (R212). -/
def background (s : State) (b : Fin 5) : State :=
  s.updBank b fun x => { x with portF := { x.portF with last := none }, portS := { x.portS with last := none } }

/-- Whether a background access may start on a port of a bank (R212). -/
def portFree (s : State) (b : Fin 5) : Bool := s.banks[b].portF.waiting = [] || s.banks[b].portS.waiting = []

/-! ### Wear and substitution (R222 to R225) -/

/-- The copying into B4 begins, or waits until a running attempt on another bank has copied back (R223). -/
def startBankSub (s : State) (b : Fin 5) : State :=
  let running := s.borrowed
  let region := s.getU K.MARCH_NEXT
  let own := decide (s.banks[b].logical = some (⟨region / 16 % 4, by omega⟩ : Fin 4))
  let s := if running && own then s.copyRegion 4 s.march.mirror 4 ⟨region % 16, by omega⟩ else s
  let s := (s.updBank b fun x => { x with state := .worn }).updBank 4 fun x => { x with state := .substituting }
  -- an attempt on the worn bank is abandoned and its borrowed region switched first
  let done := if running && own then [region % 16] else []
  let s := if running && !own then { s with march := { s.march with phase := .copyBack, abandoned := true } }
           else { s with march := March.init }
  { s with bankSub := some ⟨b, done, running && !own, s.rtc⟩ }

/-- A physical bank's state, NO_SPARE and logical bank as the low bits of BANK_STATE (Table 07.7), and the bank that they describe. -/
def bankCode (x : Bank) : Nat :=
  (match x.state with | .idle => 0 | .inService => 1 | .worn => 2 | .substituting => 3 | .retired => 4) + 256 * natOfBool x.noSpare
    + 512 * (match x.logical with | some l => l.val | none => 7)

def bankOfCode (w : Nat) (x : Bank) : Bank :=
  let k := field w 11 9
  { x with
    state := match w % 8 with | 0 => .idle | 1 => .inService | 2 => .worn | 3 => .substituting | _ => .retired
    noSpare := bit w 8, logical := if h : k < 4 then some ⟨k, h⟩ else none }

/-- What NVM records of a bank substitution (R223): the carriage of the banks, and BANK_SUB_COUNT to BANK_SUB_DURATION. -/
def bankRecord (s : State) (a : Fin 5) : List EntryWrite :=
  (([a, 4] : List (Fin 5)).map fun (b : Fin 5) => (⟨K.BANK_STATE (b + 1), .num (bankCode s.banks[b] : Nat)⟩ : EntryWrite))
    ++ ([K.BANK_SUB_COUNT, K.BANK_SUB_FROM, K.BANK_SUB_TIME, K.BANK_SUB_DURATION].map fun k => ⟨k, .num (s.getN k)⟩)

/-- A physical bank is declared worn (R222, R225, Table 07.5). -/
def bankWorn (s : State) (b : Fin 5) : State :=
  let log (s : State) : State := s.health 8 b (s.getU (K.LAST_ERROR (b + 1)))
  match s.banks[b].state with
  | .inService =>
    if b ≠ 4 ∧ s.banks[(4 : Fin 5)].state = .idle then log (s.startBankSub b)
    else log (s.updBank b fun x => { x with state := .worn, noSpare := true })
  | .idle | .substituting =>
    let s := match s.bankSub with
      | some sub => s.updBank sub.worn fun x => { x with noSpare := true }
      | none => s
    let s := { s with bankSub := none }
    let s := match s.march.phase with
      | .segment => { s with march := { s.march with phase := .copyBack, abandoned := true } }
      | .copyBack => s
      | _ => { s with march := March.init }
    log ((s.updBank 4 fun x => { x with state := .retired }).setN K.SWEEP_MODE 1)
  | _ => s

/-- Banks declared worn at one instant: the lowest-numbered one first (R225). -/
def banksWorn (s : State) (bs : List (Fin 5)) : State :=
  forEach (([0, 1, 2, 3, 4] : List (Fin 5)).filter fun b => b ∈ bs) (fun b s => s.bankWorn b) s

/-- All 16 regions are switched: the worn bank is RETIRED and B4 carries its logical bank (R223, R224), and NVM records it (R245). -/
def finishBankSub (s : State) (sub : BankSub) : State :=
  let dur := min ((s.rtc - sub.started) / 1000) 65535
  let old := s.bankRecord sub.worn
  let lg := s.banks[sub.worn].logical
  let s := (s.updBank 4 fun x => { x with state := .inService, logical := lg }).updBank sub.worn fun x =>
    { x with state := .retired, logical := none, noSpare := false }
  let s := { s with bankSub := none }
  let s := (s.setN K.BANK_SUB_COUNT (min (s.getN K.BANK_SUB_COUNT + 1) 1)).setN K.BANK_SUB_FROM (sub.worn.val : Nat)
  let s := ((s.setN K.BANK_SUB_TIME s.now).setN K.BANK_SUB_DURATION (dur : Nat)).setN K.SWEEP_MODE 1
  (s.health 9 sub.worn dur).recordDevice old (s.bankRecord sub.worn)

/-! ### Check code (R215 to R217, R435) -/

/-- LAST_ERROR and its time (Table 07.8). -/
def lastError (s : State) (b : Fin 5) (kind sym master region word : Nat) : State :=
  let w := kind * 2 ^ 29 + sym * 2 ^ 25 + master * 2 ^ 21 + region * 2 ^ 9 + word
  (s.setN (K.LAST_ERROR (b + 1)) (w : Nat)).setN (K.LAST_ERROR_TIME (b + 1)) s.now

/-- The symbols an SRAM_INJECT string flips in this read (Table 15.1): 0, 1 or 2; every AMOUNT-th read of its target. -/
def injectedSymbols (s : State) (b : Fin 5) (m : Fin 11) : Nat × State :=
  strings.foldl (fun (acc : Nat × State) i =>
    let s := acc.2
    match s.tautWord i with
    | some w =>
      if field w 3 0 = 3 ∧ field w 15 8 = b.val ∧ (field w 23 16 = 0 ∨ field w 23 16 = m.val + 1) then
        let n := s.stringReads[i] + 1
        if field w 55 46 ≤ n then (max acc.1 (field w 39 32), ({ s with stringReads := s.stringReads.set i 0 }).stringHit i)
        else (acc.1, { s with stringReads := s.stringReads.set i n })
      else acc
    | none => acc) (0, s)

/-- A correction of a symbol of a word: its wear history (R222). -/
def symCorrection (s : State) (b : Fin 5) (addr sym : Nat) : State :=
  let x := s.banks[b]
  let old := x.hits.find? fun h => h.addr = addr ∧ h.sym = sym
  let rest := x.hits.filter fun h => ¬ (h.addr = addr ∧ h.sym = sym)
  let h : SymHit := match old with
    | some h => if h.scrubbed then { h with reads := h.reads + 1, scrubbed := false } else h
    | none => ⟨addr, sym, 1, false⟩
  let s := s.updBank b fun x => { x with hits := h :: rest, corrected1s := x.corrected1s + 1 }
  if 3 ≤ h.reads ∨ 64 ≤ s.banks[b].corrected1s then s.bankWorn b else s

/-- A read found one symbol wrong (R215): corrected, counted, and due for its write-back. -/
def symOne (s : State) (b : Fin 5) (r w sym master : Nat) (injected : Bool) : State :=
  let addr := r * 512 + w
  let s := (s.addSat 32 (K.SYM_CORRECTED (b + 1)) 1).lastError b 1 sym master r w
  let s := s.updBank b fun x => { x with scrubs := if addr ∈ x.scrubs then x.scrubs else x.scrubs ++ [addr] }
  if injected then s else s.symCorrection b addr sym

/-! ### March (R218, R220) -/

/-- Whether attempts may begin: B4 idle and no sweep (R218, R224). -/
def marchAllowed (s : State) : Bool :=
  decide (s.banks[(4 : Fin 5)].state = BankState.idle) && s.getN K.SWEEP_MODE = 0 && s.bankSub.isNone && s.serves

/-- MARCH_START: the period is over and the attempt on MARCH_NEXT begins. -/
def marchStart (s : State) : State :=
  if s.marchAllowed && decide (s.march.phase = MarchPhase.idle) then
    { s with march := { s.march with phase := .mirror, tries := 0, forced := false, abandoned := false } }
  else s

/-- MARCH_RETRY: the same region again with the next mirror, forced after 8 abandonments (R220). -/
def marchRetry (s : State) : State :=
  if s.marchAllowed && decide (s.march.phase = MarchPhase.retry) then
    let forced := decide (8 ≤ s.march.tries)
    let s := { s with march := { s.march with phase := .mirror, forced := forced, abandoned := false } }
    if forced then s.addSat 32 K.MARCH_FORCED 1 else s
  else s

/-! ### Write-backs and counters (R216, R226) -/

/-- SCRUB_WRITEBACK: the oldest waiting word of a bank is written back on a free port. -/
def scrub (s : State) (b : Fin 5) : State :=
  match s.banks[b].scrubs with
  | a :: r =>
    if s.portFree b then
      ((s.background b).updBank b fun x => { x with
        scrubs := r, hits := x.hits.map fun h => if h.addr = a then { h with scrubbed := true } else h }).addSat 32 (K.SCRUB_COUNT (b + 1)) 1
    else s
  | [] => s

/-- A master's write of a word drops the write-back that waits for it (R216). -/
def dropScrub (s : State) (b : Fin 5) (r w : Nat) : State :=
  s.updBank b fun x => { x with scrubs := x.scrubs.filter (· ≠ r * 512 + w) }

/-- COUNTER_CLEAR (R226). -/
def clearCounters (s : State) : State :=
  forEach (List.range 11) (fun m s =>
    ((s.setN (K.CONFLICT_COUNT (m + 1)) 0).setN (K.COLLISION_COUNT (m + 1)) 0).setN (K.WAIT_WORST (m + 1)) 0) s

/-- A new 1 s interval of R33 (R222). -/
def banksInterval (s : State) : State := forEach ([0, 1, 2, 3, 4] : List (Fin 5)) (fun b s => s.updBank b fun x => { x with corrected1s := 0 }) s

/-- RECALL: a substitution that was under way is complete, no attempt runs, and the banks start without content (Table 07.5, R224). -/
def banksRecall (s : State) : State :=
  let worn := ([0, 1, 2, 3] : List (Fin 5)).find? fun b => s.banks[b].state = .worn && !s.banks[b].noSpare
  let s := match worn with
    | some b => if s.banks[(4 : Fin 5)].state = BankState.substituting then s.finishBankSub ⟨b, [], false, (s.bankSub.map BankSub.started).getD s.rtc⟩ else s
    | none => s
  let s := { s with bankSub := none }
  let s := forEach ([0, 1, 2, 3, 4] : List (Fin 5)) (fun b s => s.updBank b fun x => { x with
    corrected1s := 0, hits := [], scrubs := [], portF := ⟨[], none⟩, portS := ⟨[], none⟩ }) s
  let s := { s with sram := [], sweepAt := 0 }
  let idle := decide (s.banks[(4 : Fin 5)].state = BankState.idle)
  ({ s with march := { March.init with mirror := s.march.mirror } }).setN K.SWEEP_MODE (if idle then 0 else 1)

/-- BANK_STATE of a physical bank (Table 07.7): a test attempt on lender and mirror, a substitution's copy on both banks, the sweep on the bank that
it reads. -/
def bankWord (s : State) (b : Fin 5) : Nat :=
  let x := s.banks[b]
  let region := s.getU K.MARCH_NEXT
  let lender := decide (x.logical = some (⟨region / 16 % 4, by omega⟩ : Fin 4))
  let running := match s.march.phase with | .idle | .retry => false | _ => true
  let act : Nat × Nat :=
    match s.bankSub.filter fun (sub : BankSub) => !sub.waits && (b = sub.worn || b = 4) with
    | some _ => (2, match s.copying with | some r => r.val | none => 15)
    | none =>
      if running && b = 4 then (1, s.march.mirror.val)
      else if running && lender then (1, region % 16)
      else if s.getN K.SWEEP_MODE = 1 && b = placeBank s.sweepAt && x.logical.isSome then (3, (placeRegion s.sweepAt).val)
      else (0, 0)
  act.2 * 2 ^ 20 + act.1 * 2 ^ 16 + bankCode x

end State

end Sys2Proof.Machine
end

