-- ==== Sys2Proof/Machine/Crypto.lean ====
section
/-! DEFINITION. Machine/Crypto.lean: CRC-16, CRC-32C, SHA-256 and ECDSA over NIST P-256 (R385, R229, R274, R350), as the published
standards that the spec names define them. -/

namespace Sys2Proof.Machine

open Sys2Proof

/-! ### CRC-16 of R385: polynomial 0x1021, initial value 0xFFFF, no reflection, no final XOR -/

/-- Eight shifts of the CRC-16 register. -/
def crc16Bits : Nat → Nat → Nat
  | 0, c => c
  | n + 1, c => crc16Bits n (if c.testBit 15 then ((c * 2) % 65536) ^^^ 0x1021 else c * 2)

/-- CRC-16 of a byte string from register `c`. -/
def crc16From (c : Nat) (bs : List Byte) : Nat :=
  bs.foldl (fun c b => crc16Bits 8 (c ^^^ (b.toNat * 256))) c

/-- CRC-16 of R385. -/
def crc16 (bs : List Byte) : Nat := crc16From 0xFFFF bs

/-! ### CRC-32C: reflected polynomial 0x82F63B78, initial value and final XOR all ones -/

/-- Eight shifts of the CRC-32C register. -/
def crc32cBits : Nat → Nat → Nat
  | 0, c => c
  | n + 1, c => crc32cBits n (if c.testBit 0 then (c / 2) ^^^ 0x82F63B78 else c / 2)

/-- CRC-32C (Castagnoli) of a byte string. -/
def crc32c (bs : List Byte) : Nat :=
  (bs.foldl (fun c b => crc32cBits 8 (c ^^^ b.toNat)) 0xFFFFFFFF) ^^^ 0xFFFFFFFF

/-! ### SHA-256 (FIPS 180-4) -/

/-- A 32-bit word of the hash. -/
abbrev W32 := BitVec 32

/-- The primes below a bound, in order. -/
def primesBelow (n : Nat) : List Nat := (List.range n).filter fun p => decide (2 ≤ p) && (List.range p).all fun d => decide (d < 2) || decide (p % d ≠ 0)

/-- The first 32 bits of the fraction of the `k`-th root of `p`: the greatest `r` with `r ^ k ≤ p × 2 ^ (32 k)`, bit by bit, without its integer
part. -/
def rootFraction (k p : Nat) : W32 :=
  BitVec.ofNat 32 ((List.range 40).foldl (fun r i => if (r + 2 ^ (39 - i)) ^ k ≤ p * 2 ^ (32 * k) then r + 2 ^ (39 - i) else r) 0)

/-- The 64 round constants: the fractions of the cube roots of the first 64 primes. -/
def shaK : List W32 := (primesBelow 312).map (rootFraction 3)

/-- The eight working variables. -/
structure Sha where
  a : W32
  b : W32
  c : W32
  d : W32
  e : W32
  f : W32
  g : W32
  h : W32
  deriving DecidableEq, Repr

/-- The initial hash value: the fractions of the square roots of the first eight primes. -/
def shaInit : Sha :=
  let h (p : Nat) : W32 := rootFraction 2 p
  ⟨h 2, h 3, h 5, h 7, h 11, h 13, h 17, h 19⟩

/-- One round with its constant and schedule word. -/
def shaRound (s : Sha) (k w : W32) : Sha :=
  let s1 := s.e.rotateRight 6 ^^^ s.e.rotateRight 11 ^^^ s.e.rotateRight 25
  let ch := (s.e &&& s.f) ^^^ (~~~s.e &&& s.g)
  let t1 := s.h + s1 + ch + k + w
  let s0 := s.a.rotateRight 2 ^^^ s.a.rotateRight 13 ^^^ s.a.rotateRight 22
  let mj := (s.a &&& s.b) ^^^ (s.a &&& s.c) ^^^ (s.b &&& s.c)
  ⟨t1 + (s0 + mj), s.a, s.b, s.c, s.d + t1, s.e, s.f, s.g⟩

/-- Rounds over the constants; `ws` holds the next sixteen schedule words, oldest first. -/
def shaRounds : List W32 → List W32 → Sha → Sha
  | [], _, s => s
  | k :: ks, ws, s =>
    let w0 := ws.getD 0 0
    let w1 := ws.getD 1 0
    let w14 := ws.getD 14 0
    let x0 := w1.rotateRight 7 ^^^ w1.rotateRight 18 ^^^ (w1 >>> 3)
    let x1 := w14.rotateRight 17 ^^^ w14.rotateRight 19 ^^^ (w14 >>> 10)
    shaRounds ks (ws.drop 1 ++ [w0 + x0 + ws.getD 9 0 + x1]) (shaRound s k w0)

/-- Four bytes, most significant first. -/
def shaWord (bs : List Byte) (i : Nat) : W32 :=
  BitVec.ofNat 32 ((bs.getD (4 * i) 0).toNat * 2 ^ 24 + (bs.getD (4 * i + 1) 0).toNat * 2 ^ 16
    + (bs.getD (4 * i + 2) 0).toNat * 2 ^ 8 + (bs.getD (4 * i + 3) 0).toNat)

/-- One 64-byte block. -/
def shaBlock (s : Sha) (blk : List Byte) : Sha :=
  let r := shaRounds shaK ((List.range 16).map (shaWord blk)) s
  ⟨s.a + r.a, s.b + r.b, s.c + r.c, s.d + r.d, s.e + r.e, s.f + r.f, s.g + r.g, s.h + r.h⟩

/-- The blocks of a padded message. -/
def shaBlocks : Nat → List Byte → Sha → Sha
  | 0, _, s => s
  | n + 1, bs, s => shaBlocks n (bs.drop 64) (shaBlock s (bs.take 64))

/-- The padded message. -/
def shaPad (m : List Byte) : List Byte :=
  let z := (119 - m.length % 64) % 64
  m ++ [0x80] ++ List.replicate z 0 ++ (leBytes 8 (8 * m.length)).reverse

/-- SHA-256 as a 256-bit number, first byte most significant. -/
def sha256Nat (m : List Byte) : Nat :=
  let p := shaPad m
  let s := shaBlocks (p.length / 64) p shaInit
  [s.a, s.b, s.c, s.d, s.e, s.f, s.g, s.h].foldl (fun n w => n * 2 ^ 32 + w.toNat) 0

/-- SHA-256 as its 32 bytes in the standard's order. -/
def sha256 (m : List Byte) : List Byte := (leBytes 32 (sha256Nat m)).reverse

/-! ### ECDSA over NIST P-256 (FIPS 186-4) -/

namespace P256

/-- The field prime. -/
def p : Nat := 0xffffffff00000001000000000000000000000000ffffffffffffffffffffffff

/-- The group order. -/
def n : Nat := 0xffffffff00000000ffffffffffffffffbce6faada7179e84f3b9cac2fc632551

/-- The curve constant b. -/
def b : Nat := 0x5ac635d8aa3a93e7b3ebbd55769886bc651d06b0cc53b0f63bce3c3e27d2604b

/-- A point in Jacobian coordinates; z = 0 is the point at infinity. -/
structure Pt where
  x : Nat
  y : Nat
  z : Nat
  deriving DecidableEq, Repr

/-- The base point. -/
def g : Pt :=
  ⟨0x6b17d1f2e12c4247f8bce6e563a440f277037d812deb33a0f4a13945d898c296,
   0x4fe342e2fe1a7f9b8ee7eb4a7c0f9e162bce33576b315ececbb6406837bf51f5, 1⟩

/-- Difference modulo the field prime. -/
def sub (a c : Nat) : Nat := (a + (p - c % p)) % p

/-- Power modulo `m` over the low `k` bits of the exponent. -/
def powMod : Nat → Nat → Nat → Nat → Nat
  | 0, _, _, _ => 1
  | k + 1, m, a, e =>
    let r := powMod k m (a * a % m) (e / 2)
    if e % 2 = 1 then r * a % m else r

/-- Inverse modulo a prime, by Fermat. -/
def invMod (m a : Nat) : Nat := powMod 256 m (a % m) (m - 2)

/-- Twice a point. -/
def dbl (q : Pt) : Pt :=
  if q.z = 0 ∨ q.y = 0 then ⟨1, 1, 0⟩ else
  let zz := q.z * q.z % p
  let yy := q.y * q.y % p
  let s := 4 * q.x * yy % p
  let m := 3 * (sub q.x zz * ((q.x + zz) % p)) % p
  let x3 := sub (m * m % p) (2 * s % p)
  let y3 := sub (m * sub s x3 % p) (8 * (yy * yy) % p)
  ⟨x3, y3, 2 * q.y * q.z % p⟩

/-- The sum of two points. -/
def add (q r : Pt) : Pt :=
  if q.z = 0 then r else if r.z = 0 then q else
  let z1 := q.z * q.z % p
  let z2 := r.z * r.z % p
  let u1 := q.x * z2 % p
  let u2 := r.x * z1 % p
  let s1 := q.y * r.z * z2 % p
  let s2 := r.y * q.z * z1 % p
  if u1 = u2 then (if s1 = s2 then dbl q else ⟨1, 1, 0⟩) else
  let h := sub u2 u1
  let rr := sub s2 s1
  let hh := h * h % p
  let hhh := h * hh % p
  let v := u1 * hh % p
  let x3 := sub (sub (rr * rr % p) hhh) (2 * v % p)
  let y3 := sub (rr * sub v x3 % p) (s1 * hhh % p)
  ⟨x3, y3, q.z * r.z * h % p⟩

/-- The low `k` bits of `e` times a point. -/
def mul : Nat → Nat → Pt → Pt
  | 0, _, _ => ⟨1, 1, 0⟩
  | k + 1, e, q =>
    let r := mul k (e / 2) (dbl q)
    if e % 2 = 1 then add r q else r

/-- Affine x and y of a finite point. -/
def affine (q : Pt) : Nat × Nat :=
  let zi := invMod p q.z
  let z2 := zi * zi % p
  (q.x * z2 % p, q.y * z2 * zi % p)

/-- Whether (x, y) lies on the curve. -/
def onCurve (x y : Nat) : Bool :=
  x < p ∧ y < p ∧ (y * y) % p = (x * x * x + (p - 3) * x + b) % p

/-- ECDSA verification of (r, s) over the digest `e` under the public key (x, y). -/
def verify (x y e r s : Nat) : Bool :=
  if onCurve x y ∧ 0 < r ∧ r < n ∧ 0 < s ∧ s < n then
    let w := invMod n s
    let q := add (mul 256 (e * w % n) g) (mul 256 (r * w % n) ⟨x, y, 1⟩)
    if q.z = 0 then false else (affine q).1 % n = r
  else false

/-- The public key of a private key. -/
def pubOf (d : Nat) : Nat × Nat := affine (mul 256 d g)

/-- The ECDSA signature of digest `e` under private key `d` with nonce `k`. -/
def sign (d k e : Nat) : Nat × Nat :=
  let r := (affine (mul 256 k g)).1 % n
  (r, invMod n k * (e + r * d) % n)

end P256

end Sys2Proof.Machine
end

