-- ==== Sys2Proof/Machine/Display.lean ====
section
/-! DEFINITION. Machine/Display.lean: stencils, charge ledgers, compensation, clearing, read-back and the metrological content of the bistable
display (R290 to R317). -/

namespace Sys2Proof.Machine

open Sys2Proof

/-- The 192 segments. -/
def allSegs : List Nat := List.range 192

/-- All segments as an image. -/
def fullImage : Nat := 2 ^ 192 - 1

/-! ### Level codes (R296) -/

/-- The code of frame `f` in a stencil. -/
def codeAt (b : List Byte) (f : Nat) : Nat := (b.getD (f / 4) 0).toNat / 4 ^ (f % 4) % 4

/-- The drive of a level code: +1, −1 or 0. -/
def levelSign (c : Nat) : Int := if c = 1 then 1 else if c = 2 then -1 else 0

/-- Frames of a running stencil. -/
def Drive.total (d : Drive) : Nat :=
  match d.kind with
  | .stencil => d.frames
  | .refresh _ => d.clearFrames + d.frames
  | .clearing k => k * d.clearFrames

/-- The code of a segment in frame `f` of a running stencil (R300, R303, R310). -/
def Drive.code (d : Drive) (seg f : Nat) : Nat :=
  let r := natOfBool (bit d.reached seg)
  let t := natOfBool (bit d.target seg)
  let own := if f < d.frames then codeAt (d.codes.getD (2 * r + t) []) f else 0
  if bit d.segs seg = false then 0 else
  match d.kind with
  | .stencil => own
  | .refresh m =>
    if bit m seg then
      if f < d.clearFrames then codeAt (d.codes.getD 4 []) f else codeAt (d.codes.getD t []) (f - d.clearFrames)
    else own
  | .clearing _ => codeAt (d.codes.getD 4 []) (f % d.clearFrames)

/-- The code of a segment in a compensation phase: opposite to the sign of its difference. -/
def Compensate.code (c : Compensate) (seg : Nat) : Nat :=
  if bit c.driven seg then (if 0 < c.delta.getD seg 0 then 2 else 1) else 0

/-- What a compensation drives a segment by in `u` units of 100 µs of its present frame. -/
def Compensate.units (c : Compensate) (seg u : Nat) : Int :=
  levelSign (c.code seg) * ((min u ((c.delta.getD seg 0).natAbs - 200 * c.frame) : Nat) : Int)

/-- A region's activity. -/
def Region.running (r : Region) : Bool := r.drive.isSome || r.comp.isSome

/-- What drives a segment adds to its ledger over `u` units of the present frame (R302). -/
def driveUnits (d : Option Drive) (c : Option Compensate) (seg u : Nat) : Int :=
  (match d with | some d => levelSign (d.code seg d.frame) * (u : Int) | none => 0)
    + (match c with | some c => c.units seg u | none => 0)

/-- A ledger value keeps within ±12,800 units (R302). -/
def ledgerClamp (v : Int) : Int := clampInt (-12800) 12800 v

namespace State

/-- ENABLE of DISP_CFG. -/
def dispOn (s : State) : Bool := bit (s.getU K.DISP_CFG) 0

/-- The segments of a region (R294); `h`: the host region. -/
def regionMask (s : State) (h : Bool) : Nat :=
  let m := leNat (s.getB K.METRO_MASK)
  if h then fullImage ^^^ (m &&& fullImage) else m &&& fullImage

/-- A region; `h`: the host region. -/
def region (s : State) (h : Bool) : Region := if h then s.disp.host else s.disp.metro

/-- The state with a region replaced. -/
def setRegion (s : State) (h : Bool) (r : Region) : State :=
  if h then { s with disp := { s.disp with host := r } } else { s with disp := { s.disp with metro := r } }

/-- The ledgers after `u` units of the present frame. -/
def ledgerAfter (s : State) (u : Nat) : List Int :=
  let d := s.disp
  allSegs.map fun g => ledgerClamp (d.ledger.getD g 0 + driveUnits d.metro.drive d.metro.comp g u + driveUnits d.host.drive d.host.comp g u
    + driveUnits d.clearDrive d.clearComp g u)

/-- The code every output is commanded to now, SEG000 to SEG191, then the backplanes at 0 V (R290). -/
def commanded (s : State) : List Nat :=
  let d := s.disp
  let one (dr : Option Drive) (c : Option Compensate) (g : Nat) : Nat :=
    match dr, c with
    | some x, _ => x.code g x.frame
    | none, some c => c.code g
    | none, none => 0
  (allSegs.map fun g => one d.metro.drive d.metro.comp g ||| one d.host.drive d.host.comp g ||| one d.clearDrive d.clearComp g) ++ [0, 0]

/-- Whether anything drives the panel. -/
def dispRunning (s : State) : Bool :=
  s.disp.metro.running || s.disp.host.running || s.disp.clearDrive.isSome || s.disp.clearComp.isSome

/-- The pump starts (R293). -/
def pumpOn (s : State) : State :=
  if s.disp.pump ∨ s.dispOn = false then s else { s with disp := { s.disp with pump := true, regulated := false } }

/-- The pump stops, its tanks discharged (R293). -/
def pumpOff (s : State) : State :=
  ({ s with disp := { s.disp with pump := false, regulated := false } }.setN K.PUMP_POS_MV 0).setN K.PUMP_NEG_MV 0

/-! ### Targets (R300, R301) -/

/-- A new target of a region: pending while the region runs, otherwise due at a frame boundary at least 3.0 ms from now. -/
def setTarget (s : State) (h : Bool) (img : Nat) : State :=
  let r := s.region h
  let img := img &&& s.regionMask h
  if img = r.pending.getD r.target then s
  else if r.running then
    let s := if r.pending.isSome then s.addSat 32 K.DROPPED_TARGETS 1 else s
    s.setRegion h { r with pending := some img }
  else (s.setRegion h { r with target := img, due := true, dueTime := s.rtc }).pumpOn

/-! ### Bands (R298) -/

/-- The band of a temperature. -/
def bandOf (s : State) (t : Int) : Nat := (([1, 2, 3, 4, 5] : List Nat).filter fun i => s.getN (K.BAND_EDGE i) ≤ t).length

/-- FALLBACK_BAND. -/
def fallbackBand (s : State) : Nat := field (s.getU K.DISP_CFG) 11 8

/-- The band for a stencil that starts now, with BAND and T_FALLBACK and the count of fallbacks. -/
def takeBand (s : State) : Nat × State :=
  match s.validTemp (s.getU K.DISP_TEMP_SRC) s.index with
  | some t => (s.bandOf t, { s with disp := { s.disp with band := s.bandOf t, tFallback := false } })
  | none =>
    (s.fallbackBand, { s.addSat 32 K.FALLBACK_STENCILS 1 with disp := { s.disp with band := s.fallbackBand, tFallback := true } })

/-! ### Stencil starts and ends (R300 to R304) -/

/-- Write a record of the display store into the slot its sequence names (R304). -/
def storeDisp (s : State) (r : StoreRec) : State :=
  let q := s.disp.storeSeq
  let slot : Fin 2 := ⟨q % 2, by omega⟩
  { s with disp := { s.disp with store := s.disp.store.set slot (some (q, r)), storeSeq := q + 1 } }

/-- The start record: what runs now. -/
def storeStart (s : State) : State :=
  let d := s.disp
  s.storeDisp (.start ([d.metro.drive, d.host.drive, d.clearDrive].filterMap id) d.shown d.ledger)

/-- A stencil in a band, with the band's codes and lengths. -/
def newDrive (s : State) (kind : DriveKind) (band target segs : Nat) : Drive where
  kind := kind
  band := band
  codes := ([1, 2, 3, 4, 5] : List Nat).map fun i => s.getB (K.STENCIL band i)
  frames := s.getU (K.FRAMES band)
  clearFrames := s.getU (K.CLEAR_FRAMES band)
  frame := 0
  reached := s.disp.shown
  target := target
  ledger0 := s.disp.ledger
  time0 := s.rtc
  segs := segs

/-- A region starts a stencil or a refresh towards its target. -/
def startDrive (s : State) (h : Bool) (kind : DriveKind) : State :=
  let b := s.takeBand
  let s := b.2.pumpOn
  let r := s.region h
  let d := s.newDrive kind b.1 r.target (s.regionMask h)
  (s.setRegion h { r with due := false, drive := some d, comp := none }).storeStart

/-- The image entries follow the reached image (R300). -/
def setShown (s : State) (img : Nat) : State :=
  ({ s with disp := { s.disp with shown := img } }).setN K.IMAGE_CRC ((crc32c (leBytes 24 img) : Nat) : Int)

/-- Frames a compensation needs, at most 64. -/
def compFrames (delta : List Int) : Nat := min 64 ((delta.foldl (fun m v => max m v.natAbs) 0 + 199) / 200)

/-- A compensation phase for a list of differences. -/
def newComp (delta : List Int) : Compensate :=
  ⟨delta, (allSegs.filter fun g => delta.getD g 0 ≠ 0).foldl setBit 0, compFrames delta, 0⟩

/-- A region's stencil ends: reached image, records, the balance check and what follows (R300, R301, R303). -/
def endDrive (s : State) (h : Bool) (d : Drive) : State :=
  let img := (s.disp.shown &&& (fullImage ^^^ d.segs)) ||| (d.target &&& d.segs)
  let s := (s.setShown img).addWrap 32 K.UPDATES 1
  let s := s.storeDisp (.stop img s.disp.ledger)
  let delta := allSegs.map fun g => if bit d.segs g then s.disp.ledger.getD g 0 - d.ledger0.getD g 0 else 0
  let wrong := allSegs.filter fun g => delta.getD g 0 ≠ 0
  let s := s.setRegion h { s.region h with drive := none }
  if wrong = [] then
    let r := s.region h
    match r.pending with
    | some t => (s.setRegion h { r with target := t, pending := none }).startDrive h .stencil
    | none => s
  else
    let s := forEach wrong (fun g s => (s.addSat 32 K.BALANCE_FAIL 1).health 16 0xFF g) s
    s.setRegion h { s.region h with comp := some (newComp delta) }

/-- A region's part of a frame boundary after the ledgers: its stencil or its compensation moves on or ends. -/
def advanceRegion (s : State) (h : Bool) : State :=
  let r := s.region h
  match r.drive, r.comp with
  | some d, _ =>
    if d.frame + 1 < d.total then s.setRegion h { r with drive := some { d with frame := d.frame + 1 } } else s.endDrive h d
  | none, some c =>
    if c.frame + 1 < c.frames then s.setRegion h { r with comp := some { c with frame := c.frame + 1 } }
    else
      let r := { r with target := r.pending.getD r.target, pending := none, comp := none }
      (s.setRegion h r).startDrive h (.refresh ((allSegs.filter fun g => c.delta.getD g 0 ≠ 0).foldl setBit 0))
  | none, none => s

/-- A region whose target is due starts at this boundary when 3.0 ms have passed (R300). -/
def startDue (s : State) (h : Bool) : State :=
  let r := s.region h
  if r.due ∧ r.running = false ∧ s.dispOn = true ∧ s.disp.clear = .none ∧ r.dueTime + 3000000 ≤ s.rtc then s.startDrive h .stencil else s

/-! ### The metrological content (R312 to R314) -/

/-- The segments a–g of a digit as bits 0–6 (R313). -/
def glyph (d : Nat) : Nat :=
  [0x3F, 0x06, 0x5B, 0x4F, 0x66, 0x6D, 0x7D, 0x07, 0x7F, 0x6F].getD d 0

/-- The image of a set of segments a–g and decimal point (bit 7) in a cell. -/
def cellImage (s : State) (cell lit : Nat) : Nat :=
  let w := s.getU (K.DIGIT_CELL (cell + 1))
  (List.range 8).foldl (fun img k =>
    let g := w / 256 ^ k % 256
    if lit.testBit k ∧ g < 192 then setBit img g else img) 0

/-- Digits of a value in cells from `first`, leading zeros blank left of the rightmost `keep` cells. -/
def digitsImage (s : State) (first cells v keep : Nat) : Nat :=
  (List.range cells).foldl (fun img i =>
    let pos := cells - 1 - i
    let d := v / 10 ^ pos % 10
    if v / 10 ^ pos = 0 ∧ keep ≤ pos then img else img ||| s.cellImage (first + i) (glyph d)) 0

/-- An energy slot (R313). -/
def energyImage (s : State) (slot v : Nat) : Nat :=
  let w := s.getU (K.SLOT_CFG slot)
  let cells := field w 4 0
  let first := field w 12 8
  let dec := field w 14 13
  if cells = 0 then 0 else
  let img := s.digitsImage first cells (v / 10 ^ (9 - dec) % 10 ^ cells) (dec + 1)
  if 0 < dec ∧ dec < first + cells then img ||| s.cellImage (first + cells - 1 - dec) 0x80 else img

/-- A mark's segment while its condition holds (R314). -/
def markImage (s : State) (i : Nat) (on : Bool) : Nat :=
  let g := s.getU (K.MARK_SEG i)
  if on ∧ g < 192 then 2 ^ g else 0

/-- The metrological target of this instant (R312 to R314). -/
def metroImage (s : State) : Nat :=
  let p := s.getU K.DISP_POINT
  let pair := s.getU (K.LEGAL_PAIR p)
  let imp := if pair = 1 then 9 else 1
  let pt := s.getU (K.SLOT_CFG 4)
  let tm := s.getU (K.SLOT_CFG 5)
  let utc : Int := ((s.rtc / 1000000000 : Nat) : Int) - s.getN K.UTC_OFFSET
  let day := (utc % 86400).toNat
  let hhmm := day / 3600 * 100 + day % 3600 / 60
  s.energyImage 1 (s.getU (K.ENERGY p imp)) ||| s.energyImage 2 (s.getU (K.ENERGY p (imp + 1)))
    ||| s.energyImage 3 (s.getU (K.SESSION_DELTA p imp))
    ||| (if field pt 4 0 = 0 then 0 else s.digitsImage (field pt 12 8) (field pt 4 0) p 1)
    ||| (if field tm 4 0 = 0 then 0 else s.digitsImage (field tm 12 8) (field tm 4 0) hhmm 4)
    ||| s.markImage 1 (decide (s.mode = .lockdown)) ||| s.markImage 2 s.taut ||| s.markImage 3 (decide (s.mode = .service))
    ||| s.markImage 4 (!s.sealed) ||| s.markImage 5 (decide (s.getN (K.DIRECTION p) = 1))
    ||| s.markImage 6 (decide (s.getN (K.SESSION_STATE p) = 2)) ||| s.markImage 7 (decide (field tm 4 0 ≠ 0)) ||| s.markImage 8 true

/-- The steward composes the metrological target; not while the clearing runs and not without a panel (R311, R312). -/
def compose (s : State) : State :=
  if s.dispOn ∧ s.disp.clear = .none then s.setTarget false s.metroImage else s

/-! ### The recall clearing (R310, R311) -/

/-- The clearing waits for its band. -/
def wantClearing (s : State) : State :=
  if s.dispOn then { s with disp := { s.disp with clear := .wantBand } } else s

/-- The band of the clearing is known: the first valid result of DISP_TEMP_SRC. -/
def clearBand (s : State) : State :=
  if s.disp.clear = .wantBand then
    match s.validTemp (s.getU K.DISP_TEMP_SRC) s.index with
    | some t => ({ s with disp := { s.disp with clear := .ready (s.bandOf t), band := s.bandOf t, tFallback := false } }).pumpOn
    | none => s
  else s

/-- BAND_TIMEOUT: no valid temperature within 20 ms of RECALL (R310). -/
def bandTimeout (s : State) : State :=
  if s.disp.clear = .wantBand ∧ s.mainOn = true then
    let b := s.fallbackBand
    ({ s.addSat 32 K.FALLBACK_STENCILS 1 with disp := { s.disp with clear := .ready b, band := b, tFallback := true } }).pumpOn
  else s

/-- CLEAR begins in a band. -/
def startClear (s : State) (band : Nat) : State :=
  let d := s.newDrive (.clearing (if s.disp.twice then 2 else 1)) band 0 fullImage
  ({ s with disp := { s.disp with clear := .clear, clearComp := none, clearDrive := some d } }).storeStart

/-- A region after the clearing: a segment whose ledger a fault left off zero is compensated first (R303). -/
def clearedRegion (s : State) (h : Bool) : Region :=
  let delta := allSegs.map fun g => if bit (s.regionMask h) g then s.disp.ledger.getD g 0 else 0
  if delta.all (· = 0) then Region.init else { Region.init with comp := some (newComp delta) }

/-- The clearing ends (R310, R311): all WHITE, every ledger back at 0 or its difference removed by R303, and both regions start by R300. -/
def endClear (s : State) : State :=
  let s := s.setShown 0
  let s := forEach (allSegs.filter fun g => s.disp.ledger.getD g 0 ≠ 0) (fun g s => (s.addSat 32 K.BALANCE_FAIL 1).health 16 0xFF g) s
  let m := s.clearedRegion false
  let h := s.clearedRegion true
  let s := { s with disp := { s.disp with clear := .none, clearDrive := none, metro := m, host := h } }
  let s := (s.addWrap 32 K.CLEAR_COUNT 1).addWrap 32 K.UPDATES 1
  let s := s.setN K.CLEAR_LAST_TIME ((min ((s.rtc - s.startup.started) / 1000000) 65535 : Nat) : Int)
  let s := s.storeDisp (.stop 0 s.disp.ledger)
  (s.compose).setTarget true (leNat (s.getB K.HOST_IMAGE))

/-- The clearing's part of a frame boundary. -/
def advanceClear (s : State) : State :=
  match s.disp.clear, s.disp.clearComp, s.disp.clearDrive with
  | .ready b, _, _ =>
    if s.disp.regulated then
      let c := newComp s.disp.ledger
      let s := s.setN K.CLEAR_LAST_FRAMES (c.frames : Nat)
      if c.frames = 0 then s.startClear b
      else { s with disp := { s.disp with clear := .comp b, clearComp := some c } }
    else s
  | .comp b, some c, _ =>
    if c.frame + 1 < c.frames then { s with disp := { s.disp with clearComp := some { c with frame := c.frame + 1 } } } else s.startClear b
  | .clear, _, some d =>
    if d.frame + 1 < d.total then { s with disp := { s.disp with clearDrive := some { d with frame := d.frame + 1 } } } else s.endClear
  | _, _, _ => s

/-! ### The rows -/

/-- FRAME_BOUNDARY (R299): ledgers, the regions, the clearing, starts and the pump. `lost`: what a fault changed ledgers by (R303). -/
def frameBoundary (s : State) (lost : List (Nat × Int)) : State :=
  if s.mainOn = false then s else
  let ran := s.dispRunning
  let s := if ran then { s with disp := { s.disp with ledger := s.ledgerAfter 200 } } else s
  let s := if ran then { s with disp := { s.disp with
      ledger := allSegs.map fun g => ledgerClamp (s.disp.ledger.getD g 0 + ((lost.filter fun e => e.1 = g).map (·.2)).sum) } } else s
  let s := { s with disp := { s.disp with frameStart := s.rtc } }
  let s := ((s.advanceRegion false).advanceRegion true).advanceClear
  let s := (s.startDue false).startDue true
  if !ran && !s.dispRunning && !s.disp.metro.due && !s.disp.host.due && (match s.disp.clear with | .none => true | _ => false) then s.pumpOff else s

/-- What COMPENSATION_END adds for a segment of one compensation. -/
def compEnd (c : Option Compensate) (seg : Nat) : Option Compensate × Int :=
  match c with
  | some c => if bit c.driven seg then (some { c with driven := clearBit c.driven seg }, c.units seg 200) else (some c, 0)
  | none => (none, 0)

/-- COMPENSATION_END: a segment has been driven for |Δ| × 100 µs and returns to 0 V (R303). -/
def compensationEnd (s : State) (seg : Fin 192) : State :=
  if s.mainOn = false then s else
  let d := s.disp
  let a := compEnd d.metro.comp seg
  let b := compEnd d.host.comp seg
  let c := compEnd d.clearComp seg
  let l := d.ledger.set seg.val (ledgerClamp (d.ledger.getD seg.val 0 + a.2 + b.2 + c.2))
  { s with disp := { d with metro := { d.metro with comp := a.1 }, host := { d.host with comp := b.1 }, clearComp := c.1, ledger := l } }

/-- The frame code image (R306). -/
def codeImage (codes : List Nat) : List Byte := leBytes 49 ((List.range 194).foldl (fun n i => n + codes.getD i 0 % 4 * 4 ^ i) 0)

/-- Set bits of DRV_FAULT; bits that a write cleared count re-arms (R305, R78). -/
def setDrvFault (s : State) (mask : Nat) : State :=
  let again := mask &&& s.disp.faultCleared &&& (mask ^^^ (mask &&& s.disp.fault))
  let s := if again = 0 then s else s.addSat 32 K.DRV_REARM (popCount 200 again)
  { s with disp := { s.disp with fault := s.disp.fault ||| mask, faultCleared := s.disp.faultCleared ^^^ again } }

/-- Write 1 to clear DRV_FAULT. -/
def clearDrvFault (s : State) (w : Nat) : State :=
  let hit := s.disp.fault &&& w
  { s with disp := { s.disp with fault := s.disp.fault ^^^ hit, faultCleared := s.disp.faultCleared ||| hit } }

/-- The levels read against the commanded ones, while VDD33 is good (R305, R306): DRV_FAULT, READBACK_FAIL, the CRCs, and one event of T6. -/
def readBack (s : State) (codes : List Nat) : State :=
  if s.mainOn = false then s else
  let want := s.commanded
  let wrong := (List.range 194).filter fun i => codes.getD i 0 % 4 ≠ want.getD i 0
  let s := (s.setN K.FRAME_CRC ((crc32c (codeImage want) : Nat) : Int)).setN K.READBACK_CRC ((crc32c (codeImage codes) : Nat) : Int)
  if wrong = [] then s else
  let s := (s.setDrvFault (wrong.foldl setBit 0)).addSat 32 K.READBACK_FAIL wrong.length
  let m := s.regionMask false
  match wrong.find? fun i => decide (192 ≤ i) || bit m i with
  | some i => s.source 6 i
  | none => s

/-- DISPLAY_WAKE: a read-back against 0 V between updates, and a composition (R306, R312). -/
def displayWake (s : State) (codes : List Nat) : State :=
  if s.mainOn = false then s else
  let s := if s.dispRunning then s else s.readBack codes
  s.compose

/-- The clamp of R307 at `u` units of the present frame: the ledgers as counted to it; every stencil is cut. -/
def displayClamp (s : State) (u : Nat) : State :=
  let s := if s.dispRunning then { s with disp := { s.disp with ledger := s.ledgerAfter (min u 200) } } else s
  { s with disp := { s.disp with
      metro := Region.init, host := Region.init, clear := .none, clearDrive := none, clearComp := none, pump := false, regulated := false } }

end State

/-- The ledgers of a start record at the stamp of VDD33 loss (R308): partial sums of each stencil from its frame 0. -/
def partialLedger (drives : List Drive) (ledger : List Int) (loss : Nat) : List Int :=
  allSegs.map fun g =>
    ledgerClamp (ledger.getD g 0 + (drives.map fun d =>
      let u := (loss - d.time0 + 50000) / 100000
      ((List.range d.total).map fun f => levelSign (d.code g f) * ((min 200 (u - 200 * f) : Nat) : Int)).sum).sum)

namespace State

/-- RECALL's ledgers (R308): from section S2, or from the newer record of the display store; `loss`: the stamp of VDD33 loss, where the backup
domain kept it. -/
def displayRecall (s : State) (s2 : Option (Nat × List Int)) (loss : Option Nat) : State :=
  let newer : Option StoreRec :=
    match s.disp.store[(0 : Fin 2)], s.disp.store[(1 : Fin 2)] with
    | some a, some b => some (if a.1 < b.1 then b.2 else a.2)
    | some a, none => some a.2
    | none, some b => some b.2
    | none, none => none
  let set (img : Nat) (l : List Int) (unknown : Bool) (s : State) : State :=
    ({ s with disp := { s.disp with
        ledger := l, unknown := unknown, twice := unknown, metro := Region.init, host := Region.init, clearDrive := none, clearComp := none
        clear := .none, pump := false, regulated := false } }).setShown img
  let s := match s2 with
    | some (img, l) => set img l false s
    | none =>
      let s := s.addSat 32 K.LEDGER_RECON 1
      match newer, loss with
      | some (.stop img l), _ => set img l false s
      | some (.start ds img l), some t => set img (partialLedger ds l t) false s
      | _, _ => set 0 zeroLedger true s
  s.wantClearing

/-- DISP_STATE (Table 10.9). -/
def dispWord (s : State) : Nat :=
  let d := s.disp
  let st (r : Region) : Nat := if r.running then (if r.pending.isSome then 2 else 1) else 0
  d.band * 2 ^ 18 + natOfBool d.unknown * 2 ^ 17 + natOfBool d.tFallback * 2 ^ 16 + natOfBool d.pump * 2 ^ 9
    + natOfBool (match d.clear with | .none => false | _ => true) * 2 ^ 8 + st d.host * 4 + st d.metro

/-- The conditions under which a device may be sealed (R315). -/
def sealDisplayOk (s : State) : Bool :=
  let slots := ([1, 2, 3, 4, 5] : List Nat).map fun i => s.getU (K.SLOT_CFG i)
  let cells := slots.flatMap fun w => (List.range (field w 4 0)).map fun i => field w 12 8 + i
  let named := (cells.flatMap fun c =>
      let w := s.getU (K.DIGIT_CELL (c + 1))
      (List.range 8).map fun k => w / 256 ^ k % 256)
    ++ ([1, 2, 3, 4, 5, 6, 7, 8] : List Nat).map fun i => s.getU (K.MARK_SEG i)
  let segs := named.filter (· < 192)
  let m := s.regionMask false
  s.dispOn && decide (6 ≤ field (slots.getD 0 0) 4 0) && decide (s.getU (K.MARK_SEG 1) < 192)
    && segs.all (fun g => bit m g) && decide segs.Nodup

end State

end Sys2Proof.Machine
end

