-- ==== Sys2Proof/Machine/Links.lean ====
section
/-! DEFINITION. Machine/Links.lean: answers to host requests, and opening, completing and closing a tableau (R45 to R50, R379 to R382, R393,
R396, R397). -/

namespace Sys2Proof.Machine

open Sys2Proof

/-- Operations of Table 13.5. -/
def opRead : Nat := 1
def opWrite : Nat := 2
def opTabOpen : Nat := 3
def opTabRead : Nat := 4
def opTabClose : Nat := 5
def opStreamStart : Nat := 6
def opStreamStop : Nat := 7
def opBatch : Nat := 8
def opStreamData : Nat := 0x40

/-- The requests at the front of a queue that carry a refusal found at receipt (R380, R381) are answered with it; the rest stays. -/
def drain : List Message → List Message × List Message
  | [] => ([], [])
  | m :: r =>
    if m.status = .ok then (m :: r, [])
    else
      let d := drain r
      (d.1, { m with payload := [] } :: d.2)

namespace State

/-- A host link. -/
def link (s : State) : Link → LinkSt
  | .spi => s.spi
  | .can => s.can

/-- The state with a host link replaced. -/
def setLink (s : State) (l : Link) (x : LinkSt) : State :=
  match l with
  | .spi => { s with spi := x }
  | .can => { s with can := x }

/-- Whether the host links answer at all: not before RECALL, nor in HOLDUP (R362, R388). -/
def linksOn (s : State) : Bool := match s.mode with | .dormant | .holdup => false | _ => true

/-- Answer the request of a host: it leaves its link's queue, and the response waits (R380, R393). -/
def reply (s : State) (h : Requester) (op idx sub : Nat) (st : Status) (payload : List Byte) : State :=
  if s.linksOn = false then s else
  let x := s.link h.link
  let q := x.queue.eraseP fun m => m.op = op && m.tag = h.tag && m.index = idx && m.sub = sub
  let d := drain q
  s.setLink h.link { x with queue := d.1, out := x.out ++ [⟨op, h.tag, idx, sub, st, payload⟩] ++ d.2 }

/-- Answer a WRITE. -/
def replyWrite (s : State) (h : Requester) (idx sub : Nat) (st : Status) : State := s.reply h opWrite idx sub st []

/-! ### The tableau -/

/-- The first sample period that begins at least `ns` from now (R45, R421). -/
def freezeIdx (s : State) (ns : Nat) : Nat :=
  s.index + (s.rtc + ns - s.instant s.index + 12499) / 12500

/-- Open a tableau (R45, R421). -/
def openTableau (s : State) (id f : Nat) (site : Bool) : State :=
  let s := { s with tab := some ⟨id, f, false, site, [], [], s.rtc⟩ }
  (s.setN K.TAB_ID (id : Nat)).setN K.TAB_F (f : Nat)

/-- Whether an entry is DISPUTED_UNTIL of a point. -/
def isDisputedUntil (k : Nat) : Bool := decide (baseIdx (k / 256) = 0x4007) && decide (k % 256 = 2)

/-- The value an entry has under the open tableau (R46). DISPUTED_UNTIL is all ones where the freeze index lies in LOCKDOWN (Table 04.7). -/
def frozenVal (s : State) (t : Tableau) (k : Nat) : Int :=
  if k = K.SAMPLE_INDEX then (t.freeze : Nat)
  else if isDisputedUntil k ∧ s.modeAt t.freeze = .lockdown then ((2 ^ 64 - 1 : Nat) : Int)
  else (lookupL t.nums k).getD (s.getN k)

/-- Close the open tableau: the reads held under it return TABLEAU_CLOSED (R49, R397). -/
def closeTableau (s : State) : State :=
  match s.tab with
  | some t => forEach t.held (fun (r : Requester × Nat × Nat) s => s.reply r.1 opTabRead r.2.1 r.2.2 .tableauClosed []) { s with tab := none }
  | none => s

/-- Close a local tableau (R25, R49). -/
def closeLocal (s : State) : State :=
  match s.tab with
  | some t => if t.site then s else s.closeTableau
  | none => s

end State

end Sys2Proof.Machine
end

