-- ==== Sys2Proof/Machine/Retain.lean ====
section
/-! DEFINITION. Machine/Retain.lean: what becomes of an entry's value when the supply is lost: held in the checkpoint body (R145), a tally
counter (R249), lost, or kept. -/

namespace Sys2Proof.Machine

/-- The entries of R145 that a checkpoint holds: billing and disputed registers, netting state, the disputed episode, demand, pulse
accumulators with their counts, and EV_STATUS. -/
def isBody (k : Nat) : Bool :=
  let i := k / 256
  let sub := k % 256
  let b := baseIdx i
  (0x4000 ≤ b && b ≤ 0x4003) || (b = 0x4004 && (sub = 1 || sub = 5 || sub = 6)) || b = 0x4007 || b = 0x4010
  || (b = 0xC004 && 3 ≤ sub) || b = 0xC005
  || i = 0x4801 || i = 0x4813 || i = 0x4815 || i = 0x4816 || b = 0x5001

/-- The tally counters: entries that count, since manufacture or until cleared, and the worst values kept beside them. -/
def isTally (k : Nat) : Bool :=
  let i := k / 256
  let sub := k % 256
  let b := baseIdx i
  k = 0x10F003 || (0xE020 ≤ i && i ≤ 0xE024 && i ≠ 0xE021 && i ≠ 0xE023) || i = 0xE012 || (0x2012 ≤ b && b ≤ 0x2016) || b = 0x5003 || b = 0x5004
  || (b = 0x4005 && (sub = 7 || sub = 8)) || (b = 0x6053 && sub = 5) || i = 0x6822
  || i = 0x7013 || i = 0x7014 || i = 0x7071 || (0xE031 ≤ i && i ≤ 0xE033) || (0xE036 ≤ i && i ≤ 0xE038)
  || (i = 0xE03A && 2 ≤ sub && sub ≤ 5) || (i = 0x9001 && sub ≤ 3) || (i = 0x9003 && (sub ≤ 2 || sub = 5)) || i = 0x9004
  || k = 0x900502 || k = 0x900604 || k = 0xC81005 || (i = 0xC820 && (sub = 1 || sub = 3 || sub = 5)) || i = 0x8034 || k = 0x803603
  || (0xA003 ≤ i && i ≤ 0xA004) || i = 0xA015 || k = 0x100303 || k = 0x100404 || i = 0x1023 || k = 0x103301
  || (i = 0x1041 && (sub = 1 || sub = 3 || sub = 5)) || (i = 0x1061 && sub ≠ 6) || k = 0x106302
  || (0xB005 ≤ i && i ≤ 0xB007) || (i = 0xB012 && (sub = 4 || sub = 5)) || k = 0xB02107 || k = 0xB05001
  || k = 0xE06106 || k = 0xE07003

/-- The entries that hold live values of volatile memory and start from their defaults at RECALL. -/
def isVolatile (k : Nat) : Bool :=
  let i := k / 256
  let sub := k % 256
  let b := baseIdx i
  b = 0x2011 || b = 0x2017 || b = 0x2019 || i = 0x2801 || i = 0x2802 || (0x3000 ≤ b && b ≤ 0x30A4) || b = 0x5002
  || (b = 0x4004 && 2 ≤ sub && sub ≤ 4) || (b = 0x4005 && (sub = 5 || sub = 6)) || i = 0x4814 || k = 0x482103
  || (0x6050 ≤ b && b ≤ 0x6052) || (b = 0x6053 && (sub = 1 || sub = 2 || sub = 4)) || i = 0x6801 || (0x6805 ≤ i && i ≤ 0x680B)
  || (0x7003 ≤ i && i ≤ 0x7006) || (0x7030 ≤ i && i ≤ 0x7043) || i = 0x7061 || i = 0x7063 || i = 0x7072
  || (0x8030 ≤ i && i ≤ 0x8033) || (0x8036 ≤ i && i ≤ 0x8038 && k ≠ 0x803603) || i = 0x8009 || i = 0x8035
  || (0xD000 ≤ i && i ≤ 0xD003) || i = 0x9002 || k = 0x900304 || k = 0xC82002
  || (0xB002 ≤ i && i ≤ 0xB003) || (0xB010 ≤ i && i ≤ 0xB021 && !isTally k && k ≠ 0xB01006) || (0xB031 ≤ i && i ≤ 0xB045)
  || (i = 0x1062 && sub ≤ 3) || k = 0x106301 || k = 0x106106 || i = 0xE021 || i = 0xE061 || i = 0x1012 || i = 0x1021

/-- The entries a power loss leaves as they are: those that are none of the above. -/
def isKept (k : Nat) : Bool := !isBody k && !isTally k && !isVolatile k

end Sys2Proof.Machine
end

