-- ==== Sys2Proof/Machine/NvmOps.lean ====
section
/-! DEFINITION. Machine/NvmOps.lean: group cycles, wear and remapping, the host scratch memory, records, tallies and checkpoints (R229 to
R260). -/

namespace Sys2Proof.Machine

open Sys2Proof

/-! ### The host scratch area as memory (R229, R236, R237)

Byte addresses are those of Table 08.1; an address not listed reads 0, the default of every scratch entry (Table 08.10). -/

namespace Memory

/-- The first and the last byte address of the scratch area. -/
def base : Nat := 0x70000
def top : Nat := 0x7FFFF

/-- The byte at an address: what is listed, else 0. -/
def read : List Host.Cell → Nat → Byte
  | [], _ => 0
  | (a, b) :: r, k => if a = k then b else read r k

/-- The memory with one byte written, in canonical form: a zero is not listed. -/
def write (k : Nat) (v : Byte) : List Host.Cell → List Host.Cell
  | [] => if v = 0 then [] else [(k, v)]
  | (a, b) :: r =>
    if k < a then (if v = 0 then (a, b) :: r else (k, v) :: (a, b) :: r)
    else if k = a then (if v = 0 then r else (k, v) :: r)
    else (a, b) :: write k v r

/-- Bytes written from an address upwards. -/
def writes : Nat → List Byte → List Host.Cell → List Host.Cell
  | _, [], m => m
  | k, b :: bs, m => writes (k + 1) bs (write k b m)

/-- `n` bytes read from an address upwards. -/
def reads (m : List Host.Cell) (k n : Nat) : List Byte := (List.range n).map fun i => read m (k + i)

/-- Whether the addresses rise strictly from a bound and no listed byte is zero. -/
def wfFrom : Nat → List Host.Cell → Bool
  | _, [] => true
  | lo, (a, b) :: r => decide (lo ≤ a) && decide (b ≠ 0) && wfFrom (a + 1) r

/-- The canonical form of a memory. -/
def wf (m : List Host.Cell) : Bool := wfFrom 0 m

end Memory

namespace State

/-- The address of byte `i` of scratch page `p` (R237). -/
def scratchAddr (p i : Nat) : Nat := Memory.base + 256 * p + i

/-- The groups a write of `n` bytes from an address touches. -/
def groupsOf (a n : Nat) : List Nat := if n = 0 then [] else (List.range ((a + n - 1) / 8 - a / 8 + 1)).map fun i => a / 8 + i

/-- Whether a group of the range cannot be written (R240). -/
def rangeBad (s : State) (a n : Nat) : Bool := (groupsOf a n).any fun g => g ∈ s.nvm.bad

/-- Bytes of the array were written: of the groups whose latest corrected read is kept, those that hold them count as written since (R238). -/
def rangeWrote (s : State) (a n : Nat) : State :=
  let gs := (s.nvm.lastByte.map Prod.fst).filter fun g => decide (a / 8 ≤ g ∧ 8 * g < a + n) && !s.nvm.writtenSince.contains g
  { s with nvm := { s.nvm with writtenSince := s.nvm.writtenSince ++ gs } }

/-- A scratch write of bytes from an address upwards; `cut` groups of it when a power loss ends it early (R236). -/
def scratchWrite (s : State) (a : Nat) (data : List Byte) (cut : Option Nat) : State :=
  let n := match cut with
    | some g => min data.length (8 * g)
    | none => data.length
  ({ s with scratch := Memory.writes a (data.take n) s.scratch }).rangeWrote a n

/-! ### Errors of the array (R229, R238 to R241) -/

/-- NVM_LAST_ERROR and its time (Table 08.12). -/
def nvmError (s : State) (kind byte group : Nat) : State :=
  (s.setN K.NVM_LAST_ERROR ((kind * 2 ^ 29 + byte * 2 ^ 25 + group : Nat) : Int)).setN K.NVM_LAST_ERROR_TIME s.now

/-- NVM_CONSISTENCY (R263): counted, logged as the last error, and an event of T11. -/
def consistency (s : State) (group value : Nat) : State :=
  ((s.addSat 32 K.CONSISTENCY_COUNT 1).nvmError 4 15 group).source 11 value

/-- Spare groups left. -/
def spareFree (s : State) : Nat := s.getU K.SPARE_FREE

/-- The group that serves an address: its spare where it is remapped (R239). -/
def servedGroup (s : State) (g : Nat) : Nat := (lookupL s.nvm.remap g).getD g

/-- A group is worn (R238 to R240): its remapping to the next free spare begins, or it is left in service with NO_SPARE. Statute groups are never
remapped after sealing (R243). -/
def groupWorn (s : State) (g : Nat) : State :=
  let n := s.nvm
  if (g < 0x600 ∧ s.sealed = true) ∨ n.remaps.any (fun r => r.group = g) then s
  else if n.remaps.length < s.spareFree then
    { s with nvm := { n with remaps := n.remaps ++ [⟨g, 67584 - s.spareFree + n.remaps.length, 0⟩] } }
  else if g ∈ n.worn then s
  else { s.health 12 0xFF g with nvm := { n with worn := n.worn ++ [g] } }

/-- A remapping is complete: the address is served from the spare and the worn group is released (R239, step 3). Where it took the last spare group,
NO_SPARE sets, with its health record, as no bit of HEALTH_SUMMARY sets without one (R240, Table 15.8). -/
def remapDone (s : State) (r : Remap) : State :=
  let old := s.servedGroup r.group
  let s := { s with nvm := { s.nvm with
    remap := insertL r.group r.spare s.nvm.remap, lastByte := eraseL r.group s.nvm.lastByte, patrolCounts := eraseL r.group s.nvm.patrolCounts } }
  let s := if s.spareFree = 1 then s.health 12 0xFF r.group else s
  ((s.setN K.SPARE_FREE ((s.spareFree - 1 : Nat) : Int)).addSat 32 K.NVM_REMAPPED 1).nvmError 3 15 old

/-- One cycle of the oldest remapping under way: the spare takes the content, copy A of the remap table the entry, then copy B (R239). -/
def remapCycle (s : State) : State :=
  match s.nvm.remaps with
  | r :: rest =>
    if r.stage < 2 then { s with nvm := { s.nvm with remaps := { r with stage := r.stage + 1 } :: rest } }
    else ({ s with nvm := { s.nvm with remaps := rest } }).remapDone r
  | [] => s

/-- The remap table at RECALL: an entry in copy A alone is completed, and without it the worn group stays in use (R239). -/
def remapRecall (s : State) : State :=
  let rs := s.nvm.remaps
  forEach (rs.filter fun r => r.stage = 2) (fun r s => s.remapDone r) { s with nvm := { s.nvm with remaps := [] } }

/-- The bytes an NVM_INJECT string flips in this read (Table 15.1), on groups of 0x1_4000 to 0x7_FFFF only. -/
def injectedBytes (s : State) (g : Nat) : Nat × State :=
  if g < 0x2800 then (0, s) else
  strings.foldl (fun (acc : Nat × State) i =>
    let s := acc.2
    match s.tautWord i with
    | some w =>
      if field w 3 0 = 4 then
        let n := s.stringReads[i] + 1
        if field w 55 46 ≤ n then (max acc.1 (field w 23 16), ({ s with stringReads := s.stringReads.set i 0 }).stringHit i)
        else (acc.1, { s with stringReads := s.stringReads.set i n })
      else acc
    | none => acc) (0, s)

/-- A group read was corrected (R238): counted, and worn on the same byte again after a write, or at 16 in a patrol cycle. -/
def groupCorrected (s : State) (g byte : Nat) (injected : Bool) : State :=
  let s := (s.addSat 32 K.NVM_CORRECTED 1).nvmError 1 byte (s.servedGroup g)
  let s := if s.mode = .recalling then s.addSat 32 K.RECALL_CORRECTED 1 else s
  if injected then s else
  let n := s.nvm
  let hard := decide (lookupL n.lastByte g = some byte) && decide (g ∈ n.writtenSince)
  let cnt := (lookupL n.patrolCounts g).getD 0 + 1
  let s := { s with nvm := { n with
    lastByte := insertL g byte n.lastByte, writtenSince := n.writtenSince.filter (· ≠ g), patrolCounts := insertL g cnt n.patrolCounts } }
  if hard || decide (16 ≤ cnt) then s.groupWorn g else s

/-- A group read was uncorrectable (R238); one that a string injected makes no group worn (R435). -/
def groupLost (s : State) (g : Nat) (injected : Bool) : State :=
  let s := (s.addSat 32 K.NVM_UNCORRECTABLE 1).nvmError 2 15 (s.servedGroup g)
  if injected then s else
  let spare := decide (0 < s.spareFree)
  let s := s.groupWorn g
  if spare then s else { s with nvm := { s.nvm with bad := if g ∈ s.nvm.bad then s.nvm.bad else s.nvm.bad ++ [g] } }

/-! ### Dual-copy records (R252 to R254) -/

/-- Write one copy of a record; the ring's slots lie at fixed addresses (R252). -/
def putCopy (s : State) (k : LogKind) (q copy : Nat) (bytes : List Byte) : State :=
  let l := s.log k
  let s := s.setLog k { l with slots := insertL (2 * (q % k.places) + copy) ⟨q, bytes, true⟩ l.slots }
  match k with
  | .ring => s.rangeWrote (0x20000 + 2048 * (q % 160) + 1024 * copy) 1024
  | _ => s

/-- RECORD_COPY_WRITTEN: the first copy into slot s mod 2, then the other (R253). Answers what was completed: the record and 1 or 2 copies. -/
def copyWritten (s : State) : State × Option (RecJob × Nat) :=
  match s.jobs with
  | [] => (s, none)
  | j :: r =>
    match j.seq with
    | none => (s.startJob, none)
    | some q =>
      if j.copies = 0 then
        let s := s.putCopy j.log q (q % 2) j.bytes
        ({ s with jobs := { j with copies := 1 } :: r }, some (j, 1))
      else
        let s := s.putCopy j.log q ((q + 1) % 2) j.bytes
        (({ s with jobs := r }).startJob, some (j, 2))

/-- A power loss cuts the record being written (R260): its unfinished copy slot is no valid copy. The jobs are gone. -/
def cutJobs (s : State) : State :=
  match s.jobs with
  | [] => s
  | j :: _ =>
    let s := match j.seq with
      | some q =>
        let copy := if j.copies = 0 then q % 2 else (q + 1) % 2
        let l := s.log j.log
        s.setLog j.log { l with slots := insertL (2 * (q % j.log.places) + copy) ⟨q, j.bytes, false⟩ l.slots }
      | none => s
    { s with jobs := [] }

end State

/-- Table 08.5 on the two copy slots of a position: what each slot holds then, the slots rewritten, and whether NVM_CONSISTENCY is logged. -/
def resolveCopies (a b : Option CopySlot) : Option CopySlot × Nat × Bool :=
  let valid (x : Option CopySlot) : Bool := match x with | some c => c.good | none => false
  match a, b with
  | none, none => (none, 0, false)
  | some x, some y =>
    if x.good && y.good then
      if x.seq = y.seq then
        if x.bytes = y.bytes then (some x, 0, false) else (some (if x.seq % 2 = 0 then x else y), 1, true)
      else
        -- the newer by the wrapping storage sequence
        let xNew := decide ((x.seq + 2 ^ 32 - y.seq) % 2 ^ 32 < 2 ^ 31)
        let w := if xNew then x else y
        let slot := if xNew then 0 else 1
        (some w, 1, decide (w.seq % 2 ≠ slot))
    else if x.good then (some x, 1, false)
    else if y.good then (some y, 1, false)
    else (none, 2, true)
  | x, y => if valid x then (x, 1, false) else if valid y then (y, 1, false) else (none, 1, false)

namespace State

/-- One position of a log resolved (R254). -/
def resolvePosition (s : State) (k : LogKind) (pos : Nat) : State :=
  let l := s.log k
  let r := resolveCopies (lookupL l.slots (2 * pos)) (lookupL l.slots (2 * pos + 1))
  let slots := match r.1 with
    | some c => insertL (2 * pos) c (insertL (2 * pos + 1) c l.slots)
    | none => eraseL (2 * pos) (eraseL (2 * pos + 1) l.slots)
  let s := s.setLog k { l with slots := slots }
  let s := if r.2.1 = 0 then s else s.setN K.RECALL_RECORD_FIX ((satAdd 16 (s.getU K.RECALL_RECORD_FIX) r.2.1 : Nat) : Int)
  if r.2.2 then s.consistency 0 254 else s

/-- RECORD_RESOLVE: every position of every log (R254). -/
def resolveRecords (s : State) : State :=
  forEach [LogKind.event, .tamper, .history, .health, .ring] (fun k s => forEach (List.range k.places) (fun i s => s.resolvePosition k i) s) s

/-! ### Checkpoints and tallies (R145, R249 to R259) -/

/-- The tally counters as they stand in live memory. -/
def tallies (s : State) : List (Nat × Int) := s.nums.filter fun e => isTally e.1

/-- What a checkpoint holds of a point beside its entries (R145). -/
def keepOf (x : Point) : PointKeep :=
  ⟨x.dmdResImport, x.dmdResExport, x.dmdFrom, x.dmdNext, x.dmdImported, x.dmdExported, x.peakRun, x.peakLast⟩

/-- The entries of the pulse outputs as they stood after the latest completed netting steps (R145). -/
def keptPulses (s : State) : List (Nat × Int) :=
  allPoints.foldl (fun (l : List (Nat × Int)) (m : Fin 8) =>
    let k := s.pulses[m].keep
    let set (key : Nat) (v : Int) (l : List (Nat × Int)) := putL (dfltN key) key v l
    set (K.PULSE_ACC (m + 1)) k.acc (set (K.PULSE_COUNT (m + 1)) (k.count : Nat) (set (K.PULSE_LOST (m + 1)) (k.lost : Nat) l)))
    (s.nums.filter fun e => isBody e.1)

/-- The content of a checkpoint (R145); `tail`: after the forced step, which completes every running step. -/
def capture (s : State) (tail : Bool) : Body :=
  ⟨if tail then s.nums.filter fun e => isBody e.1 else s.keptPulses, s.points.map keepOf, s.demand, s.sessions.map (·.grown), s.sealed⟩

/-- The state with the content of a checkpoint in place (R148). -/
def restore (s : State) (b : Body) : State :=
  let s := { s with nums := b.nums.foldl (fun (l : List (Nat × Int)) (e : Nat × Int) => insertL e.1 e.2 l) (s.nums.filter fun e => !isBody e.1), demand := b.demand }
  let s := { s with sessions := Vector.ofFn fun p => { s.sessions[p] with grown := b.sessions[p] } }
  { s with points := Vector.ofFn fun p =>
      let k := b.points[p]
      { s.points[p] with
        dmdResImport := k.dmdResImport, dmdResExport := k.dmdResExport, dmdFrom := k.dmdFrom, dmdNext := k.dmdNext, dmdImported := k.dmdImported,
        dmdExported := k.dmdExported, peakRun := k.peakRun, peakLast := k.peakLast } }

/-- Whether a plate commit is between its start and its commit group: no checkpoint write starts then (R169). -/
def platesWriting (s : State) : Bool :=
  match s.journal.openUnit with
  | some u => (match u.owner with | .plates _ => true | _ => false) && !s.journal.committed
  | none => false

/-- A checkpoint write begins into slot CKPT_SEQ mod 2, which is invalid from then on (R145, R255). -/
def ckptBegin (s : State) : State :=
  let seq := s.getU K.CKPT_SEQ
  let slot : Fin 2 := ⟨seq % 2, by omega⟩
  let body : CkptSlot := ⟨true, s.getU K.STATE_SEQ + 1, seq, s.now, some (s.capture false)⟩
  { s with store := { s.store with
      writing := some body, writeStart := s.rtc, nextDue := s.rtc + s.getU K.CKPT_INTERVAL * 1000000,
      slots := s.store.slots.set slot { s.store.slots[slot] with valid := false } } }

/-- CHECKPOINT_DUE (R145). -/
def ckptDue (s : State) : State :=
  if s.store.writing.isSome ∨ s.platesWriting = true ∨ s.serves = false then s else s.ckptBegin

/-- The checkpoint being written becomes its slot's content: the slot is valid, CKPT_SEQ and STATE_SEQ move (R145, R255, R256). -/
def ckptStored (s : State) : State :=
  match s.store.writing with
  | none => s
  | some c =>
    let slot : Fin 2 := ⟨c.seq % 2, by omega⟩
    let s := ({ s with store := { s.store with writing := none, slots := s.store.slots.set slot c } }).rangeWrote (0x6000 + 0x1000 * slot) 4096
    let s := (s.setN K.CKPT_SEQ (wrapAdd 32 c.seq 1 : Nat)).setN K.STATE_SEQ (c.stateSeq : Nat)
    (s.setN K.CKPT_TIME (c.time : Nat)).raise K.CKPT_WRITE_WORST (min ((s.rtc - s.store.writeStart) / 1000) 65535)

/-- The NVM copies of the tally counters follow their live values (R250). -/
def tallyStored (s : State) : State := { s with store := { s.store with tally := s.tallies } }

/-- CHECKPOINT_WRITTEN: the checkpoint, then the tallies' NVM copies (R145, R250). -/
def ckptWritten (s : State) : State :=
  if s.store.writing.isSome = true ∧ s.nvm.writeInhibit = false then s.ckptStored.tallyStored else s

/-- The newest valid checkpoint (R256): the greater STATE_SEQ; with equal ones slot CKPT_SEQ mod 2, which is a consistency case. -/
def newestCkpt (s : State) : Option CkptSlot × Bool :=
  let a := s.store.slots[(0 : Fin 2)]
  let b := s.store.slots[(1 : Fin 2)]
  match a.valid, b.valid with
  | true, true =>
    if a.stateSeq = b.stateSeq then (some (if s.getU K.CKPT_SEQ % 2 = 0 then a else b), true)
    else (some (if a.stateSeq < b.stateSeq then b else a), false)
  | true, false => (some a, false)
  | false, true => (some b, false)
  | false, false => (none, false)

/-- The area of the latest hold-up save. -/
def newestSave (s : State) : SaveArea :=
  let a := s.store.saves[(0 : Fin 2)]
  let b := s.store.saves[(1 : Fin 2)]
  if bit a.sections 0 && (!(bit b.sections 0) || decide (b.stateSeq < a.stateSeq)) then a else b

end State

end Sys2Proof.Machine
end

