-- ==== Sys2Proof/Machine/Sessions.lean ====
section
/-! DEFINITION. Machine/Sessions.lean: sessions, hallmarks, key choice, signing, the record ring and interrupted sessions (R265 to R289). -/

namespace Sys2Proof.Machine

open Sys2Proof

/-- The ten billing registers. -/
def tenRegs : List (Fin 10) := List.finRange 10

/-- A counter's increase over its baseline in `w` bits, saturating (Table 09.6). -/
def increase (w now base : Nat) : Nat := min (now - base) (2 ^ w - 1)

namespace State

/-! ### Baselines and live values (R267) -/

/-- The billing registers of a point as they stand. -/
def regsOf (s : State) (p : Fin 8) : Vector Nat 10 := Vector.ofFn fun i => s.getU (K.ENERGY p (i + 1))

/-- The disputed registers of a point. -/
def disputedOf (s : State) (p : Fin 8) : Vector Nat 10 := Vector.ofFn fun i => s.getU (K.DISPUTED p (i + 1))

/-- The counters of the channel block. -/
def countsOf (s : State) (p : Fin 8) : Vector ChanCounts 7 := Vector.ofFn fun c =>
  ⟨s.getU (K.OVR_TIME p (c + 1)), s.getU (K.LINK_TIME p (c + 1)), s.getU (K.OVR_COUNT p (c + 1)), s.getU (K.LINK_COUNT p (c + 1)),
    s.getU (K.REARM_COUNT p (c + 1))⟩

/-- The increases of the channel block since a descriptor. -/
def incsOf (s : State) (p : Fin 8) (d : Descriptor) : Vector ChanCounts 7 :=
  let now := s.countsOf p
  Vector.ofFn fun c =>
    ⟨increase 32 now[c].ovrTime d.chans[c].ovrTime, increase 32 now[c].linkTime d.chans[c].linkTime,
      increase 16 now[c].ovrCount d.chans[c].ovrCount, increase 16 now[c].linkCount d.chans[c].linkCount,
      increase 16 now[c].rearm d.chans[c].rearm⟩

/-! ### Opening (R266 to R268) -/

/-- Sessions OPENING, OPEN or CLOSING. -/
def sessionCount (s : State) : Nat := (allPoints.filter fun p => s.getN (K.SESSION_STATE p) ≠ 0).length

/-- RING_PENDING (R286). -/
def ringPending (s : State) : Nat :=
  let a := s.getU K.RING_ACK
  if a = 0xFFFFFFFF then min s.sign.stored 160 else (s.getU K.RING_NEWEST + 2 ^ 32 - a) % 2 ^ 32

/-- Whether the ring guard permits an OPEN (R286). -/
def ringGuardOk (s : State) : Bool := s.getN K.RING_GUARD = 0 || decide (s.ringPending + s.sessionCount + 1 ≤ 160)

/-- The conditions of R266. -/
def openOk (s : State) (p : Fin 8) : Bool :=
  decide (s.getN (K.SESSION_STATE p) = 0) && decide (kindOf s.points[p].app.cfg ≠ 0)
    && decide (s.mode = Mode.metering ∨ s.mode = Mode.service) && s.ringGuardOk

/-- Whether a plate commit runs on a point, which holds OPEN (R266). -/
def commitRuns (s : State) (p : Fin 8) : Bool :=
  decide (s.getN K.CAL_STATE = 3) && (match s.cal with | some r => decide (r.point = p) | none => false)

/-- OPEN accepted: OPENING until the next boundary (R267). -/
def acceptOpen (s : State) (p : Fin 8) : State :=
  (s.put (K.SESSION_STATE p) 1).updSession p fun x =>
    { x with desc := none, committed := false, openSkip := s.points[p].closing.isSome, closing := false, closeSkip := false, close := none
             queued := false, closed := false }

/-- B_o: the session's baselines and its descriptor unit (R267). -/
def takeOpen (s : State) (p : Fin 8) (b : Nat) : State :=
  let no := wrapAdd 32 (s.getU (K.SESSION_NO p)) 1
  let d : Descriptor :=
    ⟨no, b, s.stamp b, s.getU (K.LEGAL_PAIR p), s.getU (K.PLATE_GEN p), s.regsOf p, s.disputedOf p, s.countsOf p,
      s.getU (K.FALLBACK_STEPS p), s.getU (K.COMP_CLIP_STEPS p), s.getB (K.HOST_DATA p)⟩
  let s := (s.setQ b (K.OPEN_INDEX p) (b : Nat)).setQ b (K.OPEN_TIME p) (s.stamp b : Nat)
  let s := (s.setQ b (K.SESSION_TAGS p) (if s.taut then 2 else 0)).setQ b (K.SESSION_FLAGS p) 0
  let s := forEach tenRegs (fun i s => s.setQ b (K.SESSION_DELTA p (i + 1)) 0) s
  let s := s.updSession p fun x => { x with desc := some d, grown := { Grown.zero with no := no } }
  s.queueUnit ⟨[⟨K.SESSION_NO p, .num (no : Nat)⟩], 496, .sessionOpen p⟩

/-! ### A booked step of a session (R267, R269 to R271) -/

/-- FLAGS that the counters and the steps give (Table 09.4). -/
def stepFlags (s : State) (p : Fin 8) (d : Descriptor) (g : Grown) : Nat :=
  let incs := s.incsOf p d
  let any (f : ChanCounts → Nat) : Bool := allChans.any fun c => decide (f incs[c] ≠ 0)
  natOfBool (g.imported && g.exported) + 2 * natOfBool (decide (s.getU (K.FALLBACK_STEPS p) ≠ d.fallback))
    + 4 * natOfBool (decide (s.getU (K.COMP_CLIP_STEPS p) ≠ d.clip)) + 8 * natOfBool (any fun c => c.ovrTime + c.ovrCount)
    + 16 * natOfBool (any fun c => c.linkTime + c.linkCount)

/-- A netting step of the session is booked: power, tags, flags, cable temperature, SESSION_DELTA. -/
def sessionStep (s : State) (p : Fin 8) (r : StepResult) : State :=
  match s.sessions[p].desc, s.sessions[p].close with
  | some d, none =>
    if d.openIdx ≤ r.lastIdx then
      let n := r.endIdx
      let v := if d.pair = 1 then r.comp else r.net
      let pw := if r.dur = 0 then 0 else F32.ofRat (v.natAbs * 288 : Nat) (2 ^ 32 * r.dur)
      let service := s.modeAt r.startIdx = Mode.service ∨ s.modeAt r.lastIdx = Mode.service
      let cable : Option Int :=
        if kindOf s.points[p].app.cfg = 4 ∧ s.getN (K.CABLE_R20 p) ≠ 0 then some (s.getN (K.CABLE_T_USED p)) else none
      let s := s.updGrown p fun g => { g with
        maxStepP := F32.maxOf g.maxStepP pw
        tMax := (match cable, g.tMax with | some t, some m => some (max t m) | some t, none => some t | none, m => m)
        imported := g.imported || decide (0 < v), exported := g.exported || decide (v < 0) }
      let s := s.addTags n p (natOfBool (decide service) + 2 * natOfBool s.taut + 4 * natOfBool r.disputed)
      let s := s.addFlags n p (s.stepFlags p d s.sessions[p].grown)
      forEach tenRegs (fun i s => s.setQ n (K.SESSION_DELTA p (i + 1)) ((s.getU (K.ENERGY p (i + 1)) - d.regs[i] : Nat) : Int)) s
    else s
  | _, _ => s

/-! ### Closing (R270 to R272) -/

/-- The close data of a session as the entries stand (R271): kind 0 at B_c, kind 1 at RECALL. -/
def closeData (s : State) (p : Fin 8) (d : Descriptor) (kind idx recovery : Nat) (stateTime lossTime unrecorded : Nat) : CloseData :=
  let now := s.disputedOf p
  let marks := s.getU K.TAMPER_MARKS
  let g := { s.sessions[p].grown with sources := s.sessions[p].grown.sources ||| marks }
  { seq := 0
    kind := kind
    reissueOf := 0xFFFFFFFF
    closeIdx := idx
    closeTime := s.stamp idx
    utc := s.getN K.UTC_OFFSET
    tags := s.getU (K.SESSION_TAGS p) ||| (2 * natOfBool s.taut + 8 * natOfBool (!s.sealed))
    flags := s.getU (K.SESSION_FLAGS p) ||| s.stepFlags p d g ||| (32 * natOfBool (decide (g.sources ≠ 0)))
    recovery := recovery
    plateGen := s.getU (K.PLATE_GEN p)
    regs := if recovery = 3 then none else some (s.regsOf p)
    disputed := Vector.ofFn fun i => now[i] - d.disputed[i]
    incs := s.incsOf p d
    ports := Vector.ofFn fun c => s.getU (K.PHYS_PORT p (c + 1))
    fallback := increase 32 (s.getU (K.FALLBACK_STEPS p)) d.fallback
    clip := increase 32 (s.getU (K.COMP_CLIP_STEPS p)) d.clip
    grown := g
    stateTime := stateTime
    lossTime := lossTime
    unrecorded := unrecorded }

/-- B_c: the close values are taken (R271). -/
def takeClose (s : State) (p : Fin 8) (b : Nat) : State :=
  match s.sessions[p].desc with
  | some d =>
    let c := s.closeData p d 0 b 0xFF 0 0 0
    let s := (s.setQ b (K.SESSION_TAGS p) (c.tags : Nat)).setQ b (K.SESSION_FLAGS p) (c.flags : Nat)
    s.updSession p fun x => { x with close := some c }
  | none => s

/-- Whether a point may still end its session at index `n` (R271): its boundary `n` waits for the netting unit, or it has not released `n`. -/
def mayJoin (s : State) (q : Fin 8) (n : Nat) : Bool :=
  let x := s.sessions[q]
  x.closing && x.desc.isSome && x.close.isNone && decide (kindOf s.points[q].app.cfg ≠ 0)
    && ((match s.points[q].closing with | some cl => decide (cl.bound.idx = n) | none => false) || decide (s.points[q].chans[(0 : Fin 7)].n < n))

/-- The points whose close data waits for its unit. -/
def closeReady (s : State) : List (Fin 8) :=
  allPoints.filter fun p => let x := s.sessions[p]; x.close.isSome && x.committed && !x.queued

/-- Reserve storage sequences for the closes of a list of points in ascending order, and queue their unit (R271, R272). -/
def queueClose (s : State) (ps : List (Fin 8)) : State :=
  if ps = [] then s else
  let s := forEach ps (fun p s =>
    let l := s.log .ring
    let s := s.setLog .ring { l with total := wrapAdd 32 l.total 1 }
    s.updSession p fun x => { x with queued := true, close := x.close.map fun (c : CloseData) => { c with seq := l.total } }) s
  s.queueUnit ⟨[], 248 * ps.length, .sessionClose ps⟩

/-- The index at which a point's session ended. -/
def closeIdxOf (s : State) (p : Fin 8) : Nat :=
  match s.sessions[p].close with | some c => c.closeIdx | none => 0

/-- Start the close of every index whose last point has booked its step, in boundary order (R271, R272). -/
def closeLaunch (s : State) : State :=
  let ready := if s.mode = .recalling then [] else s.closeReady.insertionSort fun p q => s.closeIdxOf p ≤ s.closeIdxOf q
  forEach ready (fun p s =>
    if s.sessions[p].queued then s else
    let n := s.closeIdxOf p
    if allPoints.any fun q => s.mayJoin q n then s else s.queueClose (ready.filter fun (q : Fin 8) => decide (s.closeIdxOf q = n))) s

/-- The session's part of a netting step that ends at boundary `n` (R267, R271). -/
def sessionBoundary (s : State) (p : Fin 8) (n : Nat) : State :=
  let x := s.sessions[p]
  let s :=
    if s.getN (K.SESSION_STATE p) = 1 ∧ x.desc = none then
      (if x.openSkip then s.updSession p fun x => { x with openSkip := false } else s.takeOpen p n)
    else s
  let s :=
    if x.closing = true ∧ x.desc.isSome = true ∧ x.close = none then
      (if x.closeSkip then s.updSession p fun x => { x with closeSkip := false } else s.takeClose p n)
    else if x.closing = true ∧ x.closeSkip = true then s.updSession p fun x => { x with closeSkip := false }
    else s
  s.closeLaunch

/-- CLOSE (R270): none where it is refused. -/
def acceptClose (s : State) (p : Fin 8) : Option State :=
  let x := s.sessions[p]
  let found := s.points[p].closing.isSome
  if s.getN (K.SESSION_STATE p) = 2 then
    some ((s.put (K.SESSION_STATE p) 3).updSession p fun x => { x with closing := true, closeSkip := found })
  else if s.getN (K.SESSION_STATE p) = 1 then
    if x.closing then none
    else if x.desc.isSome || (found && !x.openSkip) then
      some (s.updSession p fun x => { x with closing := true, closeSkip := found })
    else some ((s.put (K.SESSION_STATE p) 0).updSession p fun x => { x with openSkip := false })
  else none

/-- The opening unit commits: OPEN, or CLOSING where CLOSE came first (R267, R270). -/
def openCommitted (s : State) (p : Fin 8) : State :=
  match s.sessions[p].desc with
  | some d =>
    let s := s.put (K.SESSION_STATE p) (if s.sessions[p].closing then 3 else 2)
    (s.updSession p fun x => { x with committed := true, lastOpen := d.openIdx, lastTime := d.openTime }).closeLaunch
  | none => s

/-- The CLOSING unit commits: its records wait for the signing engine (R271, R272). -/
def closeCommitted (s : State) (ps : List (Fin 8)) : State :=
  let s := forEach ps (fun p s => s.updSession p fun x => { x with closed := true }) s
  { s with sign := { s.sign with queue := s.sign.queue ++ ps } }

/-- The final unit commits: the session is over (R271, step 4). -/
def doneCommitted (s : State) (p : Fin 8) : State :=
  (s.put (K.SESSION_STATE p) 0).updSession p fun x =>
    { x with desc := none, committed := false, closing := false, closeSkip := false, openSkip := false, close := none, queued := false, closed := false }

/-! ### Building a hallmark (R274) -/

end State

/-- A register block, each of 64 bits. -/
def regBytes (r : Vector Nat 10) : List Byte := r.toList.flatMap fun v => leBytes 8 v

/-- A channel block (Table 09.6). -/
def chanBytes (i : ChanCounts) (qual port : Nat) : List Byte :=
  leBytes 4 i.ovrTime ++ leBytes 4 i.linkTime ++ leBytes 2 i.ovrCount ++ leBytes 2 i.linkCount ++ leBytes 2 i.rearm ++ leBytes 2 qual
    ++ leBytes 1 port ++ [0]

namespace State

/-- Bytes 0 to 821 of a hallmark (Table 09.2). -/
def hallmark (s : State) (p : Fin 8) (d : Descriptor) (c : CloseData) (key : KeyChoice) (prev : List Byte) : List Byte :=
  let keyId := match key with
    | .production => s.getU K.KEY_ID | .test => s.getU K.TEST_KEY_ID | .unsigned _ => 0
  let signState := match key with | .unsigned n => n | _ => 0
  leBytes 2 1 ++ leBytes 1 c.kind ++ leBytes 1 p ++ s.getB K.SERIAL ++ leBytes 4 keyId ++ leBytes 4 c.seq ++ leBytes 4 d.no ++ leBytes 4 c.reissueOf
    ++ leBytes 6 d.openIdx ++ leBytes 10 d.openTime ++ leBytes 6 c.closeIdx ++ leBytes 10 c.closeTime ++ leBytes 2 (ofSigned 16 c.utc)
    ++ leBytes 1 d.pair ++ leBytes 1 (c.tags ||| (16 * natOfBool (decide (signState ≠ 0)))) ++ leBytes 2 c.flags ++ leBytes 1 signState
    ++ leBytes 1 c.recovery ++ leBytes 4 d.plateGen ++ leBytes 4 c.plateGen ++ regBytes d.regs
    ++ (match c.regs with | some r => regBytes r | none => List.replicate 80 0xFF) ++ regBytes c.disputed ++ leBytes 4 c.grown.maxStepP
    ++ leBytes 4 c.grown.eventMask ++ leBytes 2 c.grown.eventStarts ++ [0, 0]
    ++ (allChans.flatMap fun (k : Fin 7) => chanBytes c.incs[k] c.grown.quals[k] c.ports[k])
    ++ leBytes 4 c.fallback ++ leBytes 4 c.clip ++ leBytes 4 (ofSigned 32 (c.grown.tMax.getD 0)) ++ leBytes 10 c.stateTime
    ++ leBytes 10 c.lossTime ++ leBytes 8 c.unrecorded ++ leBytes 4 c.grown.ref ++ leBytes 2 c.grown.sources
    ++ s.getB K.STATUTE_DIGEST ++ prev ++ leBytes 2 d.host.length ++ d.host ++ List.replicate (256 - d.host.length) 0

/-! ### Keys and signing (R275 to R281) -/

/-- The key choice of Table 09.7. -/
def keyChoice (s : State) (p : Fin 8) : KeyChoice :=
  let test := (match s.sessions[p].close with | some c => bit c.tags 1 | none => false) || s.taut
  let orNone (k : Option Nat) (c : KeyChoice) : KeyChoice := if k.isSome then c else .unsigned 1
  if s.sign.destroyed then .unsigned 2
  else if s.mode = Mode.lockdown then .unsigned 3
  else if test || !s.sealed then orNone s.sign.testKey .test
  else orNone s.sign.prodKey .production

/-- A private key of a free value, in [1, n − 1]. -/
def privOf (f : Nat) : Nat := Config.privateKey f % (P256.n - 1) + 1

/-- KEY_ID of a public key (R276): bit 31 set for the test key. -/
def keyIdOf (pub : List Byte) (test : Bool) : Nat := leNat ((sha256 pub).take 4) % 2 ^ 31 + (if test then 2 ^ 31 else 0)

/-- The 64 bytes of a public key (R276). -/
def pubBytes (d : Nat) : List Byte := leBytes 32 (P256.pubOf d).1 ++ leBytes 32 (P256.pubOf d).2

/-- The test key pair is generated at the first RECALL after manufacture (R275). -/
def makeTestKey (s : State) : State :=
  if s.sign.testMade ∨ s.sign.destroyed = true then s else
  let f := s.fresh
  let d := privOf f.1
  let s := { f.2 with sign := { f.2.sign with testKey := some d, testMade := true } }
  let s := (s.setB K.TEST_PUBKEY (pubBytes d)).setN K.TEST_KEY_ID (keyIdOf (pubBytes d) true : Nat)
  if s.getN K.KEY_STATE = (0 : Int) then s.setN K.KEY_STATE 1 else s

/-- A ZERO response overwrites both copies of both private keys (R281). -/
def destroyKeys (s : State) : State :=
  { s.setN K.KEY_STATE 3 with sign := { s.sign with testKey := none, prodKey := none, destroyed := true } }

/-- SIGN_START: the first waiting record reaches the engine, and the key is chosen the first time (R272, R277, R278). -/
def signStart (s : State) : State :=
  match s.sign.queue, s.sign.run with
  | p :: _, none =>
    if s.serves = true ∧ s.getN K.RNG_STATE = 0 ∧ (s.jobs.all fun j => decide (j.log ≠ LogKind.ring)) = true then
      { s with sign := { s.sign with run := some ⟨p, s.rtc, none, 0, []⟩ }, twins := s.twins ++ [.signing (s.keyChoice p)] }
    else s
  | _, _ => s

/-- A record goes to its copy slots with its signature, or with zeros when unsigned (R271 step 3, R277). -/
def storeHallmark (s : State) (p : Fin 8) (seq : Nat) (body sig : List Byte) : State :=
  let s := { s with sign := { s.sign with
    run := (match s.sign.run with | some r => if r.point = p then none else some r | none => none), queue := s.sign.queue.filter (· ≠ p) } }
  s.queueRecord ⟨.ring, body ++ sig, some seq, 0, some p⟩

/-- PREV_DIGEST (R285): the digest of the latest record stored before the one being built; a record on its way to its copy slots is stored first. -/
def prevDigest (s : State) : List Byte :=
  match (s.jobs.filter fun j => decide (j.log = LogKind.ring)).getLast? with
  | some j => sha256 j.bytes
  | none => s.sign.chain

/-- Store a record unsigned (R277). -/
def storeUnsigned (s : State) (p : Fin 8) (state : Nat) : State :=
  match s.sessions[p].desc, s.sessions[p].close with
  | some d, some c =>
    let b := s.hallmark p d c (.unsigned state) s.prevDigest
    (s.addSat 32 K.UNSIGNED_COUNT 1).storeHallmark p c.seq b (List.replicate 64 0)
  | _, _ => s

/-- The second key choice (R278): on agreement the hallmark is built and the engine signs, or the record is stored unsigned. -/
def signTwin (s : State) (first : KeyChoice) (fault : Bool) : State :=
  match s.sign.run with
  | some r =>
    if fault ∨ s.keyChoice r.point ≠ first then (s.source 13 0).storeUnsigned r.point 4
    else
      match first, s.sessions[r.point].desc, s.sessions[r.point].close with
      | .unsigned n, _, _ => s.storeUnsigned r.point n
      | k, some d, some c =>
        let priv := match k with | .test => s.sign.testKey.getD 0 | _ => s.sign.prodKey.getD 0
        let b := s.hallmark r.point d c k s.prevDigest
        { s with sign := { s.sign with run := some { r with key := some k, priv := priv, body := b } } }
      | _, _, _ => s
  | none => s

/-- SIGNATURE_DONE (R279): ECDSA over SHA-256 of bytes 0 to 821, with a nonce in [1, n − 1]. -/
def signatureDone (s : State) : State :=
  match s.sign.run with
  | some r =>
    match r.key, s.sessions[r.point].close with
    | some _, some c =>
      let f := s.fresh
      let k := Config.nonce f.1 % (P256.n - 1) + 1
      let sig := P256.sign r.priv k (sha256Nat r.body)
      let s := f.2.addWrap 32 K.SIGN_COUNT 1
      let s := s.raise K.SIGN_WORST (min ((s.rtc - r.started) / 1000) 65535)
      s.storeHallmark r.point c.seq r.body (leBytes 32 sig.1 ++ leBytes 32 sig.2)
    | _, _ => s
  | none => s

/-- SIGN_WAIT_TIMEOUT: a record that has waited 1 s for a healthy random source is stored unsigned (R280). -/
def signTimeout (s : State) (p : Fin 8) : State :=
  if p ∈ s.sign.queue ∧ s.getN K.RNG_STATE ≠ 0 ∧ (match s.sign.run with | some r => decide (r.point ≠ p) | none => true) = true then
    s.storeUnsigned p 5
  else s

/-- RNG_FAILURE: a health test fails (0 repetition count, 1 adaptive proportion, 2 start-up), and the start-up test runs again (R280). -/
def rngFailure (s : State) (test : Nat) : State :=
  ((s.setN K.RNG_STATE 2).addSat 32 K.RNG_FAIL 1).health 14 0xFF test

/-! ### The ring (R285, R286) -/

/-- The first copy of a hallmark overwrites an unarchived record (R286). -/
def ringOverwrite (s : State) (q : Nat) : State :=
  let l := s.log .ring
  let pos := 2 * (q % 160)
  let a := s.getU K.RING_ACK
  let lost (x : Option CopySlot) : Bool :=
    match x with
    | some c => c.good && decide (c.seq ≠ q) && (decide (a = 0xFFFFFFFF) || decide (0 < (c.seq + 2 ^ 32 - a) % 2 ^ 32 ∧ (c.seq + 2 ^ 32 - a) % 2 ^ 32 < 2 ^ 31))
    | none => false
  if lost (lookupL l.slots pos) || lost (lookupL l.slots (pos + 1)) then s.addSat 32 K.RING_OVERWRITTEN 1 else s

/-- The final unit of a stored record (R271, step 4). -/
def queueFinal (s : State) (p : Fin 8) (seq : Nat) (digest : List Byte) : State :=
  s.queueUnit ⟨[⟨K.LAST_SEQ p, .num (seq : Nat)⟩, ⟨K.LAST_DIGEST, .bytes digest⟩], 44, .sessionDone p⟩

/-- Both copies of a hallmark are written: it is the newest record (R271, R285). -/
def recordStored (s : State) (j : RecJob) : State :=
  match j.point, j.seq with
  | some p, some q =>
    let dg := sha256 j.bytes
    let s := s.setN K.RING_NEWEST (q : Nat)
    let s := { s with sign := { s.sign with chain := dg, stored := s.sign.stored + 1 } }
    s.queueFinal p q dg
  | _, _ => s

/-- The oldest record still held: the least distance behind RING_NEWEST among the valid copies. -/
def ringOldest (s : State) : Nat :=
  let nw := s.getU K.RING_NEWEST
  let far := (s.log .ring).slots.foldl (fun m (e : Nat × CopySlot) => if e.2.good then max m ((nw + 2 ^ 32 - e.2.seq) % 2 ^ 32 % 2 ^ 31) else m) 0
  (nw + 2 ^ 32 - min far 159) % 2 ^ 32

/-- Whether RING_ACK accepts a value (R286). -/
def ringAckOk (s : State) (v : Nat) : Bool :=
  let a := s.getU K.RING_ACK
  let nw := s.getU K.RING_NEWEST
  if nw = 0xFFFFFFFF ∨ v = 0xFFFFFFFF then false
  else
    let low := if a = 0xFFFFFFFF then s.ringOldest else a
    decide ((v + 2 ^ 32 - low) % 2 ^ 32 ≤ (nw + 2 ^ 32 - low) % 2 ^ 32)

/-! ### Power loss and RECALL (R268, R282 to R284) -/

/-- What a power loss leaves of the sessions: an uncommitted descriptor is gone, close data whose unit did not commit is gone with its reserved
sequence, nothing waits for a signature. -/
def sessionsLost (s : State) : State :=
  let s := forEach allPoints (fun p s =>
    let x := s.sessions[p]
    let s := if x.queued && !x.closed then
        let l := s.log .ring
        s.setLog .ring { l with total := (l.total + 2 ^ 32 - 1) % 2 ^ 32 }
      else s
    s.updSession p fun x =>
      let x := { x with openSkip := false, closeSkip := false, closing := false, held := [] }
      let x := if x.closed then x else { x with close := none, queued := false }
      if x.committed then x else { x with desc := none }) s
  { s with sign := { s.sign with queue := [], run := none } }

/-- At RECALL the gathered fields belong to the open session, or it has none yet in the restored state (R145, R283). -/
def sessionRestore (s : State) (p : Fin 8) : State :=
  let x := s.sessions[p]
  let s := (s.setN (K.OPEN_INDEX p) (x.lastOpen : Nat)).setN (K.OPEN_TIME p) (x.lastTime : Nat)
  match x.desc with
  | some d =>
    let s := s.setN (K.SESSION_STATE p) 3
    if x.grown.no = d.no then s
    else
      let s := (s.setN (K.SESSION_TAGS p) 0).setN (K.SESSION_FLAGS p) 0
      s.updGrown p fun _ => { Grown.zero with no := d.no }
  | none => s.setN (K.SESSION_STATE p) 0

/-- An open session is closed as interrupted (R283), with the sources that alarmed while DORMANT or in this RECALL and their first record. -/
def interrupt (s : State) (p : Fin 8) (stateTime lossTime unrecorded sources ref : Nat) : State :=
  match s.sessions[p].desc with
  | some d =>
    let s := s.updGrown p fun g => { g with sources := g.sources ||| sources, ref := if g.ref = 0xFFFFFFFF then ref else g.ref }
    let rc := s.getU K.RECOVERY
    let c := s.closeData p d 1 (s.getU (K.NET_INDEX p)) rc stateTime lossTime (if rc = 3 then 2 ^ 64 - 1 else unrecorded)
    s.updSession p fun x => { x with close := some c, closing := true }
  | none => s

/-- A CLOSING session at RECALL (R284): its record is found, or it is built again under a new sequence. -/
def resume (s : State) (p : Fin 8) : State :=
  match s.sessions[p].close with
  | some c =>
    match s.recordOf .ring c.seq with
    | some b =>
      let dg := sha256 (b.take 886)
      let nw := s.getU K.RING_NEWEST
      let newer := decide (nw = 0xFFFFFFFF ∨ (0 < (c.seq + 2 ^ 32 - nw) % 2 ^ 32 ∧ (c.seq + 2 ^ 32 - nw) % 2 ^ 32 < 2 ^ 31))
      let s := if newer then
          { s.setN K.RING_NEWEST (c.seq : Nat) with sign := { s.sign with chain := dg, stored := s.sign.stored + 1 } }
        else s
      s.queueFinal p c.seq dg
    | none =>
      let l := s.log .ring
      let s := s.setLog .ring { l with total := wrapAdd 32 l.total 1 }
      let s := s.updSession p fun x => { x with close := some { c with seq := l.total, reissueOf := c.seq } }
      { s with sign := { s.sign with queue := s.sign.queue ++ [p] } }
  | none => s

/-- Every open session is built as interrupted from the restored state (R282, R283). -/
def interruptAll (s : State) (stateTime lossTime sources ref : Nat) : State :=
  let open' := allPoints.filter fun p => s.sessions[p].desc.isSome && !s.sessions[p].closed
  forEach open' (fun p s => s.interrupt p stateTime lossTime (s.getU (K.UNRECORDED_MAX p)) sources ref) s

/-- The sessions' part of ORDINARY_RESOLVED: CLOSING sessions are resumed, interrupted ones get their CLOSING unit (R282 to R284). -/
def recallSessions (s : State) : State :=
  let closing := allPoints.filter fun p => s.sessions[p].closed
  let s := forEach closing (fun p s => s.resume p) s
  s.queueClose s.closeReady

end State

end Sys2Proof.Machine
end

