-- ==== Sys2Proof/Machine/Tamper.lean ====
section
/-! DEFINITION. Machine/Tamper.lean: decisions of the tamper arbiter, their responses and records, deferred responses, clears and fuses
(R323 to R340). -/

namespace Sys2Proof.Machine

open Sys2Proof

/-- A tamper record (Table 11.4) but for its NUMBER. -/
def tamperBytes (source kind cls applied flags point time index decision suppressed value : Nat) : List Byte :=
  leBytes 4 0 ++ leBytes 1 source ++ leBytes 1 kind ++ leBytes 1 cls ++ leBytes 1 applied ++ leBytes 1 flags ++ leBytes 1 point
    ++ leBytes 10 time ++ leBytes 6 index ++ leBytes 2 decision ++ leBytes 2 value ++ leBytes 2 (min suppressed 65535)

/-- A tamper record as a job of the log. -/
def tamperJob (b : List Byte) : RecJob := ⟨.tamper, b, none, 0, none⟩

namespace State

/-- The NUMBER the next tamper record will carry: the log's total and the records that wait before it (R338). -/
def nextTamper (s : State) (waiting : List RecJob) : Nat :=
  ((s.log .tamper).total + ((s.jobs ++ waiting).filter fun j => decide (j.log = LogKind.tamper) && j.seq.isNone).length) % 2 ^ 32

/-- The most severe class over a set (R324). -/
def selectClass (s : State) (set : List Alarmed) : Nat := set.foldl (fun m a => max m (s.srcClass a.source)) 0

/-- FLAGS of a record written now, but for DORMANT, DEFERRED and TWIN (Table 11.4). -/
def tamperFlags (s : State) : Nat :=
  8 * natOfBool (s.mode = .service) + 16 * natOfBool s.taut + 32 * natOfBool (s.decided = .lockdown)

/-- The alarms that wait, as a set (R324); with `dormant` also those of the time without VDD33 (R332). -/
def alarmSet (s : State) (dormant : Bool) : List Alarmed :=
  (allSources.filter fun n => !(s.srcFused n) && (decide ((s.src n).waiting ≠ 0) || (dormant && decide ((s.src n).dormant ≠ 0)))).map fun n =>
    let x := s.src n
    if dormant && decide (x.dormant ≠ 0) then ⟨n, x.dormant + x.waiting, x.waitTime, 0xFF, 0, x.first, x.latched⟩
    else ⟨n, x.waiting, x.waitTime, x.point, x.value, none, false⟩

/-- A decision takes its set: the alarms in it wait no longer. -/
def takeSet (s : State) (set : List Alarmed) : State :=
  forEach set (fun a s => s.updSrc a.source fun x => { x with waiting := 0 }) s

/-- The ALARM record of one source of a decision, or its suppression within 1 s of the source's previous one (R333, R339). -/
def alarmRecord (s : State) (a : Alarmed) (c flags time idx num : Nat) : State × List RecJob :=
  let x := s.src a.source
  let stamp := a.first.getD (stampOf time)
  let near := match x.lastRecord with
    | some l => a.first.isNone && decide (a.time < l + 1000000000)
    | none => false
  if near then (s.updSrc a.source fun x => { x with suppressed := x.suppressed + a.count }, [])
  else
    let f := flags + natOfBool a.first.isSome + 2 * natOfBool (a.first.isSome && a.latched)
    let b := tamperBytes a.source 0 (s.srcClass a.source) c f a.point stamp (if a.first.isSome then 2 ^ 48 - 1 else idx) num
      (x.suppressed + (a.count - 1)) a.value
    (s.updSrc a.source fun x => { x with suppressed := 0, lastRecord := some (nsOfStamp stamp) }, [tamperJob b])

/-- The ALARM records of a set in ascending source number. -/
def alarmRecords (s : State) (set : List Alarmed) (c flags time idx num : Nat) : State × List RecJob :=
  set.foldl (fun (acc : State × List RecJob) a =>
    let r := acc.1.alarmRecord a c flags time idx num
    (r.1, acc.2 ++ r.2)) (s, [])

/-- The response of class `c` on the set `mask` (Table 11.2): keys, LOCKDOWN, marks. -/
def respond (s : State) (c mask : Nat) : State :=
  let s := if 3 ≤ c then s.destroyKeys else s
  let s := if 2 ≤ c then s.toLockdown true else s
  if 1 ≤ c then
    let s := (s.put K.TAMPER_MARKS ((s.getU K.TAMPER_MARKS ||| mask : Nat) : Int)).keepMarks
    forEach allSources (fun n s => s.syncSrc n) s
  else s

/-- Apply a decision with its second selection (R324 to R327): the response, and the records of the set. -/
def applyDecision (s : State) (d : Decision) (second : Nat) : State × List RecJob × Nat × Nat :=
  let twin := decide (second ≠ d.selected)
  let c := max (max d.selected second) (if twin then s.srcClass 13 else 0)
  let mask := sourceMask (d.set.map (·.source)) ||| (if twin then 2 ^ 13 else 0)
  let s := if twin then ((s.setSticky 13).put (K.LAST_ALARM 14) (stampOf d.time : Nat)).addSat 32 K.TWIN_COUNT 1 else s
  let pre := s.tamperFlags
  let s := s.respond c mask
  let num := s.getU K.DECISION_COUNT % 65536
  let s := s.addWrap 32 K.DECISION_COUNT 1
  let flags := pre % 32 + 32 * natOfBool (s.decided = .lockdown) + 4 * natOfBool twin
  let r := s.alarmRecords d.set c flags d.time d.idx num
  let dormant := d.set.any fun a => a.first.isSome
  let latched := d.set.any fun a => a.first.isSome && a.latched
  let resp := if 1 < d.set.length ∨ twin = true ∨ dormant = true then
      [tamperJob (tamperBytes 0xFF 1 c c (flags + natOfBool dormant + 2 * natOfBool latched) 0xFF (stampOf d.time) d.idx num 0 mask)]
    else []
  (r.1, r.2 ++ resp, c, mask)

/-- TAMPER_DECISION: a decision begins over every pending alarm, with its first selection (R324, R326). -/
def beginDecision (s : State) : State :=
  let set := s.alarmSet false
  if set = [] ∨ s.tamper.run.isSome = true ∨ s.mainOn = false ∨ (s.mode = .recalling ∧ bit s.startup.steps 6 = false) then s
  else
    let s := s.takeSet set
    { s with tamper := { s.tamper with run := some ⟨set, s.selectClass set, s.rtc, s.index⟩ }, twins := s.twins ++ [.decision] }

/-- Whether a twin decision is that of SEAL. -/
def isSealTwin : TwinKind → Bool
  | .sealing _ _ => true
  | _ => false

/-- Whether a journal unit belongs to the statute page (R243). -/
def isStatuteUnit (u : JUnit) : Bool := match u.owner with | .statute _ => true | _ => false

/-- Whether the sealing sequence runs, from step 0 of Table 12.4 on (MODE_FLAGS SEALING). -/
def sealing (s : State) : Bool := decide (s.svc.sealStep ≠ .none) || s.twins.any isSealTwin

/-- The sealing sequence ends before its fuse (R355): statute units that wait are not written, and a SEAL not yet answered is refused. -/
def abortSeal (s : State) (reason : Nat) : State :=
  if s.svc.sealHistory = true ∨ s.sealing = false then s else
  let due := s.svc.exitDue
  let s1 := { s.setN K.SEAL_REASON (reason : Nat) with
    svc := { s.svc with sealStep := .none, exitDue := false }, attended := s.attended && !due, twins := s.twins.filter fun t => !(isSealTwin t)
    journal := { s.journal with waiting := s.journal.waiting.filter fun u => !(isStatuteUnit u) } }
  forEach s.twins (fun t s => match t with | .sealing h _ => s.replyWrite h 0x1022 0 .wrongState | _ => s) s1

/-- The second selection of the running decision: the response applies, its records are written, running sessions take its sources (R323 to
R327, R340). `fault`: the class a faulty evaluation selects. -/
def tamperTwin (s : State) (fault : Option Nat) : State :=
  match s.tamper.run with
  | some d =>
    let second := match fault with | some c => c % 4 | none => s.selectClass d.set
    let s := { s with tamper := { s.tamper with run := none } }
    let ref := s.nextTamper []
    let r := s.applyDecision d second
    let s := r.1
    let s := if 2 ≤ r.2.2.1 then s.abortSeal 9 else s
    let s := s.sessionTamper r.2.2.2 (if (r.2.1.any fun j => decide ((j.bytes.getD 5 0) = 0)) then ref else 0xFFFFFFFF)
    forEach r.2.1 (fun j s => s.queueRecord j) s
  | none => s

/-- The deferred decision of RECALL (R332, R333): one decision over what alarmed while VDD33 was absent and what alarmed so far in RECALL. Its
records wait for the ordinary region. -/
def deferredDecision (s : State) (fault : Option Nat) : State :=
  let set := s.alarmSet true
  if set = [] then { s.setN K.DEFERRED_LAST 0 with tamper := { s.tamper with deferredSet := 0, deferredRef := 0xFFFFFFFF } } else
  let s := s.takeSet set
  let s := forEach set (fun a s =>
    let late := (s.src a.source).late
    let s := s.addSat 32 (K.ALARM_COUNT (a.source + 1)) late
    match a.first with
    | some t => if late = 0 then s else s.put (K.LAST_ALARM (a.source + 1)) (t : Nat)
    | none => s) s
  let sel := s.selectClass set
  let second := match fault with | some c => c % 4 | none => sel
  let ref := s.nextTamper []
  let r := s.applyDecision ⟨set, sel, s.rtc, s.index⟩ second
  let s := r.1
  let s := if set.any fun a => a.first.isSome then s.setN K.DEFERRED_LAST ((r.2.2.1 * 65536 + r.2.2.2 : Nat) : Int) else s.setN K.DEFERRED_LAST 0
  { s with tamper := { s.tamper with deferred := r.2.1, deferredSet := r.2.2.2, deferredRef := ref } }

/-- Steps 5 and 6 of R332: the records are written, and the latch, the FIRST times and the DORMANT counts are cleared. -/
def writeDeferred (s : State) : State :=
  let s := forEach s.tamper.deferred (fun j s => s.queueRecord j) s
  let s := forEach allSources (fun n s => (s.updSrc n fun x => { x with first := none, dormant := 0, late := 0, latched := false }).syncSrc n) s
  { s with tamper := { s.tamper with deferred := [] } }

/-- A record of a clear or a fuse (Table 11.4). -/
def clearRecord (s : State) (source kind value : Nat) : State :=
  s.queueRecord (tamperJob (tamperBytes source kind 0xFF 0xFF s.tamperFlags 0xFF s.now s.index 0xFFFF 0 value))

/-- CLEAR_MARKS accepted (R336). -/
def clearMarks (s : State) : State :=
  let was := s.getU K.TAMPER_MARKS
  let s := (s.put K.TAMPER_MARKS 0).keepMarks
  (forEach allSources (fun n s => s.syncSrc n) s).clearRecord 0xFF 2 was

/-- Whether CLEAR_LOCKDOWN is refused: an unfused source of class LOCK or ZERO is ACTIVE, or a decision runs (R337). -/
def lockHeld (s : State) : Bool :=
  s.tamper.run.isSome || allSources.any fun n => !(s.srcFused n) && (s.src n).active && decide (2 ≤ s.srcClass n)

/-- BLOW_FUSE accepted (R328, R329). -/
def blowFuse (s : State) (n : Fin 16) : State :=
  let s := s.put K.TDIS ((setBit (s.getU K.TDIS) n : Nat) : Int)
  let s := s.setN K.FUSE_MAP ((s.getU K.FUSE_MAP ||| 2 ^ n.val : Nat) : Int)
  let s := s.put K.TAMPER_STATUS ((clearBit (s.getU K.TAMPER_STATUS) n : Nat) : Int)
  let s := s.updSrc n fun x => { x with counting := false, count := 0, active := false, waiting := 0, high := 0, low := 0 }
  (s.keepMarks.syncSrc n).clearRecord n 4 0

/-- BACKUP_DOMAIN_RESET: the RTC, the deferred latch, the copy of TAMPER_STATUS and the FIRST times are lost (R334, R358). -/
def backupReset (s : State) : State :=
  match s.mode with
  | .dormant =>
    let s := { s with
      rtc := 0, lockLatch := false, svc := { s.svc with lossKept := false }
      tamper := { s.tamper with backupStatus := 0, backupMarks := 0, backupLost := true } }
    let s := s.setN K.RTC_VALID 0
    forEach allSources (fun n s => s.updSrc n fun x =>
      { x with first := none, dormant := 0, late := 0, latched := false, counting := false, count := 0, active := false, high := 0, low := 0 }) s
  | _ => s

end State

end Sys2Proof.Machine
end

