-- ==== Sys2Proof/Machine/Sampling.lean ====
section
/-! DEFINITION. Machine/Sampling.lean: sample periods, releases, boundaries with everything they apply, pulse outputs and demand intervals
(R27 to R41, R73 to R76, R88, R89, R93 to R95, R124 to R149, R344, R359). -/

namespace Sys2Proof.Machine

open Sys2Proof

namespace State

/-! ### Sample periods (R73, R344, R359) -/

/-- Whether MCLK and the sample periods run: in the serving modes, in HOLDUP, and in RECALL from start-up step 7 on (R58, Table 12.7); never in
factory test mode, which does not meter (R445). -/
def clocksOn (s : State) : Bool := !s.svc.ftm && (s.serves || decide (s.mode = Mode.holdup) || (decide (s.mode = Mode.recalling) && bit s.startup.steps 7))

/-- A flag of the running demand interval sets on every point (R135); where a point still waits to close the interval before, DMD_STATUS_NOW is
still that interval's, and the running one takes the flag when it is closed. -/
def demandFlag (s : State) (b : Nat) : State :=
  forEach allPoints (fun p s =>
    if s.points[p].dmdFrom.isSome then s.updPoint p fun x => { x with dmdNext := setBit x.dmdNext b }
    else s.put (K.DMD_STATUS_NOW p) ((setBit (s.getU (K.DMD_STATUS_NOW p)) b : Nat) : Int)) s

/-- An accepted time step takes effect at the sample period that begins now (R359), and NVM records INDEX_SHIFT (R245). -/
def applyTimeStep (s : State) : State :=
  if s.timeStepNext = 0 then s else
  let d := s.timeStepNext
  let old := s.getN K.INDEX_SHIFT
  let s := { s with timeStepNext := 0, rtc := ((s.rtc : Int) + d).toNat }
  let s := (((s.put K.INDEX_SHIFT (old + d)).demandFlag 6).sessionTimeStep)
  s.recordDevice [⟨K.INDEX_SHIFT, .num old⟩] [⟨K.INDEX_SHIFT, .num (old + d)⟩]

/-- A RESTORE that SERVICE's end interrupts leaves L4 carrying the lane, and the tested lane RETIRED (R441). -/
def restoreAbort (s : State) : State :=
  let s := match s.svc.retest with
    | some l => { s.updLane l fun x => { x with state := .retired } with svc := { s.svc with retest := none } }
    | none => s
  match s.laneSub with
  | some sub =>
    if sub.restore then
      let s := forEach allPoints (fun p s => if s.points[p].phys = sub.shadow then s.updPoint p fun x => { x with phys := sub.leaving } else s) s
      { s.updLane sub.shadow fun x => { x with state := .retired } with laneSub := none }
    else s
  | none => s

/-- What ends with SERVICE, or at the entry to LOCKDOWN: strings, calibration runs, a lane's restore (R170, R200, R352, R432, R441). -/
def endService (s : State) : State := ((s.slackAll.calAbort).auxAbort).restoreAbort

/-- The decided mode takes effect at its mode index, the index of this period (R344). -/
def applyMode (s : State) : State :=
  match s.modeNext with
  | none => s
  | some m =>
    if s.serves = false then s else
    let was := s.mode
    let n := s.index
    let s := { s with mode := m, modeNext := none, modeHist := (n, m) :: s.modeHist.take 7 }
    let s := (s.setN K.MODE_INDEX (n : Nat)).setN K.MODE_TIME (s.stamp n : Nat)
    let s := if was = .service ∨ m = .lockdown then s.endService else s
    let s := if m = .lockdown then s.abortSeal 9 else s
    s.compose

/-- SAMPLE_PERIOD: cycle 0 of the next period (R27, R73); `bits`: the 250 bits each port received in the period that ended. -/
def samplePeriod (s : State) (bits : List Nat) : State :=
  if s.clocksOn = false then s else
  let s := { s with index := s.index + 1, rtc := s.rtc + 12500 }
  let s := if s.mode = .holdup then s else s.applyTimeStep.applyMode
  s.portPeriod bits

/-! ### Lane map and OFF points (R28, R35, R36) -/

/-- The physical lane that carries a logical lane. -/
def laneCarrier (s : State) (k : Nat) : Fin 5 :=
  (([0, 1, 2, 3, 4] : List (Fin 5)).find? fun l => match s.lanes[l].logical with | some x => decide (x.val = k) | none => false).getD 0

/-- A point's new logical lane takes hold, unless the point still waits for its handover (R35, R36). -/
def applyLane (s : State) (p : Fin 8) : State :=
  let k := s.cfgLane p
  let waits := match s.laneSub with | some sub => decide (p ∈ sub.points) | none => false
  if k = s.points[p].app.lane ∨ waits = true then s else
  let l := s.laneCarrier k
  let s := s.updPoint p fun x => { x with app := { x.app with lane := k }, phys := l, shadowed := 0, shWhole := false, warm := false }
  match s.laneSub with
  | some sub => if sub.leaving = l then { s with laneSub := some { sub with points := sub.points ++ [p] } } else s
  | none => s

end State

/-! ### Changes of configuration (R74, R81, R88, R94) -/

/-- The tracker's state when it starts on a kind (R94, R95). -/
def trackOf (kind : Nat) : Track := if kind = 0 then .off else if kind = 4 then .fixed else .starting

/-- TRACK_STATE of a tracker that starts (Table 03.11). -/
def trackCode : Track → Nat
  | .off => 0 | .locked => 1 | .substitute => 2 | .fixed => 3 | .starting => 4

/-- Tracker, step and window of a point as at RECALL (R88, R94, R149). -/
def Point.restart (x : Point) (kind n : Nat) : Point :=
  { x with
    track := trackOf kind, armed := false, started := false, inStep := false, step := StepSum.zero n, cycle := Span.zero
    win := none, winWait := false, trail := [], ended := [], rp := Reverse.init, qtLast := 0, mLast := 0, theta := 0 }

namespace State

/-- FREQ and FREQ_CYC of a point whose first window and first cycle are still to come: the nominal frequency on an AC kind, else 0.0 (R101). -/
def nominalFreq (s : State) (p : Fin 8) (n cfg : Nat) : State :=
  let f : Nat := if isAc (kindOf cfg) then F32.ofRat (nominalMilliHz cfg) 1000 else 0
  (s.setQ n (K.FREQ p 1) (f : Nat)).setQ n (K.FREQ p 2) (f : Nat)

/-- Every quantity entry of a point returns to its default: 0, and QUADRANT 1 (R88, R89), also on a point that becomes OFF (DESIGN CHOICE, log entry
54: R89 and Table 03.11 differ on QUADRANT). CYCLE_COUNT counts on: it counts boundaries since RECALL. -/
def clearQuantities (s : State) (p : Fin 8) (n : Nat) : State :=
  let mine := s.nums.filter fun (e : Nat × Int) =>
    let i := e.1 / 256
    decide (0x3000 ≤ baseIdx i) && decide (baseIdx i ≤ 0x30A4) && decide (pointOfIdx i = p.val) && isPointIdx i && decide (e.1 ≠ K.CYCLE_COUNT p)
  forEach mine (fun (e : Nat × Int) s => s.setQ n e.1 (dfltN e.1)) s

/-- The configuration that POINT_CFG, DEC_CONFIG, PORT_CFG and CH_FS hold. -/
def configured (s : State) (p : Fin 8) : Applied :=
  ⟨s.getU (K.POINT_CFG p), s.cfgOsr p, Vector.ofFn fun c => s.getU (K.PORT_CFG p (c + 1)), Vector.ofFn fun c => s.getU (K.CH_FS p (c + 1)),
    s.points[p].app.lane⟩

/-- A change of POINT_CFG takes effect at index `n` (R88): events end, and tracker, windows and events start as at RECALL. -/
def applyKind (s : State) (p : Fin 8) (n cfg : Nat) : State :=
  let s := ((s.endAllEvents p n).clearQuantities p n).nominalFreq p n cfg
  let s := s.updPoint p fun x =>
    let x := { x.restart (kindOf cfg) n with app := { x.app with cfg := cfg } }
    { x with chans := x.chans.map fun ch => { Chan.init with cleared := ch.cleared } }
  s.setQ n (K.TRACK_STATE p) (trackCode (trackOf (kindOf cfg)) : Nat)

/-- A change of OSR takes effect at index `n` (R74, R94): events end, the channels restart with three LINK samples, filters and histories
are cleared, those of a paired understudy too, and an AC point's tracker starts. -/
def applyOsr (s : State) (p : Fin 8) (n : Nat) (osr : Bool) : State :=
  let s := s.endAllEvents p n
  let s := s.updPoint p fun x =>
    let x := { x with
      app := { x.app with osr500 := osr }, qtLast := 0, mLast := 0
      chans := x.chans.map fun ch => { Chan.init with cleared := ch.cleared, restart := 3 } }
    if isAc (kindOf x.app.cfg) then x.restart (kindOf x.app.cfg) n else x
  let s := forEach allChans (fun c s =>
    let s := (s.clearFilter (homePort p c)).clearFilter (s.physPort p c)
    match s.spareOf (homePort p c) with
    | some i => s.clearFilter (sparePort i)
    | none => s) s
  if isAc (kindOf s.points[p].app.cfg) then s.setQ n (K.TRACK_STATE p) 4 else s

/-- Everything configured for a point takes effect at index `n` (R68, R74, R88, R120, R127). -/
def applyConfig (s : State) (p : Fin 8) (n : Nat) : State :=
  let a := s.points[p].app
  let b := s.configured p
  let s := if b.cfg ≠ a.cfg then s.applyKind p n b.cfg else s
  let s := if b.osr500 ≠ a.osr500 then s.applyOsr p n b.osr500 else s
  let s := s.updPoint p fun x => { x with app := { x.app with ports := b.ports, fs := b.fs } }
  let s := forEach allChans (fun c s => if b.uses c && !(a.uses c) then s.linkStart (s.physPort p c) else s) s
  s.applyLane p

/-! ### Netting steps (R124 to R149) -/

/-- Total reactive energy of a closing step. -/
def closingQ (cl : Closing) (kind : Nat) : Int := if isAc kind then stepQ (phaseList kind) cl else 0

/-- OPEN requests that waited for a plate commit are answered (R266); defined where requests are: here they leave the session's list. -/
def takeHeld (s : State) (p : Fin 8) : List Requester × State :=
  (s.sessions[p].held, s.updSession p fun x => { x with held := [] })

/-- OPEN requests that waited for the plate commit of a point (R266). -/
def releaseHeld (s : State) (p : Fin 8) : State :=
  if s.commitRuns p ∨ s.sessions[p].held = [] then s else
  let r := s.takeHeld p
  forEach r.1 (fun h s =>
    if s.openOk p then (s.acceptOpen p).replyWrite h (K.SESSION_CMD p / 256) (K.SESSION_CMD p % 256) .ok
    else s.replyWrite h (K.SESSION_CMD p / 256) (K.SESSION_CMD p % 256) .wrongState) r.2

/-- The booking of a closing step (R124), or, where the samples before the boundary form no step (R94, R149), the pulses they streamed taken
back (R138). -/
def bookClosing (s : State) (p : Fin 8) (cl : Closing) : State :=
  let n := cl.bound.idx
  let kind := kindOf s.points[p].app.cfg
  if cl.isStep then
    let qt := closingQ cl kind
    let r := s.bookStep p cl qt
    let s := r.1.updPoint p fun x => { x with qtLast := qt, mLast := cl.sums.m }
    let s := s.sessionStep p r.2
    let s := ((s.cycleQuantities p cl).cycleEvents p cl).reversePower p r.2
    (s.updPoint p fun x => x.windowAt cl).demandDue p n
  else
    let s := (s.correctPulses p n 0 0).lostReference p n
    (s.updPoint p fun x =>
      match x.win with
      | none => x.windowAt cl
      | some _ => x).demandDue p n

/-- NETTING_STEP: the boundary that waits is booked, and everything due at it takes effect (R35, R39, R74, R88, R127, R141, R157). -/
def nettingStep (s : State) (p : Fin 8) : State :=
  match s.points[p].closing with
  | none => s
  | some cl =>
    let n := cl.bound.idx
    let s := s.bookClosing p cl
    let s := s.updPoint p fun x => { x with closing := none }
    let s := s.sessionBoundary p n
    if s.mode = .holdup then s else
    let s := s.forcedReturn p
    let s := s.applyPlates p n
    let warm := s.points[p].warm
    let s := s.applyConfig p n
    let s := if warm then s.handOver p n else s
    let s := (s.applyPulses p n).clockGroups
    ((s.stepConstants p n).tempBoundary p n).releaseHeld p

/-- Whether something that takes effect at the point's next boundary waits: coefficients, a change of configuration or lane, a warm handover, or
pulse settings (R35, R39, R74, R88, R141, R157). -/
def stepDue (s : State) (p : Fin 8) : Bool :=
  s.plateUse[p].due || decide (s.configured p ≠ s.points[p].app) || decide (s.cfgLane p ≠ s.points[p].app.lane) || s.points[p].warm
    || allPoints.any fun m => s.pulses[m].waits && decide (pulsePoint (s.getU (K.PULSE_CFG (m + 1))) = p)

/-- The boundary just found is booked at once where something takes effect at it, so that its own sample already meets it: sums, pulses, lane and
quantities of sample B take the new values (R35, R127, R157; up to 1.1 µs before Table 04.3, DESIGN CHOICE, log entry 24). -/
def stepAtOnce (s : State) (p : Fin 8) : State :=
  if s.points[p].closing.isSome = true ∧ s.stepDue p = true ∧ s.mode ≠ .holdup then s.nettingStep p else s

/-- OFF_POINT_APPLY: what is pending on a point of kind OFF takes effect at an index divisible by 80 (R89). -/
def offPointApply (s : State) (p : Fin 8) : State :=
  if kindOf s.points[p].app.cfg ≠ 0 ∨ s.index % 80 ≠ 0 ∨ s.clocksOn = false then s else
  let n := s.index
  let s := (s.applyPlates p n).applyConfig p n
  let s := (s.applyPulses p n).clockGroups
  ((s.handOverOff n).stepConstants p n).releaseHeld p

/-! ### Releases (R28, R32, R37, R93) -/

/-- A boundary has been found on a point: its pulses, the constants of the step that begins, its calibration block, its sessions (R128, R138,
R162, R271). -/
def boundaryFound (s : State) (p : Fin 8) : State :=
  match s.points[p].closing with
  | some cl => (((s.closePulses p).stepConstants p cl.bound.idx).calBoundary p cl).closeLaunch
  | none => s.closeLaunch

/-- A substitute boundary is certain at index `n` (R93, else-branch), so the lane map of the step that begins there holds for this sample (R35,
R39). -/
def laneOfSubstitute (s : State) (p : Fin 8) (n : Nat) : State :=
  if s.mode = .holdup then s else
  let warm := s.points[p].warm
  let s := s.applyLane p
  if warm then s.handOver p n else s

/-- Channel 0's part: the tracker, the boundary with what is due at it, and the LINK and OVR events (R93 to R95, Table 03.9). -/
def firstChannel (s : State) (p : Fin 8) (n : Nat) (prev : Chan) : State :=
  let s := (s.track p n prev).boundaryFound p
  let found := s.points[p].closing.isSome
  let due := s.points[p].started && decide (s.points[p].bound.idx ≠ n) && substituteDue s.points[p] n
  let s := s.stepAtOnce p
  let s := if due then s.laneOfSubstitute p n else if found then s else s.demandDue p n
  if s.mode = .holdup then s else s.sampleEvents p n

/-- A stream takes a sample (R398, R399): the released word or the corrected value rounded to whole code, with its qualifier, at indices
divisible by the step. -/
def streamSample (s : State) (p : Fin 8) (c : Fin 7) (n : Nat) (code : Int) (q : Nat) : State :=
  let t := s.stream
  let b := 7 * p.val + c.val
  if t.running = true ∧ bit t.mask b = true ∧ t.step ≠ 0 ∧ n % t.step = 0 ∧ t.begin ≤ n then
    let x := s.points[p].chans[c]
    let v := if t.corrected then ofSigned 20 (clampInt (-524288) 524287 (roundUp x.y 256)) + 2 ^ 20 * x.qy else ofSigned 20 code + 2 ^ 20 * q
    { s with stream := { t with samples := insertL (n * 64 + b) v t.samples } }
  else s

/-- The last channel's part: sums, pulses, calibration (R121, R137, R162). -/
def lastChannel (s : State) (p : Fin 8) (n : Nat) : State :=
  if s.points[p].started = true ∨ kindOf s.points[p].app.cfg = 4 then (s.accumulate p n).calSample p else s

/-- Strings that perturb a word on a lane: DELAY on every operation; PRESSURE on the window FIFO where the slot it holds meets the word, which
the spec leaves open (R437, Table 15.1). -/
def laneHits (s : State) (l : Fin 5) : State :=
  forEach strings (fun i s =>
    match s.tautWord i with
    | some w =>
      if field w 15 8 ≠ l.val then s
      else if field w 3 0 = 0 then s.stringHit i
      else if field w 3 0 = 1 then (let f := s.fresh; if Config.unstated f.1 % 2 = 1 then f.2.stringHit i else f.2)
      else s
    | none => s) s

/-- SAMPLE_RELEASE: the word of a channel enters its lane (R28, R30). A lost or uncorrectable sample is an integrity fault (R32, R37), and what
the sums then hold of it is a free value. The lane is that of the step the word lies in: of the new step at its own boundary (R35, R39). -/
def sampleRelease (s : State) (p : Fin 8) (c : Fin 7) (o : LaneObs) : State :=
  match s.points[p].chans[c].out with
  | none => s
  | some w =>
    let s := if c = 0 ∧ s.points[p].closing.isSome = true then s.nettingStep p else s
    let prev := s.points[p].chans[(0 : Fin 7)]
    let s := s.updChan p c fun x => { x with out := none }
    let n := w.idx
    let bad := o.lost || o.uncorrectable
    let fr := if bad then s.fresh else (0, s)
    let s := fr.2
    let w : Word20 := if bad then { w with code := toSigned 20 (Config.unstated fr.1) } else w
    let s := s.setQ n (K.RAW_SAMPLE p (c + 1)) w.code
    let old := s.getU (K.PORT_STATUS p (c + 1))
    let s := s.setQ n (K.PORT_STATUS p (c + 1)) ((old % 64 + 64 * w.qual : Nat) : Int)
    let s := s.correct p c w
    let s := if c = 0 then s.firstChannel p n prev else s
    let s := s.laneHits s.points[p].phys
    let s := if o.lost then s.integrity 1 (s.points[p].phys * 256 + p) n else s.laneWord p c n o
    let s := if o.fifoFull then s.updPoint p fun x => { x with cycle := x.cycle.drop c } else s
    let s := if c = 6 then s.lastChannel p n else s
    s.streamSample p c n w.code w.qual

/-- SUBSTITUTE_BOUNDARY: no crossing came in time (R93). -/
def substituteBoundary (s : State) (p : Fin 8) : State :=
  let n := s.points[p].chans[(0 : Fin 7)].n
  if s.points[p].started = true ∧ s.points[p].bound.idx ≠ n ∧ substituteDue s.points[p] n = true then
    let s := if s.points[p].closing.isSome then s.nettingStep p else s
    ((s.substituteAt p n).boundaryFound p).stepAtOnce p
  else s

/-- LANE_CHECK_VECTOR: slot 14 of a lane (R27, R37, R38); it counts in no latency figure. An uncorrectable operation is an integrity fault of
the serving lanes, and ends shadowing on a lane that only shadows (Table 01.8). -/
def laneCheckVector (s : State) (l : Fin 5) (corrections : List Nat) (uncorrectable : Bool) : State :=
  if s.clocksOn = false then s else
  let p := match s.servedBy l with | q :: _ => q.val | [] => 0xFF
  let s := s.laneOps l p corrections
  if uncorrectable = false then s else
  match s.lanes[l].state, s.laneSub with
  | .shadowing, some sub => if s.onlyShadows l then s.endShadow sub else s.integrity 2 (l * 256 + p) s.index
  | .inService, _ => s.integrity 2 (l * 256 + p) s.index
  | .worn, _ => s.integrity 2 (l * 256 + p) s.index
  | _, _ => s

/-- SHADOW_WARM: 64 shadowed samples of a point (R39 step 2). -/
def shadowWarm (s : State) (p : Fin 8) : State :=
  match s.laneSub with
  | some sub => if p ∈ sub.points ∧ 64 ≤ s.points[p].shadowed then s.updPoint p fun x => { x with warm := true } else s
  | none => s

/-- LATENCY_INTERVAL: a 1 s interval of lanes and banks ends (R33, R38, R222). -/
def latencyInterval (s : State) : State :=
  let s := forEach ([0, 1, 2, 3, 4] : List (Fin 5)) (fun l s =>
    (s.setN (K.LAT_WORST_1S (l + 1)) (s.lanes[l].worst1s : Nat)).updLane l fun x =>
      { x with worst1s := 0, corrected1s := 0, latHighLast := x.latHigh, latHigh := false }) s
  s.banksInterval

/-! ### Port checks between blocks (R65, R66) -/

/-- LINK_CHECK_FAIL: STUCK on the port it is found on, or a returned clock outside its limits or stopped, on all ports of its group (R66). -/
def linkCheckFail (s : State) (m : Fin 60) (check : LinkCheck) : State :=
  if s.clocksOn = false then s else
  match check with
  | .stuck => s.checkFails m 1 false
  | .returnSkew | .returnStuck => if s.clkReturn (groupOf m) then s.groupFails (groupOf m) else s

/-- BLOCK_END: every observed port (R66), then the groups whose delays are now learned (R65). -/
def blockEnds (s : State) (obs : List BlockObs) : State :=
  if s.clocksOn = false then s else
  let s := s.blocksEnd obs
  let s := s.learnGroups obs
  { s with blockNo := s.blockNo + 1 }

/-! ### Pulse outputs (R139, R140) -/

/-- The next pulse of the backlog starts. -/
def startPulse (s : State) (m : Fin 8) : State :=
  let back := s.getU (K.PULSE_BACKLOG (m + 1))
  if back = 0 then s.updPulse m fun x => { x with phase := .idle }
  else
    let t := s.rtc
    (s.put (K.PULSE_BACKLOG (m + 1)) ((back - 1 : Nat) : Int)).updPulse m fun x => { x with phase := .high, level := !x.activeLow, since := t }

/-- PULSE_RISE: a queued pulse rises. -/
def pulseRise (s : State) (m : Fin 8) : State :=
  match s.pulses[m].phase, s.serves with
  | .idle, true => s.startPulse m
  | _, _ => s

/-- PULSE_FALL: the width is over, or 40 µs with another pulse due, whose 40 µs low begin; new settings apply from here (R141). -/
def pulseFall (s : State) (m : Fin 8) : State :=
  match s.pulses[m].phase with
  | .high =>
    let low := bit s.pulses[m].cfg 0
    let due := decide (s.getU (K.PULSE_BACKLOG (m + 1)) ≠ 0)
    let t := s.rtc
    s.updPulse m fun x => { x with phase := if due then .gap else .idle, level := low, activeLow := low, since := t }
  | _ => s

/-- PULSE_GAP_END: the low time is over. -/
def pulseGapEnd (s : State) (m : Fin 8) : State :=
  match s.pulses[m].phase with
  | .gap => s.startPulse m
  | _ => s

/-- Power-fail detection (R142): every output inactive, queued pulses dropped. -/
def pulsesOff (s : State) : State :=
  forEach allPoints (fun m s =>
    let back := s.getU (K.PULSE_BACKLOG (m + 1))
    let s := if back = 0 then s else (s.put (K.PULSE_BACKLOG (m + 1)) 0).addSat 32 (K.PULSE_LOST (m + 1)) back
    let lost := s.getU (K.PULSE_LOST (m + 1))
    s.updPulse m fun x => { x with phase := .idle, level := x.activeLow, keep := { x.keep with lost := lost } }) s

/-! ### Demand intervals (R132 to R135) -/

/-- An interval ends at index `n`: every point closes it once its last step is booked (`demandDue`); a point of kind OFF at once. DMD_START is the
stamp of the interval's first index (DESIGN CHOICE, log entry 37: R132 and Table 04.9 leave open whether it is the aligned boundary). -/
def demandEnd (s : State) (n start : Nat) : State :=
  -- a point that still waits to close the interval before closes it now
  let s := forEach allPoints (fun p s => if s.points[p].dmdFrom.isSome then s.finishDemand p n else s) s
  let prev : Nat := s.getU K.DMD_START
  let s := { s with demand := ⟨demandLen (s.getU K.DMD_CFG), prev, s.demand.len⟩ }
  let s := (s.setQ n K.DMD_START (start : Nat)).setQ n K.DMD_INDEX (n : Nat)
  forEach allPoints (fun p s =>
    if kindOf s.points[p].app.cfg = 0 then s.finishDemand p n else s.updPoint p fun x => { x with dmdFrom := some n }) s

/-- DEMAND_INTERVAL_END: the period that runs is the first whose instant lies in another aligned interval than the period before, by the length and
time in force (R132, R135). -/
def demandIntervalEnd (s : State) : State :=
  if s.clocksOn = true ∧ s.mode ≠ .holdup ∧ s.demandSlot (s.instant s.index) ≠ s.demandSlot (s.instant (s.index - 1)) then
    s.demandEnd s.index (s.stamp s.index)
  else s

/-- The aligned boundary before an instant, in ns (R132). -/
def demandStart (s : State) (ns : Nat) : Nat :=
  let cfg := s.getU K.DMD_CFG
  let off : Int := if bit cfg 3 then 0 else s.getN K.UTC_OFFSET
  (s.demandSlot ns * (demandLen cfg * 1000000000 : Nat) + off * 1000000000).toNat

/-- The first index at or after an instant. -/
def indexFrom (s : State) (ns : Nat) : Nat := ((((ns : Int) - s.getN K.INDEX_SHIFT) + 12499) / 12500).toNat

/-- RECALL (R134, R135): an interval that ended while DORMANT is closed with PARTIAL; the running interval is partial. -/
def demandRecall (s : State) : State :=
  let start := s.demandStart s.rtc
  let part (s : State) : State :=
    forEach allPoints (fun p s => s.put (K.DMD_STATUS_NOW p) ((s.getU (K.DMD_STATUS_NOW p) ||| 2 : Nat) : Int)) s
  let same := decide (s.getU K.DMD_START ≠ 0) && decide (s.demandSlot (nsOfStamp (s.getU K.DMD_START)) = s.demandSlot s.rtc)
  -- what still waited to be closed gets no further step
  let s := forEach allPoints (fun p s => if s.points[p].dmdFrom.isSome then s.finishDemand p s.index else s) s
  let s := if s.getU K.DMD_START = 0 ∨ same = true then s
    else
      let s := part s
      let s := { s with demand := ⟨s.demand.len, s.getU K.DMD_START, s.demand.len⟩ }
      forEach allPoints (fun p s => s.finishDemand p s.index) s
  let s := if same then s
    else
      let s := { s with demand := { s.demand with len := demandLen (s.getU K.DMD_CFG) } }
      (s.setN K.DMD_START (s.stamp (s.indexFrom start) : Nat)).setN K.DMD_INDEX (s.indexFrom start : Nat)
  part s

/-- MD_RESET (R136). -/
def mdReset (s : State) (p : Fin 8) : State :=
  (((s.put (K.MAX_DMD_IMPORT p) 0).put (K.MAX_DMD_EXPORT p) 0).put (K.MAX_DMD_IMPORT_TIME p) 0).put (K.MAX_DMD_EXPORT_TIME p) 0

/-- LAT_CLEAR (R34). -/
def latClear (s : State) : State :=
  forEach (List.range 5) (fun l s => ((s.setN (K.LAT_WORST (l + 1)) 0).setN (K.LAT_OVER (l + 1)) 0).setN (K.II_WORST (l + 1)) 0) s

end State

end Sys2Proof.Machine
end

