-- ==== Sys2Proof/Machine/Power.lean ====
section
/-! DEFINITION. Machine/Power.lean: power good, RECALL with its steps, power-fail detection, the hold-up save and what a power loss leaves
(R146 to R149, R244, R248, R255 to R263, R331 to R334, R343 to R346, R355, R358, R361 to R367, R439, R440). -/

namespace Sys2Proof.Machine

open Sys2Proof

namespace State

/-! ### Zeroing of R119 -/

/-- Billing and disputed registers with their residues, demand and maximum-demand values and pulse accumulators become zero (R119). -/
def zeroRegisters (s : State) : State :=
  forEach allPoints (fun p s =>
    let s := forEach tenRegs (fun i s =>
      (((s.put (K.ENERGY p (i + 1)) 0).put (K.RESIDUE p (i + 1)) 0).put (K.DISPUTED p (i + 1)) 0).put (K.DISPUTED_RESIDUE p (i + 1)) 0) s
    let s := forEach [K.DMD_IMPORT p, K.DMD_EXPORT p, K.DMD_IMPORT_LAST p, K.DMD_EXPORT_LAST p, K.DMD_P_IMPORT_LAST p, K.DMD_P_EXPORT_LAST p,
      K.MAX_DMD_IMPORT p, K.MAX_DMD_IMPORT_TIME p, K.MAX_DMD_EXPORT p, K.MAX_DMD_EXPORT_TIME p, K.PULSE_ACC (p + 1)] (fun k s => s.put k 0) s
    let s := s.updPulse p fun x => { x with streamed := 0, closed := 0, keep := { x.keep with acc := 0 } }
    s.updPoint p fun x => { x with dmdResImport := 0, dmdResExport := 0 }) s

/-! ### POWER_GOOD and RECALL_BEGIN (R343, R365) -/

/-- POWER_GOOD: the oscillator and VCORE start (Table 12.7, step 1). -/
def powerGood (s : State) (time : Nat) : State :=
  match s.mode with
  | .dormant => let s := s.at' time; { s with startup := { s.startup with steps := setBit s.startup.steps 1 } }
  | _ => s

/-- Every fuse bank is sensed twice; the reading with more fuses set is used, and a set fuse stays set (R19, R328, Table 15.4). -/
def senseFuses (s : State) (first second : Nat) : State :=
  let a := first % 2 ^ 32
  let b := second % 2 ^ 32
  let used := if popCount 32 a < popCount 32 b then b else a
  let s := if a = b then s else (s.addSat 32 K.FUSE_SENSE_FAIL 1).source 13 0
  let map := s.getU K.FUSE_MAP ||| used
  (s.setN K.FUSE_MAP (map : Nat)).setN K.TDIS ((map % 65536 : Nat) : Int)

/-- One statute copy: good when both evaluations match; a disagreement raises T13 (R244). -/
def statuteCopy (s : State) (first second : Bool) : Bool × State := (first && second, if first = second then s else s.source 13 0)

/-- The statute page of a sealed device (R244). -/
def verifyStatute (s : State) (o : StatuteObs) : State :=
  if s.sealed = false then s else
  let a := s.statuteCopy o.a1 o.a2
  let b := a.2.statuteCopy o.b1 o.b2
  let s := { b.2 with nvm := { b.2.nvm with statAOk := a.1, statBOk := b.1 } }
  match a.1, b.1 with
  | true, true => s
  | false, true => s.consistency 0 0
  | true, false => s.consistency 0x300 0
  | false, false => s.integrity 5 0 s.index

/-- The CAN node, timing and base in force from this RECALL on (R390, Table 13.14). -/
def canSettings (s : State) : State :=
  let node := s.getU K.CAN_NODE
  { s with bus := { CanSt.init with
    nodeActive := if node = 0 then 16 + s.svc.addr else node, timingActive := s.getU K.CAN_TIMING, baseActive := s.getU K.CAN_ID_BASE } }

/-- RECALL_BEGIN: volatile memory starts from its defaults; fuses, statute page and straps are read (Table 12.7, steps 2 to 4; R446). -/
def recallBegin (s : State) (time : Nat) (addr : Nat) (ftm : Bool) (map again : Nat) (stat : StatuteObs) : State :=
  if s.mode ≠ .dormant ∨ bit s.startup.steps 1 = false then s else
  let s := s.at' time
  let s := { s with
    mode := .recalling, attended := false, modeNext := none, modeHist := [], twins := []
    nums := s.nums.filter fun e => !isVolatile e.1
    blobs := s.blobs.filter fun e => !isVolatile e.1
    nvm := { s.nvm with writeInhibit := false }
    startup := ⟨s.rtc, 2 + 8 + 16, false, 0, 0⟩
    svc := { ModeSt.init with addr := addr, ftm := ftm, lossKept := s.svc.lossKept }
    thb := Thiber.init }
  let s := s.addSat 32 K.RECALL_COUNT 1
  let s := s.setN K.RNG_STATE 1
  let s := s.canSettings
  let s := (s.senseFuses map again).remapRecall
  let s := if s.tamper.backupLost then ((s.setN K.RTC_VALID 0).addSat 32 K.BACKUP_RESETS 1).source 3 0 else s
  s.verifyStatute stat

/-! ### The journal at RECALL (R248) -/

/-- A committed unit that cannot be read again takes its owner's step back. -/
def undoOwner (s : State) (o : Owner) : State :=
  match o with
  | .lockState on => { s with lockNvm := !on }
  | .sessionOpen p => s.updSession p fun x => { x with desc := none, committed := false }
  | .sessionClose ps => forEach ps (fun p s => s.updSession p fun x => { x with close := none, queued := false, closed := false }) s
  | .plates _ => { s with cal := none }
  | _ => s

/-- The slots that the writes of a plate commit change. -/
def slotsOf (p : Fin 8) (ws : List EntryWrite) : Nat :=
  (allSlots.map fun (q : Fin 4) => if ws.any (fun w => w.key = K.PLATE_T p q) then 2 ^ q.val else 0).sum

/-- A plate commit that is rolled back at RECALL: PLATE_ROLLBACK and a ROLLBACK history record (R170, Table 05.12). -/
def plateRollback (s : State) (u : JUnit) : State :=
  match u.owner with
  | .plates p => (s.addSat 32 K.PLATE_ROLLBACK 1).plateHistory p 1 (slotsOf p u.writes) s.now
  | _ => s

/-- Units rolled back are counted (R248). -/
def rolledBack (s : State) (n : Nat) : State :=
  (s.setN K.RECALL_ROLLED_BACK ((satAdd 16 (s.getU K.RECALL_ROLLED_BACK) n : Nat) : Int)).addSat 32 K.JOURNAL_ROLLBACKS n

/-- One device-state change of section S3: an entry, or under MODE's key the LOCKDOWN state (R84, R202, R346). -/
def applyDeviceState (s : State) (w : EntryWrite) : State :=
  match w.val with
  | .num v =>
    if w.key = K.MODE then { s with lockNvm := decide (v = 5) }
    else if w.key / 256 = 0xE011 then s.updLane ⟨(w.key % 256 - 1) % 5, by omega⟩ fun x => laneOfCode v.toNat x
    else if w.key / 256 = 0xE030 then s.updBank ⟨(w.key % 256 - 1) % 5, by omega⟩ fun x => bankOfCode v.toNat x
    else if w.key = K.TAMPER_STATUS then { s with tamper := { s.tamper with nvStatus := v.toNat } }
    else if w.key = K.TAMPER_MARKS then { s with tamper := { s.tamper with nvMarks := v.toNat } }
    else s.setN w.key v
  | .bytes b => s.setB w.key b

/-- A unit's value takes its place (R246): every entry with the tableau's copy first (R47); of device state the NVM copies of the tamper state,
for everything else the live state shows already. -/
def applyWrite (s : State) (o : Owner) (w : EntryWrite) : State :=
  match o, w.val with
  | .device _, _ => if w.key = K.TAMPER_STATUS ∨ w.key = K.TAMPER_MARKS then s.applyDeviceState w else s
  | _, .num v => s.put w.key v
  | _, .bytes b => s.setB w.key b

/-- A target takes back the value it held before a unit that RECALL discards. -/
def revertWrite (s : State) (o : Owner) (w : EntryWrite) : State :=
  match o with
  | .device _ => s.applyDeviceState w
  | _ => s.applyWrite o w

/-- What NVM holds of the device state that no commit group has recorded: the units' old values, the latest change taken back first (R245). -/
def revertDevice (s : State) (us : List JUnit) : State :=
  forEach us.reverse (fun u s =>
    match u.owner with
    | .device old => forEach old (fun w s => s.applyDeviceState w) s
    | _ => s) s

/-- The units whose commit group is not written, in order. -/
def uncommitted (s : State) : List JUnit :=
  (match s.journal.openUnit with | some u => if s.journal.committed then [] else [u] | none => []) ++ s.journal.waiting

/-- Every unretired unit of before the power loss: completed, rolled back, or, where it cannot be read again, discarded with NVM_CONSISTENCY (R248). After its commit
group the open unit's `writes` hold the old values of its targets. -/
def journalRecall (s : State) : State :=
  let j := s.journal
  let bad := s.nvm.journalBad
  let s := { s with
    journal := { j with openUnit := none, stale := [], committed := false, used := 0 }, nvm := { s.nvm with journalBad := false } }
  let s := forEach j.stale (fun u s => s.plateRollback u) (s.rolledBack j.stale.length)
  match j.openUnit with
  | none => s
  | some u =>
    if j.committed = false then (s.rolledBack 1).plateRollback u
    else if bad then
      let s := forEach u.writes (fun w s => s.revertWrite u.owner w) s
      (((s.undoOwner u.owner).rolledBack 1).plateRollback u).consistency 0x1A00 248
    else s.setN K.RECALL_COMPLETED 1

/-! ### The newest state (R148, R256, R358) -/

/-- Table 04.5: the content restored, RECOVERY, STATE_TIME and t_end as stamps, and whether two checkpoints claim the same STATE_SEQ. -/
def newestState (s : State) : Option Body × Nat × Nat × Nat × Bool :=
  let c := s.newestCkpt
  let v := s.newestSave
  let saved := bit v.sections 0 && bit v.sections 1 && (match c.1 with | some x => decide (x.stateSeq < v.stateSeq) | none => true)
  if saved then
    match bit v.sections 4, v.tail with
    | true, some b => (some b, 0, v.time, v.time, c.2)
    | _, _ => (v.snapshot, 1, v.time, v.time, c.2)
  else
    match c.1 with
    | some x =>
      let loss := if s.svc.lossKept then s.getU K.LAST_LOSS
        else stampOf (nsOfStamp x.time + (s.getU K.CKPT_INTERVAL + 1) * 1000000)
      (x.body, 2, x.time, loss, c.2)
    | none => (none, 3, 0, 0, c.2)

/-- UNRECORDED_MAX of a point (R148). -/
def unrecordedMax (s : State) (p : Fin 8) (recovery loss : Nat) : Nat :=
  if recovery = 0 ∨ recovery = 3 then 0 else
  let pk := F32.toRat (s.getU (K.PEAK_STEP_P p))
  let dt := nsOfStamp loss - s.instant (s.getU (K.NET_INDEX p))
  (pk.num.toNat * dt + pk.den * 3600000 - 1) / (pk.den * 3600000)

/-- The newest index of the restored state (R358). -/
def newestIndex (s : State) : Nat := allPoints.foldl (fun m p => max m (s.getU (K.NET_INDEX p))) (s.getU K.TAIL_INDEX)

/-- The index of an RTC instant (R26). -/
def indexAt (s : State) (ns : Nat) : Nat := (((ns : Int) - s.getN K.INDEX_SHIFT) / 12500).toNat

/-- The RTC after a reset of the backup domain (R358): t_end, and past the newest index. -/
def restartRtc (s : State) (loss : Nat) : State :=
  let run := s.rtc - s.startup.started
  let t := nsOfStamp loss
  let t := if s.indexAt t ≤ s.newestIndex then s.instant (s.newestIndex + 1) else t
  { s with rtc := t, startup := { s.startup with started := t - run }, tamper := { s.tamper with backupLost := false } }

/-- TAMPER_STATUS and the marks are the OR of their two copies, LOCKDOWN of its own (R321, R346). -/
def restoreMarks (s : State) : State :=
  let st := s.tamper.backupStatus ||| s.tamper.nvStatus
  let mk := s.tamper.backupMarks ||| s.tamper.nvMarks
  let s := (s.put K.TAMPER_STATUS (st : Nat)).put K.TAMPER_MARKS (mk : Nat)
  let s := { s with tamper := { s.tamper with backupStatus := st, backupMarks := mk } }
  let s := forEach allSources (fun n s => s.syncSrc n) s
  if s.lockLatch || s.lockNvm then { s with modeNext := some .lockdown } else s

/-! ### PRIVILEGED_RESOLVED (Table 12.7, steps 5 to 7) -/

/-- A point starts on its configuration (R35, R94, R149, R155, R284). -/
def recallPoint (s : State) (p : Fin 8) : State :=
  let n := s.index + 1
  let a := s.configured p
  let lane := s.cfgLane p
  let phys := s.laneCarrier lane
  let s := s.updPoint p fun x => { x.restart (kindOf a.cfg) n with
    app := { a with lane := lane }, chans := Vector.replicate 7 Chan.init, closing := none, bound := ⟨0, none⟩, prevBound := ⟨0, none⟩
    events := Vector.replicate 17 Event.init, evCleared := 0, phys := phys, shadowed := 0, shWhole := false, warm := false, offFrom := none }
  let s := s.nominalFreq p n a.cfg
  let s := s.setN (K.TRACK_STATE p) (trackCode (trackOf (kindOf a.cfg)) : Nat)
  (s.tempRecall p).stepConstants p n

/-- Lanes after a power loss: no substitution runs, a lane under test stays retired (Table 01.8, R441). -/
def recallLanes (s : State) : State :=
  let s := { s with laneSub := none }
  forEach ([0, 1, 2, 3, 4] : List (Fin 5)) (fun l s => s.updLane l fun x =>
    let x := { x with ops := [], corrected1s := 0, worst1s := 0, latHigh := false, latHighLast := false }
    match x.state with
    | .shadowing => if l = 4 then { x with state := .idle } else { x with state := .retired }
    | .testing => { x with state := .retired }
    | _ => x) s

/-- An understudy at RECALL: a recorded substitution stands (R84); one that a string forced (R436), or that NVM does not hold, does not. -/
def recallSpare (s : State) (i : Fin 4) : State :=
  let x := s.spares[i]
  let back (s : State) : State := (s.updSpare i fun x => { x with state := .idle, forced := false, differing := 0, pending := false }).pairSpare i
  match x.state, x.home with
  | .serving, some h =>
    match chanOfPort ⟨h, by omega⟩ with
    | some (p, c) =>
      if x.forced then back (s.setN (K.PHYS_PORT p (c + 1)) (h.val : Nat))
      else if s.getU (K.PHYS_PORT p (c + 1)) = 56 + i.val then s.updSpare i fun x => { x with differing := 0, pending := false }
      else back s
    | none => s
  | _, _ => (s.updSpare i fun x => { x with differing := 0, pending := false }).pairSpare i

/-- Ports, clocks and understudies start (R58, R68). -/
def recallPorts (s : State) : State :=
  let s := { s with
    ports := Vector.replicate 60 Port.init, mclk := Vector.replicate 15 false, learned := Vector.replicate 15 false, blockNo := 0 }
  let s := forEach [0, 1, 2, 3] (fun i s => s.recallSpare i) s
  let s := forEach (List.finRange 60) (fun m s => if s.portUsed m then s.linkStart m else s) s
  s.clockGroups

/-- Pulse outputs are inactive, with the stored settings, which a write that still waited brings into force now (R141, R142). -/
def recallPulses (s : State) : State :=
  forEach allPoints (fun m s =>
    let cfg := s.getU (K.PULSE_CFG (m + 1))
    let q := pulseQuantum (s.getU (K.METER_CONST (m + 1)))
    let k : PulseKeep := ⟨s.getN (K.PULSE_ACC (m + 1)), s.getU (K.PULSE_COUNT (m + 1)), s.getU (K.PULSE_LOST (m + 1))⟩
    let s := s.updPulse m fun x => { x with
      cfg := cfg, quantum := q, phase := .idle, streamed := 0, closed := 0, activeLow := bit cfg 0, level := bit cfg 0, keep := k }
    s.applyPulse s.index m) s

/-- The recall checkpoint (R259). -/
def recallCkpt (s : State) : State :=
  let s := s.ckptBegin.ckptStored
  { s with startup := { s.startup with ckptWritten := true } }

/-- RECALL found the fuse set and a state from before sealing: it is zeroed, and a SEAL history not yet written is written (R355). -/
def finishSealing (s : State) (b : Body) : State :=
  if s.sealed = false then s else
  let s := if b.sealed then s else s.zeroRegisters
  if s.getN K.SEALED = (0 : Int) then
    forEach allPoints (fun p s => s.sealHistory p) ((s.setN K.SEALED 1).setN K.SEAL_TIME s.now)
  else s

/-- The energy state is restored from the newest state (R148): RECOVERY, UNRECORDED_MAX, SAVE_STATUS, and the stamps of the restored state. -/
def restoreEnergy (s : State) : State :=
  let f := s.newestState
  let s := if f.2.2.2.2 then s.consistency 0 256 else s
  let s := s.restore (f.1.getD Body.zero)
  let s := if f.2.1 = 3 then s.integrity 6 0 s.index else s
  let s := s.finishSealing (f.1.getD { Body.zero with sealed := s.sealed })
  let s := (s.setN K.RECOVERY (f.2.1 : Nat)).setN K.SAVE_STATUS (s.newestSave.sections : Nat)
  let s := forEach allPoints (fun p s => s.setN (K.UNRECORDED_MAX p) (s.unrecordedMax p f.2.1 f.2.2.2.1 : Nat)) s
  let s := { s with startup := { s.startup with stateTime := f.2.2.1, lossTime := f.2.2.2.1 } }
  let s := if s.tamper.backupLost ∧ f.2.1 ≠ 3 then s.restartRtc f.2.2.2.1 else { s with tamper := { s.tamper with backupLost := false } }
  { s with index := s.indexAt s.rtc - 1 }

/-- What of the latest save belongs to the restored state: S2, S3 and S5 of a save that is the newest state (R257, R308). -/
def saveInForce (s : State) : Option SaveArea := if s.newestState.2.1 ≤ 1 then some s.newestSave else none

/-- PRIVILEGED_RESOLVED (R261): journal, deferred decision, energy state, sessions, recall checkpoint, and everything that then starts. -/
def privilegedResolved (s : State) (time : Nat) (fault : Option Nat) : State :=
  if s.mode ≠ .recalling ∨ bit s.startup.steps 4 = false ∨ bit s.startup.steps 5 = true then s else
  let s := s.at' time
  let s := s.setN K.RECALL_PRIV_TIME ((min ((s.rtc - s.startup.started) / 1000) 65535 : Nat) : Int)
  let s := s.journalRecall
  let save := s.saveInForce
  let s := match save with
    | some v => if bit v.sections 3 then forEach v.deviceState (fun w s => s.applyDeviceState w) s else s
    | none => s
  let s := s.restoreMarks
  let s := s.deferredDecision fault
  let s := s.restoreEnergy
  let s := forEach allPoints (fun p s => s.sessionRestore p) s
  let s := s.interruptAll s.startup.stateTime s.startup.lossTime s.tamper.deferredSet s.tamper.deferredRef
  let s := s.demandRecall.recallCkpt
  let s := s.recallLanes
  let s := forEach allPoints (fun p s => s.recallPoint p) s
  let s := s.recallPorts.recallPulses
  let s := s.auxRecall.banksRecall
  let s2 : Option (Nat × List Int) := match save with | some v => if bit v.sections 2 then v.display else none | none => none
  let s := s.displayRecall s2 (if s.svc.lossKept then some (nsOfStamp (s.getU K.LAST_LOSS)) else none)
  let s := s.clearBand.makeTestKey.compose
  { s with startup := { s.startup with steps := s.startup.steps ||| (2 ^ 5 + 2 ^ 6 + 2 ^ 7) } }

/-! ### ORDINARY_RESOLVED, SELF_TESTS_DONE, RECALL_END, RECALL_TIMEOUT (Table 12.7, steps 10 to 12) -/

/-- A tally update that a power loss cut is rolled forward (R251): its value stands already, and the completion is counted. -/
def rollForward (s : State) : State :=
  match s.store.marker with
  | some _ => { s.setN K.RECALL_CARRIES ((satAdd 16 (s.getU K.RECALL_CARRIES) 1 : Nat) : Int) with store := { s.store with marker := none } }
  | none => s

/-- S5 of the save that was restored: events and tamper records not yet logged (Table 08.6). -/
def unloggedSaved (s : State) : State :=
  let v := s.newestSave
  if s.getN K.RECOVERY = 0 ∧ bit v.sections 5 = true then
    forEach v.records (fun j s => s.queueRecord j) { s with evq := v.events ++ s.evq }
  else s

/-- ORDINARY_RESOLVED (R261): tallies, record positions, sessions and the records of the deferred decision. -/
def ordinaryResolved (s : State) : State :=
  if s.mode ≠ .recalling ∨ bit s.startup.steps 7 = false ∨ bit s.startup.steps 11 = true then s else
  let s := s.rollForward
  let s := s.setN K.RECALL_SCAN_TIME ((min ((s.rtc - s.startup.started) / 1000) 65535 : Nat) : Int)
  let s := s.resolveRecords
  let s := s.unloggedSaved
  let s := s.recallSessions
  let s := s.writeDeferred
  let s := s.tallyStored
  { s with startup := { s.startup with steps := setBit s.startup.steps 11 } }

/-- L4 carries a worn lane's logical lane from RECALL on (R440). -/
def recallSub (s : State) (l : Fin 5) : State :=
  let lg := s.lanes[l].logical
  let k := match lg with | some x => x.val | none => 7
  let s := s.updLane 4 fun x => { x with state := .inService, logical := lg }
  let s := s.updLane l fun x => { x with state := .retired, logical := none, noSpare := false }
  let s := forEach allPoints (fun p s => if s.points[p].phys = l then s.updPoint p fun x => { x with phys := 4 } else s) s
  let s := s.setN K.SUB_COUNT (min (s.getN K.SUB_COUNT + 1) 4)
  let s := ((s.setN K.SUB_FROM (l.val : Nat)).setN K.SUB_INDEX (s.index : Nat)).setN K.SUB_TIME (s.stamp s.index : Nat)
  s.health 3 l k

/-- The retest of a worn or retired lane with 4,096 vectors (R440). -/
def retestLane (s : State) (r : Retest) : State :=
  let l := r.lane
  match s.lanes[l].state with
  | .worn =>
    let s := s.setN (K.LANE_RETEST (l + 1)) ((min r.corrections 65535 * 65536 + 0x1000 : Nat) : Int)
    if r.corrections = 0 then s.updLane l fun x => { x with state := .inService, noSpare := false, ops := [], corrected1s := 0 }
    else if l ≠ 4 ∧ s.lanes[(4 : Fin 5)].state = .idle then s.recallSub l
    else s
  | .retired => s.setN (K.LANE_RETEST (l + 1)) ((min r.corrections 65535 * 65536 + 0x1000 : Nat) : Int)
  | _ => s

/-- SELF_TESTS_DONE (R439, R440). `kat`: the known-answer test that failed; step 10 then stays incomplete. -/
def selfTestsDone (s : State) (retests : List Retest) (kat : Option Nat) : State :=
  if s.mode ≠ .recalling ∨ bit s.startup.steps 5 = false ∨ bit s.startup.steps 10 = true then s else
  let s := forEach retests (fun r s => s.retestLane r) s
  let s := if s.getN K.RNG_STATE = (1 : Int) then s.setN K.RNG_STATE 0 else s
  match kat with
  | some t => { s.health 20 0xFF t with svc := { s.svc with katBad := true } }
  | none => { s with startup := { s.startup with steps := setBit s.startup.steps 10 } }

/-- RECALL ends in METERING or LOCKDOWN (R345, R365). -/
def leaveRecall (s : State) : State :=
  let m : Mode := if s.decided = .lockdown then .lockdown else .metering
  let s := { s with mode := m, modeNext := none, modeHist := [(0, m)], startup := { s.startup with steps := setBit s.startup.steps 12 } }
  (s.setN K.RECALL_DURATION ((min ((s.rtc - s.startup.started) / 1000) 65535 : Nat) : Int)).compose

/-- The start-up steps that RECALL's end waits for. -/
def recallSteps : List Nat := [3, 4, 5, 6, 7, 10, 11]

/-- RECALL_END: steps 3 to 12 are complete. -/
def recallEnd (s : State) : State :=
  if s.mode = .recalling ∧ recallSteps.all (fun i => bit s.startup.steps i) = true then s.leaveRecall else s

/-- RECALL_TIMEOUT: RECALL has not ended 50 ms after it began (R367). -/
def recallTimeout (s : State) : State :=
  if s.mode ≠ .recalling then s else
  let first := (recallSteps.find? fun i => !(bit s.startup.steps i)).getD 12
  (s.integrity 7 first s.index).leaveRecall

/-! ### Power loss (R260, R363) -/

/-- What a power loss leaves (Table 08.7): NVM, fuses and the backup domain; everything in SRAM is gone. -/
def powerLost (s : State) : State :=
  let s := s.cutJobs.sessionsLost
  let s := s.revertDevice s.uncommitted
  let tally := match s.store.marker with
    | some (k, _, v) => insertL k v s.store.tally
    | none => s.store.tally
  { s with
    nums := tally.foldl (fun (l : List (Nat × Int)) (e : Nat × Int) => putL (dfltN e.1) e.1 e.2 l) (s.nums.filter fun e => isKept e.1)
    blobs := s.blobs.filter fun e => !isVolatile e.1
    store := { s.store with tally := tally, writing := none }
    mode := .dormant, attended := false, modeNext := none, modeHist := [], timeStepNext := 0, startup := RecallSt.init, twins := []
    evq := [], evOver := [], merges := [], journal := { s.journal with waiting := [] }
    spi := LinkSt.init, can := LinkSt.init, bus := { CanSt.init with nodeActive := s.bus.nodeActive, timingActive := s.bus.timingActive, baseActive := s.bus.baseActive }
    stream := Stream.init, tab := none, heldBatches := [], cal := (match s.cal with | some r => if r.committed then some r else none | none => none), auxRun := none, convs := Vector.replicate 8 Conv.init, couples := Vector.replicate 3 Couple.init, thb := Thiber.init, mclk := Vector.replicate 15 false
    stringReads := Vector.replicate 8 0, svc := { ModeSt.init with lossKept := s.svc.lossKept }
    tamper := { s.tamper with run := none, deferred := [] } }

/-! ### Power-fail detection (R146, R257, R258, R331, R361 to R363) -/

/-- Device-state changes that no commit group holds yet, for section S3. -/
def pendingDeviceState (s : State) : List EntryWrite :=
  s.uncommitted.flatMap fun u => match u.owner with
    | .device _ => u.writes
    | .lockState on => [⟨K.MODE, .num (if on then 5 else 2)⟩]
    | _ => []

/-- The save area of this save. -/
def saveSlot (s : State) : Fin 2 := ⟨s.getU K.SAVE_SEQ % 2, by omega⟩

/-- The state with this save's area changed. -/
def updSave (s : State) (f : SaveArea → SaveArea) : State :=
  { s with store := { s.store with saves := s.store.saves.set s.saveSlot (f s.store.saves[s.saveSlot]) } }

/-- The start of the hold-up save at D: snapshot, display and device state, sections S0 to S3 (Tables 04.4 and 08.6). -/
def saveBegin (s : State) : State :=
  let v : SaveArea :=
    ⟨15, s.getU K.STATE_SEQ + 1, s.getU K.SAVE_SEQ, s.now, s.index, some (s.capture false), none, some (s.disp.shown, s.disp.ledger), s.pendingDeviceState, [], []⟩
  s.updSave fun _ => v

/-- Shadowing stops at power-fail detection (Table 01.8). -/
def stopShadow (s : State) : State :=
  match s.laneSub with
  | some sub => { s.updLane sub.shadow fun x => { x with state := if sub.restore then .retired else .idle } with laneSub := none }
  | none => s

/-- Power-fail detection stamps the loss (R361). -/
def stampLoss (s : State) : State :=
  let s := (s.setN K.LAST_LOSS s.now).addSat 32 K.POWER_LOSS_COUNT 1
  { s with svc := { s.svc with lossKept := true } }

/-- POWER_FAIL_DETECT; `clampNs`: from detection to the display's clamp (R307). -/
def powerFail (s : State) (time clampNs : Nat) : State :=
  match s.mode with
  | .dormant => s
  | .holdup => s
  | m =>
    let s := s.at' time
    let s := s.stampLoss
    let s := s.displayClamp ((s.rtc + clampNs - s.disp.frameStart + 50000) / 100000)
    if m = .recalling ∧ s.startup.ckptWritten = false then s.stopMain.powerLost else
    let s := { s with mode := .holdup, modeNext := none, attended := false }
    let s := s.setN K.HOLDUP_LAST s.now
    let s := (s.pulsesOff.slackAll.calAbort.auxPowerFail.stopShadow).abortSeal 9
    let s := s.stopMain.closeTableau
    let s := { s with store := { s.store with writing := none }, stream := Stream.init, twins := [] }
    s.saveBegin

/-- The forced step of a point (R146). -/
def forcedStepPoint (s : State) (p : Fin 8) : State :=
  let s := if s.points[p].closing.isSome then s.nettingStep p else s
  let x := s.points[p]
  let kind := kindOf x.app.cfg
  if kind = 0 then s else
  let h := s.tailH
  let stop := if x.app.osr500 then h / 2 * 2 + 2 else h + 1
  let s := s.closePulses p
  if x.inStep = false then (s.correctPulses p stop 0 0).endAllEvents p stop
  else if x.step.m = 0 then s.endAllEvents p stop
  else
    let cl : Closing := ⟨⟨stop, none⟩, true, x.step, x.ke, x.kl, x.tUsed, x.rUsed, x.tFallback, x.cable, x.cycle, x.bound⟩
    let qt := if isAc kind && decide (x.mLast ≠ 0) then roundUp (x.qtLast * x.step.m) x.mLast else 0
    let r := s.bookStep p cl qt
    ((r.1.sessionStep p r.2).reversePower p r.2).endAllEvents p stop

/-- At most 64 items of 32 bytes fit S5. -/
def saveItems : Nat := 64

/-- The event and tamper records that no copy slot holds yet, as S5 takes them: those that wait, the one being written too (Table 08.6). -/
def unlogged (s : State) : List RecJob :=
  (s.jobs.filter fun j => decide (j.copies = 0) && (decide (j.log = LogKind.tamper) || decide (j.log = LogKind.event))).map fun j =>
    { j with seq := none }

/-- FORCED_STEP: every point's running step is booked, and the tail is written: sections S4 and S5, and what of the device state has changed since
(R146, Table 08.6). -/
def forcedStep (s : State) : State :=
  let v := s.store.saves[s.saveSlot]
  if s.mode ≠ .holdup ∨ bit v.sections 1 = false ∨ bit v.sections 4 = true then s else
  let s := forEach allPoints (fun p s => s.forcedStepPoint p) s
  let s := s.setN K.TAIL_INDEX (s.tailH : Nat)
  let ev := (s.evq ++ s.evOver).take saveItems
  let rec' := s.unlogged.take saveItems
  let ev := ev.take (saveItems - rec'.length)
  let b := s.capture true
  let dev := s.pendingDeviceState
  s.updSave fun v => { v with sections := v.sections ||| (16 + 32), tail := some b, events := ev, records := rec', deviceState := dev }

/-- The save counts once its section S0 is valid (R256, R257). -/
def saveCounts (s : State) : State :=
  let v := s.store.saves[s.saveSlot]
  if bit v.sections 0 then (s.setN K.STATE_SEQ (v.stateSeq : Nat)).setN K.SAVE_SEQ (wrapAdd 32 v.seq 1 : Nat) else s

/-- HOLDUP_SAVE_COMPLETE: the tallies are written, the end group closes the save, and the device is DORMANT (R343). -/
def saveComplete (s : State) : State :=
  if s.mode ≠ .holdup ∨ bit s.store.saves[s.saveSlot].sections 4 = false then s else
  let s := s.tallyStored
  let s := s.updSave fun v => { v with sections := v.sections ||| 64 }
  let s := s.setN K.HOLDUP_DURATION ((min ((s.rtc - nsOfStamp (s.getU K.HOLDUP_LAST)) / 1000) 65535 : Nat) : Int)
  s.saveCounts.powerLost

/-- The value of a key in a list of tallies, or its default. -/
def tallyOf (l : List (Nat × Int)) (k : Nat) : Int := (lookupL l k).getD (dfltN k)

/-- The tally counters whose NVM copy is behind, in ascending key, with old and new value. -/
def tallyBehind (s : State) : List (Nat × Int × Int) :=
  let now := s.tallies
  let keys := (now.map (·.1)) ++ ((s.store.tally.map (·.1)).filter fun k => (lookupL now k).isNone)
  (keys.map fun k => (k, tallyOf s.store.tally k, tallyOf now k)).filter fun e => e.2.1 ≠ e.2.2

/-- The highest byte in which two 56-bit values differ (R250). -/
def highByte (v w : Int) : Nat :=
  ((List.range 7).filter fun i => v.toNat / 256 ^ i % 256 ≠ w.toNat / 256 ^ i % 256).foldl max 0

/-- The tally updates of a save that is cut (R250, R257): `done` counters are written whole, `groups` cycles of the next one follow, and the
rest is dropped and counted. -/
def cutTallies (s : State) (done groups : Nat) : State :=
  let behind := s.tallyBehind
  let written := (behind.take done).foldl (fun (l : List (Nat × Int)) e => putL (dfltN e.1) e.1 e.2.2 l) s.store.tally
  let rest := behind.drop done
  let begun := decide (1 ≤ groups)
  let next : List (Nat × Int) × Option (Nat × Nat × Int) × Nat := match rest with
    | [] => (written, none, 0)
    | e :: r =>
      if begun then
        (let h := highByte e.2.1 e.2.2
         if h = 0 then (putL (dfltN e.1) e.1 e.2.2 written, none, r.length) else (written, some (e.1, h, e.2.2), r.length))
      else (written, none, rest.length)
  let dropped := (tallyOf next.1 K.TALLY_DROPPED).toNat
  { s with store := { s.store with
    tally := if next.2.2 = 0 then next.1 else insertL K.TALLY_DROPPED ((satAdd 32 dropped next.2.2 : Nat) : Int) next.1, marker := next.2.1 } }

/-- WRITE_INHIBIT: no further group cycle starts (R230); in HOLDUP this cuts the save. `items`: the sections S0 to S5 and then the tally
counters written; `groups`: the cycles of the next one. -/
def writeInhibited (s : State) (items groups : Nat) : State :=
  let s := { s with nvm := { s.nvm with writeInhibit := true } }
  if s.mode ≠ .holdup then s else
  let s := s.updSave fun v => { v with sections := v.sections % 2 ^ (min items 6) }
  let s := if items < 6 ∨ bit s.store.saves[s.saveSlot].sections 5 = false then s.cutTallies 0 0 else s.cutTallies (items - 6) groups
  s.saveCounts.powerLost

end State

end Sys2Proof.Machine
end

