-- ==== Sys2Proof/Machine/Thiber.lean ====
section
/-! DEFINITION. Machine/Thiber.lean: the Thiber engine: ports and frames, census and numbering, joins, time, the site tableau and virtual
points (R402 to R429). Port 0 is the upstream port, ports 1 to 3 the downstream ports 0 to 2. -/

namespace Sys2Proof.Machine

open Sys2Proof

/-- The downstream ports. -/
def downPorts : List (Fin 4) := [1, 2, 3]

/-- A timestamp (R412) in units of 0.25 ns. -/
def linkQuarter (t : Nat) : Int := ((t / 65536 * 50000 + t % 65536 : Nat) : Int)

/-- T1 and T3 of a frame sent on cycle 0 of a period (R412). -/
def linkStamp (n : Nat) : Nat := n * 65536 + 4400

/-- Whether two blocks of unit numbers share a number. -/
def blocksMeet (f n g m : Nat) : Bool := decide (f < g + m) && decide (g < f + n)

namespace State

/-! ### Ports and frames (R402 to R407) -/

/-- The state with one port changed. -/
def updThb (s : State) (k : Fin 4) (f : ThbPort → ThbPort) : State := { s with thb := { s.thb with ports := s.thb.ports.set k (f s.thb.ports[k]) } }

/-- The state with the time servo changed. -/
def updTime (s : State) (f : ThbTime → ThbTime) : State := { s with thb := { s.thb with time := f s.thb.time } }

/-- Whether the engine runs: from start-up step 5 on, until power-fail detection (R408, R427). -/
def thbOn (s : State) : Bool := s.serves || (decide (s.mode = Mode.recalling) && bit s.startup.steps 5)

/-- PORT_EN of a port. -/
def portEnabled (s : State) (k : Fin 4) : Bool := bit (s.getU K.THB_CFG) k

/-- ROOT of THB_CFG. -/
def isRoot (s : State) : Bool := bit (s.getU K.THB_CFG) 4

/-- Whether this device is a MEMBER. -/
def isMember (s : State) : Bool := s.getN K.ROLE = 2

/-- Whether a port is UP. -/
def isUp (s : State) (k : Fin 4) : Bool := decide (s.thb.ports[k].state = ThbState.up)

/-- Whether a child is PRESENT. -/
def present (s : State) (k : Fin 4) : Bool := s.thb.ports[k].child.state = 2

/-- Whether any child is PRESENT: a lead (R404). -/
def isLead (s : State) : Bool := downPorts.any fun k => s.present k

/-- A frame (Table 14.2) leaves a port. -/
def sendRaw (s : State) (k : Fin 4) (type : Nat) (payload : List Byte) : State :=
  let x := s.thb.ports[k]
  let b := leBytes 1 type ++ leBytes 1 x.txSeq ++ leBytes 2 payload.length ++ payload
  s.updThb k fun x => { x with txSeq := wrapAdd 8 x.txSeq 1, tx := b ++ leBytes 4 (crc32c b) }

/-- A frame other than TRAIN leaves an UP port; a ROOT sends only TRAIN upstream (R403). -/
def sendFrame (s : State) (k : Fin 4) (type : Nat) (payload : List Byte) : State :=
  if s.isUp k = false ∨ (k = 0 ∧ s.isRoot = true) then s else s.sendRaw k type payload

/-- A frame to every UP child. -/
def sendDown (s : State) (type : Nat) (payload : List Byte) : State := forEach downPorts (fun k s => s.sendFrame k type payload) s

/-- An intrusion (R429). -/
def intrusion (s : State) (kind : Nat) (k : Fin 4) : State :=
  let s := ((s.addSat 32 K.INTRUSION_COUNT 1).setN K.INTRUSION_LAST ((kind * 256 + k.val : Nat) : Int)).setN K.INTRUSION_TIME s.now
  s.source 14 0

/-- PORT_STATE of a port (Table 14.13). -/
def portWord (s : State) (k : Fin 4) : Nat :=
  let x := s.thb.ports[k]
  x.lastDown * 256 + 8 * natOfBool (decide (leNat (s.getB (K.PEER_PIN (k + 1))) ≠ 0)) + x.state.code

/-! ### The own census entry (R404, R408, R411) -/

/-- MEMBERS and DEPTH_BELOW follow the children; the site's figures stand at the top (R408, Table 14.9). -/
def refreshMembers (s : State) : State :=
  let kids := downPorts.filter fun k => s.present k
  let m := kids.foldl (fun n k => n + s.thb.ports[k].child.members) 1
  let d := kids.foldl (fun n k => max n (s.thb.ports[k].child.depthBelow + 1)) 0
  let s := (s.setN K.MEMBERS (m : Nat)).setN K.DEPTH_BELOW (d : Nat)
  if s.isMember then (s.setN K.SITE_MEMBERS 0).setN K.SITE_DEPTH 0 else (s.setN K.SITE_MEMBERS (m : Nat)).setN K.SITE_DEPTH (d : Nat)

/-- FLAGS of the own entry (Table 14.5). -/
def censusFlags (s : State) : Nat :=
  let kids := downPorts.filter fun k => s.present k
  let any (i : Nat) : Bool := kids.any fun k => bit s.thb.ports[k].child.flags i
  let lost := (downPorts.any fun k => let c := s.thb.ports[k].child; decide (c.state = 3 ∨ c.state = 4)) || any 3
  natOfBool (s.sealed && kids.all fun k => bit s.thb.ports[k].child.flags 0) + 2 * natOfBool (decide (s.mode = Mode.lockdown) || any 1)
    + 4 * natOfBool (s.taut || any 2) + 8 * natOfBool lost

/-- POINTS of the own entry: real points of a single device, virtual points of a lead. -/
def censusPoints (s : State) : Nat :=
  (allPoints.map fun (p : Fin 8) =>
    if s.isLead then (if s.getN (K.VP_SEL (p + 1)) ≠ 0 then 2 ^ p.val else 0)
    else if kindOf s.points[p].app.cfg ≠ 0 then 2 ^ p.val else 0).sum

end State

/-- A census entry as bytes (Table 14.5). -/
def ChildEntry.bytes (c : ChildEntry) : List Byte :=
  c.serial.take 8 ++ List.replicate (8 - c.serial.length) 0 ++ leBytes 2 c.members ++ leBytes 1 c.depthBelow ++ leBytes 1 c.points
    ++ leBytes 2 c.unitNo ++ leBytes 1 c.state ++ leBytes 1 c.flags

namespace State

/-- CENSUS upward (R410, R411). -/
def sendCensus (s : State) : State :=
  let e : ChildEntry :=
    ⟨s.getB K.SERIAL, s.getU K.MEMBERS, s.getU K.DEPTH_BELOW, s.censusPoints, s.getU K.UNIT_NO, 2, s.censusFlags⟩
  s.sendFrame 0 0x11 (e.bytes ++ leBytes 2 (s.getU K.PREV_FIRST))

/-- A change of the own census content goes upward once the first CENSUS has been sent. -/
def resendCensus (s : State) : State := if s.thb.census then s.sendCensus else s

/-! ### Numbering (R409) -/

/-- A child receives its block. -/
def numberChild (s : State) (k : Fin 4) (first depth : Nat) : State :=
  let m := s.thb.ports[k].child.members
  let s := s.updThb k fun x => { x with child := { x.child with unitNo := first } }
  s.sendFrame k 0x12 (leBytes 2 first ++ leBytes 2 m ++ leBytes 1 depth)

/-- A child receives no block: its port becomes REFUSED. -/
def refuseChild (s : State) (k : Fin 4) : State :=
  s.updThb k fun x => { x with state := .refused, child := { x.child with state := 5, unitNo := 0xFFFF } }

/-- The PRESENT children receive consecutive blocks in port order. -/
def numberChildren (s : State) (first depth : Nat) : State :=
  let r := downPorts.foldl (fun (acc : State × Nat) k =>
    let s := acc.1
    if s.present k then
      let c := s.thb.ports[k].child
      if 15 < depth + 1 + c.depthBelow ∨ 4095 < acc.2 + c.members - 1 then (s.refuseChild k, acc.2)
      else
        let s := s.numberChild k acc.2 (depth + 1)
        ({ s with thb := { s.thb with blocks := s.thb.blocks ++ [(acc.2, c.members, k.val)] } }, acc.2 + c.members)
    else acc) ({ s with thb := { s.thb with blocks := [] } }, first + 1)
  r.1.refreshMembers

/-- Whether every enabled downstream port has its outcome (R408, step 1). -/
def allKnown (s : State) : Bool := downPorts.all fun k => !(s.portEnabled k) || s.thb.ports[k].known

/-- Whether this device is the top of its tree: a ROOT, or no MEMBER with nothing above it (R403). -/
def isTop (s : State) : Bool := s.isRoot || (!(s.isMember) && !(s.isUp 0))

/-- The time from RECALL's begin, in µs (CENSUS_TIME). -/
def sinceRecall (s : State) : Nat := (s.rtc - s.startup.started) / 1000

/-- The top completes its census when it has every outcome, and numbers the tree (R408, step 3). -/
def censusCheck (s : State) : State :=
  if s.serves = true ∧ s.thb.complete = false ∧ s.isTop = true ∧ s.allKnown = true then
    let s := { s with thb := { s.thb with complete := true, census := true } }
    let s := ((s.setN K.CENSUS_TIME (s.sinceRecall : Nat)).setN K.UNIT_NO 0).setN K.DEPTH 0
    s.numberChildren 0 0
  else s

/-! ### Links up and down (R406, R427, R429) -/

/-- The port is UP when each end has received a TRAIN with ACK; an empty PEER_PIN learns the peer. -/
def tryUp (s : State) (k : Fin 4) : State :=
  let x := s.thb.ports[k]
  if x.state = .training ∧ x.gotAck = true ∧ x.sentAck = true then
    let s := s.updThb k fun x => { x with state := .up }
    if leNat (s.getB (K.PEER_PIN (k + 1))) = 0 then s.setB (K.PEER_PIN (k + 1)) (s.getB (K.PEER_SERIAL (k + 1))) else s
  else s

/-- A member leaves LOCKED. -/
def lockLost (s : State) : State := if s.getN K.TIME_STATE = 3 then s.addSat 32 K.LOCK_LOSSES 1 else s

/-- The upstream link of a MEMBER is lost: ALONE, in HOLDOVER where it was LOCKED (R427). -/
def upstreamLost (s : State) : State :=
  if s.isMember = false then s else
  let held := s.getN K.TIME_STATE = 3 ∨ s.getN K.TIME_STATE = 4
  let s := s.lockLost.setN K.TIME_STATE (if held then 4 else 0)
  ({ (s.setN K.ROLE 0).setN K.DEPTH 0 with thb := { s.thb with joins := [], complete := true } }).refreshMembers

/-- A PRESENT child is lost: LEFT, and the change goes upward (R427). -/
def childLost (s : State) (k : Fin 4) : State :=
  if s.present k then ((s.updThb k fun x => { x with child := { x.child with state := 4 }, ack := none }).refreshMembers).resendCensus else s

/-- LINK_DOWN: a port goes DOWN and will train again. -/
def linkDown (s : State) (k : Fin 4) (reason : Nat) : State :=
  let x := s.thb.ports[k]
  if s.thbOn = false ∨ x.state = .disabled ∨ x.state = .down then s else
  let was := decide (x.state = ThbState.up ∨ x.state = ThbState.refused)
  let s := if was then s.addSat 32 (K.LINK_DOWNS (k + 1)) 1 else s
  let s := s.updThb k fun x =>
    { x with state := .down, lastDown := reason % 8, gotTrain := false, gotAck := false, sentAck := false, rxSeq := none, discards := 0 }
  if k = 0 then s.upstreamLost else s.childLost k

/-- A discarded frame; sixteen in a row take the link down (R406). -/
def discard (s : State) (k : Fin 4) : State :=
  let s := s.updThb k fun x => { x with discards := x.discards + 1 }
  if 16 ≤ s.thb.ports[k].discards then s.linkDown k 3 else s

/-- CORRUPTED_LINK_FRAME (R407). -/
def corruptedFrame (s : State) (k : Fin 4) : State :=
  if s.thbOn = false ∨ s.thb.ports[k].state = .disabled then s else (s.addSat 32 (K.LINK_ERRORS (k + 1)) 1).discard k

/-- The SEQ of a frame (R407): a duplicate is discarded, a jump counted. Answers whether the frame goes on. -/
def takeSeq (s : State) (k : Fin 4) (seq : Nat) : Bool × State :=
  let x := s.thb.ports[k]
  match x.rxSeq with
  | some q =>
    if q = seq % 256 then (false, s.discard k)
    else
      let s := if seq % 256 = wrapAdd 8 q 1 then s else s.addSat 32 (K.LINK_GAPS (k + 1)) 1
      (true, s.updThb k fun x => { x with rxSeq := some (seq % 256), discards := 0 })
  | none => (true, s.updThb k fun x => { x with rxSeq := some (seq % 256), discards := 0 })

/-- A frame other than TRAIN arrives on an UP port. `up`: its type goes upward, so it is right on a downstream port only (R429). -/
def receive (s : State) (k : Fin 4) (seq : Nat) (up : Bool) (f : State → State) : State :=
  if s.thbOn = false ∨ s.isUp k = false then s else
  let r := s.takeSeq k seq
  if r.1 = false then r.2
  else if up = decide (k = (0 : Fin 4)) then (r.2.intrusion 3 k).discard k
  else f r.2

/-- TRAIN (R406, R429). -/
def train (s : State) (k : Fin 4) (seq : Nat) (serial : List Byte) (ack root : Bool) : State :=
  if s.thbOn = false ∨ s.thb.ports[k].state = .disabled then s else
  let r := s.takeSeq k seq
  if r.1 = false then r.2 else
  let s := r.2
  let s := if s.thb.ports[k].state = .down then s.updThb k fun x => { x with state := .training } else s
  let seen := s.thb.ports[k].gotTrain && decide (leNat (s.getB (K.PEER_SERIAL (k + 1))) = leNat (serial.take 8))
  let pin := s.getB (K.PEER_PIN (k + 1))
  let s := s.setB (K.PEER_SERIAL (k + 1)) (leBytes 8 (leNat (serial.take 8)))
  let s := s.updThb k fun x => { x with gotTrain := true, gotAck := x.gotAck || ack }
  let linked := (decide (k ≠ 0) && root) || (decide (k = 0) && s.isRoot)
  if linked then
    if s.thb.ports[k].state = .refused then s
    else
      let s := (s.intrusion 4 k).updThb k fun x => { x with state := .refused }
      if k = 0 then s.upstreamLost else s.childLost k
  else
    let strange := !seen && decide (leNat pin ≠ 0) && decide (leNat pin ≠ leNat (serial.take 8))
    let s := if strange then s.intrusion 1 k else s
    if strange && bit (s.getU K.THB_CFG) 5 then
      let s := s.updThb k fun x => { x with state := .refused }
      if k = 0 then s.upstreamLost else s.childLost k
    else s.tryUp k

/-- TRAIN_SEND (R406). -/
def trainSend (s : State) (k : Fin 4) : State :=
  if s.thbOn = false ∨ s.thb.ports[k].state = .disabled then s else
  let s := if s.thb.ports[k].state = .down then s.updThb k fun x => { x with state := .training } else s
  let ack := s.thb.ports[k].gotTrain
  let s := s.sendRaw k 0x01 (s.getB K.SERIAL ++ leBytes 4 (s.getU K.KEY_ID) ++ leBytes 1 (if k = 0 then 0 else 1) ++ leBytes 1 (natOfBool ack)
    ++ leBytes 1 (natOfBool s.isRoot))
  (s.updThb k fun x => { x with sentAck := x.sentAck || ack }).tryUp k

/-- THB_CFG takes hold: ports and role (R402, R403). -/
def thbConfig (s : State) : State :=
  let s := forEach ([0, 1, 2, 3] : List (Fin 4)) (fun k s =>
    let x := s.thb.ports[k]
    if s.portEnabled k then (if x.state = .disabled then s.updThb k fun x => { x with state := .training } else s)
    else if x.state = .disabled then s
    else
      let s := if k = 0 then s.upstreamLost else s.childLost k
      s.updThb k fun x => { ThbPort.init with state := .disabled, lastDown := x.lastDown, child := x.child, known := x.known }) s
  if s.isRoot then
    if s.getN K.ROLE = 1 then s
    else (((s.setN K.ROLE 1).setN K.TIME_STATE 5).setN K.PULL (s.getN K.ROOT_PULL)).refreshMembers
  else if s.getN K.ROLE = 1 then (s.setN K.ROLE 0).setN K.TIME_STATE 0
  else s

/-- Training begins at start-up step 5 (R408). -/
def thbRecall (s : State) : State :=
  let s := { s with thb := { Thiber.init with ports := Vector.ofFn fun k =>
    { ThbPort.init with state := if s.portEnabled k then .training else .disabled } } }
  s.thbConfig

/-! ### Joins (R428) -/

/-- Whether the block of `n` numbers from `f` is free at the top for a unit below port `k`: it meets no block, or it lies within a block of
that port whose units present leave room for it. `direct`: the unit is the child itself. -/
def blockFree (s : State) (f n : Nat) (k : Fin 4) (direct : Bool) : Bool :=
  let mine := s.thb.blocks.filter fun b => b.2.2 = k.val
  let total := mine.foldl (fun a b => a + b.2.1) 0
  let used := if direct ∨ s.present k = false then 0 else s.thb.ports[k].child.members
  decide (1 ≤ f) && decide (f + n ≤ 4096)
    && (s.thb.blocks.all (fun b => !(blocksMeet f n b.1 b.2.1))
        || (mine.any (fun b => decide (b.1 ≤ f) && decide (f + n ≤ b.1 + b.2.1)) && decide (used + n ≤ total)))

/-- The lowest block of `n` numbers that meets no block. -/
def lowestFree (s : State) (n : Nat) : Option Nat :=
  let starts := 1 :: (s.thb.blocks.map fun b => b.1 + b.2.1)
  let ok := starts.filter fun f => decide (f + n ≤ 4096) && s.thb.blocks.all fun b => !(blocksMeet f n b.1 b.2.1)
  ok.foldl (fun (m : Option Nat) f => match m with | some x => some (min x f) | none => some f) none

/-- The top grants a block or refuses (R428, step 3); `direct`: the unit is the child on the port. -/
def grantAt (s : State) (k : Fin 4) (serial : List Byte) (members prevFirst : Nat) (direct : Bool) : State :=
  let pick := if s.blockFree prevFirst members k direct then some prevFirst else s.lowestFree members
  match pick with
  | some f =>
    let inside := s.thb.blocks.any fun b => decide (b.2.2 = k.val) && decide (b.1 ≤ f) && decide (f + members ≤ b.1 + b.2.1)
    let s := s.addSat 32 K.JOIN_COUNT 1
    let s := if inside then s else { s with thb := { s.thb with blocks := s.thb.blocks ++ [(f, members, k.val)] } }
    if direct then (s.numberChild k f (s.getU K.DEPTH + 1)).refreshMembers
    else s.sendFrame k 0x51 (serial ++ leBytes 2 f ++ leBytes 1 0)
  | none =>
    let s := (s.addSat 32 K.JOIN_REFUSED 1).sendFrame k 0x51 (serial ++ leBytes 2 0xFFFF ++ leBytes 1 1)
    if direct then (s.updThb k fun x => { x with child := { x.child with state := 5 } }).refreshMembers else s

/-- A late CENSUS on port `k` is a join (Table 14.8): decided at the top, forwarded elsewhere; a depth beyond 15 is refused here. -/
def startJoin (s : State) (k : Fin 4) : State :=
  let c := s.thb.ports[k].child
  if 15 < s.getU K.DEPTH + 1 + c.depthBelow then
    let s := s.sendFrame k 0x51 (c.serial ++ leBytes 2 0xFFFF ++ leBytes 1 2)
    let s := if s.isTop then s.addSat 32 K.JOIN_REFUSED 1 else s
    (s.refuseChild k).refreshMembers
  else if s.isTop then s.grantAt k c.serial c.members s.thb.ports[k].prevFirst true
  else
    let s := { s with thb := { s.thb with joins := (s.thb.joins.filter fun (j : List Byte × Nat) => decide (j.1 ≠ c.serial)) ++ [(c.serial, k.val)] } }
    s.sendFrame 0 0x50 (c.serial ++ leBytes 2 c.members ++ leBytes 2 s.thb.ports[k].prevFirst)

/-- CENSUS of a child (R408, R410, R411). -/
def census (s : State) (k : Fin 4) (f : CensusFrame) : State :=
  let x := s.thb.ports[k]
  let late := x.known && decide (x.child.state ≠ 2)
  let unit := if x.known && decide (x.child.state = 2) then x.child.unitNo else 0xFFFF
  let c : ChildEntry := ⟨leBytes 8 (leNat (f.serial.take 8)), f.members, f.depthBelow, f.points, unit, 2, f.flags⟩
  let s := s.updThb k fun x => { x with known := true, child := c, prevFirst := f.prevFirst }
  let s := s.refreshMembers
  if late ∨ (s.thb.complete = true ∧ unit = 0xFFFF) then (s.startJoin k).resendCensus
  else if s.thb.census then (if c = x.child then s else s.resendCensus)
  else s.censusCheck

/-- CENSUS_TIMEOUT: a port's outcome is ABSENT where its link trained and NONE where not (R408, step 1). -/
def censusTimeout (s : State) (k : Fin 4) (trained : Bool) : State :=
  if s.serves = false ∨ k = 0 ∨ s.thb.ports[k].known = true ∨ s.portEnabled k = false then s
  else (s.updThb k fun x => { x with known := true, child := { x.child with state := if trained || s.isUp k then 3 else 0 } }).censusCheck

/-- PENDING of a child. -/
def pendingFrom (s : State) (k : Fin 4) : State :=
  if s.thb.ports[k].known then s else s.updThb k fun x => { x with child := { x.child with state := 1 } }

/-- PENDING_SEND: until CENSUS is sent (R408, step 2). -/
def pendingSend (s : State) : State := if s.serves = true ∧ s.thb.census = false then s.sendFrame 0 0x10 [] else s

/-- CENSUS_SEND: with every outcome known, the first CENSUS goes upward (R408, step 2). -/
def censusSend (s : State) : State :=
  if s.serves = true ∧ s.isUp 0 = true ∧ s.isRoot = false ∧ s.allKnown = true then
    let s := if s.thb.census then s else s.setN K.CENSUS_TIME (s.sinceRecall : Nat)
    { s.refreshMembers.sendCensus with thb := { s.refreshMembers.sendCensus.thb with census := true } }
  else s

/-- JOIN from below (R428). -/
def joinFrom (s : State) (k : Fin 4) (serial : List Byte) (members prevFirst : Nat) : State :=
  if s.isTop then s.grantAt k serial members prevFirst false
  else
    let s := { s with thb := { s.thb with joins := (s.thb.joins.filter fun (j : List Byte × Nat) => decide (j.1 ≠ serial)) ++ [(serial, k.val)] } }
    s.sendFrame 0 0x50 (serial ++ leBytes 2 members ++ leBytes 2 prevFirst)

/-- GRANT from above (R428, step 4): to this unit itself, to a child, or further down. -/
def grantFrom (s : State) (serial : List Byte) (first reason : Nat) : State :=
  if serial = s.getB K.SERIAL then { s with thb := { s.thb with refused := decide (reason ≠ 0) } } else
  match s.thb.joins.find? fun (j : List Byte × Nat) => decide (j.1 = serial) with
  | none => s
  | some j =>
    let s := { s with thb := { s.thb with joins := s.thb.joins.filter fun (j : List Byte × Nat) => decide (j.1 ≠ serial) } }
    let k : Fin 4 := ⟨j.2 % 4, by omega⟩
    let c : ChildEntry := s.thb.ports[k].child
    if c.serial = serial then
      if reason = 0 then (s.numberChild k first (s.getU K.DEPTH + 1)).refreshMembers
      else
        let s := s.sendFrame k 0x51 (serial ++ leBytes 2 0xFFFF ++ leBytes 1 reason)
        ((s.updThb k fun x => { x with child := { x.child with state := 5 } }).refreshMembers).resendCensus
    else s.sendFrame k 0x51 (serial ++ leBytes 2 first ++ leBytes 1 reason)

/-- JOIN_RETRY: a refused unit asks again (R428). -/
def joinRetry (s : State) : State := if s.serves = true ∧ s.thb.refused = true then s.sendCensus else s

/-! ### Time (R412 to R419) -/

end State

/-- An index moved by a rebase. -/
def shiftIdx (d : Int) (n : Nat) : Nat := ((n : Int) + d).toNat

/-- A boundary moved by a rebase. -/
def Boundary.shift (b : Boundary) (d : Int) : Boundary :=
  ⟨shiftIdx d b.idx, b.crossing.map fun (c : Nat) => ((c : Int) + d * 65536).toNat⟩

/-- The sums of a step moved by a rebase. -/
def StepSum.shift (x : StepSum) (d : Int) : StepSum := { x with startIdx := shiftIdx d x.startIdx, lastIdx := shiftIdx d x.lastIdx }

/-- The samples of a trail moved by a rebase. -/
def shiftTrail (d : Int) (l : List Trail) : List Trail := l.map fun (t : Trail) => { t with idx := shiftIdx d t.idx }

/-- A window's boundaries moved by a rebase. -/
def Window.shift (w : Window) (d : Int) : Window :=
  { w with start := w.start.shift d, marks := w.marks.map fun (m : Nat) => ((m : Int) + d * 65536).toNat }

/-- What a point holds by index moves with a rebase, so that no duration changes (R25, R26); the open window ends as INCOMPLETE (R96) and waits for
its close index behind those that ended before. -/
def Point.rebase (x : Point) (d : Int) : Point :=
  { x with
    chans := x.chans.map fun c => { c with n := shiftIdx d c.n, out := c.out.map fun (w : Word20) => { w with idx := shiftIdx d w.idx } }
    bound := x.bound.shift d, prevBound := x.prevBound.shift d, step := x.step.shift d
    closing := x.closing.map fun (c : Closing) => { c with bound := c.bound.shift d, prev := c.prev.shift d, sums := c.sums.shift d }
    ended := (x.ended.map fun (e : EndedWindow) => ⟨e.win.shift d, e.stop.shift d, shiftTrail d e.trail, e.later⟩)
      ++ (match x.win with
        | some w => [⟨{ w.shift d with incomplete := 127 }, x.bound.shift d, shiftTrail d x.trail, 48⟩]
        | none => [])
    trail := shiftTrail d (x.trail.take 49)
    win := none, winWait := true
    events := x.events.map fun e => { e with heldFrom := shiftIdx d e.heldFrom, startIdx := shiftIdx d e.startIdx }
    rp := { x.rp with heldFrom := shiftIdx d x.rp.heldFrom, startIdx := shiftIdx d x.rp.startIdx }
    dmdFrom := x.dmdFrom.map (shiftIdx d), offFrom := x.offFrom.map (shiftIdx d) }

/-- The even index change that leaves a residual between −12.5 µs and +12.5 µs of an offset in 0.1 ns (R415). -/
def rebaseDelta (offset : Int) : Int := -2 * roundAway offset 250000

namespace State

/-- A rebase by an even number of periods (R25, R415, R423). Its event record carries INDEX, TIME, TAGS and SEQ as Table 03.10 says (R6); what its
other fields say of a rebase the spec leaves open (log entry 42). -/
def rebase (s : State) (d : Int) : State :=
  if d = 0 then s else
  let s := { s.closeTableau with thb := { s.closeTableau.thb with site := none } }
  let s := s.setN K.SITE_STATE 0
  let s := { s with
    index := shiftIdx d s.index, points := s.points.map fun (x : Point) => x.rebase d
    modeHist := s.modeHist.map fun (e : Nat × Mode) => (shiftIdx d e.1, e.2)
    plateUse := s.plateUse.map fun (x : PlateUse) => { x with lastValid := shiftIdx d x.lastValid }
    inputAt := s.inputAt.map (shiftIdx d) }
  let s := ((s.addSat 32 K.REBASE_COUNT 1).put K.LAST_REBASE d).addWrap 8 K.REBASE_SEQ 1
  let f := s.fresh
  let n := s.index
  let body := (List.range 4).map (fun i => Config.rebaseByte i f.1) ++ leBytes 6 n ++ leBytes 10 (s.stamp n)
    ++ (List.range 10).map (fun i => Config.rebaseByte (20 + i) f.1) ++ leBytes 1 s.tags ++ [0]
  let s := f.2.queueRecord ⟨.event, body, none, 0, none⟩
  s.sessionTimeStep.demandFlag 6

/-- ACQUIRING begins (R415). -/
def thbAcquire (s : State) : State :=
  let t := s.rtc
  (s.lockLost.setN K.TIME_STATE 1).updTime fun x => { x with exchanges := 0, matched := false, good := 0, offset := none, t3 := none, since := t }

/-- NUMBERING: a MEMBER with its block; it numbers its children and acquires time (R409, R415). -/
def numbering (s : State) (first _size depth : Nat) : State :=
  if s.isRoot then s else
  let s := ((((s.setN K.ROLE 2).setN K.UNIT_NO (first : Nat)).setN K.PREV_FIRST (first : Nat)).setN K.DEPTH (depth : Nat))
  let s := { s with thb := { s.thb with refused := false, complete := true } }
  (s.numberChildren first depth).thbAcquire

/-- A jump of the parent's time (R418). -/
def timeJump (s : State) : State :=
  let t := s.rtc
  (((s.lockLost.setN K.TIME_STATE 4).intrusion 2 0)).updTime fun x => { x with since := t, offset := none, t3 := none }

/-- Whether this member holds its parent's index, so that a rebase of the parent's moves it too: SLEWING, LOCKED and PULL_LIMIT (R415, R418). -/
def indexTaken (s : State) : Bool := match s.getN K.TIME_STATE with | 2 => true | 3 => true | 6 => true | _ => false

/-- SYNC of the parent (R413, R415, R418); LOCKED, the RTC is valid from a SYNC with VALID = 1 on (R417). -/
def syncFrom (s : State) (f : SyncFrame) (t2 : Nat) : State :=
  if s.isMember = false ∨ s.getN K.TIME_STATE = 4 then s else
  let old := s.thb.time.parentSeq
  let moved : Bool := match old with | some q => decide (q ≠ f.rebaseSeq) | none => false
  let s := (s.setN K.HOPS (f.hops + 1 : Nat)).updTime fun x =>
    { x with t1 := f.t1, t2 := t2, synced := true, corr := f.corr, shift := f.shift, valid := f.valid, parentSeq := some f.rebaseSeq }
  let apart : Int := ((t2 / 65536 : Nat) : Int) - ((f.t1 / 65536 : Nat) : Int)
  if moved ∧ s.indexTaken = true then
    let s := s.rebase (rebaseDelta (apart * 125000))
    s.updTime fun x => { x with offset := none, t3 := none, synced := false }
  else if s.getN K.TIME_STATE ≠ 3 then s
  else if moved = false ∧ 2 ≤ apart.natAbs then s.timeJump
  else if f.valid then s.setN K.RTC_VALID 1
  else s

/-- VALID and CORR that this device sends: its own at the top, its parent's plus its own error below (R413, R417). -/
def syncPayload (s : State) (n : Nat) : List Byte :=
  let m := s.isMember
  let corr : Int := if m then clampInt (-2147483648) 2147483647 (s.getN K.OFFSET) else 0
  let valid := if m then natOfBool s.thb.time.valid else s.getU K.RTC_VALID
  leBytes 8 (linkStamp n) ++ leBytes 4 (ofSigned 32 corr) ++ leBytes 1 (if m then s.getU K.HOPS else 0) ++ leBytes 1 (s.getU K.TIME_STATE)
    ++ leBytes 1 (s.getU K.REBASE_SEQ) ++ leBytes 1 valid ++ leBytes 8 (ofSigned 64 (s.getN K.INDEX_SHIFT))

/-- SYNC_SEND: cycle 0 of every index divisible by 80 (Table 14.3). -/
def syncSend (s : State) : State :=
  if s.thbOn = true ∧ s.index % 80 = 0 then s.sendDown 0x20 (s.syncPayload s.index) else s

/-- DELAY_REQ of a child: T3 comes back with T4 (R413). -/
def delayReqFrom (s : State) (k : Fin 4) (t3 t4 : Nat) : State := s.sendFrame k 0x22 (leBytes 8 t3 ++ leBytes 8 t4)

/-- DELAY_REQ_SEND: cycle 0 of every index ≡ 40 mod 80 (Table 14.3). -/
def delayReqSend (s : State) : State :=
  if s.thbOn = true ∧ s.index % 80 = 40 ∧ s.isMember = true ∧ s.isUp 0 = true then
    let t := linkStamp s.index
    (s.sendFrame 0 0x21 (leBytes 8 t)).updTime fun x => { x with t3 := some t }
  else s

/-- The pull is set within bounds; at its limit before LOCKED the state is PULL_LIMIT (R414, R415). -/
def setPull (s : State) (v : Int) : State :=
  let v := clampInt (-100000) 100000 v
  let s := s.setN K.PULL v
  if v.natAbs = 100000 ∧ s.getN K.TIME_STATE ≠ 3 then s.setN K.TIME_STATE 6 else s

/-- LOCKED is reached (R415, R417): the RTC takes Thiber time. -/
def enterLocked (s : State) : State :=
  let s := (s.setN K.TIME_STATE 3).setN K.OFFSET_WORST 0
  let s := s.setN K.LOCK_TIME (((s.rtc - s.thb.time.since) / 1000 : Nat) : Int)
  let s := { s with rtc := s.instant s.index }
  let s := if s.thb.time.valid then s.setN K.RTC_VALID 1 else s
  let t := s.rtc
  let pl := s.getN K.PULL
  s.updTime fun x => { x with pullBase := pl, pullSince := t }

/-- The servo after an exchange (R415). The pull it chooses is open but for the bounds of R414 and R415. -/
def steer (s : State) (off : Int) : State :=
  let f := s.fresh
  let want := Config.servoPull f.1
  let s := f.2
  let good := if off.natAbs ≤ 40 then s.thb.time.good + 1 else 0
  let s := s.updTime fun x => { x with good := good }
  match s.getN K.TIME_STATE with
  | 1 =>
    let n := s.thb.time.exchanges + 1
    let s := s.updTime fun x => { x with exchanges := n }
    if n = 16 then
      let s := s.setPull want
      let pl := s.getN K.PULL
      s.updTime fun x => { x with matched := true, matchedPull := pl }
    else s
  | 2 =>
    let m := s.thb.time.matchedPull
    let s := s.setPull (clampInt (m - 50000) (m + 50000) want)
    if 16 ≤ good ∧ s.getN K.TIME_STATE = 2 then s.enterLocked else s
  | 3 =>
    let s := s.raise K.OFFSET_WORST (min off.natAbs (2 ^ 32 - 1))
    if 10000 < off.natAbs then s.thbAcquire
    else
      let x := s.thb.time
      let s := if x.pullSince + 1000000000 ≤ s.rtc then
          let t := s.rtc
          let pl := s.getN K.PULL
          s.updTime fun x => { x with pullBase := pl, pullSince := t }
        else s
      let b := s.thb.time.pullBase
      s.setPull (clampInt (b - 100) (b + 100) want)
  | _ => s

/-- DELAY_RESP: an exchange is complete (R413, R418). -/
def delayRespFrom (s : State) (t3 t4 : Nat) : State :=
  let x := s.thb.time
  if s.isMember = false ∨ x.t3 ≠ some t3 ∨ x.synced = false ∨ s.getN K.TIME_STATE = 4 then s else
  let d1 := linkQuarter x.t2 - linkQuarter x.t1
  let d2 := linkQuarter t4 - linkQuarter t3
  let delay := (d1 + d2) * 5 / 4
  let off := ((d1 - d2) * 5 + 2 * s.getN K.UP_ASYM) / 4 + x.corr
  let jump := decide (s.getN K.TIME_STATE = 3) && (match x.offset with | some o => decide (10000 < (off - o).natAbs) | none => false)
  let s := s.updTime fun x => { x with t3 := none }
  if jump then s.timeJump
  else
    let s := s.setN K.LINK_DELAY (((min delay.toNat (2 ^ 32 - 1)) : Nat) : Int)
    let s := s.setN K.OFFSET (clampInt (-2147483648) 2147483647 off)
    (s.updTime fun x => { x with offset := some off }).steer off

/-- INDEX_ADOPT: at an index divisible by 80 after the frequency is matched (R415). -/
def indexAdopt (s : State) : State :=
  if s.getN K.TIME_STATE = (1 : Int) ∧ s.thb.time.matched = true ∧ s.index % 80 = 0 ∧ s.isMember = true ∧ s.serves = true then
    let s := s.put K.INDEX_SHIFT s.thb.time.shift
    let off := s.thb.time.offset.getD 0
    let s := if 250000 ≤ off.natAbs then s.rebase (rebaseDelta off) else s
    (s.setN K.TIME_STATE 2).updTime fun x => { x with good := 0, offset := none, t3 := none, synced := false }
  else s

/-- HOLDOVER_EXPIRY: 10 s after a time jump (R418). -/
def holdoverExpiry (s : State) : State := if s.isMember = true ∧ s.getN K.TIME_STATE = 4 then s.thbAcquire else s

/-- TSTEP: INDEX_SHIFT moves, and the frame goes on (R419). -/
def tstepFrom (s : State) (e : Nat) (step : Int) (valid : Bool) : State :=
  if s.isMember = false then s else
  let s := s.put K.INDEX_SHIFT (s.getN K.INDEX_SHIFT + step)
  let s := (s.updTime fun x => { x with valid := valid, shift := x.shift + step })
  (s.sessionTimeStep.demandFlag 6).sendDown 0x60 (leBytes 6 e ++ leBytes 8 (ofSigned 64 step) ++ leBytes 1 (natOfBool valid))

/-- The root sends TSTEP for a step it has applied at the present index (R419). -/
def tstepSend (s : State) (step : Int) : State :=
  if s.isRoot = true ∧ step ≠ 0 then
    s.sendDown 0x60 (leBytes 6 s.index ++ leBytes 8 (ofSigned 64 step) ++ leBytes 1 (s.getU K.RTC_VALID))
  else s

/-- Whether the device is time-locked to a parent (R417). -/
def timeLocked (s : State) : Bool :=
  s.isMember && (match s.getN K.TIME_STATE with | 1 => true | 2 => true | 3 => true | 6 => true | _ => false)

/-! ### Virtual points (R424 to R426) -/

end State

/-- A sum of binary32 values, rounded once. -/
def sumF32 (l : List Nat) : Nat :=
  let r := l.foldl (fun (a : Int × Nat) v => let f := F32.toRat v; (a.1 * f.den + f.num * a.2, a.2 * f.den)) ((0 : Int), 1)
  F32.ofRat r.1 r.2

namespace State

/-- IMPORT, EXPORT and P of a real point: the legally relevant pair, billing and disputed together (R425). -/
def pointReport (s : State) (p : Fin 8) : Nat × Nat × Nat :=
  let pair := s.getU (K.LEGAL_PAIR p)
  let r := if pair = 1 then 9 else 1
  let x := s.points[p]
  let dur := x.mLast * (if x.app.osr500 then 2 else 1)
  let net := if pair = 1 then s.getN (K.LAST_NET_COMP p) else s.getN (K.LAST_NET p)
  (s.getU (K.ENERGY p r) + s.getU (K.DISPUTED p r), s.getU (K.ENERGY p (r + 1)) + s.getU (K.DISPUTED p (r + 1)),
    if dur = 0 then 0 else F32.ofRat (net * 288) (2 ^ 32 * dur))

/-- The flags of this device as a source (VP_STATUS [7:4]). -/
def ownVpFlags (s : State) : Nat :=
  16 * natOfBool (decide (s.mode = Mode.lockdown)) + 32 * natOfBool (decide (s.mode = Mode.service)) + 64 * natOfBool s.taut
    + 128 * natOfBool (!s.sealed)

/-- One virtual point at END (R424, R425, R427): values, flags and missing ports. -/
def virtualPoint (s : State) (v : Fin 8) (endIdx : Nat) : Nat × Nat × Nat × Nat :=
  let sel := s.getU (K.VP_SEL (v + 1))
  let own := allPoints.filter fun (p : Fin 8) => bit sel p.val
  let ownVals := own.map fun p => s.pointReport p
  let kids := downPorts.filter fun k => field sel (8 * k.val + 7) (8 * k.val) ≠ 0
  let vals := kids.flatMap fun k => match s.thb.ports[k].report with
    | some r => (r.points.filter fun q => bit (field sel (8 * k.val + 7) (8 * k.val)) q.1).map fun q => (q.2.1, q.2.2.1, q.2.2.2)
    | none => []
  let missing := (kids.map fun k =>
    let here := s.isUp k && s.present k && (match s.thb.ports[k].report with | some r => decide (r.endIdx = endIdx) | none => false)
    if here then 0 else 2 ^ (k.val - 1)).sum
  let flags := kids.foldl (fun f k => match s.thb.ports[k].report with | some r => f ||| (r.flags &&& 0xF0) | none => f)
    (if own = [] then 0 else s.ownVpFlags)
  let all := ownVals ++ vals
  ((all.map (·.1)).sum, (all.map (·.2.1)).sum, sumF32 (all.map (·.2.2)), flags + missing)

/-- The virtual points of a lead for the interval that ended at END. -/
def formVirtual (s : State) (endIdx : Nat) : State :=
  if s.isLead = false ∧ (downPorts.all fun k => decide (s.thb.ports[k].report = none)) = true then s else
  forEach allPoints (fun v s =>
    let r := s.virtualPoint v endIdx
    let i := v.val + 1
    ((((s.setN (K.VP_IMPORT i) (r.1 : Nat)).setN (K.VP_EXPORT i) (r.2.1 : Nat)).setN (K.VP_P i) (r.2.2.1 : Nat)).setN (K.VP_STATUS i)
      (r.2.2.2 : Nat)).setN (K.VP_INDEX i) (endIdx : Nat)) s

/-- VP_REPORT of a child (R426): with the last child's report the sums are formed. -/
def vpReportFrom (s : State) (k : Fin 4) (f : VpFrame) : State :=
  let r : VpReport := ⟨f.endIdx, f.flags, f.points.map fun q => (q.1.val, q.2.1, q.2.2.1, q.2.2.2)⟩
  let s := s.updThb k fun x => { x with report := some r }
  let done := downPorts.all fun j => !(s.present j && s.isUp j) ||
    (match s.thb.ports[j].report with | some x => decide (x.endIdx = f.endIdx) | none => false)
  if done then s.formVirtual f.endIdx else s

/-- VP_REPORT_SEND: the points presented upward, for the interval that ended last (R425, R426). -/
def vpReportSend (s : State) : State :=
  if s.serves = false then s else
  let endIdx := s.index / 80 * 80
  let s := s.formVirtual endIdx
  if s.isMember = false then s else
  let pts := allPoints.filter fun (p : Fin 8) => bit s.censusPoints p.val
  let vals : List (Nat × Nat × Nat) := pts.map fun (p : Fin 8) =>
    if s.isLead then (s.getU (K.VP_IMPORT (p + 1)), s.getU (K.VP_EXPORT (p + 1)), s.getU (K.VP_P (p + 1))) else s.pointReport p
  let flags := if s.isLead then pts.foldl (fun f p => f ||| (s.getU (K.VP_STATUS (p + 1)) &&& 0xF0)) 0 else s.ownVpFlags
  s.sendFrame 0 0x30 (leBytes 6 endIdx ++ leBytes 1 s.censusPoints ++ leBytes 1 flags
    ++ vals.flatMap fun v => leBytes 8 v.1 ++ leBytes 8 v.2.1 ++ leBytes 4 v.2.2)

/-! ### The site tableau (R421 to R423) -/

/-- A site order goes on to every child. -/
def siteDown (s : State) (op id f limit : Nat) : State := s.sendDown 0x40 (leBytes 1 op ++ leBytes 2 id ++ leBytes 6 f ++ leBytes 2 limit)

/-- The site tableau opens on this device. -/
def siteBegin (s : State) (id f limit : Nat) (own : Option Nat) : State :=
  let s := s.closeTableau
  let s := if own.isNone then s.openTableau id f true else s
  let s := (((s.setN K.SITE_STATE 1).setN K.SITE_ID (id : Nat)).setN K.SITE_F (f : Nat))
  let s := ((s.setN K.SITE_FROZEN 0).setN K.SITE_UNLOCKED 0).setN K.SITE_MISSED 0
  let s := forEach downPorts (fun k s => s.updThb k fun x => { x with ack := none }) s
  { s with thb := { s.thb with site := some ⟨id, f, limit, own, false⟩ } }

/-- The site tableau closes on this device (R423). -/
def siteEnd (s : State) : State :=
  let s := match s.tab with
    | some t => if t.site then s.closeTableau else s
    | none => s
  ({ s with thb := { s.thb with site := none } }).setN K.SITE_STATE 0

/-- SITE_CMD OPEN on the root (R421); none where it is refused. -/
def siteOpenCmd (s : State) : Option State :=
  if s.isRoot = true ∧ s.serves = true ∧ s.thb.site = none then
    let f := s.freezeIdx (s.getU K.SITE_LEAD * 1000000)
    let old := s.getU K.SITE_ID
    let id := if old < 0x8001 ∨ old = 0xFFFF then 0x8001 else old + 1
    let limit := s.getU K.SITE_LIMIT
    some ((s.siteBegin id f limit none).siteDown 1 id f limit)
  else none

/-- SITE_CMD CLOSE on the root (R423); none where it is refused. -/
def siteCloseCmd (s : State) : Option State :=
  match s.thb.site with
  | some x => if s.isRoot = true ∧ s.serves = true then some ((s.siteEnd).siteDown 2 x.id x.f x.limit) else none
  | none => none

/-- SITE of the parent (R421 to R423). -/
def siteFrom (s : State) (op id f limit : Nat) : State :=
  if s.isMember = false ∨ s.serves = false then s
  else if op = 1 then
    let missed := decide (s.instant f < s.rtc)
    (s.siteBegin id f limit (if missed then some 2 else none)).siteDown op id f limit
  else if op = 2 then
    let s := s.siteDown op id f limit
    match s.thb.site with
    | some x => if x.id = id then s.siteEnd else s
    | none => s
  else s

/-- The counts of this device and of the children that have acknowledged. -/
def siteSums (s : State) : Nat × Nat × Nat :=
  let own : Nat × Nat × Nat := match s.thb.site with
    | some x => (match x.own with | some 0 => (1, 0, 0) | some 1 => (0, 1, 0) | some _ => (0, 0, 1) | none => (0, 0, 0))
    | none => (0, 0, 0)
  downPorts.foldl (fun a k => match s.thb.ports[k].ack with
    | some c => (a.1 + c.1, a.2.1 + c.2.1, a.2.2 + c.2.2)
    | none => a) own

/-- Whether the own image is complete and every PRESENT child has acknowledged. -/
def siteAnswered (s : State) : Bool :=
  (match s.thb.site with | some x => x.own.isSome && !x.answered | none => false)
    && downPorts.all fun k => !(s.present k && s.isUp k) || s.thb.ports[k].ack.isSome

/-- SITE_ACK_SEND (R422): upward from a member; at the root the site tableau is READY. -/
def siteAckSend (s : State) : State :=
  match s.thb.site with
  | some x =>
    if x.answered ∨ s.serves = false then s else
    let c := s.siteSums
    let s := ((s.setN K.SITE_FROZEN (c.1 : Nat)).setN K.SITE_UNLOCKED (c.2.1 : Nat)).setN K.SITE_MISSED (c.2.2 : Nat)
    let s := ({ s with thb := { s.thb with site := some { x with answered := true } } }).setN K.SITE_STATE 2
    if s.isRoot then s else s.sendFrame 0 0x41 (leBytes 2 x.id ++ leBytes 2 c.1 ++ leBytes 2 c.2.1 ++ leBytes 2 c.2.2)
  | none => s

/-- SITE_ACK of a child (R422): at the root the last one makes the site tableau READY. -/
def siteAckFrom (s : State) (k : Fin 4) (id frozen unlocked missed : Nat) : State :=
  match s.thb.site with
  | some x =>
    if x.id = id then
      let s := s.updThb k fun y => { y with ack := some (frozen, unlocked, missed) }
      if s.isRoot && s.siteAnswered then s.siteAckSend else s
    else s
  | none => s

/-- The own image under the site tableau is complete (R422): FROZEN at the root or where LOCKED, else UNLOCKED. -/
def siteOwn (s : State) : State :=
  match s.thb.site, s.tab with
  | some x, some t =>
    if t.site ∧ t.id = x.id ∧ x.own = none then
      let cls := if s.isRoot ∨ s.getN K.TIME_STATE = 3 then 0 else 1
      let s := { s with thb := { s.thb with site := some { x with own := some cls } } }
      if s.isRoot && s.siteAnswered then s.siteAckSend else s
    else s
  | _, _ => s

/-- SITE_LIMIT_EXPIRY (R423). -/
def siteLimit (s : State) : State := if s.thb.site.isSome then s.siteEnd else s

end State

end Sys2Proof.Machine
end

