-- ==== Sys2Proof/Machine/Journal.lean ====
section
/-! DEFINITION. Machine/Journal.lean: the proof journal and what follows a unit's commit group, group cycles with what their loss means for
each structure of Table 08.1, record copies, and accesses to the SRAM banks with what their loss means for each class of Table 07.1. -/

namespace Sys2Proof.Machine

open Sys2Proof

/-- The bytes of the journal area that a unit takes (R246): 2,080 for one of 2,048 bytes of entries. -/
def unitSpace (u : JUnit) : Nat := 32 + 8 * ((u.size + 7) / 8)

namespace State

/-! ### Journal units (R246, R247) -/

/-- Whether the journal is served: not without VDD33, under write inhibit, or in RECALL before its units are resolved (R230, R248, R258). -/
def journalOn (s : State) : Bool := s.mainOn && !s.nvm.writeInhibit && (decide (s.mode ≠ .recalling) || bit s.startup.steps 7)

/-- JOURNAL_UNIT_START: with room for the largest unit the first waiting one writes its header, or, where the next checkpoint is due within 2.5 ms, that checkpoint goes
first. -/
def unitStart (s : State) : State :=
  match s.journal.openUnit, s.journal.waiting with
  | none, u :: r =>
    if 8192 < s.journal.used + 2080 then s
    else if s.journalOn = false ∨ s.store.writing.isSome = true then s
    else if s.serves = true ∧ s.store.nextDue ≤ s.rtc + 2500000 then s.ckptBegin.addSat 32 K.EARLY_CKPT 1
    else { s with journal := { s.journal with
      openUnit := some u, waiting := r, committed := false, unitNo := wrapAdd 32 s.journal.unitNo 1, startedAt := s.rtc,
      used := s.journal.used + unitSpace u } }
  | _, _ => s

/-- The value a unit's target holds before the commit group. -/
def oldWrite (s : State) (o : Owner) (w : EntryWrite) : EntryWrite :=
  match o, w.val with
  | .device old, .num _ =>
    if w.key = K.TAMPER_STATUS then ⟨w.key, .num (s.tamper.nvStatus : Nat)⟩
    else if w.key = K.TAMPER_MARKS then ⟨w.key, .num (s.tamper.nvMarks : Nat)⟩
    else (old.find? fun x => x.key = w.key).getD w
  | _, .num _ => ⟨w.key, .num (s.getN w.key)⟩
  | _, .bytes _ => ⟨w.key, .bytes (s.getB w.key)⟩

/-- What a stored entry does when its new value comes into force at once, beside being read where it is used: the couples (R188, R189), the
inputs' temperatures (R194), the plate temperature source (R155), the pairing of understudies (R82), the display's composition (R312), the demand interval (R135, R360), the
tamper sources (R318), a draft coefficient (R160) and the Thiber engine (R402, R403). -/
def entryHook (s : State) (k : Nat) : State :=
  let i := k / 256
  let sub := k % 256
  let b := baseIdx i
  let p : Fin 8 := ⟨pointOfIdx i % 8, by omega⟩
  if i = 0x7011 then s.coupleConfig ⟨(sub - 1) % 3, by omega⟩
  else if i = 0x7000 ∨ i = 0x7050 ∨ i = 0x7052 ∨ i = 0x7054 ∨ i = 0x7056 then s.tempsCleared
  else if i = 0x7010 ∨ i = 0x7012 ∨ (0x7020 ≤ i ∧ i ≤ 0x7022) then s.auxLook
  else if b = 0x6000 ∧ isPointIdx i = true then (if sub ≤ 2 then s.tempConfig p (sub = 1) else s)
  else if i = 0x2808 then s.pairSpare ⟨(sub - 1) % 4, by omega⟩
  else if (0x8000 ≤ i ∧ i ≤ 0x8008) ∨ b = 0x4006 then s.compose
  else if k = K.UTC_OFFSET then (if bit (s.getU K.DMD_CFG) 3 then s else s.demandFlag 6).compose
  else if i = 0x4800 then s.demandFlag 5
  else if i = 0x4810 ∨ i = 0x4811 then s.updPulse ⟨(sub - 1) % 8, by omega⟩ fun x => { x with waits := true }
  else if i = 0xA000 ∨ i = 0xA001 then s.syncSrc ⟨(sub - 1) % 16, by omega⟩
  else if 0x6808 ≤ i ∧ i ≤ 0x680A then s.draftWritten ⟨(sub - 1) % 7, by omega⟩
  else if i = 0xB000 then s.thbConfig
  else if i = 0xB022 ∧ s.isRoot = true then s.setN K.PULL (s.getN K.ROOT_PULL)
  else s

/-- What an accepted write of the value that a stored entry already holds does, beside leaving it: a draft coefficient counts as written (R160), and
so do pulse settings, which then take effect at the boundary (R141). -/
def sameWritten (s : State) (k : Nat) : State :=
  let i := k / 256
  if (0x6808 ≤ i ∧ i ≤ 0x680A) ∨ i = 0x4810 ∨ i = 0x4811 then s.entryHook k else s

/-- The owner's step that waited for the commit group (R246, R378, R395). -/
def ownerEffect (s : State) (o : Owner) : State :=
  match o with
  | .write h i sub => s.replyWrite h i sub .ok
  | .batch h r => s.reply h opBatch 0 0 .ok r
  | .plates p => s.platesCommitted p
  | .auxCal _ => s.auxCommitted
  | .lockState on => { s with lockNvm := on }
  | .device _ => s
  | .sessionOpen p => s.openCommitted p
  | .sessionClose ps => s.closeCommitted ps
  | .sessionDone p => s.doneCommitted p
  | .statute last => if last ∧ s.svc.sealStep = .statute then { s with svc := { s.svc with sealStep := .fuse } } else s

/-- Whether the SEAL fuse keeps the controller from a unit's target: an entry of the statute page (R243). -/
def statuteLocked (s : State) (w : EntryWrite) : Bool :=
  s.sealed && (match findDesc (w.key / 256) (w.key % 256) with | some d => decide (d.acc = .sealable) | none => false)

/-- A unit that the controller refuses ends before its commit group, and its writes are answered as on a sealed device. -/
def unitRefused (s : State) (u : JUnit) : State :=
  let s := { s with journal := { s.journal with openUnit := none, stale := s.journal.stale ++ [u] } }
  match u.owner with
  | .write h i sub => s.replyWrite h i sub .access
  | .batch h _ => s.reply h opBatch 0 0 .access []
  | _ => s

/-- JOURNAL_COMMIT: the commit group is written, so the unit's values stand, and its owner proceeds (R246). -/
def unitCommit (s : State) : State :=
  match s.journal.openUnit with
  | some u =>
    if s.journal.committed = true ∨ s.journalOn = false then s else
    if u.writes.any (fun w => s.statuteLocked w) then s.unitRefused u else
    let old := (u.writes.map fun w => s.oldWrite u.owner w).reverse
    let s := forEach u.writes (fun w s => s.applyWrite u.owner w) s
    let s := { s with journal := { s.journal with committed := true, openUnit := some { u with writes := old } } }
    let s := (s.addWrap 32 K.JOURNAL_UNITS 1).raise K.JOURNAL_WORST (min ((s.rtc - s.journal.startedAt) / 1000) 65535)
    let s := match u.owner with
      | .device _ => s
      | _ => forEach u.writes (fun w s => s.entryHook w.key) s
    s.ownerEffect u.owner
  | none => s

/-- JOURNAL_RETIRE: the targets are applied and the retire group is written (R246, step 5). -/
def unitRetire (s : State) : State :=
  if s.journal.openUnit.isSome = true ∧ s.journal.committed = true ∧ s.journalOn = true then
    { s with journal := { s.journal with openUnit := none, committed := false, used := if s.journal.stale = [] then 0 else s.journal.used } }
  else s

/-! ### Records (R253, R271) -/

/-- RECORD_COPY_WRITTEN: one copy slot is complete; a hallmark's first copy may overwrite an unarchived record, and its second makes it the
newest. -/
def recordCopy (s : State) : State :=
  if s.mainOn = false ∨ s.nvm.writeInhibit = true then s else
  match s.jobs with
  | j :: _ =>
    let s := match j.log, j.seq, j.copies with
      | .ring, some q, 0 => s.ringOverwrite q
      | _, _, _ => s
    let r := s.copyWritten
    match r.2 with
    | some (j, 2) => (match j.log with | .ring => r.1.recordStored j | _ => r.1)
    | _ => r.1
  | [] => s

/-! ### Group cycles (R229, R230, R238 to R240, Table 08.1) -/

/-- The request of a host that waits under an operation is answered with an error. -/
def answerError (s : State) (h : Requester) (st : Status) : State :=
  match (s.link h.link).queue.find? fun m => m.tag = h.tag with
  | some m => s.reply h m.op m.index m.sub st []
  | none => s

/-- The same where a request is served. -/
def answerAny (s : State) (h : Option Requester) (st : Status) : State :=
  match h with
  | some h => s.answerError h st
  | none => s

/-- The log a group of its area belongs to. -/
def logOfGroup (g : Nat) : Option LogKind :=
  if 0x2800 ≤ g ∧ g < 0x2E00 then some .event
  else if 0x2E00 ≤ g ∧ g < 0x3400 then some .tamper
  else if 0x3400 ≤ g ∧ g < 0x3600 then some .history
  else if 0x3600 ≤ g ∧ g < 0x3800 then some .health
  else if 0x4000 ≤ g ∧ g < 0xE000 then some .ring
  else none

/-- A copy slot whose group was lost: its CRC fails (R252). -/
def loseSlot (s : State) (k : LogKind) (slot : Nat) : State :=
  let l := s.log k
  match lookupL l.slots slot with
  | some c => s.setLog k { l with slots := insertL slot { c with good := false } l.slots }
  | none => s

/-- The log whose sequence tally an entry shows (R253). -/
def logOfTally (k : Nat) : Option LogKind :=
  if k = K.EV_TOTAL then some .event
  else if k = K.PLATE_HIST_TOTAL then some .history
  else if k = K.TLOG_TOTAL then some .tamper
  else if k = K.HEALTH_TOTAL then some .health
  else none

/-- A tally counter whose group cannot be corrected at RECALL is saturated for good (R251). -/
def loseTally (s : State) (k : Nat) : State :=
  let top : Int := ((2 ^ 56 - 1 : Nat) : Int)
  let s := match logOfTally k with
    | some l => s.setLog l { s.log l with total := 2 ^ 56 - 1 }
    | none => s
  let s := { (s.setN k top) with store := { s.store with tally := insertL k top s.store.tally } }
  s.consistency 0x2000 251

/-- A group of the scratch area holds bytes that the spec does not state. -/
def scratchLost (s : State) (g : Nat) : State :=
  let r := (List.range 8).foldl (fun (acc : List Byte × State) _ => let f := acc.2.fresh; (acc.1 ++ [byteOf (Config.unstated f.1)], f.2)) ([], s)
  { r.2 with scratch := Memory.writes (8 * g) r.1 s.scratch }

/-- The loss of a group, by its structure (Table 08.1). -/
def structureLost (s : State) (o : NvmObs) : State :=
  let g := o.group.val
  if g < 0x600 then s
  else if g < 0x680 then (if o.bothBad then s.destroyKeys else s)
  else if g < 0xC00 then (if o.bothBad then s.integrity 4 g s.index else s)
  else if g < 0x1000 then
    let slot : Fin 2 := if g < 0xE00 then 0 else 1
    let c := s.store.slots[slot]
    { s with store := { s.store with slots := s.store.slots.set slot { c with valid := false } } }
  else if g < 0x1800 then
    let a : Fin 2 := if g < 0x1400 then 0 else 1
    let v := s.store.saves[a]
    { s with store := { s.store with saves := s.store.saves.set a { v with sections := clearBit v.sections (o.part % 7) } } }
  else if g < 0x1A00 then (if o.bothBad then s.integrity 4 g s.index else s)
  else if g < 0x1E00 then { s with nvm := { s.nvm with journalBad := s.journal.openUnit.isSome } }
  else if g < 0x2000 then (s.setN K.PATCH_REV 0).health 15 0xFF 0
  else if g < 0x2800 then (if s.mode = .recalling then s.loseTally o.part else s)
  else
    match logOfGroup g with
    | some k => (s.loseSlot k (match k with | .ring => g / 128 - 128 | _ => o.part % (2 * k.places))).answerAny (if o.bothBad then o.request else none) .memoryError
    | none =>
      if g < 0x3E00 then { s with disp := { s.disp with store := s.disp.store.set (⟨o.part % 2, by omega⟩ : Fin 2) none } }
      else if g < 0x4000 then s.setN K.PREV_FIRST 0xFFFF
      else
        (if g ∈ s.nvm.bad then s else s.scratchLost g).answerAny o.request .memoryError

/-- A read that the group code does not show to be wrong (R229): what carries a check of its own fails it, a counter or a scratch group takes values
that the spec does not state, and of the two copies of the other structures the one without the error is used. -/
def contentWrong (s : State) (o : NvmObs) : State :=
  let g := o.group.val
  if 0x2000 ≤ g ∧ g < 0x2800 then
    (if s.mode = .recalling then (let f := s.fresh; f.2.setN o.part (Config.unstated f.1 % 2 ^ 32 : Nat)) else s)
  else if 0xE000 ≤ g then s.scratchLost g
  else if (0x680 ≤ g ∧ g < 0xC00) ∨ (0x1800 ≤ g ∧ g < 0x1A00) then s
  else s.structureLost o

/-- A group read: an NVM_INJECT string's bytes 0 and 5 join what the cells show; what an injection alone makes uncorrectable changes nothing
stored, and is served from the other copy or answered MEMORY_ERROR (R229, R238, R435). -/
def groupRead (s : State) (o : NvmObs) : State :=
  let g := o.group.val
  let r := s.injectedBytes g
  let s := r.2
  let injected := decide (r.1 ≠ 0)
  match o.err with
  | .none =>
    if r.1 = 0 then s
    else if r.1 = 1 then s.groupCorrected g 0 true
    else (s.groupLost g true).answerAny (if (logOfGroup g).isSome = true ∧ o.bothBad = false then none else o.request) .memoryError
  | .one b =>
    if r.1 = 0 ∨ (r.1 = 1 ∧ b = 0) then s.groupCorrected g b injected
    else (s.groupLost g true).answerAny (if (logOfGroup g).isSome = true ∧ o.bothBad = false then none else o.request) .memoryError
  | .two => (s.groupLost g false).structureLost o
  | .undetected => s.contentWrong o
  | .miscorrected b => (s.groupCorrected g b false).contentWrong o

/-- A unit of a host's write or batch whose target cannot be written is given up with nothing written (R240). -/
def unitDropped (s : State) (h : Requester) : State :=
  let mine (u : JUnit) : Bool := match u.owner with | .write r _ _ => decide (r = h) | .batch r _ => decide (r = h) | _ => false
  let j := { s.journal with waiting := s.journal.waiting.filter fun u => !(mine u) }
  { s with journal := match j.openUnit with
    | some u => if mine u && !j.committed then { j with openUnit := none, stale := j.stale ++ [u] } else j
    | none => j }

/-- A group write (R230): merged, or refused with nothing written where the group cannot be corrected and no spare is left (R240), and on the
statute page of a sealed device (R243). Where a group that cannot be corrected is replaced, what it held beside the write is lost. -/
def groupWrite (s : State) (o : NvmObs) : State :=
  let g := o.group.val
  if g < 0x600 ∧ s.sealed = true then s.nvmError 5 15 g
  else
    let wrote (s : State) : State := s.rangeWrote (8 * g) 8
    match o.err with
    | .none => wrote s
    | .one b => wrote (s.groupCorrected g b false)
    | .miscorrected b => wrote ((s.groupCorrected g b false).contentWrong o)
    | .undetected => wrote (s.contentWrong o)
    | .two =>
      if s.spareFree = 0 then
        let s := (s.groupLost g false).nvmError 5 15 (s.servedGroup g)
        match o.request with
        | some h => (s.unitDropped h).answerError h .memoryError
        | none => s
      else wrote ((s.groupLost g false).structureLost { o with request := none })

/-- Whether the controller serves a group cycle: none below the write-inhibit level (R230), and in HOLDUP only those of the save and of the tally
updates that follow it (R235, R257, R258). -/
def cycleServed (s : State) (o : NvmObs) : Bool :=
  let g := o.group.val
  !s.nvm.writeInhibit && (match s.mode with
    | .dormant => false
    | .holdup => o.write && (decide (0x1000 ≤ g ∧ g < 0x1800) || decide (0x2000 ≤ g ∧ g < 0x2800))
    | _ => true)

/-- NVM_CYCLE_END: a group cycle, after one of the remapping under way (R235, R239). -/
def nvmCycle (s : State) (o : NvmObs) : State :=
  if s.cycleServed o then
    let s := if s.mode = .holdup then s else s.remapCycle
    if o.write then s.groupWrite o else s.groupRead o
  else s

/-- PATROL_READ (R241): in an idle cycle the next group is read, corrected and written back; what it has lost is handled as in Table 08.1. -/
def patrolRead (s : State) (err : GroupErr) (bothBad : Bool) (part : Nat) : State :=
  let g := s.getU K.PATROL_NEXT
  let o : NvmObs := ⟨⟨g % 65536, by omega⟩, false, err, bothBad, none, part⟩
  if s.cycleServed o = false then s else
  let s := s.remapCycle
  let s := match err with
    | .none => s
    | .one b => (s.groupCorrected g b false).rangeWrote (8 * g) 8
    | .two => (s.groupLost g false).structureLost o
    | .undetected => s.contentWrong o
    | .miscorrected b => ((s.groupCorrected g b false).rangeWrote (8 * g) 8).contentWrong o
  let s := s.setN K.PATROL_NEXT (((g + 1) % 65536 : Nat) : Int)
  if g = 65535 then { s.addWrap 32 K.PATROL_CYCLES 1 with nvm := { s.nvm with patrolCounts := [] } } else s

end State

end Sys2Proof.Machine
end

