-- ==== Sys2Proof/Machine/Sram.lean ====
section
/-! DEFINITION. Machine/Sram.lean: accesses to the SRAM banks, and the copies, march phases and sweep reads that read and write their words
(R207 to R224). -/

namespace Sys2Proof.Machine

open Sys2Proof

namespace State

/-! ### Losses (Table 07.1) -/

/-- A lost sample word: the channel's window is INCOMPLETE (R109). -/
def loseWindow (s : State) (p : Fin 8) (c : Fin 7) : State :=
  s.updPoint p fun x =>
    match x.ended with
    | e :: r => { x with ended := { e with win := { e.win with incomplete := setBit e.win.incomplete c } } :: r }
    | [] => { x with win := x.win.map fun w => { w with incomplete := setBit w.incomplete c } }

/-- The operation that a link's DOP buffer holds is answered with an error. -/
def answerBuffer (s : State) (l : Link) (st : Status) : State :=
  match (s.link l).queue with
  | m :: _ => s.reply ⟨l, m.tag⟩ m.op m.index m.sub st []
  | [] => s

/-- The loss of a word of a single-copy class (Table 07.1). -/
def wordLost (s : State) (cls : WordClass) : State :=
  match cls with
  | .metrological => s
  | .steward => s
  | .window p c => s.loseWindow p c
  | .harmonic p c => s.loseWindow p c
  | .display => s
  | .dop l => s.answerBuffer l .memoryError
  | .thiber k => s.corruptedFrame k
  | .signing =>
    match s.sign.run with
    | some r => s.health 13 0xFF (match s.sessions[r.point].close with | some c => c.seq | none => 0)
    | none => s

/-! ### Decoding (R215, R217, R222, R435) -/

/-- An uncorrectable word, by its place `la` in the logical banks: a two-copy word is repaired from its other copy, or is an integrity fault where
that one is uncorrectable too; a single-copy word is lost. Banks whose own errors made it so are worn (R217, R222, R225). -/
def uncorrectable (s : State) (la : Nat) (b : Fin 5) (r : Fin 16) (w : Fin 512) (master : Nat) (injected : Bool) (twin : SymErr) : State :=
  let s := s.addSat 32 (K.UNCORRECTABLE (b + 1)) 1
  let own : List (Fin 5) := if injected then [] else [b]
  if twoCopies (classAt la) then
    let lo := otherCopy la
    let at' := s.regionServed ⟨lo / 8192 % 4, by omega⟩ (placeRegion lo)
    let w' := placeWord lo
    match twin with
    | .two =>
      let s := (s.lastError b 2 15 master r w).addSat 32 (K.UNCORRECTABLE (at'.1 + 1)) 1
      ((s.lastError at'.1 2 15 master at'.2 w').integrity 3 (b * 2 ^ 20 + r * 2 ^ 16 + w) s.index).banksWorn (at'.1 :: own)
    | _ =>
      let s := match twin with
        | .one sym => s.symOne at'.1 at'.2 w' sym master false
        | _ => s
      let s := s.lastError b 3 15 master r w
      (s.setWord (wordPlace b r w) (s.wordAt (wordPlace at'.1 at'.2 w'))).banksWorn own
  else ((s.lastError b 2 15 master r w).wordLost (classAt la)).banksWorn own

/-- The decoding of a word that is read: `err` in its cells, `inj` symbols flipped by strings on the way to the decoder (R215, R435). -/
def decodeWord (s : State) (la : Nat) (b : Fin 5) (r : Fin 16) (w : Fin 512) (master : Nat) (inj : Nat) (err twin : SymErr) : State :=
  match err with
  | .none =>
    if inj = 0 then s else if inj = 1 then s.symOne b r w 0 master true else s.uncorrectable la b r w master true twin
  | .one sym =>
    if inj = 0 ∨ (inj = 1 ∧ sym = 0) then s.symOne b r w sym master false else s.uncorrectable la b r w master true twin
  | .two => s.uncorrectable la b r w master false twin

/-- The errors that a copy of a region finds (R223, R227). -/
def copyErrors (s : State) (l : Fin 4) (lr : Fin 16) (b : Fin 5) (r : Fin 16) (errs : List CopyErr) : State :=
  forEach errs (fun e s => s.decodeWord (wordPlace l lr e.word) b r e.word 15 0 e.err e.twin) s

/-! ### Arbitration (R210 to R214) -/

/-- One of a bank's ports. -/
def bankPort (s : State) (b : Fin 5) (portS : Bool) : BankPort := if portS then s.banks[b].portS else s.banks[b].portF
def setPort (s : State) (b : Fin 5) (portS : Bool) (x : BankPort) : State :=
  s.updBank b fun y => if portS then { y with portS := x } else { y with portF := x }

/-- Whether an INVERT string reverses the ranks on one port of a bank (Table 15.1). -/
def invertedOn (s : State) (b : Fin 5) (portS : Bool) : Bool := strings.any fun i =>
  match s.tautWord i with
  | some w => field w 3 0 = 2 && field w 15 8 = b.val && field w 23 16 = natOfBool portS
  | none => false

/-- The rank of a master on a port, 1 highest, reversed where a string inverts the port (R214). -/
def rankOn (s : State) (b : Fin 5) (portS : Bool) (m : Fin 11) : Nat :=
  if s.invertedOn b portS then 12 - masterRank m else masterRank m

/-- The pending request of highest rank (R211). -/
def highest (s : State) (b : Fin 5) (portS : Bool) (rs : List SramReq) : Option SramReq :=
  rs.find? fun r => rs.all fun q => s.rankOn b portS r.master ≤ s.rankOn b portS q.master

/-- Whether the device's masters make a request at a port (R210): the master's own port of the bank that serves the word, one request at a time,
L4 only while it carries a logical lane. -/
def requestOk (s : State) (b : Fin 5) (portS : Bool) (r : SramReq) : Bool :=
  onPortS r.master = portS && decide ((s.regionServed r.bank r.region).1 = b) && (r.master ≠ 4 || s.lanes[(4 : Fin 5)].logical.isSome)
    && !((s.bankPort b portS).waiting.any fun q => q.master = r.master)

/-- One request waits behind one access of another master: a conflict of both (R211). -/
def conflict (s : State) (m o : Fin 11) : State :=
  if m = o then s else (s.addSat 32 (K.CONFLICT_COUNT (m + 1)) 1).addSat 32 (K.CONFLICT_COUNT (o + 1)) 1

/-- Strings that inverted the order of an arbitration or of a collision count it. -/
def invertHits (s : State) (b : Fin 5) (portS any : Bool) : State :=
  forEach strings (fun i s =>
    match s.tautWord i with
    | some w => if field w 3 0 = 2 && field w 15 8 = b.val && (any || field w 23 16 = natOfBool portS) then s.stringHit i else s
    | none => s) s

/-- An access to the borrowed region abandons the segment, unless the attempt is forced or HOLDUP has stopped it (R220, R227). -/
def marchAccess (s : State) (l : Fin 4) (r : Fin 16) : State :=
  if s.march.phase = .segment ∧ s.march.forced = false ∧ s.underTest l r = true ∧ s.mode ≠ .holdup then
    let s := { s with march := { s.march with phase := .copyBack, abandoned := true, tries := s.march.tries + 1 } }
    s.addSat 32 K.MARCH_ABANDONED 1
  else s

/-! ### Accesses (R207, R211 to R217, R219) -/

/-- The write of a word reaches its place, and the second place that a copy under way gives it; a write-back that waits for it is dropped. -/
def putWord (s : State) (r : SramReq) (b : Fin 5) (pr : Fin 16) (w : Nat) : State :=
  let s := (s.setWord (wordPlace b pr r.word) w).dropScrub b pr r.word
  match s.alsoWritten r.bank r.region with
  | some (b', r') => s.setWord (wordPlace b' r' r.word) w
  | none => s

/-- A granted write: merged with the word, and decided against a differing write of the other port that it meets, where the higher-ranked one is
applied in full and the other discarded in full (R207, R213, R214). -/
def writeWord (s : State) (o : SramObs) (r : SramReq) (d : Fin 256 × Nat) (pr : Fin 16) : State :=
  let la := wordPlace r.bank r.region r.word
  let place := wordPlace o.bank pr r.word
  let merged (old : Nat) : Nat := codeWord (mergeBytes (old % 2 ^ 64) d.2 d.1)
  let rival := (s.bankPort o.bank (!o.portS)).last.filter fun (g : SramGrant) =>
    o.meets && decide (g.place = place) && (match g.req.store with | some e => writesDiffer d e | none => false)
      && (!twoCopies (classAt la) || s.inverted o.bank)
  match rival with
  | none => s.putWord r o.bank pr (merged (s.wordAt place))
  | some g =>
    let wins := decide (masterRank r.master < masterRank g.req.master) != s.inverted o.bank
    let loser := if wins then g.req.master else r.master
    let s := (s.addSat 32 (K.COLLISION_COUNT (loser + 1)) 1).invertHits o.bank o.portS true
    let s := if loser = masterX then
        (match classAt la with | .dop l => s.answerBuffer l .writeLost | _ => s)
      else s
    if wins then s.putWord r o.bank pr (merged g.before) else s

/-- A granted request is served: a read, or the read within a write of some bytes, is decoded; a write takes its place. -/
def serveRequest (s : State) (o : SramObs) (r : SramReq) : State :=
  let la := wordPlace r.bank r.region r.word
  let pr := (s.regionServed r.bank r.region).2
  let place := wordPlace o.bank pr r.word
  let grant : SramGrant := ⟨r, place, s.wordAt place⟩
  let read (s : State) : State :=
    let (inj, s) := s.injectedSymbols o.bank r.master
    s.decodeWord la o.bank pr r.word r.master inj o.err o.twin
  let s := match r.store with
    | none => read s
    | some d => (if d.1 = 255 then s else read s).writeWord o r d pr
  s.setPort o.bank o.portS { s.bankPort o.bank o.portS with last := some grant }

/-- SRAM_ACCESS: a port of a bank grants the pending request of highest rank; each one that it passes over, or that found the port busy, is in
conflict (R211), and the granted one is served. -/
def sramAccess (s : State) (o : SramObs) : State :=
  if s.mode = .dormant then s else
  let port := s.bankPort o.bank o.portS
  let fresh : List SramReq := o.reqs.filter fun r => s.requestOk o.bank o.portS r
  let s := match port.last with
    | some g => forEach (fresh.filter fun (r : SramReq) => r.busy) (fun r s => s.conflict r.master g.req.master) s
    | none => s
  let all := port.waiting ++ fresh
  match s.highest o.bank o.portS all with
  | none => s
  | some r =>
    let rest := all.filter fun (q : SramReq) => q.master ≠ r.master
    let s := forEach rest (fun q s => s.conflict q.master r.master) s
    let s := s.raise (K.WAIT_WORST (r.master + 1)) (min o.wait 65535)
    let s := if rest = [] then s else s.invertHits o.bank o.portS false
    let s := s.setPort o.bank o.portS { port with waiting := rest }
    (s.marchAccess r.bank r.region).serveRequest o r

/-! ### March, substitution and sweep (R218 to R224, R227) -/

/-- Whether the background work of the banks goes on: HOLDUP stops it (R227). -/
def banksWork (s : State) : Bool := match s.mode with | .dormant | .holdup => false | _ => true

/-- A march failed on a region of a bank (R221). -/
def marchFailed (s : State) (b : Fin 5) (r : Fin 16) : State := ((s.addSat 32 K.MARCH_FAIL 1).lastError b 4 15 15 r 0).bankWorn b

/-- The end of a copy-back: a substitution that waited for it goes on, or the attempt is over, to be repeated where it was abandoned. -/
def copyBackEnd (s : State) : State :=
  let region := s.getU K.MARCH_NEXT
  let next : Fin 16 := s.march.mirror + 1
  match s.bankSub with
  | some sub => { s with march := March.init, bankSub := some { sub with waits := false } }
  | none =>
    if s.banks[(4 : Fin 5)].state ≠ .idle then { s with march := March.init }
    else if s.march.abandoned then { s with march := { s.march with phase := .retry, mirror := next } }
    else
      let s := { s with march := ⟨.idle, next, 0, false, false⟩ }
      let s := s.setN K.MARCH_NEXT ((region + 1) % 64 : Nat)
      if region = 63 then s.addWrap 32 K.MARCH_CYCLES 1 else s

/-- MARCH_PHASE_END (Table 07.4), with a failure of the march found in the phase (R221), or the errors that the phase's copy found; a phase that an
error ended in another way goes no further. -/
def marchPhaseEnd (s : State) (failed : Bool) (errs : List CopyErr) : State :=
  if s.banksWork = false then s else
  let region := s.getU K.MARCH_NEXT
  let l : Fin 4 := ⟨region / 16 % 4, by omega⟩
  let r : Fin 16 := ⟨region % 16, by omega⟩
  let b := s.bankOf l
  let mirror := s.march.mirror
  let s := (s.background b).background 4
  match s.march.phase with
  | .mirror =>
    if failed then s.marchFailed 4 mirror
    else { s.marchedRegion 4 mirror with march := { s.march with phase := .copy } }
  | .copy =>
    let s := s.copyErrors l r b r errs
    if s.march.phase = .copy then { s.copyRegion b r 4 mirror with march := { s.march with phase := .segment } } else s
  | .segment =>
    if failed then s.marchFailed b r
    else { s.marchedRegion b r with march := { s.march with phase := .copyBack } }
  | .copyBack =>
    let s := s.copyErrors l r 4 mirror errs
    if s.march.phase = .copyBack then (s.copyRegion 4 mirror b r).copyBackEnd else s
  | _ => s

/-- BANK_SUB_REGION_DONE: the region that the substitution copies is copied, and B4 serves it (R223). -/
def bankRegionDone (s : State) (r : Fin 16) (errs : List CopyErr) : State :=
  match s.bankSub, s.banks.toList.find? fun (x : Bank) => x.state = .worn && !x.noSpare with
  | some sub, some x =>
    if s.banksWork = false ∨ s.copying ≠ some r then s else
    let s := (s.background sub.worn).background 4
    let s := s.copyErrors (x.logical.getD 0) r sub.worn r errs
    match s.bankSub with
    | some sub =>
      let s := s.copyRegion sub.worn r 4 r
      let sub := { sub with done := sub.done ++ [r.val] }
      if sub.done.length < 16 then { s with bankSub := some sub } else s.finishBankSub sub
    | none => s
  | _, _ => s

/-- The place of the sweep's next read: on from `a`, in the next bank that is in service (R224). -/
def sweepPlace (s : State) (a : Nat) : Option Nat :=
  let bs : List (Fin 5) := ([0, 1, 2, 3, 4] : List (Fin 5)).map fun (k : Fin 5) => placeBank a + k
  (bs.find? fun (b : Fin 5) => s.banks[b].logical.isSome).map fun (b : Fin 5) => if b = placeBank a then a else 8192 * b.val

/-- SWEEP_READ: the next word is read and decoded in sweep mode, and due for its write-back where it was corrected (R216, R224). -/
def sweepRead (s : State) (err twin : SymErr) : State :=
  if s.getN K.SWEEP_MODE = 0 ∨ s.banksWork = false then s else
  match s.sweepPlace s.sweepAt with
  | none => s
  | some a =>
    let b := placeBank a
    if s.portFree b then
      let l : Fin 4 := (s.banks[b].logical).getD 0
      let s := { s.background b with sweepAt := (a + 1) % 40960 }
      s.decodeWord (wordPlace l (placeRegion a) (placeWord a)) b (placeRegion a) (placeWord a) 15 0 err twin
    else s

/-- SWEEP_READ of the word at place `a` of the physical banks: the sweep reads it where it stands there and no request pends (R212, R224). -/
def sweepWord (s : State) (a : Nat) (err twin : SymErr) (busy : Bool) : State :=
  if busy = true ∨ s.sweepPlace s.sweepAt ≠ some a then s else s.sweepRead err twin

end State

end Sys2Proof.Machine
end

