-- ==== Sys2Proof/Machine/Modes.lean ====
section
/-! DEFINITION. Machine/Modes.lean: SERVICE and its end, authenticated commands, twin decisions, sealing and the time commands (chapter 12;
R329, R335 to R337). -/

namespace Sys2Proof.Machine

open Sys2Proof

/-- The answer a command gets at once: a status and the new state. -/
abbrev Verdict := Status × State

namespace State

/-- `n` bytes whose values the spec leaves open. -/
def freeBytes (s : State) (n : Nat) : List Byte × State :=
  (List.range n).foldl (fun (acc : List Byte × State) _ => let f := acc.2.fresh; (acc.1 ++ [byteOf (Config.unstated f.1)], f.2)) ([], s)

/-! ### SERVICE and ATTENDED (R351, R352) -/

/-- SERVICE, decided or in force. -/
def inService (s : State) : Bool := decide (s.decided = Mode.service) && s.serves

/-- SERVICE, or attended LOCKDOWN, which counts as SERVICE for TAMPER_CMD and SERVICE_EXIT (R351). -/
def serviceAccess (s : State) : Bool := s.inService || (s.attended && decide (s.decided = Mode.lockdown) && s.serves)

/-- SERVICE or ATTENDED ends (R352); while SEALING is set, at the end of the sequence (R355). -/
def serviceEnd (s : State) : State :=
  if s.serviceAccess = false then s
  else if s.sealing then { s with svc := { s.svc with exitDue := true } }
  else
    match s.decided with
    | .service => { s with modeNext := some .metering }
    | _ => { s with attended := false }.endService

/-- The sealing sequence is over, and an exit that waited for it takes place (R355). -/
def sealOver (s : State) : State :=
  let due := s.svc.exitDue
  let s := { s with svc := { s.svc with sealStep := .none, sealHistory := false, exitDue := false } }
  if due then s.serviceEnd else s

/-- MODE_CMD SERVICE_EXIT. -/
def serviceExit (s : State) : Verdict := if s.serviceAccess = false ∨ s.sealing = true then (.wrongState, s) else (.ok, s.serviceEnd)

/-- SVC_CHANGE: the debounced level of SVC (R347); a low level ends SERVICE (R352). -/
def svcChange (s : State) (level : Bool) : State :=
  if s.mainOn = false then s else
  let s := { s with svc := { s.svc with svc := level } }
  if level then s else s.serviceEnd

/-- SVC_STRAP: 60 s of SVC high without an accepted entry on a sealed device (Table 11.1, R347). -/
def svcStrap (s : State) : State := if s.sealed = true ∧ s.svc.svc = true ∧ s.serviceAccess = false then s.source 15 0 else s

/-- The conditions of ENTER_SERVICE beside authentication (R351). -/
def enterOk (s : State) : Bool :=
  s.svc.svc && s.serves && (match s.decided with | .metering | .lockdown => true | _ => false) && s.tamper.run.isNone

/-- ENTER_SERVICE accepted (R351). -/
def enterAccepted (s : State) : State :=
  let s := { (s.addSat 32 K.SERVICE_COUNT 1) with svc := { s.svc with entered := s.rtc, exitDue := false } }
  match s.decided with
  | .lockdown => { s with attended := true }
  | _ => { s with modeNext := some .service }

/-- The second evaluation of ENTER_SERVICE (R351). -/
def enterTwin (s : State) (h : Requester) (first fault : Bool) : State :=
  if (s.enterOk != fault) ≠ first then (s.source 13 0).replyWrite h 0x1022 0 .wrongState
  else if first = false then s.replyWrite h 0x1022 0 .wrongState
  else s.enterAccepted.replyWrite h 0x1022 0 .ok

/-! ### TAMPER_CMD (R329, R335 to R337) -/

/-- The conditions of CLEAR_LOCKDOWN beside authentication: attended LOCKDOWN with no reason against the exit (R335, R337, R343). -/
def clearOk (s : State) : Bool := s.serviceAccess && decide (s.decided = Mode.lockdown) && !s.lockHeld

/-- CLEAR_LOCKDOWN accepted: both copies of the LOCKDOWN state clear, and SERVICE goes on from its original entry (R337, R346, R352). -/
def clearAccepted (s : State) : State :=
  let marks := s.getU K.TAMPER_MARKS
  let s := { s with modeNext := some .service, attended := false, lockLatch := false, integrityFlag := false }
  (s.queueUnit ⟨[], 8, .lockState false⟩).clearRecord 0xFF 3 marks

/-- The second evaluation of CLEAR_LOCKDOWN. -/
def clearTwin (s : State) (h : Requester) (first fault : Bool) : State :=
  if (s.clearOk != fault) ≠ first then (s.source 13 0).replyWrite h 0x1022 0 .wrongState
  else if first = false then s.replyWrite h 0x1022 0 .wrongState
  else s.clearAccepted.replyWrite h 0x1022 0 .ok

/-- BLOW_FUSE (R329). -/
def blowCommand (s : State) (n : Fin 16) : Verdict :=
  if n = 11 ∨ n = 13 ∨ s.srcFused n = true then (.invalidValue, s)
  else if s.serviceAccess = false then (.wrongState, s)
  else (.ok, s.blowFuse n)

/-! ### Sealing (R171, R243, R354, R355) -/

/-- The seal checks of Table 12.3 in their order: the code of the first that fails, 0 when all pass. -/
def sealChecks (s : State) : Nat :=
  if s.inService = false ∨ s.sealed = true then 1
  else if s.getN K.CAL_STATE ≠ 0 ∨ s.getN K.AUX_CAL_STATE ≠ 0 then 2
  else if s.sessionCount ≠ 0 then 3
  else if s.sealDisplayOk = false then 4
  else if leNat (s.getB K.AUTH_KEY) = 0 then 5
  else if s.taut then 6
  else if s.sign.destroyed then 10
  else 0

/-- A refused SEAL. -/
def sealRefused (s : State) (h : Requester) (code : Nat) : State := ((s.setN K.SEAL_REASON (code : Nat)).sealOver).replyWrite h 0x1022 0 .wrongState

/-- The second evaluation of SEAL (R354): agreement on success starts key generation. -/
def sealTwin (s : State) (h : Requester) (first : Nat) (fault : Bool) : State :=
  if fault ∨ s.sealChecks ≠ first then (s.source 13 0).sealRefused h 7
  else if first ≠ 0 then s.sealRefused h first
  else ({ s.setN K.SEAL_REASON 0 with svc := { s.svc with sealStep := .keygen } }).replyWrite h 0x1022 0 .ok

/-- Free values taken by key pairs that failed their consistency test. -/
def skipFresh (s : State) (n : Nat) : State := { s with free := s.free + n }

/-- The statute units: three of copy A, three of copy B, and the digest in both copies (R243, Table 12.4). What they hold of entries is the
sealed reference digests, the production public key, KEY_ID and KEY_TIME; the statute digest of the last unit, whose value the spec leaves open, reads
as zeros until the fuse (R242). -/
def queueStatute (s : State) (pub : List Byte) : State :=
  let dg := s.freeBytes 32
  let ws : List EntryWrite := (allPoints.map fun p => ⟨K.SEALED_DIGEST (p + 1), .bytes (sha256 (s.plateBytes p))⟩)
    ++ [⟨K.PUBKEY, .bytes pub⟩, ⟨K.KEY_ID, .num (keyIdOf pub false : Nat)⟩, ⟨K.KEY_TIME, .num (s.now : Nat)⟩]
  let s := dg.2.queueUnit ⟨ws, 2048, .statute false⟩
  let s := forEach (List.range 5) (fun _ s => s.queueUnit ⟨[], 2048, .statute false⟩) s
  ({ s with svc := { s.svc with statute := dg.1 } }).queueUnit ⟨[], 64, .statute true⟩

/-- SEAL_KEYGEN_DONE; `failed`: the pairs whose consistency test failed (R275). -/
def keygenDone (s : State) (failed : Nat) : State :=
  match s.svc.sealStep with
  | .keygen =>
    if 3 ≤ failed then
      let s := (s.skipFresh 3).setN K.SEAL_REASON 8
      ({ s with sign := { s.sign with prodKey := none } }.health 20 0xFF 1).sealOver
    else
      let f := (s.skipFresh failed).fresh
      let d := privOf f.1
      let s := { f.2 with
        sign := { f.2.sign with prodKey := some d }, svc := { f.2.svc with sealStep := .statute } }
      s.queueStatute (pubBytes d)
  | _ => s

/-- SEAL_FUSE_SET: with the digest good on both copies in both checks, the SEAL fuse is set, the statute page with its digest is in force, the values
of R119 are zeroed, and the seal checkpoint begins (Table 12.4, steps 4 to 6). Two checks of a copy that disagree raise T13, and two bad copies are an
integrity fault (R244); a copy that is not good ends the sequence before the fuse, which the spec does not state (DESIGN CHOICE, log entry 28). -/
def sealFuse (s : State) (o : StatuteObs) : State :=
  match s.svc.sealStep with
  | .fuse =>
    if s.svc.sealHistory then s
    else if !(o.a1 && o.a2 && o.b1 && o.b2) then
      let s := ((s.statuteCopy o.a1 o.a2).2.statuteCopy o.b1 o.b2).2
      let s := if o.a1 = false ∧ o.a2 = false ∧ o.b1 = false ∧ o.b2 = false then s.integrity 5 0 s.index else s
      s.abortSeal 9
    else
      let s := { s.setB K.STATUTE_DIGEST s.svc.statute with sealedRef := Vector.ofFn fun p => s.plateSet p }
      let s := (s.setN K.FUSE_MAP ((s.getU K.FUSE_MAP ||| 2 ^ 31 : Nat) : Int)).setN K.KEY_STATE (if s.sign.destroyed then 3 else 2)
      let s := { s with nvm := { s.nvm with statAOk := true, statBOk := true }, svc := { s.svc with sealHistory := true } }
      ({ s.zeroRegisters with store := { s.store with writing := none } }).ckptBegin
  | _ => s

/-- Step 6 of Table 12.4: with the seal checkpoint written, SEALED and SEAL_TIME are set and the SEAL history records follow. -/
def sealDone (s : State) : State :=
  if s.svc.sealHistory = true ∧ s.store.writing.isNone = true then
    let s := (s.setN K.SEALED 1).setN K.SEAL_TIME (s.now : Nat)
    (forEach allPoints (fun p s => s.sealHistory p) s).sealOver
  else s

/-- CHECKPOINT_WRITTEN (R145), and step 6 of sealing where it waited for it. -/
def checkpointWritten (s : State) : State := if s.store.writing.isSome then s.ckptWritten.sealDone else s

/-! ### Authentication (R348 to R350) -/

/-- A read of AUTH_CHALLENGE (R349): 16 new random bytes, none while the random source is not OK. -/
def newChallenge (s : State) : Option (List Byte × State) :=
  if s.getN K.RNG_STATE ≠ (0 : Int) then none else
  let f := s.fresh
  let b := (List.range 16).map (Config.randomByte f.1)
  some (b, { f.2 with svc := { f.2.svc with challenge := some b } })

/-- Whether an AUTH_CMD passes verification, its challenge aside (R350). -/
def authVerify (s : State) (cmd : List Byte) : Bool :=
  let key := s.getB K.AUTH_KEY
  let sig := (cmd.drop 22).take 64
  if s.sealed = false ∧ leNat key = 0 then decide (leNat sig = 0)
  else
    let m := s.getB K.SERIAL ++ cmd.take 22 ++ cmd.drop 86
    P256.verify (leNat (key.take 32)) (leNat (key.drop 32)) (sha256Nat m) (leNat (sig.take 32)) (leNat (sig.drop 32))

/-- The outcome of an authenticated write of MODE_CMD; none where a twin decision answers later. -/
def modeCommand (s : State) (h : Requester) (v : Nat) : Option Status × State :=
  match v with
  | 1 => let r := s.serviceExit; (some r.1, r.2)
  | 2 => (none, { s with twins := s.twins ++ [.enterService h s.enterOk] })
  | 3 => if s.sealing then (some .wrongState, s) else (none, { s with twins := s.twins ++ [.sealing h s.sealChecks] })
  | _ => (some .invalidValue, s)

/-- The same of TAMPER_CMD (Table 11.9). -/
def tamperCommand (s : State) (h : Requester) (v : Nat) : Option Status × State :=
  if 2 ^ 12 ≤ v then (some .invalidValue, s)
  else match v % 256 with
  | 1 => if s.serviceAccess then (some .ok, s.clearMarks) else (some .wrongState, s)
  | 2 => if s.clearOk then (none, { s with twins := s.twins ++ [.clearLockdown h true] }) else (some .wrongState, s)
  | 3 => let r := s.blowCommand ⟨v / 256 % 16, by omega⟩; (some r.1, r.2)
  | _ => (some .invalidValue, s)

/-- A write of AUTH_CMD (R348 to R350, Table 12.10): the layout, the challenge and its use, the signature, then the target's own checks. -/
def authCommand (s : State) (h : Requester) (cmd : List Byte) : Option Status × State :=
  let ch := (cmd.drop 6).take 16
  let valid := s.svc.challenge = some ch
  let s := if valid then { s with svc := { s.svc with challenge := none } } else s
  let idx := leNat (cmd.take 2)
  let len := leNat ((cmd.drop 4).take 2)
  if cmd.length < 87 ∨ cmd.length ≠ 86 + len then (some .length, s)
  else if (idx ≠ 0x1010 ∧ idx ≠ 0xA013) ∨ leNat ((cmd.drop 2).take 2) ≠ 0 ∨ 4 < len then (some .invalidValue, s)
  else if ¬valid ∨ s.authVerify cmd = false then (some .authFailed, (s.addSat 32 K.AUTH_FAIL 1).source 12 0)
  else if len ≠ (if idx = 0x1010 then 1 else 4) then (some .length, s)
  else if idx = 0x1010 then s.modeCommand h (leNat (cmd.drop 86))
  else s.tamperCommand h (leNat (cmd.drop 86))

/-- The bytes of an AUTH_CMD (Table 12.10). -/
def authBytes (idx : Nat) (a : Auth) (payload : List Byte) : List Byte :=
  leBytes 2 idx ++ [0, 0] ++ leBytes 2 payload.length ++ a.challenge ++ leBytes 32 a.r ++ leBytes 32 a.s ++ payload

/-! ### Twin decisions -/

/-- TWIN_EVALUATION: the second evaluation of the `i`-th decision that waits; `fault`: a fault makes it come out otherwise, for a tamper
decision as that class. -/
def twinEvaluation (s : State) (i : Nat) (fault : Option Nat) : State :=
  match s.twins[i]? with
  | none => s
  | some t =>
    let s := { s with twins := s.twins.eraseIdx i }
    match t with
    | .enterService h first => s.enterTwin h first fault.isSome
    | .clearLockdown h first => s.clearTwin h first fault.isSome
    | .sealing h first => s.sealTwin h first fault.isSome
    | .calCommit reason chs => s.calSecond reason chs fault.isSome
    | .signing first => s.signTwin first fault.isSome
    | .decision => s.tamperTwin fault

/-! ### Time (R359) -/

/-- TIME_STEP: a signed number of ns. -/
def timeStep (s : State) (v : Int) : Verdict :=
  if s.serves = false ∨ s.timeLocked = true then (.wrongState, s)
  else
    let wide := decide (s.mode = Mode.service) || decide (s.getN K.RTC_VALID = (0 : Int))
    if v.natAbs > (if wide then 2 ^ 46 else 1000000000) then (.invalidValue, s)
    else
      let s := (s.addSat 32 K.TIME_STEP_COUNT 1).setN K.TIME_STEP_LAST v
      (.ok, { s.setN K.RTC_VALID 1 with timeStepNext := s.timeStepNext + v })

end State

end Sys2Proof.Machine
end

