-- ==== Sys2Proof/Machine/Operands.lean ====
section
/-! DEFINITION. Machine/Operands.lean: the values that operations carry: their coding by type, the value rule of every entry, and the states in
which an entry refuses a write (R14, R375 to R377, and the rules of the entries' own chapters). -/

namespace Sys2Proof.Machine

open Sys2Proof

/-! ### Types (R375, Table 13.2) -/

/-- One byte of UTF-8: the continuation bytes still due and the bounds of the next. -/
def utf8Step (st : Option (Nat × Nat × Nat)) (b : Byte) : Option (Nat × Nat × Nat) :=
  match st with
  | none => none
  | some (0, _, _) =>
    let v := b.toNat
    if v < 0x80 then some (0, 0, 0)
    else if 0xC2 ≤ v ∧ v ≤ 0xDF then some (1, 0x80, 0xBF)
    else if v = 0xE0 then some (2, 0xA0, 0xBF)
    else if v = 0xED then some (2, 0x80, 0x9F)
    else if 0xE1 ≤ v ∧ v ≤ 0xEF then some (2, 0x80, 0xBF)
    else if v = 0xF0 then some (3, 0x90, 0xBF)
    else if 0xF1 ≤ v ∧ v ≤ 0xF3 then some (3, 0x80, 0xBF)
    else if v = 0xF4 then some (3, 0x80, 0x8F)
    else none
  | some (n + 1, lo, hi) => if lo ≤ b.toNat ∧ b.toNat ≤ hi then some (n, 0x80, 0xBF) else none

/-- Whether a byte string is valid UTF-8. -/
def utf8Ok (b : List Byte) : Bool :=
  match b.foldl utf8Step (some (0, 0, 0)) with
  | some (0, _, _) => true
  | _ => false

/-- Whether a payload length fits a type. -/
def Ty.lenOk : Ty → Nat → Bool
  | .u w, n => n * 8 = w
  | .i w, n => n * 8 = w
  | .s20, n => n = 4
  | .f32, n => n = 4
  | .time, n => n = 10
  | .str m, n => n ≤ m
  | .blob m, n => n = m
  | .blobUpTo m, n => n ≤ m
  | .record m, n => n = m

/-- The value that a payload spells. -/
def Ty.decode : Ty → List Byte → Val
  | .u _, b => .num (leNat b : Nat)
  | .i w, b => .num (toSigned w (leNat b))
  | .s20, b => .num (toSigned 20 (leNat b))
  | .f32, b => .num (leNat b : Nat)
  | .time, b => .num (leNat b : Nat)
  | .str _, b => .bytes b
  | .blob _, b => .bytes b
  | .blobUpTo _, b => .bytes b
  | .record _, b => .bytes b

/-- The type's own rule on a payload of fitting length (Table 13.2). -/
def Ty.valid : Ty → List Byte → Bool
  | .s20, b => decide (toSigned 20 (leNat b) = toSigned 32 (leNat b))
  | .f32, b => F32.finite (leNat b)
  | .time, b => leNat (b.take 4) ≤ 62499999
  | .str _, b => utf8Ok b
  | .record _, _ => false
  | _, _ => true

/-- The payload of a value. An unsigned value beyond its type reads as the type's greatest (R251). -/
def Ty.encode : Ty → Val → List Byte
  | .u w, .num v => leBytes (w / 8) (min v.toNat (2 ^ w - 1))
  | .i w, .num v => leBytes (w / 8) (ofSigned w v)
  | .s20, .num v => leBytes 4 (ofSigned 32 v)
  | .f32, .num v => leBytes 4 v.toNat
  | .time, .num v => leBytes 10 v.toNat
  | _, .bytes b => b
  | _, .num _ => []

/-! ### Value rules -/

/-- The bits of a word lie in a mask (R14). -/
def inMask (v m : Nat) : Bool := v ||| m = m

/-- The number of a value. -/
def Val.nat : Val → Nat
  | .num v => v.toNat
  | .bytes b => leNat b

/-- The integer of a value. -/
def Val.int : Val → Int
  | .num v => v
  | .bytes b => (leNat b : Nat)

/-- The bytes of a value. -/
def Val.list : Val → List Byte
  | .num _ => []
  | .bytes b => b

/-- The table's own rule. -/
def Rule.holds : Rule → Val → Bool
  | .any, _ => true
  | .within lo hi, v => lo ≤ v.int && v.int ≤ hi
  | .orNone hi, v => v.int ≤ hi || v.int = 255
  | .mask m, v => inMask v.nat m
  | .special, _ => true

/-- Rates of Table 13.15 in kbit/s: the nominal rate, and the data rate by its code. -/
def nominalRate (c : Nat) : Nat := 125 * 2 ^ c
def dataRate (c nom : Nat) : Nat := [nominalRate nom, 1000, 2000, 4000, 5000, 8000].getD c 0

/-- CAN_TIMING (Table 13.15). -/
def canTimingOk (v : Nat) : Bool :=
  field v 15 12 ≤ 3 && field v 7 4 ≤ 3 && field v 3 0 ≤ 3 && field v 11 8 ≤ 5 && nominalRate (field v 3 0) ≤ dataRate (field v 11 8) (field v 3 0)

/-- The channels a kind requires (Table 02.1). -/
def requiredChannels (kind : Nat) : List (Fin 7) :=
  if kind = 1 then [0, 3] else if kind = 2 then [0, 1, 3, 4] else if kind = 3 then [0, 1, 2, 3, 4, 5] else if kind = 4 then [0, 3] else []

/-- The codes of a stencil in frame order (R296). -/
def stencilCodes (b : List Byte) : List Nat := (List.range 64).map fun f => leNat b / 4 ^ f % 4

/-- A stencil of a length: no code 3, balanced, nothing beyond the length (R296, R297). -/
def stencilOk (b : List Byte) (len : Nat) : Bool :=
  let c := stencilCodes b
  c.all (· ≠ 3) && decide (c.count 1 = c.count 2) && (c.drop len).all (· = 0)

namespace State

/-- Whether a point's required channels stay used with one channel's USE changed (R55). -/
def channelsOk (s : State) (p : Fin 8) (kind : Nat) (c : Option (Fin 7 × Bool)) : Bool :=
  (requiredChannels kind).all fun k =>
    match c with
    | some (j, use) => if j = k then use else bit (s.getU (K.PORT_CFG p (k + 1))) 0
    | none => bit (s.getU (K.PORT_CFG p (k + 1))) 0

/-- Whether a lane's load stays within 28 units with one point's configuration changed (R29). -/
def loadOk (s : State) (p : Fin 8) (kind : Nat) (osr : Bool) (lane : Nat) : Bool :=
  let k (q : Fin 8) : Nat := if q = p then kind else s.cfgKind q
  let o (q : Fin 8) : Bool := if q = p then osr else s.cfgOsr q
  let l (q : Fin 8) : Nat := if q = p then lane else s.cfgLane q
  s.loadWith lane k o l ≤ 28

/-- Whether every KE_k of the phases of a point's kind stays below 2^64 with one CH_FS, or the OSR, changed (R120). -/
def scaleOk (s : State) (p : Fin 8) (c : Option (Fin 7 × Nat)) (osr : Bool) : Bool :=
  let fs (k : Fin 7) : Nat := match c with | some (j, v) => if j = k then v else s.getU (K.CH_FS p (k + 1)) | none => s.getU (K.CH_FS p (k + 1))
  (phaseList (s.cfgKind p)).all fun k => keOf (fs (vChan k)) (fs (iChan k)) osr < 2 ^ 64

/-- PORT_CFG (Table 02.7, R53, R55). -/
def portCfgOk (s : State) (p : Fin 8) (c : Fin 7) (v : Nat) : Bool :=
  v < 2 ^ 12 && field v 11 8 = 1 && s.channelsOk p (s.cfgKind p) (some (c, bit v 0))

/-- POINT_CFG (Table 03.2, R29, R55, R88, R130). -/
def pointCfgOk (s : State) (p : Fin 8) (v : Nat) : Bool :=
  inMask v 0x17 && kindOf v ≤ 4 && s.channelsOk p (kindOf v) none && (s.getU (K.LEGAL_PAIR p) = 0 || kindOf v = 4)
    && (s.cfgKind p ≠ 0 || s.loadOk p (kindOf v) (s.cfgOsr p) (s.cfgLane p))

/-- DEC_CONFIG (R74, R120). -/
def decConfigOk (s : State) (p : Fin 8) (v : Nat) : Bool :=
  inMask v 1 && (s.cfgKind p = 0 || s.loadOk p (s.cfgKind p) (bit v 0) (s.cfgLane p)) && s.scaleOk p none (bit v 0)

/-- SPARE_WIRING (R82): no home port of another understudy, and no unused port. -/
def wiringOk (s : State) (i : Nat) (v : Nat) : Bool :=
  v = 255 || (v ≤ 55 && ([1, 2, 3, 4] : List Nat).all (fun k => decide (k = i) || decide (s.getU (K.SPARE_WIRING k) ≠ v))
    && hasRole (s.cfgKind ⟨v / 7 % 8, by omega⟩) (v % 7) && bit (s.getU (K.PORT_CFG (v / 7) (v % 7 + 1))) 0)

/-- PULSE_CFG (Table 04.10): the COMP sources exist on DC points. -/
def pulseCfgOk (s : State) (v : Nat) : Bool :=
  inMask v 0x0771 && pulseSource v ≤ 6 && (pulseSource v < 4 || s.cfgKind ⟨pulsePoint v % 8, by omega⟩ = 4)

/-- BAND_EDGE: strictly ascending (Table 10.5). -/
def bandEdgeOk (s : State) (i : Nat) (v : Int) : Bool :=
  let e (k : Nat) : Int := if k = i then v else s.getN (K.BAND_EDGE k)
  ([1, 2, 3, 4] : List Nat).all fun k => decide (e k < e (k + 1))

/-- SLOT_CFG (Table 10.8); slot 4 is POINT, slot 5 TIME. -/
def slotCfgOk (i v : Nat) : Bool :=
  let cells := field v 4 0
  inMask v 0x7F1F && decide (field v 12 8 ≤ 23) && decide (field v 12 8 + cells ≤ 24)
    && (i ≠ 4 || (decide (cells ≤ 1) && decide (field v 14 13 = 0)))
    && (i ≠ 5 || (decide (cells = 0 ∨ cells = 4) && decide (field v 14 13 = 0)))

/-- A stencil or a length of a band (R296, R297). -/
def stencilEntryOk (s : State) (idx sub : Nat) (v : Val) : Bool :=
  let b := idx - 0x8020
  if sub ≤ 4 then stencilOk v.list (s.getU (keyOf idx 6))
  else if sub = 5 then stencilOk v.list (s.getU (keyOf idx 7))
  else
    let len := v.nat
    1 ≤ len && len ≤ 64 && b < 6
      && (if sub = 6 then ([1, 2, 3, 4] : List Nat) else [5]).all fun k => ((stencilCodes (s.getB (keyOf idx k))).drop len).all (· = 0)

/-- SRC_CFG (Table 11.8). -/
def srcCfgOk (v : Nat) : Bool := field v 7 2 = 0 && 1 ≤ field v 15 8 && 1 ≤ field v 31 16 && field v 31 16 ≤ 65000

/-- SRC_PARAM (Table 11.9); `i` the source plus one. -/
def srcParamOk (i v : Nat) : Bool :=
  if i ≤ 3 then inMask v 0x80FF && 1 ≤ v % 256 else if i = 6 then inMask v 0xFF else v = 0

/-- STRING_CFG: Table 15.3, and with ENABLE Table 15.1 (R432, R434). -/
def stringCfgOk (s : State) (v : Nat) : Bool :=
  let kind := field v 3 0
  let target := field v 15 8
  let sub := field v 23 16
  let amount := field v 55 46
  let duty := field v 39 32
  let mask := 2 ^ 63 + 0x3FF * 2 ^ 46 + 0xFF * 2 ^ 32 + 0xFF * 2 ^ 16 + 0xFF * 2 ^ 8 + 0xF
  inMask v mask && kind ≤ 5 && (bit v 63 = false ||
    match kind with
    | 0 => target ≤ 4 && 1 ≤ sub && sub ≤ 8
    | 1 => target ≤ 4 && sub ≤ 1
    | 2 => target ≤ 4 && sub ≤ 1
    | 3 => target ≤ 4 && sub ≤ 11 && 1 ≤ amount && 1 ≤ duty && duty ≤ 2
    | 4 => target = 0 && 1 ≤ sub && sub ≤ 2 && 1 ≤ amount
    | _ => if h : target ≤ 59 then sub ≤ 3 && (sub ≠ 2 || s.clkReturn (groupOf ⟨target, by omega⟩)) else false)

/-- The rules that Rule.special stands for. -/
def specialOk (s : State) (idx sub : Nat) (v : Val) : Bool :=
  let b := baseIdx idx
  let n := v.nat
  let p : Fin 8 := ⟨pointOfIdx idx % 8, by omega⟩
  let c : Fin 7 := ⟨(sub - 1) % 7, by omega⟩
  if idx = 0x1060 then canTimingOk n
  else if b = 0x2010 then s.portCfgOk p c n
  else if b = 0x2011 then inMask n 0x1FF
  else if b = 0x2000 then s.pointCfgOk p n
  else if idx = 0x2800 then inMask n 1 && (sub ≠ 15 || n = 0)
  else if idx = 0x2808 then s.wiringOk sub n
  else if idx = 0x4800 then inMask n 0x0F && field n 2 0 ≤ 5
  else if idx = 0x4810 then s.pulseCfgOk n
  else if b = 0x5000 || b = 0x5001 then inMask n 0x13FFF
  else if idx = 0x6800 then inMask n 0x037F07FF && 1 ≤ n % 256 && n % 256 ≤ 7
  else if idx = 0x6808 then 0x200000 ≤ n && n ≤ 0x800000
  else if idx = 0x6809 then v.int.natAbs ≤ 1342208
  else if idx = 0x7000 then inMask n 0xFFFF0377 && s.inputCfgOk (sub - 1) n
  else if idx = 0x7011 then inMask n 0xF3
  else if 0x7020 ≤ idx ∧ idx ≤ 0x7022 then inMask n 0xFFFF80FF0FF7DF1F && s.entryOk n
  else if idx = 0x7040 then inMask n 0x00FF731F && s.injectOk n
  else if idx = 0x7060 then inMask n 0x00031FFF && 1 ≤ n % 256 && n % 256 ≤ 5 && field n 17 16 ≠ 3
  else if idx = 0x8000 then inMask n 0x0F01 && field n 11 8 ≤ 5
  else if idx = 0x8002 then s.bandEdgeOk sub v.int
  else if idx = 0x8006 then (List.range 8).all fun k => n / 256 ^ k % 256 ≤ 191 || n / 256 ^ k % 256 = 255
  else if idx = 0x8007 then slotCfgOk sub n
  else if idx = 0x8009 then n &&& s.regionMask false = 0
  else if 0x8020 ≤ idx ∧ idx ≤ 0x8025 then s.stencilEntryOk idx sub v
  else if idx = 0x8035 then n < 2 ^ 194
  else if idx = 0xA000 then srcCfgOk n
  else if idx = 0xA001 then srcParamOk sub n
  else if idx = 0xA013 then inMask n 0xFFF && 1 ≤ n % 256 && n % 256 ≤ 3
  else if idx = 0xB004 then n = 0
  else if idx = 0xC810 then s.ringAckOk n
  else if idx = 0xD000 then s.stringCfgOk n
  else if idx = 0xE060 then n / 256 ≤ 3 && 1 ≤ n % 256 && n % 256 ≤ 2
  else true

/-- Whether a value is accepted (R14, R375): the table's rule and the entry's own. -/
def valueOk (s : State) (d : Desc) (idx sub : Nat) (v : Val) : Bool :=
  let p : Fin 8 := ⟨pointOfIdx idx % 8, by omega⟩
  let c : Fin 7 := ⟨(sub - 1) % 7, by omega⟩
  let b := baseIdx idx
  d.rule.holds v && (match d.rule with | .special => s.specialOk idx sub v | _ => true)
    && (b ≠ 0x2018 || s.decConfigOk p v.nat)
    && (b ≠ 0x2001 || s.scaleOk p (some (c, v.nat)) (s.cfgOsr p))
    && (b ≠ 0x4006 || v.nat = 0 || s.cfgKind p = 4)
    && (idx ≠ 0xE010 || s.loadOk ⟨(sub - 1) % 8, by omega⟩ (s.cfgKind ⟨(sub - 1) % 8, by omega⟩) (s.cfgOsr ⟨(sub - 1) % 8, by omega⟩) v.nat)

/-! ### States that refuse a write, beside the access class (R376) -/

/-- Whether a point has a session open (R74, R88). -/
def sessionOn (s : State) (p : Fin 8) : Bool := s.getN (K.SESSION_STATE p) ≠ 0

/-- WRONG_STATE whatever the value: a session on the point (R74, R88, R269), a draft outside OPEN (R160), an input of the sealed configuration
(R198), calibration and lane commands outside SERVICE (R158, R198, R441), and an injection that waits (R197). -/
def stateRefuses (s : State) (idx sub : Nat) : Bool :=
  let b := baseIdx idx
  let p : Fin 8 := ⟨pointOfIdx idx % 8, by omega⟩
  if b = 0x2000 || b = 0x2018 || b = 0xC003 then s.sessionOn p
  else if 0x6808 ≤ idx ∧ idx ≤ 0x680A then s.getN K.CAL_STATE ≠ 1
  else if idx = 0x7000 then s.sealedInput (sub - 1)
  else if idx = 0x6800 || idx = 0x7060 || idx = 0xE060 then !s.inService
  else false

end State

end Sys2Proof.Machine
end

