-- ==== Sys2Proof/Machine/Strings.lean ====
section
/-! DEFINITION. Machine/Strings.lean: writing and clearing strings, the taint they cause, and the lane commands (R432 to R441). -/

namespace Sys2Proof.Machine

open Sys2Proof

namespace State

/-- STRING_CFG accepted (R432, R433, R438): the string is taut or slack from now on, its hits start again, and a change between taint and no
taint is recorded. -/
def setString (s : State) (i : Fin 8) (w : Nat) : State :=
  let old := s.getU K.STRING_TAUT
  let new := if bit w 63 then setBit old i else clearBit old i
  let s := ((s.setN (K.STRING_CFG (i + 1)) (w : Nat)).setN (K.STRING_HITS (i + 1)) 0)
  let s := { s with stringReads := s.stringReads.set i 0 }
  if old ≠ 0 ∧ new = 0 then
    ((s.health 19 0xFF old).setN K.STRING_TAUT 0).setN K.TAINT_SINCE s.now |>.compose
  else
    let s := s.setN K.STRING_TAUT (new : Nat)
    if old = 0 ∧ new ≠ 0 then (((s.health 18 0xFF new).setN K.TAINT_SINCE s.now).sessionTaint.demandFlag 4).compose else s

/-- STRING_CLEAR: every string slack, in any mode. -/
def clearStrings (s : State) : State := if s.taut then s.slackAll.compose else s

/-- The lowest point a lane serves, 0xFF when it serves none. -/
def lanePoint (s : State) (l : Fin 5) : Nat := match s.servedBy l with | q :: _ => q.val | [] => 0xFF

/-- LANE_CMD SUBSTITUTE (R441): a lane in service is declared worn while L4 is idle. -/
def substituteLane (s : State) (l : Fin 4) : Verdict :=
  let f : Fin 5 := ⟨l, by omega⟩
  if s.inService = true ∧ s.lanes[f].state = .inService ∧ s.lanes[(4 : Fin 5)].state = .idle ∧ s.laneSub.isNone = true then
    (.ok, s.declareWorn f (s.lanePoint f))
  else (.wrongState, s)

/-- LANE_CMD RESTORE (R441): a retired lane is tested while L4 carries a logical lane. -/
def restoreLane (s : State) (l : Fin 4) : Verdict :=
  let f : Fin 5 := ⟨l, by omega⟩
  if s.inService = true ∧ s.lanes[f].state = .retired ∧ s.lanes[(4 : Fin 5)].logical.isSome = true ∧ s.laneSub.isNone = true
      ∧ s.svc.retest.isNone = true then
    (.ok, { s.updLane f fun x => { x with state := .testing } with svc := { s.svc with retest := some f } })
  else (.wrongState, s)

/-- LANE_RETEST_DONE (R441): without a correction the lane takes the logical lane back by shadowing; with any, it stays retired. -/
def retestDone (s : State) (corrections : Nat) : State :=
  match s.svc.retest with
  | none => s
  | some l =>
    let s := { s with svc := { s.svc with retest := none } }
    let s := s.setN (K.LANE_RETEST (l + 1)) ((min corrections 65535 * 65536 + 65535 : Nat) : Int)
    if corrections = 0 ∧ s.laneSub.isNone = true then
      (s.updLane l fun x => { x with ops := [], corrected1s := 0 }).startShadow 4 l true
    else (s.updLane l fun x => { x with state := .retired }).addSat 32 K.RESTORE_FAIL 1

end State

end Sys2Proof.Machine
end

