-- ==== Sys2Proof/Machine/Flags.lean ====
section
/-! DEFINITION. Machine/Flags.lean: the write-1-to-clear entries and the volatile entries, whose writes act at once (R78, R116, R322, R378), and
the flag words that are formed when they are read. -/

namespace Sys2Proof.Machine

open Sys2Proof

namespace State

/-- Whether an entry takes the flag path (R378). -/
def isFlagEntry (idx : Nat) : Bool := baseIdx idx = 0x2011 || baseIdx idx = 0x5001 || idx = 0xA010 || idx = 0x8035

/-- Whether an entry takes the volatile path (R378). -/
def isVolatileEntry (idx : Nat) : Bool := idx = 0x8009 || idx = 0xD000

/-- A write of a flag or volatile entry acts. -/
def writeNow (s : State) (idx sub : Nat) (v : Val) : State :=
  let p : Fin 8 := ⟨pointOfIdx idx % 8, by omega⟩
  if baseIdx idx = 0x2011 then s.clearPortFlags p ⟨(sub - 1) % 7, by omega⟩ v.nat
  else if baseIdx idx = 0x5001 then s.clearEvStatus p v.nat
  else if idx = 0xA010 then s.clearSticky v.nat
  else if idx = 0x8035 then s.clearDrvFault v.nat
  else if idx = 0x8009 then (s.setB K.HOST_IMAGE v.list).setTarget true v.nat
  else if idx = 0xD000 then s.setString ⟨(sub - 1) % 8, by omega⟩ v.nat
  else s

/-- MODE_FLAGS (Table 12.13). -/
def modeFlags (s : State) : Nat :=
  natOfBool s.sealing + 2 * natOfBool s.integrityFlag + 4 * natOfBool s.sealed + 8 * natOfBool s.svc.svc
    + 16 * natOfBool (decide (s.getN K.RTC_VALID = (0 : Int))) + 32 * natOfBool s.taut + 64 * natOfBool s.attended

/-- MODE (Table 12.11). -/
def modeCode (s : State) : Nat :=
  match s.mode with | .dormant => 0 | .recalling => 1 | .metering => 2 | .service => 3 | .holdup => 4 | .lockdown => 5

/-- NVM_STATE (Table 08.10). -/
def nvmState (s : State) : Nat :=
  natOfBool s.sealed + 4 * natOfBool s.nvm.statAOk + 8 * natOfBool s.nvm.statBOk + 16 * natOfBool s.journal.openUnit.isSome
    + 32 * natOfBool s.nvm.patrolReading + 64 * natOfBool (decide (s.spareFree = 0))

/-- HEALTH_SUMMARY (Table 15.8). -/
def healthSummary (s : State) : Nat :=
  natOfBool (s.lanes.toList.any fun x => x.noSpare) + 2 * natOfBool (s.banks.toList.any fun b => b.noSpare)
    + 4 * natOfBool (([0, 1, 2, 3] : List (Fin 4)).any fun c => s.coupleNoSpare c) + 8 * natOfBool s.portNoSpare
    + 16 * natOfBool (decide (s.spareFree = 0)) + 32 * natOfBool (decide (s.getN K.SWEEP_MODE = (1 : Int)))
    + 64 * natOfBool (s.lanes.toList.any fun x => x.latHigh || x.latHighLast) + 128 * natOfBool s.taut
    + 256 * natOfBool (decide (s.getN K.RNG_STATE ≠ (0 : Int))) + 512 * natOfBool s.svc.katBad

/-- LANE_STATE of a physical lane (Table 01.7). -/
def laneWordOf (s : State) (l : Fin 5) : Nat :=
  let x := s.lanes[l]
  let st := match x.state with | .idle => 0 | .inService => 1 | .worn => 2 | .shadowing => 3 | .retired => 4 | .testing => 5
  let shadow := match s.laneSub with | some sub => if sub.shadow = l then (sub.points.map fun p => 2 ^ p.val).sum else 0 | none => 0
  st + 256 * natOfBool x.noSpare + 512 * (match x.logical with | some k => k.val | none => 7) + 65536 * shadow
    + 2 ^ 24 * ((s.servedBy l).map fun p => 2 ^ p.val).sum

/-- Spare resources (Table 15.7). -/
def spareCount (s : State) (sub : Nat) : Nat :=
  match sub with
  | 1 => natOfBool (decide (s.lanes[(4 : Fin 5)].state = .idle))
  | 2 => natOfBool (decide (s.banks[(4 : Fin 5)].state = .idle))
  | 3 => natOfBool (decide (s.coupleSt 3 = 0))
  | 4 => (s.spares.toList.filter fun x => match x.state with | .serving | .faulty => false | _ => true).length
  | _ => s.spareFree

end State

end Sys2Proof.Machine
end

