-- ==== Sys2Proof/Machine/Views.lean ====
section
/-! DEFINITION. Machine/Views.lean: the value of an entry as a READ finds it: stored entries, entries formed from the rest of the state, logs,
the record ring and the scratch area (R44, R237, R252, R285, R376). -/

namespace Sys2Proof.Machine

open Sys2Proof

namespace State

/-! ### Records -/

/-- The storage sequence after the newest record of a log that has a copy in the array: a record whose first copy is still being written does
not count. -/
def logEnd (s : State) (k : LogKind) : Nat :=
  match s.jobs with
  | j :: _ => if j.log = k ∧ j.seq.isSome = true ∧ j.copies = 0 then (s.log k).total - 1 else (s.log k).total
  | [] => (s.log k).total

/-- The better of a position's two copies: one whose CRC matches, the newer where both do. Nothing where the position is blank. -/
def positionRecord (s : State) (k : LogKind) (pos : Nat) : Option CopySlot :=
  let l := (s.log k).slots
  match lookupL l (2 * pos), lookupL l (2 * pos + 1) with
  | some a, some b => some (if a.good then (if b.good && decide (a.seq < b.seq) then b else a) else b)
  | some a, none => some a
  | none, b => b

/-- A record as read: zeros where there is none, MEMORY_ERROR where no copy can be read. -/
def recordRead (n : Nat) (r : Option CopySlot) : Status × List Byte :=
  match r with
  | some c => if c.good then (.ok, c.bytes) else (.memoryError, [])
  | none => (.ok, List.replicate n 0)

/-- The `i`-th newest record of a log, from 1. -/
def logRead (s : State) (k : LogKind) (n i : Nat) : Status × List Byte :=
  let e := s.logEnd k
  if e < i then (.ok, List.replicate n 0)
  else
    match s.recordOf k (e - i) with
    | some b => (.ok, b)
    | none => recordRead n (s.positionRecord k ((e - i) % k.places))

/-! ### Entries formed when they are read -/

/-- SAMPLE_INDEX: the newest index of which every channel of every metering point is released; a sample at OSR 500 covers two (R44). -/
def sampleIndex (s : State) : Nat :=
  let l := (allPoints.filter fun p => kindOf s.points[p].app.cfg ≠ 0).map fun p =>
    s.points[p].chans[(6 : Fin 7)].n + natOfBool s.points[p].app.osr500
  match l with
  | [] => s.index
  | a :: r => r.foldl min a

/-- SERVICE_LEFT in seconds. -/
def serviceLeft (s : State) : Nat :=
  if s.serviceAccess then (s.svc.entered + s.getU K.SERVICE_MAX * 3600000000000 - s.rtc) / 1000000000 else 0

/-- CAN_PENDING: a stored setting differs from the one in force (R401). -/
def canPending (s : State) : Bool :=
  let node := s.getU K.CAN_NODE
  decide ((if node = 0 then 16 + s.svc.addr else node) ≠ s.bus.nodeActive) || decide (s.getU K.CAN_TIMING ≠ s.bus.timingActive)
    || decide (s.getU K.CAN_ID_BASE ≠ s.bus.baseActive)

/-- The number entries that follow other state; none for an entry that is stored as such. -/
def viewNum (s : State) (idx sub : Nat) : Option Nat :=
  if idx = 0x10F0 ∧ sub = 1 then some s.sampleIndex
  else if isDisputedUntil (keyOf idx sub) ∧ s.mode = .lockdown then some (2 ^ 64 - 1)
  else if idx = 0x1001 then some s.modeCode
  else if idx = 0x1002 then some s.modeFlags
  else if idx = 0x1012 then some s.serviceLeft
  else if idx = 0x1030 ∧ sub = 1 then some s.now
  else if idx = 0x1060 ∧ sub = 2 then some s.bus.nodeActive
  else if idx = 0x1060 ∧ sub = 5 then some (natOfBool s.canPending)
  else if idx = 0x1061 ∧ sub = 6 then some (min s.bus.rxErr 255 * 256 + min s.bus.txErr 255)
  else if idx = 0x1062 ∧ sub = 1 then some (match s.tab with | none => 0 | some t => if t.complete then 2 else 1)
  else if idx = 0x1063 ∧ sub = 1 then some (natOfBool s.stream.running)
  else if idx = 0xE000 then some s.healthSummary
  else if idx = 0xE001 then some (s.spareCount sub)
  else if idx = 0xE011 then some (s.laneWordOf ⟨(sub - 1) % 5, by omega⟩)
  else if idx = 0xE013 then some (s.laneLoad (sub - 1))
  else if idx = 0x2809 then some (s.spareWord ⟨(sub - 1) % 4, by omega⟩)
  else if idx = 0xE030 then some (s.bankWord ⟨(sub - 1) % 5, by omega⟩)
  else if idx = 0x9000 ∧ sub = 4 then some s.nvmState
  else if idx = 0x9003 ∧ sub = 3 then some (if s.journal.openUnit.isNone then 0 else if s.journal.committed then 2 else 1)
  else if idx = 0x5800 then some (s.log .event).total
  else if idx = 0x6820 then some (s.log .history).total
  else if idx = 0xA020 then some (s.log .tamper).total
  else if idx = 0xE040 then some (s.log .health).total
  else if idx = 0xC810 ∧ sub = 3 then some s.ringPending
  else if idx = 0x8030 then some s.dispWord
  else if idx = 0xB002 then some (s.portWord ⟨(sub - 1) % 4, by omega⟩)
  else none

/-- The measured analogue figures, whose values are the world's: VDD33_MV, VCORE_MV, REPLICA_DELAY, REF_DEV and CAN_SP_ACTUAL. -/
def isMeasured (idx sub : Nat) : Bool :=
  idx = 0x1040 || idx = 0xE026 || (idx = 0xA016 && sub = 3) || (idx = 0x1060 && sub = 6)

/-- The byte-string entries that follow other state. -/
def viewBytes (s : State) (idx sub : Nat) : Option (Status × List Byte) :=
  if idx = 0x5801 then some (s.logRead .event 32 sub)
  else if idx = 0x6821 then some (s.logRead .history 32 sub)
  else if idx = 0xA021 then some (s.logRead .tamper 32 sub)
  else if idx = 0xE041 then some (s.logRead .health 32 sub)
  else if idx = 0xC811 then some (recordRead 886 (s.positionRecord .ring (sub - 1)))
  else if idx = 0x8031 then some (.ok, leBytes 24 s.disp.shown)
  else if idx = 0x8035 then some (.ok, leBytes 25 s.disp.fault)
  else if idx = 0xB011 then some (.ok, (s.thb.ports[(⟨sub % 4, by omega⟩ : Fin 4)].child).bytes)
  else none

/-- The scratch area (R237): a page, or a group of eight bytes; MEMORY_ERROR where a group cannot be read (R240). -/
def scratchRead (s : State) (page sub : Nat) : Status × List Byte :=
  let a := if sub = 0 then scratchAddr page 0 else scratchAddr page (8 * (sub - 1))
  let n := if sub = 0 then 256 else 8
  if s.rangeBad a n then (.memoryError, []) else (.ok, Memory.reads s.scratch a n)

/-- READ of an entry (R376): its status, the bytes of its value, and the state after it (AUTH_CHALLENGE takes new random bytes, R349). -/
def readEntry (s : State) (idx sub : Nat) : Status × List Byte × State :=
  match findDesc idx sub with
  | none => (.unknownEntry, [], s)
  | some d =>
    match d.acc with
    | .wo => (.access, [], s)
    | _ =>
      if idx = 0x1021 then (match s.newChallenge with | some r => (.ok, r.1, r.2) | none => (.wrongState, [], s))
      else if 0xF000 ≤ idx then (let r := s.scratchRead (idx - 0xF000) sub; (r.1, r.2, s))
      else if isMeasured idx sub then
        (let f := s.fresh
         let v := Config.unstated f.1
         -- VCORE lies between 0.75 V and 0.95 V (R23)
         (.ok, d.ty.encode (.num (if idx = 0xE026 then ((750 + v % 201 : Nat) : Int) else match d.ty with
           | .i w => toSigned w v
           | _ => ((v % 2 ^ 16 : Nat) : Int))), f.2))
      else
        match s.viewBytes idx sub, s.viewNum idx sub with
        | some r, _ => (r.1, r.2, s)
        | none, some v => (.ok, d.ty.encode (.num (v : Nat)), s)
        | none, none =>
          if idx = 0x8033 then (.ok, d.ty.encode (.num (s.disp.ledger.getD (sub - 1) 0)), s)
          else
            let v : Val := match d.ty with
              | .str _ | .blob _ | .blobUpTo _ | .record _ => .bytes (s.getB (keyOf idx sub))
              | _ => .num (s.getN (keyOf idx sub))
            (.ok, d.ty.encode v, s)

end State

end Sys2Proof.Machine
end

