-- ==== Sys2Proof/Machine/Protocol.lean ====
section
/-! DEFINITION. Machine/Protocol.lean: how a host request is received, waits its turn, is checked and is executed: reads, writes by their path,
commands, batches, tableaux and streams (R373 to R382, R393 to R399). -/

namespace Sys2Proof.Machine

open Sys2Proof

/-! ### Messages -/

/-- Whether an operation exists and its link carries it (R381, Table 13.5). -/
def carries : Link → Nat → Bool
  | .spi, o => 1 ≤ o && o ≤ 8
  | .can, o => (1 ≤ o && o ≤ 5) || o = 8

/-- The bytes of a message (Table 13.4). -/
def Message.bytes (m : Message) : List Byte :=
  leBytes 1 m.op ++ leBytes 1 m.tag ++ leBytes 2 m.index ++ leBytes 1 m.sub ++ leBytes 1 m.status.code ++ leBytes 2 m.payload.length ++ m.payload

/-- A message that begins a byte string, with LENGTH (Table 13.4). The STATUS of a request is ignored (R380). -/
def parseHeader (b : List Byte) : Message × Nat :=
  (⟨leNat (b.take 1), leNat ((b.drop 1).take 1), leNat ((b.drop 2).take 2), leNat ((b.drop 4).take 1), .ok, []⟩, leNat ((b.drop 6).take 2))

/-- Whether two messages are the same request: operation, tag and entry. -/
def Message.same (a b : Message) : Bool := a.op = b.op && a.tag = b.tag && a.index = b.index && a.sub = b.sub

/-- The largest value of a type in bytes. -/
def Ty.most : Ty → Nat
  | .u w => w / 8
  | .i w => w / 8
  | .s20 => 4
  | .f32 => 4
  | .time => 10
  | .str n => n
  | .blob n => n
  | .blobUpTo n => n
  | .record n => n

/-- The bytes one value of a journal unit takes: its header and whole groups (Table 08.3). -/
def unitBytes (n : Nat) : Nat := 8 + 8 * ((n + 7) / 8)

namespace State

/-! ### Receiving and waiting (R366, R382, R388, R393, R445) -/

/-- The greatest times of steps 3 to 8 and 10 to 12 from RECALL's beginning, in ns (Table 12.7). Step 9 ends no step that RECALL waits for. -/
def stepLimits : List (Nat × Nat) :=
  [(3, 250000), (4, 700000), (5, 1500000), (6, 1600000), (7, 2000000), (8, 2000000), (10, 4500000), (11, 8000000), (12, 12000000)]

/-- The remaining time of RECALL in units of 0.1 ms, saturating (R5, R366, R382): the largest of the NVM share, the groups still to scan by the
time one has taken so far (R262; how far a scan has come and what a group takes are the array's, log entry 15), and the rest of what every
step not yet complete may take. -/
def recallLeft (s : State) : Nat × State :=
  let f := s.fresh
  let g := f.2.fresh
  let left := if bit s.startup.steps 11 then 0 else Config.unstated f.1 % 65537
  let gone := s.rtc - s.startup.started
  let rest := stepLimits.foldl (fun m e => if bit s.startup.steps e.1 then m else max m (e.2 - gone)) 0
  (min 65535 ((max (left * Config.unstated g.1) rest + 99999) / 100000), g.2)

/-- A response that is ready at once, whatever waits. -/
def answerNow (s : State) (l : Link) (m : Message) : State :=
  let x := s.link l
  s.setLink l { x with out := x.out ++ [m] }

/-- What every request meets first: nothing answers before RECALL and in HOLDUP, factory test mode answers ACCESS, RECALL answers RECALLING.
True where the request goes on. -/
def admitted (s : State) (l : Link) (m : Message) : Bool × State :=
  if s.linksOn = false then (false, s)
  else if s.svc.ftm then (false, s.answerNow l { m with status := .access, payload := [] })
  else if s.mode = .recalling then
    let r := s.recallLeft
    (false, r.2.answerNow l { m with status := .recalling, payload := leBytes 2 r.1 })
  else (true, s)

/-- A request joins its link's queue; the fifth is answered BUSY (R393), and one refused at receipt is answered when it reaches the front. -/
def enqueue (s : State) (l : Link) (m : Message) : State :=
  let x := s.link l
  if 4 ≤ x.queue.length then (s.addSat 32 K.BUSY_COUNT 1).answerNow l { m with status := .busy, payload := [] }
  else if x.queue = [] ∧ m.status ≠ .ok then s.answerNow l { m with payload := [] }
  else s.setLink l { x with queue := x.queue ++ [m] }

/-- A request arrives on a link. -/
def receiveRequest (s : State) (l : Link) (m : Message) : State :=
  let r := s.admitted l m
  if r.1 then r.2.enqueue l m else r.2

/-- Whether it is a request's turn: a link's requests are executed and answered in the order of their arrival (R393). A request that has not been
received yet is received now. -/
def turn (s : State) (l : Link) (m : Message) : Bool × State :=
  let x := s.link l
  match x.queue with
  | [] => (true, s.setLink l { x with queue := [m] })
  | a :: r => if a.same m then (true, s) else if r.any (·.same m) then (false, s) else (false, s.enqueue l m)

/-- The steward executes a request of a host. -/
def execute (s : State) (h : Requester) (op idx sub : Nat) (payload : List Byte) (f : State → State) : State :=
  let m : Message := ⟨op, h.tag, idx, sub, .ok, payload⟩
  let r := s.admitted h.link m
  if r.1 = false then r.2 else
  let t := r.2.turn h.link m
  if t.1 then f t.2 else t.2

/-- The payload that the request in turn was received with. -/
def heldPayload (s : State) (h : Requester) : List Byte :=
  match (s.link h.link).queue with
  | m :: _ => m.payload
  | [] => []

/-! ### Writes (R376 to R378) -/

/-- Whether the access class forbids a write, or the mode does. -/
def classStatus (s : State) (d : Desc) : Status :=
  match d.acc with
  | .ro | .fac => .access
  | .sealable => if s.sealed then .access else if s.inService then .ok else .wrongState
  | .rws => if s.inService then .ok else .wrongState
  | .rw | .wo => .ok

/-- Whether a payload length fits an entry; scratch pages take 1 to 4,096 bytes (R237, R375). -/
def entryLenOk (d : Desc) (idx sub n : Nat) : Bool := if 0xF000 ≤ idx ∧ sub = 0 then 1 ≤ n && n ≤ 4096 else d.ty.lenOk n

/-- What the host writes that were accepted and wait for their commit group will leave in the entries. -/
def waitingWrites (s : State) : List EntryWrite :=
  s.uncommitted.flatMap fun u => match u.owner with
    | .write _ _ _ => u.writes
    | .batch _ _ => u.writes
    | _ => []

/-- The state as those writes, and `ws` after them, will leave its entries: what a further write must fit (R29). -/
def foreseen (s : State) (ws : List EntryWrite) : State := forEach (s.waitingWrites ++ ws) (fun w s => s.setV w.key w.val) s

/-- Whether a payload's value is accepted beside the writes accepted before it, `ws` those of the same batch; a scratch write must not pass page
255 (R29, R237, R375). -/
def entryValueOk (s : State) (ws : List EntryWrite) (d : Desc) (idx sub : Nat) (data : List Byte) : Bool :=
  if 0xF000 ≤ idx then (sub ≠ 0 || (idx - 0xF000) * 256 + data.length ≤ 65536)
  else d.ty.valid data && (s.foreseen ws).valueOk d idx sub (d.ty.decode data)

/-- The outcome of checking a write of an entry other than a command (R377), after the writes `ws` of the same batch. -/
def writeStatus (s : State) (ws : List EntryWrite) (d : Desc) (idx sub : Nat) (data : List Byte) : Status :=
  match s.classStatus d with
  | .ok =>
    if s.stateRefuses idx sub then .wrongState
    else if entryLenOk d idx sub data.length = false then .length
    else if s.entryValueOk ws d idx sub data = false then .invalidValue
    else .ok
  | st => st

/-- Whether a unit that has not committed yet writes an entry. -/
def writePending (s : State) (k : Nat) : Bool :=
  s.journal.waiting.any (fun u => u.writes.any fun w => w.key = k)
    || (!s.journal.committed && (match s.journal.openUnit with | some u => u.writes.any fun w => w.key = k | none => false))

/-- Whether a stored write leaves the value as it is (R378). A write waiting for its commit group may still change it. -/
def unchanged (s : State) (k : Nat) (v : Val) : Bool :=
  !s.writePending k && (match v with | .num n => s.getN k = n | .bytes b => s.getB k = b)

/-- A write of the scratch area (R236, R237, R240): MEMORY_ERROR where a group cannot be written. `cut`: the groups written when a power loss ends
it early; then it is never answered (R379). -/
def scratchHost (s : State) (page sub : Nat) (data : List Byte) (cut : Option Nat) : Option Status × State :=
  let a := if sub = 0 then scratchAddr page 0 else scratchAddr page (8 * (sub - 1))
  if s.nvm.writeInhibit then (none, s)
  else if s.rangeBad a data.length then (some .memoryError, s)
  else
    let s := s.scratchWrite a data cut
    (if cut.isSome then none else some .ok, s)

/-- The path of an accepted write (R378); no status where it is answered later. -/
def writePath (s : State) (h : Requester) (d : Desc) (idx sub : Nat) (data : List Byte) (cut : Option Nat) : Option Status × State :=
  let v := d.ty.decode data
  if 0xF000 ≤ idx then s.scratchHost (idx - 0xF000) sub data cut
  else if isFlagEntry idx ∨ isVolatileEntry idx then (some .ok, s.writeNow idx sub v)
  else if s.unchanged (keyOf idx sub) v then (some .ok, s.sameWritten (keyOf idx sub))
  else (none, s.queueUnit ⟨[⟨keyOf idx sub, v⟩], unitBytes data.length, .write h idx sub⟩)

/-! ### Commands (WO entries) -/

/-- SESSION_CMD (R266, R270): OPEN is held while a plate commit runs on the point. -/
def sessionCommand (s : State) (h : Requester) (p : Fin 8) (v : Nat) : Option Status × State :=
  if v = 1 then
    if s.commitRuns p then (none, s.updSession p fun x => { x with held := x.held ++ [h] })
    else if s.openOk p then (some .ok, s.acceptOpen p)
    else (some .wrongState, s)
  else if v = 2 then (match s.acceptClose p with | some s => (some .ok, s) | none => (some .wrongState, s))
  else (some .invalidValue, s)

/-- CAL_CMD (R158, Table 05.10). -/
def calWrite (s : State) (v : Nat) (ok : Bool) : Option Status × State :=
  if v % 256 = 0 ∨ 8 ≤ v % 256 then (some .invalidValue, s)
  else match s.calCommand v with
    | none => (some .wrongState, s)
    | some r => if ok then (some .ok, r) else (some .invalidValue, s)

/-- INJECT (R197). -/
def injectWrite (s : State) (v : Nat) (ok : Bool) : Option Status × State :=
  let l := field v 9 8
  if l = 3 then (some .invalidValue, s)
  else if s.getN (K.INJ_STATE (l + 1)) = 1 ∨ s.getN (K.INJ_STATE (l + 1)) = 2 then (some .wrongState, s)
  else if ok then (some .ok, s.inject ⟨l % 3, by omega⟩ v)
  else (some .invalidValue, s)

/-- AUX_CAL_CMD (R198 to R200). -/
def auxWrite (s : State) (v : Nat) (ok : Bool) : Option Status × State :=
  if v % 256 = 0 ∨ 6 ≤ v % 256 then (some .invalidValue, s)
  else
    let r := s.auxCommand v
    if r.2 = false then (some .wrongState, r.1) else if ok then (some .ok, r.1) else (some .invalidValue, s)

/-- SITE_CMD (R421, R423). -/
def siteWrite (s : State) (v : Nat) : Option Status × State :=
  let r := if v = 1 then s.siteOpenCmd else s.siteCloseCmd
  if v = 0 ∨ 3 ≤ v then (some .invalidValue, s)
  else match r with
    | some s => (some .ok, s)
    | none => (some .wrongState, s)

/-- LANE_CMD (R441). -/
def laneWrite (s : State) (v : Nat) : Option Status × State :=
  let l : Fin 4 := ⟨v / 256 % 4, by omega⟩
  if 4 ≤ v / 256 then (some .invalidValue, s)
  else if v % 256 = 1 then (let r := s.substituteLane l; (some r.1, r.2))
  else if v % 256 = 2 then (let r := s.restoreLane l; (some r.1, r.2))
  else (some .invalidValue, s)

/-- MODE_CMD written directly: only SERVICE_EXIT (R348). -/
def modeWrite (s : State) (v : Nat) : Option Status × State :=
  if v = 2 ∨ v = 3 then (some .access, s)
  else if v = 1 then (let r := s.serviceExit; (some r.1, r.2))
  else (some .invalidValue, s)

/-- A write of a WO entry (R376 to R378): answered once its command is accepted or refused. -/
def command (s : State) (h : Requester) (d : Desc) (idx sub : Nat) (data : List Byte) : Option Status × State :=
  let b := baseIdx idx
  let p : Fin 8 := ⟨pointOfIdx idx % 8, by omega⟩
  let v := leNat data
  let ok := s.entryValueOk [] d idx sub data
  if idx = 0xA013 then (some .access, s)
  else if idx = 0x6800 ∧ s.calBusy (v % 256) = true then (some .wrongState, s)
  else if s.stateRefuses idx sub then (some .wrongState, s)
  else if idx = 0x1031 ∧ s.timeLocked = true then (some .wrongState, s)
  else if entryLenOk d idx sub data.length = false then (some .length, s)
  else if idx = 0x1010 then s.modeWrite v
  else if idx = 0x1022 then s.authCommand h data
  else if idx = 0x1031 then (let r := s.timeStep (toSigned 64 v); (some r.1, r.2))
  else if idx = 0x6800 then s.calWrite v ok
  else if idx = 0x7040 then s.injectWrite v ok
  else if idx = 0x7060 then s.auxWrite v ok
  else if idx = 0xB030 then s.siteWrite v
  else if b = 0xC000 then s.sessionCommand h p v
  else if idx = 0xE060 then s.laneWrite v
  else if v ≠ 1 then (some .invalidValue, s)
  else if b = 0x4011 then (some .ok, s.mdReset p)
  else if idx = 0xD002 then (some .ok, s.clearStrings)
  else if idx = 0xE025 then (some .ok, s.latClear)
  else (some .ok, s.clearCounters)

/-- The steward executes a WRITE. -/
def runWrite (s : State) (h : Requester) (idx sub : Nat) (data : List Byte) (cut : Option Nat) : Option Status × State :=
  match findDesc idx sub with
  | none => (some .unknownEntry, s)
  | some d =>
    if d.acc = .wo then s.command h d idx sub data
    else match s.writeStatus [] d idx sub data with
      | .ok => s.writePath h d idx sub data cut
      | st => (some st, s)

/-- A WRITE with its answer. -/
def writeAnswered (s : State) (h : Requester) (idx sub : Nat) (data : List Byte) (cut : Option Nat) : State :=
  let r := s.runWrite h idx sub data cut
  match r.1 with
  | some st => r.2.replyWrite h idx sub st
  | none => r.2

/-- A host's WRITE of an entry. -/
def hostWrite (s : State) (h : Requester) (idx sub : Nat) (data : List Byte) : State :=
  s.execute h opWrite idx sub data fun s => s.writeAnswered h idx sub data none

/-- A host's WRITE of the scratch area, which a power loss may cut. -/
def hostScratch (s : State) (h : Requester) (page sub : Nat) (data : List Byte) (cut : Option Nat) : State :=
  s.execute h opWrite (0xF000 + page) sub data fun s => s.writeAnswered h (0xF000 + page) sub data cut

/-! ### Reads -/

/-- A READ executed (R376, R377): its request carries no payload (Table 13.5). -/
def readChecked (s : State) (idx sub : Nat) (payload : List Byte) : Status × List Byte × State :=
  let r := s.readEntry idx sub
  match r.1 with
  | .ok | .memoryError => if payload = [] then r else (.length, [], s)
  | st => (st, [], s)

/-- A host's READ of an entry. -/
def hostRead (s : State) (h : Requester) (idx sub : Nat) : State :=
  s.execute h opRead idx sub [] fun s =>
    let r := s.readChecked idx sub (s.heldPayload h)
    r.2.2.reply h opRead idx sub r.1 (if r.1 = .ok then r.2.1 else [])

/-! ### The tableau (R45 to R50, R396, R397) -/

/-- What a TABLEAU_READ finds (R377, R397). -/
def tableauStatus (s : State) (idx sub : Nat) (payload : List Byte) : Status :=
  match findDesc idx sub with
  | none => .unknownEntry
  | some _ =>
    if payload.length ≠ 2 then .length
    else match s.tab with
      | none => .tableauClosed
      | some t => if t.id ≠ leNat payload then .tableauClosed else if isFrozen (keyOf idx sub) then .ok else .notFrozen

/-- The bytes of an entry under the open tableau (R46). -/
def tableauBytes (s : State) (idx sub : Nat) : List Byte :=
  match findDesc idx sub, s.tab with
  | some d, some t => d.ty.encode (.num (s.frozenVal t (keyOf idx sub)))
  | _, _ => []

/-- Whether the open tableau's image is complete. -/
def tableauReady (s : State) : Bool := match s.tab with | some t => t.complete | none => false

/-- TABLEAU_READ: held until the image is complete (R48). -/
def tableauRead (s : State) (h : Requester) (idx sub id : Nat) : State :=
  s.execute h opTabRead idx sub (leBytes 2 id) fun s =>
    match s.tableauStatus idx sub (s.heldPayload h) with
    | .ok =>
      if s.tableauReady then s.reply h opTabRead idx sub .ok (s.tableauBytes idx sub)
      else { s with tab := s.tab.map fun t => { t with held := t.held ++ [(h, idx, sub)] } }
    | st => s.reply h opTabRead idx sub st []

/-- TABLEAU_OPEN (R45, R396). -/
def tableauOpen (s : State) (h : Requester) : State :=
  s.execute h opTabOpen 0 0 [] fun s =>
    if s.tab.isSome then s.reply h opTabOpen 0 0 .wrongState []
    else if s.heldPayload h ≠ [] then s.reply h opTabOpen 0 0 .length []
    else
      let id := if s.tabLast = 0 ∨ 0x7FFF ≤ s.tabLast then 1 else s.tabLast + 1
      let f := s.freezeIdx 25000
      let s := { s.openTableau id f false with tabLast := id }
      s.reply h opTabOpen 0 0 .ok (leBytes 8 f ++ leBytes 10 (s.stamp f) ++ leBytes 2 id)

/-! ### Batches (R394, R395) -/

/-- The sub-requests that a payload spells, at most `n`, and whether they fill it exactly. -/
def parseSubs : Nat → List Byte → List Message × Bool
  | _, [] => ([], true)
  | 0, _ :: _ => ([], false)
  | n + 1, b =>
    let m := parseHeader b
    if b.length < 8 ∨ b.length < 8 + m.2 then ([], false)
    else
      let r := parseSubs n (b.drop (8 + m.2))
      ({ m.1 with payload := (b.drop 8).take m.2 } :: r.1, r.2)

/-- Whether a sub-request's operation is permitted: no write of a WO entry or of the scratch area. -/
def subPermitted (m : Message) : Bool :=
  if m.op = opRead ∨ m.op = opTabRead then true
  else if m.op = opWrite then (match findDesc m.index m.sub with | some d => d.acc ≠ .wo && m.index < 0xF000 | none => true)
  else false

/-- The largest sub-response. -/
def subMost (m : Message) : Nat :=
  if m.op = opWrite then 8
  else match findDesc m.index m.sub with
    | some d => if d.acc = .wo then 8 else 8 + d.ty.most
    | none => 8

/-- The journal bytes of a sub-request: stored writes only. -/
def subStored (m : Message) : Nat :=
  if m.op = opWrite ∧ isFlagEntry m.index = false ∧ isVolatileEntry m.index = false ∧ (findDesc m.index m.sub).isSome = true then
    unitBytes m.payload.length
  else 0

/-- The outer status of a batch (R394). -/
def batchStatus (payload : List Byte) : Status :=
  let r := parseSubs 32 payload
  if payload.length > 4096 then .length
  else if r.1.all subPermitted = false then .operation
  else if r.1 = [] ∨ r.2 = false ∨ 4096 < (r.1.map subMost).sum ∨ 2048 < (r.1.map subStored).sum then .length
  else .ok

/-- The status of a sub-request of WRITE after the stored writes `ws` of its batch before it (R29, R395). -/
def subWriteStatus (s : State) (ws : List EntryWrite) (m : Message) : Status :=
  match findDesc m.index m.sub with
  | none => .unknownEntry
  | some d => s.writeStatus ws d m.index m.sub m.payload

/-- The stored write that a sub-request makes. -/
def subWrite (m : Message) : List EntryWrite :=
  match findDesc m.index m.sub with
  | some d => if isFlagEntry m.index ∨ isVolatileEntry m.index then [] else [⟨keyOf m.index m.sub, d.ty.decode m.payload⟩]
  | none => []

/-- Every sub-request with its status as R377 checks it before any write is applied (R395): OK for one that is no WRITE. -/
def subChecks (s : State) (subs : List Message) : List (Message × Status) :=
  (subs.foldl (fun (acc : List (Message × Status) × List EntryWrite) m =>
    let st := if m.op = opWrite then s.subWriteStatus acc.2 m else .ok
    (acc.1 ++ [(m, st)], if m.op = opWrite ∧ st = .ok then acc.2 ++ subWrite m else acc.2)) ([], [])).1

/-- Whether a sub-request waits for the tableau image. -/
def subWaits (s : State) (m : Message) : Bool :=
  m.op = opTabRead && decide (s.tableauStatus m.index m.sub m.payload = .ok) && !s.tableauReady

/-- A sub-response. -/
def subReply (m : Message) (st : Status) (payload : List Byte) : List Byte :=
  ({ m with tag := 0, status := st, payload := payload } : Message).bytes

/-- One sub-request executed: the responses so far, the stored writes so far and the state. -/
def runSub (refused : Bool) (acc : List Byte × List EntryWrite × State) (ms : Message × Status) : List Byte × List EntryWrite × State :=
  let s := acc.2.2
  let m := ms.1
  if m.op = opRead then
    let r := s.readChecked m.index m.sub m.payload
    (acc.1 ++ subReply m r.1 (if r.1 = .ok then r.2.1 else []), acc.2.1, r.2.2)
  else if m.op = opTabRead then
    let st := s.tableauStatus m.index m.sub m.payload
    (acc.1 ++ subReply m st (if st = .ok then s.tableauBytes m.index m.sub else []), acc.2.1, s)
  else if refused then
    (acc.1 ++ subReply m (if ms.2 = .ok then .notApplied else ms.2) [], acc.2.1, s)
  else
    match findDesc m.index m.sub with
    | none => acc
    | some d =>
      let v := d.ty.decode m.payload
      let k := keyOf m.index m.sub
      let out := acc.1 ++ subReply m .ok []
      if isFlagEntry m.index ∨ isVolatileEntry m.index then (out, acc.2.1, s.writeNow m.index m.sub v)
      else if s.unchanged k v ∧ acc.2.1.all (fun w => w.key ≠ k) then (out, acc.2.1, s.sameWritten k)
      else (out, acc.2.1 ++ [⟨k, v⟩], s)

/-- A batch executed: held while a sub-request waits for the tableau image; every write checked before any is applied; all stored writes one unit,
and the answer after its commit group (R395). -/
def runBatch (s : State) (h : Requester) (payload : List Byte) : State :=
  match batchStatus payload with
  | .ok =>
    let subs := (parseSubs 32 payload).1
    if subs.any s.subWaits then { s with heldBatches := s.heldBatches ++ [(h, payload)] }
    else
      let checks := s.subChecks subs
      let refused := checks.any fun x => decide (x.2 ≠ .ok)
      let r := checks.foldl (runSub refused) ([], [], s)
      if r.2.1 = [] then r.2.2.reply h opBatch 0 0 .ok r.1
      else r.2.2.queueUnit ⟨r.2.1, (subs.map subStored).sum, .batch h r.1⟩
  | st => s.reply h opBatch 0 0 st []

/-- A host's BATCH. -/
def hostBatch (s : State) (h : Requester) (payload : List Byte) : State := s.execute h opBatch 0 0 payload fun s => s.runBatch h payload

/-- Batches that were held for the tableau run as far as they can. -/
def runHeld (s : State) : State := forEach s.heldBatches (fun (b : Requester × List Byte) s => s.runBatch b.1 b.2) { s with heldBatches := [] }

/-- TABLEAU_CLOSE (R377, R397). -/
def tableauClose (s : State) (h : Requester) (id : Nat) : State :=
  s.execute h opTabClose 0 0 (leBytes 2 id) fun s =>
    if (s.heldPayload h).length ≠ 2 then s.reply h opTabClose 0 0 .length []
    else match s.tab with
      | none => s.reply h opTabClose 0 0 .tableauClosed []
      | some t => if t.id = leNat (s.heldPayload h) then (s.closeTableau.reply h opTabClose 0 0 .ok []).runHeld else s.reply h opTabClose 0 0 .tableauClosed []

/-- TABLEAU_COMPLETE (R48, R50): the reads held are answered, and a site tableau's image counts (R422). -/
def tableauComplete (s : State) : State :=
  match s.tab with
  | none => s
  | some t =>
    if t.complete then s else
    let s := { s with tab := some { t with complete := true, held := [] } }
    let s := forEach t.held (fun (r : Requester × Nat × Nat) s => s.reply r.1 opTabRead r.2.1 r.2.2 .ok (s.tableauBytes r.2.1 r.2.2)) s
    (if t.site then s.siteOwn else s).runHeld

/-- TABLEAU_TIMEOUT (R397). -/
def tableauTimeout (s : State) : State := s.closeLocal.runHeld

/-! ### Streams (R398, R399) -/

/-- The channels of a mask, ascending. -/
def maskChans (mask : Nat) : List (Fin 8 × Fin 7) := (allPoints.flatMap fun p => allChans.map fun c => (p, c)).filter fun (x : Fin 8 × Fin 7) => bit mask (7 * x.1.val + x.2.val)

/-- Whether STREAM_START's payload is accepted (R398, Table 13.11). -/
def streamOk (s : State) (mask divisor src : Nat) : Bool :=
  let ch := maskChans mask
  let slow := ch.map fun (x : Fin 8 × Fin 7) => s.points[x.1].app.osr500
  let fs := if slow.head? = some true then 40000 else 80000
  mask ≠ 0 && mask < 2 ^ 56 && 1 ≤ divisor && divisor ≤ 256 && src ≤ 1 && (slow.all id || slow.all not) && ch.length * fs ≤ 1280000 * divisor

/-- STREAM_START. -/
def streamStart (s : State) (h : Requester) (mask divisor src : Nat) : State :=
  let payload := leBytes 8 mask ++ leBytes 2 divisor ++ leBytes 1 src ++ [0]
  s.execute h opStreamStart 0 0 payload fun s =>
    if h.link = .can then s.reply h opStreamStart 0 0 .operation []
    else if s.stream.running then s.reply h opStreamStart 0 0 .wrongState []
    else if (s.heldPayload h).length ≠ 12 then s.reply h opStreamStart 0 0 .length []
    else if s.streamOk mask divisor src = false ∨ leNat ((s.heldPayload h).drop 11) ≠ 0 then s.reply h opStreamStart 0 0 .invalidValue []
    else
      let slow := (maskChans mask).any fun (x : Fin 8 × Fin 7) => s.points[x.1].app.osr500
      let step := if slow then 2 * divisor else divisor
      let t := s.stream
      let s := { s with stream := { t with
        running := true, mask := mask, step := step, corrected := decide (src = 1), begin := (s.index / step + 1) * step, samples := [] } }
      s.reply h opStreamStart 0 0 .ok []

/-- STREAM_STOP: the partly filled frame is discarded. -/
def streamStop (s : State) (h : Requester) : State :=
  s.execute h opStreamStop 0 0 [] fun s =>
    if h.link = .can then s.reply h opStreamStop 0 0 .operation []
    else if s.heldPayload h ≠ [] then s.reply h opStreamStop 0 0 .length []
    else ({ s with stream := { s.stream with running := false, samples := [] } }).reply h opStreamStop 0 0 .ok []

/-- Samples of every channel in one frame (R399). -/
def framePeriods (nch : Nat) : Nat := if nch ≤ 42 then 32 else 24

/-- The payload of a stream frame (Table 13.12). -/
def streamPayload (t : Stream) : List Byte :=
  let ch := maskChans t.mask
  let rows := (List.range (framePeriods ch.length)).flatMap fun i =>
    ch.flatMap fun (x : Fin 8 × Fin 7) => leBytes 3 ((lookupL t.samples ((t.begin + i * t.step) * 64 + 7 * x.1.val + x.2.val)).getD 0)
  leBytes 6 t.begin ++ leBytes 2 t.step ++ leBytes 1 ch.length ++ leBytes 1 (min t.lost 255) ++ rows

/-- Whether the last sample of the frame has come on every channel. -/
def streamFull (t : Stream) : Bool :=
  let ch := maskChans t.mask
  let last := t.begin + (framePeriods ch.length - 1) * t.step
  t.running && ch.all fun (x : Fin 8 × Fin 7) => (lookupL t.samples (last * 64 + 7 * x.1.val + x.2.val)).isSome

/-- STREAM_FRAME_READY: the frame is queued, or dropped where 16 wait (R399). -/
def streamFrame (s : State) : State :=
  let t := s.stream
  if streamFull t = false then s else
  let next := t.begin + framePeriods (maskChans t.mask).length * t.step
  let rest := t.samples.filter fun (x : Nat × Nat) => next * 64 ≤ x.1
  if 16 ≤ t.frames.length then
    ({ s with stream := { t with begin := next, samples := rest, lost := t.lost + 1 } }).addSat 32 K.STREAM_LOST 1
  else
    { s with stream := { t with
      begin := next, samples := rest, lost := 0, frames := t.frames ++ [(t.tag, streamPayload t)], tag := (t.tag + 1) % 256 } }

end State

end Sys2Proof.Machine
end

