-- ==== Sys2Proof/Machine/Transport.lean ====
section
/-! DEFINITION. Machine/Transport.lean: the two host links: SPI transactions, and CAN FD frames with their segments, error counters and bus-off
(R383 to R392). -/

namespace Sys2Proof.Machine

open Sys2Proof

namespace State

/-! ### Requests at receipt -/

/-- The refusal of a request whose LENGTH passes 4,096: the first of R377 that applies, and LENGTH where none does (R380). -/
def longStatus (s : State) (m : Message) : Status :=
  if m.op = opTabOpen then (if s.tab.isSome then .wrongState else .length)
  else if m.op = opStreamStart ∧ s.stream.running = true then .wrongState
  else if m.op = opRead ∨ m.op = opWrite ∨ m.op = opTabRead then
    match findDesc m.index m.sub with
    | none => .unknownEntry
    | some d =>
      if m.op = opRead then (if d.acc = .wo then .access else .length)
      else if m.op = opWrite then
        (if m.index = 0xA013 then .access
         else match s.classStatus d with
           | .ok => if s.stateRefuses m.index m.sub then .wrongState else .length
           | st => st)
      else .length
  else .length

/-- The status a request carries from its receipt (R377, R380, R381): FRAME, then OPERATION, then what an overlong payload means. -/
def receiptStatus (s : State) (l : Link) (m : Message) (len : Nat) (good : Bool) : Status :=
  if good = false then .frame
  else if carries l m.op = false then .operation
  else if 4096 < len then s.longStatus m
  else .ok

/-! ### SPI (R383 to R388) -/

/-- The SPI status byte (Table 13.7). -/
def spiStatus (s : State) : Nat :=
  0xA0 + 8 * natOfBool (decide (s.mode = Mode.recalling)) + 4 * natOfBool (decide (4 ≤ s.spi.queue.length))
    + 2 * natOfBool (decide (s.stream.frames ≠ [])) + natOfBool (decide (s.spi.out ≠ []))

/-- The level of ball HRDY: high while RESP_PENDING or STREAM_PENDING is set, and low while transactions are ignored (R387, R388). -/
def hrdy (s : State) : Bool := s.linksOn && (decide (s.spi.out ≠ []) || decide (s.stream.frames ≠ []))

/-- The bytes sent in a transaction. -/
def spiSent (s : State) (b : List Byte) : State := { s with spi := { s.spi with sent := b } }

/-- SPI_SEND: the bytes after the kind byte (R385); with none of them the transaction reads the status byte only (R384). The payload of an overlong request is not read (R380). -/
def spiSend (s : State) (b : List Byte) : State :=
  if s.linksOn = false then s else
  let s := s.spiSent [byteOf s.spiStatus]
  if b = [] then s else
  let m := parseHeader b
  let isLong := decide (4096 < m.2)
  if b.length < 8 ∨ (isLong = false ∧ b.length < 10 + m.2) then s.addSat 32 K.SPI_SHORT 1
  else
    let good := isLong || decide (crc16 (b.take (8 + m.2)) = leNat ((b.drop (8 + m.2)).take 2))
    let s := if good then s else s.addSat 32 K.SPI_CRC_ERR 1
    s.receiveRequest .spi { m.1 with status := s.receiptStatus .spi m.1 m.2 good, payload := if isLong then [] else (b.drop 8).take m.2 }

/-- The message a FETCH sends: the oldest response, else the oldest stream frame, else NONE (R386). -/
def spiNext (s : State) : Message :=
  match s.spi.out, s.stream.frames with
  | m :: _, _ => m
  | [], f :: _ => ⟨opStreamData, f.1, 0, 0, .ok, f.2⟩
  | [], [] => ⟨0, 0, 0, 0, .ok, []⟩

/-- The message leaves its queue. -/
def spiTaken (s : State) : State :=
  match s.spi.out, s.stream.frames with
  | _ :: r, _ => { s with spi := { s.spi with out := r } }
  | [], _ :: r => { s with stream := { s.stream with frames := r } }
  | [], [] => s

/-- A message with its CRC-16, low byte first (R385). -/
def withCrc (b : List Byte) : List Byte := b ++ leBytes 2 (crc16 b)

/-- SPI_FETCH: `clocked` bytes after the kind byte (R386). -/
def spiFetch (s : State) (clocked : Nat) : State :=
  if s.linksOn = false then s else
  let full := withCrc s.spiNext.bytes
  let s1 := s.spiSent (byteOf s.spiStatus :: (full ++ List.replicate (clocked - full.length) 0).take clocked)
  if full.length ≤ clocked then s1.spiTaken else s1

/-! ### CAN FD (R389 to R392) -/

/-- The fields of a DOP identifier (Table 13.8). -/
def canBase (id : Nat) : Nat := field id 28 24
def canDir (id : Nat) : Nat := field id 23 23
def canNode (id : Nat) : Nat := field id 22 16
def canOp (id : Nat) : Nat := field id 15 8
def canTag (id : Nat) : Nat := field id 7 0

/-- The state with the CAN receiver and transmitter changed. -/
def updBus (s : State) (f : CanSt → CanSt) : State := { s with bus := f s.bus }

/-- Message bytes 2 onwards: entry, STATUS and LENGTH (R391). -/
def canHeader (op tag : Nat) (b : List Byte) : Message × Nat := parseHeader (leBytes 1 op ++ leBytes 1 tag ++ b)

/-- A request that ends with broken segmentation is answered FRAME (R392). -/
def canBroken (s : State) (op tag : Nat) (b : List Byte) : State :=
  (s.addSat 32 K.CAN_SEG_ERR 1).receiveRequest .can { (canHeader op tag b).1 with status := .frame }

/-- A complete message of `b`, message bytes 2 onwards (R391). -/
def canMessage (s : State) (op tag : Nat) (b : List Byte) : State :=
  let m := canHeader op tag b
  if b.length < 6 ∨ (m.2 ≤ 4096 ∧ b.length < 6 + m.2) then s.canBroken op tag b
  else s.receiveRequest .can { m.1 with status := s.receiptStatus .can m.1 m.2 true, payload := if 4096 < m.2 then [] else (b.drop 6).take m.2 }

/-- The running reassembly is abandoned (R392). -/
def canAbandon (s : State) : State :=
  let x := s.bus
  (s.updBus fun x => { x with segOpen := false, segBytes := [] }).canBroken x.segOp x.segTag x.segBytes

/-- A FIRST segment (R391, R392): an overlong message is refused without reading on (R380). -/
def canFirst (s : State) (op tag : Nat) (b : List Byte) : State :=
  if 4096 < (canHeader op tag b).2 then s.canMessage op tag b
  else s.updBus fun x => { x with segOp := op, segTag := tag, segCount := 1, segBytes := b, segOpen := true, segTime := s.rtc }

/-- The last segment is in: length and CRC-16 (R391). -/
def canLast (s : State) : State :=
  let x := s.bus
  let m := canHeader x.segOp x.segTag x.segBytes
  let n := 6 + m.2
  if x.segBytes.length < n + 2 ∨ crc16 (x.segBytes.take n) ≠ leNat ((x.segBytes.drop n).take 2) then s.canAbandon
  else (s.updBus fun x => { x with segOpen := false, segBytes := [] }).canMessage x.segOp x.segTag (x.segBytes.take n)

/-- A segment of a request for this node (R391, R392). -/
def canSegment (s : State) (op tag : Nat) (data : List Byte) : State :=
  match data with
  | [] => s
  | k :: b =>
    let type := k.toNat / 64
    let count := k.toNat % 64
    let x := s.bus
    if type ≤ 1 then
      let s := if x.segOpen then s.canAbandon else s
      if count ≠ 0 then s.canBroken op tag b else if type = 0 then s.canMessage op tag b else s.canFirst op tag b
    else if x.segOpen = false then s
    else if op ≠ x.segOp ∨ tag ≠ x.segTag ∨ count ≠ x.segCount then s.canAbandon
    else
      let s := s.updBus fun x => { x with segBytes := x.segBytes ++ b, segCount := (x.segCount + 1) % 64, segTime := s.rtc }
      if type = 3 then s.canLast else s

/-- A frame received without error moves the receive error counter down (ISO 11898-1; PRESUMED, log entry 30): from above 127 to a value of 119 to 127 that the
standard leaves open. -/
def canReceived (s : State) : State :=
  if 127 < s.bus.rxErr then
    let f := s.fresh
    f.2.updBus fun x => { x with rxErr := 119 + Config.unstated f.1 % 9 }
  else s.updBus fun x => { x with rxErr := x.rxErr - 1 }

/-- CAN_FRAME (R389, R390). -/
def canFrame (s : State) (kind : CanKind) (id : Nat) (data : List Byte) : State :=
  if s.linksOn = false ∨ s.bus.busOff = true then s else
  let s := s.canReceived
  let mine := decide (canBase id = s.bus.baseActive)
  match kind with
  | .other => s
  | .classic => if mine then s.addSat 32 K.CAN_CLASSIC 1 else s
  | .fd => if mine && decide (canDir id = 0) && decide (canNode id = s.bus.nodeActive) then s.canSegment (canOp id) (canTag id) data else s

/-- CAN_REASSEMBLY_TIMEOUT (R392). -/
def canTimeout (s : State) : State := if s.bus.segOpen then s.canAbandon else s

/-- The data length of CAN FD that takes `n` bytes. -/
def canDlc (n : Nat) : Nat :=
  if n ≤ 8 then n else if n ≤ 12 then 12 else if n ≤ 16 then 16 else if n ≤ 20 then 20 else if n ≤ 24 then 24 else if n ≤ 32 then 32
  else if n ≤ 48 then 48 else 64

/-- A data field padded with zeros. -/
def canPad (b : List Byte) : List Byte := b ++ List.replicate (canDlc b.length - b.length) 0

/-- The segments that follow FIRST, from a COUNT on (R391). -/
def canTail : Nat → Nat → List Byte → List (List Byte)
  | 0, _, _ => []
  | n + 1, count, b =>
    if b.length ≤ 63 then [canPad (byteOf (0xC0 + count % 64) :: b)]
    else canPad (byteOf (0x80 + count % 64) :: b.take 63) :: canTail n (count + 1) (b.drop 63)

/-- The data fields of a message: one SINGLE, or segments with the CRC-16 (R391). -/
def canFields (m : Message) : List (List Byte) :=
  let b := m.bytes.drop 2
  if b.length ≤ 63 then [canPad (0 :: b)]
  else
    let c := withCrc b
    canPad (byteOf 0x40 :: c.take 63) :: canTail c.length 1 (c.drop 63)

/-- CAN_TRANSMIT: the oldest response leaves in its segments (R390, R391). -/
def canTransmit (s : State) : State :=
  if s.linksOn = false ∨ s.bus.busOff = true then s else
  match s.can.out with
  | [] => s
  | m :: r =>
    let id := s.bus.baseActive * 2 ^ 24 + 2 ^ 23 + s.bus.nodeActive * 2 ^ 16 + m.op % 256 * 2 ^ 8 + m.tag % 256
    ({ s with can := { s.can with out := r } }).updBus fun x =>
      { x with frames := (canFields m).map fun (d : List Byte) => (id, d), txErr := x.txErr - 1 }

/-- CAN_BUS_ERROR: the error counters, and bus-off above 255 transmit errors (R389, ISO 11898-1; PRESUMED, log entry 30). A node in bus-off takes no part. -/
def canError (s : State) (transmitter : Bool) (weight : Nat) : State :=
  if s.linksOn = false ∨ s.bus.busOff = true then s
  else if transmitter = false then s.updBus fun x => { x with rxErr := x.rxErr + weight }
  else
    let s := s.updBus fun x => { x with txErr := x.txErr + weight }
    if 255 < s.bus.txErr then (s.updBus fun x => { x with busOff := true }).addSat 32 K.CAN_BUSOFF 1 else s

/-- CAN_BUSOFF_RECOVERY (R389). -/
def canRecover (s : State) : State := if s.bus.busOff then s.updBus fun x => { x with busOff := false, txErr := 0, rxErr := 0 } else s

end State

end Sys2Proof.Machine
end

