-- ==== Sys2Proof/Machine/Occurrences.lean ====
section
/-! DEFINITION. Machine/Occurrences.lean: what an occurrence causes where it joins operations of several chapters: sample periods with the
tableau and time steps, the checks of the tamper sources, and small events of the random source and the charge pump. -/

namespace Sys2Proof.Machine

open Sys2Proof

namespace State

/-! ### RECALL and the sample period -/

/-- PRIVILEGED_RESOLVED, and with it the training of the Thiber ports (Table 12.7, step 5; R408). -/
def privilegedStep (s : State) (time : Nat) (fault : Option Nat) : State :=
  let r := s.privilegedResolved time fault
  if bit s.startup.steps 5 = false ∧ bit r.startup.steps 5 = true then r.thbRecall else r

/-- SAMPLE_PERIOD with what a root sends when a time step takes effect (R419). -/
def period (s : State) (bits : List Nat) : State :=
  let step := s.timeStepNext
  let r := s.samplePeriod bits
  if step ≠ 0 ∧ r.timeStepNext = 0 then r.tstepSend step else r

/-! ### Commands with a choice of entry -/

/-- A write of a draft coefficient (R160). -/
def draftWrite (s : State) (h : Requester) (kind : DraftKind) (c : Fin 7) (v : Int) : State :=
  match kind with
  | .gain => s.hostWrite h 0x6808 (c.val + 1) (leBytes 4 (ofSigned 32 v))
  | .offset => s.hostWrite h 0x6809 (c.val + 1) (leBytes 4 (ofSigned 32 v))
  | .trim => s.hostWrite h 0x680A (c.val + 1) (leBytes 2 (ofSigned 16 v))

/-- AUX_RESULT_WRITE of a couple's table or of its injection (R193), and what waits for a temperature (R310). -/
def auxWritten (s : State) (l : Fin 3) (injection : Bool) : State := (if injection then s.writeInjection l else s.writeResult l).clearBand

/-! ### The tamper sources (R318, R319) -/

/-- TAMPER_STROBE: the balls of T0, T1 and T2. -/
def strobes (s : State) (time : Nat) (tsw0 tsw1 flds : Bool) : State := (((s.at' time).strobe 0 tsw0).strobe 1 tsw1).strobe 2 flds

/-- LIGHT: an event of T10, which needs the light to have fallen below the level before. -/
def lightRise (s : State) (time : Nat) : State :=
  let s := s.at' time
  if (s.src 10).active then s else (s.setActive 10 true).source 10 0

/-- LIGHT_FALL: T10 is no longer ACTIVE. -/
def lightFall (s : State) (time : Nat) : State := (s.at' time).setActive 10 false

/-- GLITCH: an event of T8. -/
def glitchAt (s : State) (time : Nat) : State := (s.at' time).source 8 0

/-- REF_CLOCK: the comparison of the 40 MHz reference, which runs while VDD33 is good; a deviation is an event of T9. -/
def refClock (s : State) (bad : Bool) : State :=
  if s.mainOn = false then s else if bad then (s.setActive 9 true).source 9 0 else s.setActive 9 false

/-- RTC_CLOCK: a stop or a deviation of the 32.768 kHz oscillator is an event of T7. -/
def rtcClock (s : State) (time : Nat) (bad : Bool) : State :=
  let s := s.at' time
  if bad then (s.setActive 7 true).source 7 0 else s.setActive 7 false

/-- VBAT_CHECK: below 2.20 V at four checks in a row is an event of T3. -/
def vbatCheck (s : State) (time mv : Nat) : State := ((s.at' time).put K.VBAT_MV (mv : Nat)).checkRun 3 4 (decide (mv < 2200))

/-- DIE_TEMP_CHECK, in 0.01 °C: below −50 °C or above 125 °C at two checks in a row is an event of T4. -/
def dieTempCheck (s : State) (time : Nat) (t : Int) : State :=
  ((s.at' time).put K.DIE_TEMP t).checkRun 4 2 (decide (t < -5000) || decide (12500 < t))

/-! ### Small events -/

/-- RNG_FAILURE (R280), while the source runs. -/
def rngFailed (s : State) (test : Nat) : State := if s.mode = .dormant then s else s.rngFailure test

/-- RNG_STARTUP_DONE (R280). -/
def rngReady (s : State) : State := if s.mode = .dormant then s else s.setN K.RNG_STATE 0

/-- PUMP_REGULATED: the charge pump reaches regulation with its two rails in mV (R293). -/
def pumpReady (s : State) (pos neg : Nat) : State :=
  if s.disp.pump = false then s else
  (({ s with disp := { s.disp with regulated := true } }).setN K.PUMP_POS_MV (pos : Nat)).setN K.PUMP_NEG_MV (neg : Nat)

/-- PUMP_OVERVOLTAGE (R292). -/
def pumpOver (s : State) : State := if s.disp.pump then s.addSat 32 K.PUMP_OVERV 1 else s

/-- AUTH_CHALLENGE_EXPIRY (R349). -/
def challengeOver (s : State) : State := { s with svc := { s.svc with challenge := none } }

end State

end Sys2Proof.Machine
end

