-- ==== Sys2Proof/Machine/ExecAux.lean ====
section
/-! DEFINITION. Machine/ExecAux.lean: the commands of the auxiliary converter bank (chapter 06). A command whose condition is absent leaves the state as it is. -/

namespace Sys2Proof.Machine

open Sys2Proof

/-- AUX_PASS_START (R188): A periodic grid point arrives and a couple starts a pass of its entry table. -/
def execAuxPassStart (l : Fin 3) (s : State) : Host.Outcome State Fault Refusal :=
  .next (s.auxPassStart l)

/-- AUX_DELAY_END (R187): An entry's DELAY expires and its next result begins. -/
def execAuxDelayEnd (l : Fin 3) (s : State) : Host.Outcome State Fault Refusal :=
  .next (s.auxDelayEnd l)

/-- AUX_STARTUP_DONE (R185): A powered-down converter finishes its 1.5 µs start-up and begins acquisition. -/
def execAuxStartupDone (a : Fin 8) (s : State) : Host.Outcome State Fault Refusal :=
  .next (s.startupDone a)

/-- AUX_POWER_DOWN (R185): A converter that has been idle for more than 5 µs powers itself down. -/
def execAuxPowerDown (a : Fin 8) (s : State) : Host.Outcome State Fault Refusal :=
  .next (s.convPowerDown a)

/-- AUX_CONVERSION_END (R186): A conversion ends: it is corrected and summed, and the converter starts its next conversion, waits, or serves an interruption. -/
def execAuxConversionEnd (a : Fin 8) (code : Int) (edge : Nat) (waits : Nat) (s : State) : Host.Outcome State Fault Refusal :=
  .next (s.conversionEnd a code edge waits)

/-- AUX_RESULT_WRITE (R193): 50 ns after the last conversion the result, RES_INDEX and the input entries are written. -/
def execAuxResultWrite (l : Fin 3) (injection : Bool) (s : State) : Host.Outcome State Fault Refusal :=
  .next (s.auxWritten l injection)

/-- AUX_SELF_CHECK (R201): Once per second every converter converts three internal levels, and failures are counted. -/
def execAuxSelfCheck (dev : List Nat) (s : State) : Host.Outcome State Fault Refusal :=
  .next (s.selfCheck dev)

/-- INJECT (R197): An INJECT write requests one SOLO result on a logical couple, which interrupts its table. -/
def execInject (h : Requester) (l : Fin 3) (w : Nat) (s : State) : Host.Outcome State Fault Refusal :=
  .next (s.hostWrite h 0x7040 0 (leBytes 4 (w - 256 * field w 9 8 + 256 * l.val)))

/-- COUPLE_CFG (R188): A COUPLE_CFG write sets RUN and LAST; ONESHOT starts one pass and OFF stops the couple. -/
def execCoupleCfg (h : Requester) (l : Fin 3) (w : Nat) (s : State) : Host.Outcome State Fault Refusal :=
  .next (s.hostWrite h 0x7011 (l.val + 1) (leBytes 2 w))

/-- ENTRY (R189): An ENTRY write is checked and takes effect at that entry's next result start. -/
def execEntry (h : Requester) (l : Fin 3) (e : Fin 16) (w : Nat) (s : State) : Host.Outcome State Fault Refusal :=
  .next (s.hostWrite h (0x7020 + l.val) (e.val + 1) (leBytes 8 w))

/-- AUX_CAL_BEGIN (R198): AUX_CAL_CMD BEGIN opens an auxiliary calibration run on one input and couple. -/
def execAuxCalBegin (h : Requester) (input : Fin 32) (l : Fin 3) (s : State) : Host.Outcome State Fault Refusal :=
  .next (s.hostWrite h 0x7060 0 (leBytes 4 (1 + 256 * input.val + 2 ^ 16 * l.val)))

/-- AUX_CAL_ZERO (R199): AUX_CAL_CMD ZERO starts a 16-burst measurement at level L0. -/
def execAuxCalZero (h : Requester) (s : State) : Host.Outcome State Fault Refusal :=
  .next (s.hostWrite h 0x7060 0 (leBytes 4 (2)))

/-- AUX_CAL_FULL (R199): AUX_CAL_CMD FULL starts a 16-burst measurement at level L1, after an accepted ZERO. -/
def execAuxCalFull (h : Requester) (s : State) : Host.Outcome State Fault Refusal :=
  .next (s.hostWrite h 0x7060 0 (leBytes 4 (3)))

/-- AUX_CAL_COMMIT (R200): AUX_CAL_CMD COMMIT computes AUX_GAIN and AUX_ZERO and writes them as a journal unit. -/
def execAuxCalCommit (h : Requester) (s : State) : Host.Outcome State Fault Refusal :=
  .next (s.hostWrite h 0x7060 0 (leBytes 4 (4)))

/-- AUX_CAL_ABORT (R200): AUX_CAL_CMD ABORT ends the auxiliary run with reason ABORTED. -/
def execAuxCalAbort (h : Requester) (s : State) : Host.Outcome State Fault Refusal :=
  .next (s.hostWrite h 0x7060 0 (leBytes 4 (5)))

/-- AUX_CAL_BURST (R199): A calibration burst of 256 conversions becomes due and runs; after the last burst the step checks run. -/
def execAuxCalBurst (codes : List Int) (s : State) : Host.Outcome State Fault Refusal :=
  .next (s.auxBurst codes)

end Sys2Proof.Machine
end

