-- ==== Sys2Proof/Machine/ExecCalibration.lean ====
section
/-! DEFINITION. Machine/ExecCalibration.lean: the commands of calibration of plates (chapter 05). A command whose condition is absent leaves the state as it is. -/

namespace Sys2Proof.Machine

open Sys2Proof

/-- TI_UPDATE (R155): At the first boundary after each 1 s index, TI is taken from the plate temperature source with hysteresis, or T_STALE is set. -/
def execTiUpdate (p : Fin 8) (s : State) : Host.Outcome State Fault Refusal :=
  .next (s.tiUpdate p s.index)

/-- CAL_BEGIN (R159): CAL_CMD BEGIN copies the committed plate set to the draft and moves CAL_STATE to OPEN. -/
def execCalBegin (h : Requester) (p : Fin 8) (q : Fin 4) (s : State) : Host.Outcome State Fault Refusal :=
  .next (s.hostWrite h 0x6800 0 (leBytes 4 (1 + 256 * p.val + 2 ^ 24 * q.val)))

/-- CAL_ZERO (R163): CAL_CMD ZERO starts a 20-block zero measurement on the named channels. -/
def execCalZero (h : Requester) (mask : Nat) (s : State) : Host.Outcome State Fault Refusal :=
  .next (s.hostWrite h 0x6800 0 (leBytes 4 (2 + 2 ^ 16 * mask)))

/-- CAL_GAIN (R163): CAL_CMD GAIN starts a 20-block gain measurement at CAL_LEVEL. -/
def execCalGain (h : Requester) (mask : Nat) (s : State) : Host.Outcome State Fault Refusal :=
  .next (s.hostWrite h 0x6800 0 (leBytes 4 (3 + 2 ^ 16 * mask)))

/-- CAL_PHASE (R164): CAL_CMD PHASE starts a phase measurement on an AC point, from which the trims are derived. -/
def execCalPhase (h : Requester) (s : State) : Host.Outcome State Fault Refusal :=
  .next (s.hostWrite h 0x6800 0 (leBytes 4 (4)))

/-- CAL_DROP (R160): CAL_CMD DROP marks a slot of the draft set EMPTY. -/
def execCalDrop (h : Requester) (q : Fin 4) (s : State) : Host.Outcome State Fault Refusal :=
  .next (s.hostWrite h 0x6800 0 (leBytes 4 (5 + 2 ^ 24 * q.val)))

/-- CAL_COMMIT (R167): CAL_CMD COMMIT runs the commit checks, twice, and then writes the plate set as a journal unit. -/
def execCalCommit (h : Requester) (s : State) : Host.Outcome State Fault Refusal :=
  .next (s.hostWrite h 0x6800 0 (leBytes 4 (6)))

/-- CAL_ABORT (R170): CAL_CMD ABORT ends the run without commit, with reason ABORTED. -/
def execCalAbort (h : Requester) (s : State) : Host.Outcome State Fault Refusal :=
  .next (s.hostWrite h 0x6800 0 (leBytes 4 (7)))

/-- CAL_STEP_END (R166): After the twentieth block the step checks run, and the step is accepted or refused with a reason. -/
def execCalStepEnd (s : State) : Host.Outcome State Fault Refusal :=
  .next (s.calStepEnd)

/-- DRAFT_COEFFICIENTS (R160): A write of DRAFT_GAIN, DRAFT_OFFSET or DRAFT_TRIM in OPEN sets DRAFT_ORIGIN and clears CAL_DONE. -/
def execDraftCoefficients (h : Requester) (kind : DraftKind) (c : Fin 7) (v : Int) (s : State) : Host.Outcome State Fault Refusal :=
  .next (s.draftWrite h kind c v)

/-- TWIN_EVALUATION (R278): The random delay of a twin decision expires and the second evaluation runs; a disagreement raises T13. -/
def execTwinEvaluation (i : Nat) (fault : Option Nat) (s : State) : Host.Outcome State Fault Refusal :=
  .next (s.twinEvaluation i fault)

end Sys2Proof.Machine
end

