-- ==== Sys2Proof/Machine/ExecDisplay.lean ====
section
/-! DEFINITION. Machine/ExecDisplay.lean: the commands of the display driver (chapter 10). A command whose condition is absent leaves the state as it is. -/

namespace Sys2Proof.Machine

open Sys2Proof

/-- FRAME_BOUNDARY (R299): At each display frame boundary stencils start, advance and end, levels switch and the pump starts or stops. -/
def execFrameBoundary (lost : List (Nat × Int)) (s : State) : Host.Outcome State Fault Refusal :=
  .next (s.frameBoundary lost)

/-- COMPENSATION_END (R303): A segment's compensation drive of |Δ| × 100 µs ends and the segment returns to 0 V. -/
def execCompensationEnd (seg : Fin 192) (s : State) : Host.Outcome State Fault Refusal :=
  .next (s.compensationEnd seg)

/-- READBACK (R305): 15 ms into a frame the output levels are read back, and mismatches set DRV_FAULT. -/
def execReadback (codes : List Nat) (s : State) : Host.Outcome State Fault Refusal :=
  .next (s.readBack codes)

/-- PUMP_REGULATED (R293): The charge pump reaches regulation. -/
def execPumpRegulated (pos : Nat) (neg : Nat) (s : State) : Host.Outcome State Fault Refusal :=
  .next (s.pumpReady pos neg)

/-- PUMP_OVERVOLTAGE (R292): The limit comparator stops pump switching and PUMP_OVERV increments. -/
def execPumpOvervoltage (s : State) : Host.Outcome State Fault Refusal :=
  .next (s.pumpOver)

/-- DISPLAY_WAKE (R306): At each 1 Hz index the display engine wakes for a 0 V read-back, and the metrological target is composed. -/
def execDisplayWake (codes : List Nat) (s : State) : Host.Outcome State Fault Refusal :=
  .next (s.displayWake codes)

/-- BAND_TIMEOUT (R310): With no valid display temperature 20 ms into RECALL, FALLBACK_BAND is used for the clearing. -/
def execBandTimeout (s : State) : Host.Outcome State Fault Refusal :=
  .next (s.bandTimeout)

/-- HOST_IMAGE (R295): A HOST_IMAGE write sets the host target, and it is refused if it sets a metrological bit. -/
def execHostImage (h : Requester) (image : List Byte) (s : State) : Host.Outcome State Fault Refusal :=
  .next (s.hostWrite h 0x8009 0 (image))

/-- DISP_POINT (R312): A DISP_POINT write causes the metrological target to be composed at once. -/
def execDispPoint (h : Requester) (w : Nat) (s : State) : Host.Outcome State Fault Refusal :=
  .next (s.hostWrite h 0x8005 0 (leBytes 1 w))

/-- DRV_FAULT (R305): A write-1-to-clear write to DRV_FAULT clears bits, with DRV_REARM counting. -/
def execDrvFault (h : Requester) (bits : List Byte) (s : State) : Host.Outcome State Fault Refusal :=
  .next (s.hostWrite h 0x8035 0 (bits))

end Sys2Proof.Machine
end

