-- ==== Sys2Proof/Machine/ExecEnergy.lean ====
section
/-! DEFINITION. Machine/ExecEnergy.lean: the commands of pulses and demand (chapter 04). A command whose condition is absent leaves the state as it is. -/

namespace Sys2Proof.Machine

open Sys2Proof

/-- PULSE_RISE (R139): A queued pulse rises on the 40 MHz grid 1.25 µs after its sample's release, or 10 µs after a correction. -/
def execPulseRise (m : Fin 8) (s : State) : Host.Outcome State Fault Refusal :=
  .next (s.pulseRise m)

/-- PULSE_FALL (R140): A pulse falls after PULSE_WIDTH, or after 40 µs when the next pulse is due. -/
def execPulseFall (m : Fin 8) (s : State) : Host.Outcome State Fault Refusal :=
  .next (s.pulseFall m)

/-- PULSE_GAP_END (R140): After 40 µs low, the next pulse from the backlog starts. -/
def execPulseGapEnd (m : Fin 8) (s : State) : Host.Outcome State Fault Refusal :=
  .next (s.pulseGapEnd m)

/-- PULSE_CFG (R141): A PULSE_CFG write takes effect at the selected point's next boundary, where A and the backlog are reset. -/
def execPulseCfg (h : Requester) (m : Fin 8) (w : Nat) (s : State) : Host.Outcome State Fault Refusal :=
  .next (s.hostWrite h 0x4810 (m.val + 1) (leBytes 2 w))

/-- METER_CONST (R141): A METER_CONST write takes effect at the selected point's next boundary, where A and the backlog are reset. -/
def execMeterConst (h : Requester) (m : Fin 8) (w : Nat) (s : State) : Host.Outcome State Fault Refusal :=
  .next (s.hostWrite h 0x4811 (m.val + 1) (leBytes 4 w))

/-- DEMAND_INTERVAL_END (R133): At the aligned boundary the demand interval closes: last values, averages, maximum demand and status are updated. -/
def execDemandIntervalEnd (s : State) : Host.Outcome State Fault Refusal :=
  .next (s.demandIntervalEnd)

/-- MD_RESET (R136): Writing 0x01 zeroes the maximum-demand values and their time stamps. -/
def execMdReset (h : Requester) (p : Fin 8) (w : Nat) (s : State) : Host.Outcome State Fault Refusal :=
  .next (s.hostWrite h (0x4011 + 0x100 * p.val) 0 (leBytes 1 w))

/-- DMD_CFG (R135): A DMD_CFG change leaves the running interval open until the first aligned boundary under the new length, which ends it with CONFIG. -/
def execDmdCfg (h : Requester) (w : Nat) (s : State) : Host.Outcome State Fault Refusal :=
  .next (s.hostWrite h 0x4800 0 (leBytes 1 w))

end Sys2Proof.Machine
end

