-- ==== Sys2Proof/Machine/ExecFabric.lean ====
section
/-! DEFINITION. Machine/ExecFabric.lean: the commands of the sample periods, lanes and modulator ports (chapters 01 and 02). A command whose condition is absent leaves the state as it is. -/

namespace Sys2Proof.Machine

open Sys2Proof

/-- SAMPLE_PERIOD (R73): At cycle 0 of each 12.5 µs period the decimators load their output registers, and pending link-fault, overrange and time-step effects take hold. -/
def execSamplePeriod (bits : List Nat) (s : State) : Host.Outcome State Fault Refusal :=
  .next (s.period bits)

/-- SAMPLE_RELEASE (R28): A word is released in its slot and the serving lane corrects it and updates the accumulators, tracker, comparators and pulse generator. -/
def execSampleRelease (p : Fin 8) (c : Fin 7) (o : LaneObs) (s : State) : Host.Outcome State Fault Refusal :=
  .next (s.sampleRelease p c o)

/-- LANE_CHECK_VECTOR (R27): Slot 14 of each period carries the lane self-check vector through the lane. -/
def execLaneCheckVector (l : Fin 5) (corrections : List Nat) (uncorrectable : Bool) (s : State) : Host.Outcome State Fault Refusal :=
  .next (s.laneCheckVector l corrections uncorrectable)

/-- SHADOW_WARM (R39): After 64 shadowed samples of a point, L4 is warm for that point and handover is armed for its next boundary. -/
def execShadowWarm (p : Fin 8) (s : State) : Host.Outcome State Fault Refusal :=
  .next (s.shadowWarm p)

/-- LATENCY_INTERVAL (R33): At each index divisible by 80,000 the 1 s latency interval closes and LAT_WORST_1S is updated. -/
def execLatencyInterval (s : State) : Host.Outcome State Fault Refusal :=
  .next (s.latencyInterval)

/-- BLOCK_END (R66): Each block of 1,024 MCLK edges ends: the density check, eye monitor, eye search, RETURN_DELAY learning and clean-block count are evaluated. -/
def execBlockEnd (obs : List BlockObs) (s : State) : Host.Outcome State Fault Refusal :=
  .next (s.blockEnds obs)

/-- LINK_CHECK_FAIL (R66): A stuck, return-skew or return-stuck check fails on a port and the link fault is detected. -/
def execLinkCheckFail (m : Fin 60) (check : LinkCheck) (s : State) : Host.Outcome State Fault Refusal :=
  .next (s.linkCheckFail m check)

/-- LAT_CLEAR (R34): Writing 0x01 clears LAT_WORST, LAT_OVER and II_WORST of all lanes. -/
def execLatClear (h : Requester) (w : Nat) (s : State) : Host.Outcome State Fault Refusal :=
  .next (s.hostWrite h 0xE025 0 (leBytes 1 w))

/-- LANE_MAP (R35): A LANE_MAP write in SERVICE is checked against the load limit and applied at each point's next boundary. -/
def execLaneMap (h : Requester) (p : Fin 8) (w : Nat) (s : State) : Host.Outcome State Fault Refusal :=
  .next (s.hostWrite h 0xE010 (p.val + 1) (leBytes 1 w))

/-- PORT_STATUS (R78): A write-1-to-clear write to PORT_STATUS clears flags, with re-arm counting. -/
def execPortStatus (h : Requester) (p : Fin 8) (c : Fin 7) (w : Nat) (s : State) : Host.Outcome State Fault Refusal :=
  .next (s.hostWrite h (0x2011 + 0x100 * p.val) (c.val + 1) (leBytes 2 w))

/-- PORT_CFG (R55): A PORT_CFG write is checked, stored and applied at the point's next netting step. -/
def execPortCfg (h : Requester) (p : Fin 8) (c : Fin 7) (w : Nat) (s : State) : Host.Outcome State Fault Refusal :=
  .next (s.hostWrite h (0x2010 + 0x100 * p.val) (c.val + 1) (leBytes 2 w))

/-- DEC_CONFIG (R74): A DEC_CONFIG write is refused during a session or on lane overload, and otherwise takes effect at the next netting step. -/
def execDecConfig (h : Requester) (p : Fin 8) (w : Nat) (s : State) : Host.Outcome State Fault Refusal :=
  .next (s.hostWrite h (0x2018 + 0x100 * p.val) 0 (leBytes 1 w))

/-- POINT_CFG (R88): A POINT_CFG write is checked, stored and applied at the point's next netting step. -/
def execPointCfg (h : Requester) (p : Fin 8) (w : Nat) (s : State) : Host.Outcome State Fault Refusal :=
  .next (s.hostWrite h (0x2000 + 0x100 * p.val) 0 (leBytes 2 w))

end Sys2Proof.Machine
end

