-- ==== Sys2Proof/Machine/ExecMemory.lean ====
section
/-! DEFINITION. Machine/ExecMemory.lean: the commands of the SRAM banks and the non-volatile store (chapters 07 and 08). A command whose condition is absent leaves the state as it is. -/

namespace Sys2Proof.Machine

open Sys2Proof

/-- SRAM_ACCESS (R211): A master's request is granted on a bank port, decoded and, where needed, corrected, repaired or arbitrated. -/
def execSramAccess (o : SramObs) (s : State) : Host.Outcome State Fault Refusal :=
  .next (s.sramAccess o)

/-- SCRUB_WRITEBACK (R216): A corrected word is written back as a background access unless a master wrote it first. -/
def execScrubWriteback (b : Fin 5) (s : State) : Host.Outcome State Fault Refusal :=
  .next (s.scrub b)

/-- MARCH_START (R218): When MARCH_PERIOD expires, a test attempt starts on the region in MARCH_NEXT with the next mirror. -/
def execMarchStart (s : State) : Host.Outcome State Fault Refusal :=
  .next (s.marchStart)

/-- MARCH_PHASE_END (R218): A phase of the test attempt completes: mirror march, copy, segment or copy-back. -/
def execMarchPhaseEnd (o : MarchObs) (s : State) : Host.Outcome State Fault Refusal :=
  .next (s.marchPhaseEnd o.failed o.errs)

/-- MARCH_RETRY (R220): 10 ms after an abandonment the same region is attempted again, and forced after 8 abandonments. -/
def execMarchRetry (s : State) : Host.Outcome State Fault Refusal :=
  .next (s.marchRetry)

/-- BANK_SUB_REGION_DONE (R223): A region's copy into B4 completes and B4 serves it; after the last region the worn bank is RETIRED. -/
def execBankSubRegionDone (o : RegionObs) (s : State) : Host.Outcome State Fault Refusal :=
  .next (s.bankRegionDone o.region o.errs)

/-- SWEEP_READ (R224): In sweep mode a word is read, decoded and written back if corrected. It is the word at which the sweep stands; `busy`: a
request pends on the port, so that the read does not start (R212). -/
def execSweepRead (b : Fin 5) (r : Fin 16) (w : Fin 512) (err : SymErr) (twin : SymErr) (busy : Bool) (s : State) : Host.Outcome State Fault Refusal :=
  .next (s.sweepWord (wordPlace b r w) err twin busy)

/-- COUNTER_CLEAR (R226): Writing 0x01 zeroes CONFLICT_COUNT, COLLISION_COUNT and WAIT_WORST. -/
def execCounterClear (h : Requester) (w : Nat) (s : State) : Host.Outcome State Fault Refusal :=
  .next (s.hostWrite h 0xE039 0 (leBytes 1 w))

/-- NVM_CYCLE_END (R230): An NVM group cycle completes a read or write, with correction and wear detection. -/
def execNvmCycleEnd (o : NvmObs) (s : State) : Host.Outcome State Fault Refusal :=
  .next (s.nvmCycle o)

/-- PATROL_READ (R241): In an idle controller cycle the patrol reads, corrects and writes back the next group. -/
def execPatrolRead (o : PatrolObs) (s : State) : Host.Outcome State Fault Refusal :=
  .next (s.patrolRead o.err o.bothBad o.part)

/-- JOURNAL_UNIT_START (R246): A waiting journal unit starts once space and any due checkpoint allow, and its header and entries are written. -/
def execJournalUnitStart (s : State) : Host.Outcome State Fault Refusal :=
  .next (s.unitStart)

/-- JOURNAL_COMMIT (R246): A unit's commit group is written, so its writes stand and are answered and its owner proceeds. -/
def execJournalCommit (s : State) : Host.Outcome State Fault Refusal :=
  .next (s.unitCommit)

/-- JOURNAL_RETIRE (R246): The unit's entries are applied to their targets and the retire group is written. -/
def execJournalRetire (s : State) : Host.Outcome State Fault Refusal :=
  .next (s.unitRetire)

/-- RECORD_COPY_WRITTEN (R253): One copy slot of a dual-copy record completes, and the second copy follows the first. -/
def execRecordCopyWritten (s : State) : Host.Outcome State Fault Refusal :=
  .next (s.recordCopy)

/-- SCRATCH_PAGE (R237): A WRITE of 1 to 4,096 bytes fills scratch pages through the page buffer and is answered after its last group. -/
def execScratchPage (h : Requester) (page : Fin 256) (data : List Byte) (cut : Option Nat) (s : State) : Host.Outcome State Fault Refusal :=
  .next (s.hostScratch h page.val 0 data cut)

/-- SCRATCH_GROUP (R237): A write of one scratch group completes in one atomic cycle. -/
def execScratchGroup (h : Requester) (page : Fin 256) (g : Fin 32) (v : Nat) (s : State) : Host.Outcome State Fault Refusal :=
  .next (s.hostScratch h page.val (g.val + 1) (leBytes 8 v) none)

end Sys2Proof.Machine
end

