-- ==== Sys2Proof/Machine/ExecModes.lean ====
section
/-! DEFINITION. Machine/ExecModes.lean: the commands of SERVICE, sealing, authentication and time (chapter 12). A command whose condition is absent leaves the state as it is. -/

namespace Sys2Proof.Machine

open Sys2Proof

/-- ENTER_SERVICE (R351): The authenticated ENTER_SERVICE enters SERVICE, or sets ATTENDED in LOCKDOWN. -/
def execEnterService (h : Requester) (a : Auth) (s : State) : Host.Outcome State Fault Refusal :=
  .next (s.hostWrite h 0x1022 0 (State.authBytes 0x1010 a (leBytes 1 2)))

/-- SEAL (R354): The authenticated SEAL runs the seal checks and starts the sealing sequence with key generation. -/
def execSeal (h : Requester) (a : Auth) (s : State) : Host.Outcome State Fault Refusal :=
  .next (s.hostWrite h 0x1022 0 (State.authBytes 0x1010 a (leBytes 1 3)))

/-- SEAL_KEYGEN_DONE (R275): The production key pair passes its consistency test, and the statute units are written. -/
def execSealKeygenDone (failed : Nat) (s : State) : Host.Outcome State Fault Refusal :=
  .next (s.keygenDone failed)

/-- SEAL_FUSE_SET (R243): After the digest checks, the SEAL fuse is set, the registers are zeroed and the statute page is locked. -/
def execSealFuseSet (stat : StatuteObs) (s : State) : Host.Outcome State Fault Refusal :=
  .next (s.sealFuse stat)

/-- SERVICE_EXIT (R352): MODE_CMD SERVICE_EXIT ends SERVICE or ATTENDED, aborting runs and making strings slack. -/
def execServiceExit (h : Requester) (s : State) : Host.Outcome State Fault Refusal :=
  .next (s.hostWrite h 0x1010 0 (leBytes 1 1))

/-- SVC_CHANGE (R347): After 10 samples at a new level, the debounced SVC level changes, and a low level ends SERVICE. -/
def execSvcChange (level : Bool) (s : State) : Host.Outcome State Fault Refusal :=
  .next (s.svcChange level)

/-- SERVICE_MAX_EXPIRY (R352): SERVICE_MAX hours after entry, SERVICE or ATTENDED ends. -/
def execServiceMaxExpiry (s : State) : Host.Outcome State Fault Refusal :=
  .next (s.serviceEnd)

/-- AUTH_CHALLENGE (R349): A read of AUTH_CHALLENGE returns 16 fresh random bytes that replace the previous challenge. -/
def execAuthChallenge (h : Requester) (s : State) : Host.Outcome State Fault Refusal :=
  .next (s.hostRead h 0x1021 0)

/-- AUTH_CHALLENGE_EXPIRY (R349): An outstanding challenge becomes invalid 60 s after its read. -/
def execAuthChallengeExpiry (s : State) : Host.Outcome State Fault Refusal :=
  .next (s.challengeOver)

/-- TIME_STEP (R359): A TIME_STEP write is checked against its limits and applied from the next sample period. -/
def execTimeStep (h : Requester) (v : Int) (s : State) : Host.Outcome State Fault Refusal :=
  .next (s.hostWrite h 0x1031 0 (leBytes 8 (ofSigned 64 v)))

/-- UTC_OFFSET (R360): A UTC_OFFSET write takes effect at once for the display and for new records. -/
def execUtcOffset (h : Requester) (v : Int) (s : State) : Host.Outcome State Fault Refusal :=
  .next (s.hostWrite h 0x1032 0 (leBytes 2 (ofSigned 16 v)))

end Sys2Proof.Machine
end

