-- ==== Sys2Proof/Machine/ExecPower.lean ====
section
/-! DEFINITION. Machine/ExecPower.lean: the commands of power, RECALL, HOLDUP and checkpoints (chapters 04 and 12). A command whose condition is absent leaves the state as it is. -/

namespace Sys2Proof.Machine

open Sys2Proof

/-- POWER_GOOD (R343): VDD33 has stayed above the power-good threshold for the confirmation time, so the oscillator and VCORE start on the way out of DORMANT. -/
def execPowerGood (time : Nat) (s : State) : Host.Outcome State Fault Refusal :=
  .next (s.powerGood time)

/-- RECALL_BEGIN (R365): Once the oscillator is stable and checked, RECALL begins: accesses are refused, fuses, remap table and straps are read, and the NVM scan starts. -/
def execRecallBegin (time : Nat) (addr : Fin 8) (ftm : Bool) (fuseMap : Nat) (fuseAgain : Nat) (stat : StatuteObs) (s : State) : Host.Outcome State Fault Refusal :=
  .next (s.recallBegin time addr.val ftm fuseMap fuseAgain stat)

/-- PRIVILEGED_RESOLVED (R261): The privileged NVM region is resolved, which lets the journal, deferred decision, energy restore, recall checkpoint, aux couples and MCLK start proceed. -/
def execPrivilegedResolved (time : Nat) (fault : Option Nat) (s : State) : Host.Outcome State Fault Refusal :=
  .next (s.privilegedStep time fault)

/-- ORDINARY_RESOLVED (R261): The ordinary NVM region is resolved: tallies are rolled forward, record positions are resolved, interrupted hallmarks are built and tamper records are written. -/
def execOrdinaryResolved (s : State) : Host.Outcome State Fault Refusal :=
  .next (s.ordinaryResolved)

/-- SELF_TESTS_DONE (R439): The RECALL self-tests complete: lane check vectors, retests of worn lanes, known-answer tests and the random source start-up. -/
def execSelfTestsDone (retests : List Retest) (kat : Option Nat) (s : State) : Host.Outcome State Fault Refusal :=
  .next (s.selfTestsDone retests kat)

/-- RECALL_END (R365): When start-up steps 3 to 12 are complete, RECALL ends in METERING or LOCKDOWN and object accesses are served. -/
def execRecallEnd (s : State) : Host.Outcome State Fault Refusal :=
  .next (s.recallEnd.censusCheck)

/-- RECALL_TIMEOUT (R367): A RECALL that has not ended 50 ms after it began ends in LOCKDOWN with cause RECALL_TIMEOUT. -/
def execRecallTimeout (s : State) : Host.Outcome State Fault Refusal :=
  .next (s.recallTimeout.censusCheck)

/-- POWER_FAIL_DETECT (R361): VDD33 has stayed below the power-fail threshold for the filter time, so the device enters HOLDUP, or DORMANT when the recall checkpoint is not yet written, and stamps LAST_LOSS. -/
def execPowerFailDetect (time : Nat) (clampNs : Nat) (s : State) : Host.Outcome State Fault Refusal :=
  .next (s.powerFail time clampNs)

/-- FORCED_STEP (R146): Once the last sample with index at or below H is accumulated, each point's running step is booked as a forced step and the tail is formed. -/
def execForcedStep (s : State) : Host.Outcome State Fault Refusal :=
  .next (s.forcedStep)

/-- HOLDUP_SAVE_COMPLETE (R343): When the hold-up save is complete, the MCLKs stop and the device enters DORMANT. -/
def execHoldupSaveComplete (s : State) : Host.Outcome State Fault Refusal :=
  .next (s.saveComplete)

/-- WRITE_INHIBIT (R230): VDD33 falls below the NVM write-inhibit level, and no further group cycle starts. -/
def execWriteInhibit (items : Nat) (groups : Nat) (s : State) : Host.Outcome State Fault Refusal :=
  .next (s.writeInhibited items groups)

/-- CHECKPOINT_DUE (R145): When CKPT_INTERVAL expires, a checkpoint write starts into slot CKPT_SEQ mod 2. -/
def execCheckpointDue (s : State) : Host.Outcome State Fault Refusal :=
  .next (s.ckptDue)

/-- CHECKPOINT_WRITTEN (R145): A checkpoint write completes: CKPT_SEQ increments, tallies are brought up to date and waiting units may start. -/
def execCheckpointWritten (s : State) : Host.Outcome State Fault Refusal :=
  .next (s.checkpointWritten)

end Sys2Proof.Machine
end

