-- ==== Sys2Proof/Machine/ExecProtocol.lean ====
section
/-! DEFINITION. Machine/ExecProtocol.lean: the commands of the object protocol and its links (chapter 13). A command whose condition is absent leaves the state as it is. -/

namespace Sys2Proof.Machine

open Sys2Proof

/-- SPI_SEND (R385): An SPI SEND transaction delivers a request with its CRC-16, which is queued or answered FRAME or BUSY. -/
def execSpiSend (bytes : List Byte) (s : State) : Host.Outcome State Fault Refusal :=
  .next (s.spiSend bytes)

/-- SPI_FETCH (R386): An SPI FETCH transaction sends the oldest response, stream frame or NONE. -/
def execSpiFetch (clocked : Nat) (s : State) : Host.Outcome State Fault Refusal :=
  .next (s.spiFetch clocked)

/-- CAN_FRAME (R391): A CAN FD frame for this node is received, and single or segmented requests are assembled. -/
def execCanFrame (kind : CanKind) (id : Nat) (data : List Byte) (s : State) : Host.Outcome State Fault Refusal :=
  .next (s.canFrame kind id data)

/-- CAN_REASSEMBLY_TIMEOUT (R392): More than 100 ms between segments abandons the reassembly, which is answered FRAME. -/
def execCanReassemblyTimeout (s : State) : Host.Outcome State Fault Refusal :=
  .next (s.canTimeout)

/-- CAN_TRANSMIT (R391): When the bus allows, a ready response is sent in segments back to back. -/
def execCanTransmit (s : State) : Host.Outcome State Fault Refusal :=
  .next (s.canTransmit)

/-- CAN_BUSOFF_RECOVERY (R389): Automatic bus-off recovery completes after 128 occurrences of 11 recessive bits. -/
def execCanBusoffRecovery (s : State) : Host.Outcome State Fault Refusal :=
  .next (s.canRecover)

/-- CAN_BUS_ERROR (R389): An error detected on the CAN FD bus is signalled by the standard, and the error counters, the error-passive state and bus-off entry follow. -/
def execCanBusError (transmitter : Bool) (weight : Nat) (s : State) : Host.Outcome State Fault Refusal :=
  .next (s.canError transmitter weight)

/-- READ (R377): The steward executes a READ and returns the entry's value or a status. -/
def execRead (h : Requester) (index : Nat) (sub : Nat) (s : State) : Host.Outcome State Fault Refusal :=
  .next (s.hostRead h index sub)

/-- WRITE (R378): The steward executes a WRITE to an entry without a row of its own, by class, mode and type checks and its write path. -/
def execWrite (h : Requester) (index : Nat) (sub : Nat) (data : List Byte) (s : State) : Host.Outcome State Fault Refusal :=
  .next ((s.hostWrite h index sub data).runHeld)

/-- TABLEAU_OPEN (R45): TABLEAU_OPEN opens a local tableau and returns F, t(F) and TABLEAU_ID. -/
def execTableauOpen (h : Requester) (s : State) : Host.Outcome State Fault Refusal :=
  .next (s.tableauOpen h)

/-- TABLEAU_READ (R397): TABLEAU_READ returns a frozen value, and is held until the image is complete. -/
def execTableauRead (h : Requester) (index : Nat) (sub : Nat) (id : Nat) (s : State) : Host.Outcome State Fault Refusal :=
  .next (s.tableauRead h index sub id)

/-- TABLEAU_CLOSE (R397): TABLEAU_CLOSE closes the named open tableau. -/
def execTableauClose (h : Requester) (id : Nat) (s : State) : Host.Outcome State Fault Refusal :=
  .next (s.tableauClose h id)

/-- TABLEAU_COMPLETE (R48): The tableau image becomes complete: TAB_STATE reads READY and held reads are answered. -/
def execTableauComplete (s : State) : Host.Outcome State Fault Refusal :=
  .next (s.tableauComplete)

/-- TABLEAU_TIMEOUT (R397): A local tableau closes itself TAB_LIMIT seconds after it was opened. -/
def execTableauTimeout (s : State) : Host.Outcome State Fault Refusal :=
  .next (s.tableauTimeout)

/-- BATCH (R394): A BATCH executes its sub-requests, with all-or-none writes in one journal unit. -/
def execBatch (h : Requester) (payload : List Byte) (s : State) : Host.Outcome State Fault Refusal :=
  .next (s.hostBatch h payload)

/-- STREAM_START (R398): STREAM_START begins streaming the chosen channels' samples over SPI. -/
def execStreamStart (h : Requester) (mask : Nat) (divisor : Nat) (src : Nat) (s : State) : Host.Outcome State Fault Refusal :=
  .next (s.streamStart h mask divisor src)

/-- STREAM_STOP (R398): STREAM_STOP ends the stream and discards the partly filled frame. -/
def execStreamStop (h : Requester) (s : State) : Host.Outcome State Fault Refusal :=
  .next (s.streamStop h)

/-- STREAM_FRAME_READY (R399): SPF samples of every selected channel fill a STREAM_DATA frame, which is queued or dropped. -/
def execStreamFrameReady (s : State) : Host.Outcome State Fault Refusal :=
  .next (s.streamFrame)

end Sys2Proof.Machine
end

