-- ==== Sys2Proof/Machine/ExecQuantities.lean ====
section
/-! DEFINITION. Machine/ExecQuantities.lean: the commands of boundaries, netting steps, windows and events (chapter 03). A command whose condition is absent leaves the state as it is. -/

namespace Sys2Proof.Machine

open Sys2Proof

/-- SUBSTITUTE_BOUNDARY (R93): No crossing arrives within 2,200 periods, or P_SUB periods in SUBSTITUTE, so the tracker places a substitute boundary. -/
def execSubstituteBoundary (p : Fin 8) (s : State) : Host.Outcome State Fault Refusal :=
  .next (s.substituteBoundary p)

/-- NETTING_STEP (R124): At a point's boundary the netting unit books the step and applies everything due at that boundary. -/
def execNettingStep (p : Fin 8) (s : State) : Host.Outcome State Fault Refusal :=
  .next (s.nettingStep p)

/-- OFF_POINT_APPLY (R89): A change pending on an OFF point takes effect at the first index divisible by 80 after acceptance. -/
def execOffPointApply (p : Fin 8) (s : State) : Host.Outcome State Fault Refusal :=
  .next (s.offPointApply p)

/-- WINDOW_PUBLISH (R97): At close index C the window quantities, harmonics and ripple are published and the window events are evaluated. -/
def execWindowPublish (p : Fin 8) (s : State) : Host.Outcome State Fault Refusal :=
  .next (s.publish p)

/-- EVENT_RECORD (R117): The steward takes an entry from the event queue and writes a 32-byte record to the event log. -/
def execEventRecord (s : State) : Host.Outcome State Fault Refusal :=
  .next (s.recordEvent)

/-- EV_STATUS (R116): A write-1-to-clear write to EV_STATUS clears start flags, with EV_REARM counting. -/
def execEvStatus (h : Requester) (p : Fin 8) (w : Nat) (s : State) : Host.Outcome State Fault Refusal :=
  .next (s.hostWrite h (0x5001 + 0x100 * p.val) 0 (leBytes 4 w))

end Sys2Proof.Machine
end

