-- ==== Sys2Proof/Machine/ExecSessions.lean ====
section
/-! DEFINITION. Machine/ExecSessions.lean: the commands of sessions, hallmarks and signing (chapter 09). A command whose condition is absent leaves the state as it is. -/

namespace Sys2Proof.Machine

open Sys2Proof

/-- SESSION_OPEN (R266): SESSION_CMD OPEN is checked and sets SESSION_STATE to OPENING until the next boundary. -/
def execSessionOpen (h : Requester) (p : Fin 8) (s : State) : Host.Outcome State Fault Refusal :=
  .next (s.hostWrite h (0xC000 + 0x100 * p.val) 0 (leBytes 1 1))

/-- SESSION_CLOSE (R270): SESSION_CMD CLOSE cancels an open in OPENING, or sets CLOSING for the next boundary. -/
def execSessionClose (h : Requester) (p : Fin 8) (s : State) : Host.Outcome State Fault Refusal :=
  .next (s.hostWrite h (0xC000 + 0x100 * p.val) 0 (leBytes 1 2))

/-- HOST_DATA (R269): A HOST_DATA write is accepted only while the point is IDLE. -/
def execHostData (h : Requester) (p : Fin 8) (data : List Byte) (s : State) : Host.Outcome State Fault Refusal :=
  .next (s.hostWrite h (0xC003 + 0x100 * p.val) 0 (data))

/-- RING_ACK (R286): A RING_ACK write moves the acknowledged sequence forward within the allowed range. -/
def execRingAck (h : Requester) (w : Nat) (s : State) : Host.Outcome State Fault Refusal :=
  .next (s.hostWrite h 0xC810 2 (leBytes 4 w))

/-- SIGN_START (R272): A waiting record reaches the signing engine with a healthy random source, and the key is chosen twice. -/
def execSignStart (s : State) : Host.Outcome State Fault Refusal :=
  .next (s.signStart)

/-- SIGNATURE_DONE (R279): The ECDSA signature completes and the copy writes of the hallmark begin. -/
def execSignatureDone (s : State) : Host.Outcome State Fault Refusal :=
  .next (s.signatureDone)

/-- SIGN_WAIT_TIMEOUT (R280): A record that has waited 1 s for a healthy random source is stored unsigned with SIGN_STATE 5. -/
def execSignWaitTimeout (p : Fin 8) (s : State) : Host.Outcome State Fault Refusal :=
  .next (s.signTimeout p)

/-- RNG_FAILURE (R280): A health test of the random source fails: RNG_FAIL increments and the start-up test restarts. -/
def execRngFailure (test : Fin 3) (s : State) : Host.Outcome State Fault Refusal :=
  .next (s.rngFailed test.val)

/-- RNG_STARTUP_DONE (R280): The start-up test of the random source completes and RNG_STATE reads OK. -/
def execRngStartupDone (s : State) : Host.Outcome State Fault Refusal :=
  .next (s.rngReady)

end Sys2Proof.Machine
end

