-- ==== Sys2Proof/Machine/ExecStrings.lean ====
section
/-! DEFINITION. Machine/ExecStrings.lean: the commands of strings and lane commands (chapter 15). A command whose condition is absent leaves the state as it is. -/

namespace Sys2Proof.Machine

open Sys2Proof

/-- STRING_CFG (R432): A STRING_CFG write in SERVICE makes a string taut or slack, on the volatile path. -/
def execStringCfg (h : Requester) (i : Fin 8) (w : Nat) (s : State) : Host.Outcome State Fault Refusal :=
  .next (s.hostWrite h 0xD000 (i.val + 1) (leBytes 8 w))

/-- STRING_CLEAR (R432): Writing 0x01 makes every string slack. -/
def execStringClear (h : Requester) (w : Nat) (s : State) : Host.Outcome State Fault Refusal :=
  .next (s.hostWrite h 0xD002 0 (leBytes 1 w))

/-- SUBSTITUTE (R441): LANE_CMD SUBSTITUTE declares a lane worn, so that L4 substitutes for it. -/
def execSubstitute (h : Requester) (l : Fin 4) (s : State) : Host.Outcome State Fault Refusal :=
  .next (s.hostWrite h 0xE060 0 (leBytes 2 (1 + 256 * l.val)))

/-- RESTORE (R441): LANE_CMD RESTORE starts a 65,536-vector retest of a retired lane. -/
def execRestore (h : Requester) (l : Fin 4) (s : State) : Host.Outcome State Fault Refusal :=
  .next (s.hostWrite h 0xE060 0 (leBytes 2 (2 + 256 * l.val)))

/-- LANE_RETEST_DONE (R441): The restore retest ends: the lane takes back its logical lane, or RESTORE_FAIL increments. -/
def execLaneRetestDone (corrections : Nat) (s : State) : Host.Outcome State Fault Refusal :=
  .next (s.retestDone corrections)

end Sys2Proof.Machine
end

