-- ==== Sys2Proof/Machine/ExecTamper.lean ====
section
/-! DEFINITION. Machine/ExecTamper.lean: the commands of the tamper sources (chapter 11). A command whose condition is absent leaves the state as it is. -/

namespace Sys2Proof.Machine

open Sys2Proof

/-- TAMPER_STROBE (R319): The backup domain samples TSW0, TSW1 and FLDS every 1/1,024 s and counts debounced events. -/
def execTamperStrobe (time : Nat) (tsw0 : Bool) (tsw1 : Bool) (flds : Bool) (s : State) : Host.Outcome State Fault Refusal :=
  .next (s.strobes time tsw0 tsw1 flds)

/-- LIGHT (R319): The photodiode comparator sees light rising above the detection level, which is an event of T10. -/
def execLight (time : Nat) (s : State) : Host.Outcome State Fault Refusal :=
  .next (s.lightRise time)

/-- LIGHT_FALL (R319): The photodiode comparator sees the light fall below the detection level, which ends ACTIVE of T10 and rearms it for a further event. -/
def execLightFall (time : Nat) (s : State) : Host.Outcome State Fault Refusal :=
  .next (s.lightFall time)

/-- GLITCH (R318): A supply transient within the detection limits is an event of T8. -/
def execGlitch (time : Nat) (s : State) : Host.Outcome State Fault Refusal :=
  .next (s.glitchAt time)

/-- REF_CLOCK (R318): The 40 MHz reference deviates or stops, which is an event of T9. -/
def execRefClock (bad : Bool) (s : State) : Host.Outcome State Fault Refusal :=
  .next (s.refClock bad)

/-- RTC_CLOCK (R318): The 32.768 kHz oscillator stops or deviates, which is an event of T7. -/
def execRtcClock (time : Nat) (bad : Bool) (s : State) : Host.Outcome State Fault Refusal :=
  .next (s.rtcClock time bad)

/-- VBAT_CHECK (R318): The 1 s check of VBAT counts toward T3 after four low readings. -/
def execVbatCheck (time : Nat) (mv : Nat) (s : State) : Host.Outcome State Fault Refusal :=
  .next (s.vbatCheck time mv)

/-- DIE_TEMP_CHECK (R318): The 1 s die temperature check counts toward T4 after two out-of-range readings. -/
def execDieTempCheck (time : Nat) (t : Int) (s : State) : Host.Outcome State Fault Refusal :=
  .next (s.dieTempCheck time t)

/-- SVC_STRAP (R318): On a sealed device, SVC held high for 60 s without an accepted entry is an event of T15. -/
def execSvcStrap (s : State) : Host.Outcome State Fault Refusal :=
  .next (s.svcStrap)

/-- TAMPER_WINDOW_EXPIRY (R320): A counting source's WINDOW passes without reaching COUNT, and the source returns to ARMED. -/
def execTamperWindowExpiry (n : Fin 16) (time : Nat) (s : State) : Host.Outcome State Fault Refusal :=
  .next ((s.at' time).windowOver n)

/-- TAMPER_DECISION (R324): A decision begins over the pending alarms and applies the most severe response, with log records. -/
def execTamperDecision (s : State) : Host.Outcome State Fault Refusal :=
  .next (s.beginDecision)

/-- TAMPER_STATUS (R322): A write-1-to-clear write to TAMPER_STATUS clears sticky flags, with TAMPER_REARM counting. -/
def execTamperStatus (h : Requester) (w : Nat) (s : State) : Host.Outcome State Fault Refusal :=
  .next (s.hostWrite h 0xA010 0 (leBytes 2 w))

/-- CLEAR_MARKS (R336): The authenticated CLEAR_MARKS zeroes TAMPER_MARKS and writes a record. -/
def execClearMarks (h : Requester) (a : Auth) (s : State) : Host.Outcome State Fault Refusal :=
  .next (s.hostWrite h 0x1022 0 (State.authBytes 0xA013 a (leBytes 4 1)))

/-- CLEAR_LOCKDOWN (R337): The authenticated CLEAR_LOCKDOWN leaves LOCKDOWN into SERVICE when no LOCK source is active. -/
def execClearLockdown (h : Requester) (a : Auth) (s : State) : Host.Outcome State Fault Refusal :=
  .next (s.hostWrite h 0x1022 0 (State.authBytes 0xA013 a (leBytes 4 2)))

/-- BLOW_FUSE (R329): The authenticated BLOW_FUSE permanently disables one tamper source. -/
def execBlowFuse (h : Requester) (n : Fin 16) (a : Auth) (s : State) : Host.Outcome State Fault Refusal :=
  .next (s.hostWrite h 0x1022 0 (State.authBytes 0xA013 a (leBytes 4 (3 + 256 * n.val))))

/-- BACKUP_DOMAIN_RESET (R334): With VDD33 absent and VBAT too low to keep it, the backup domain resets and loses the RTC, the deferred latch, its copy of TAMPER_STATUS and the FIRST times. -/
def execBackupDomainReset (s : State) : Host.Outcome State Fault Refusal :=
  .next (s.backupReset)

end Sys2Proof.Machine
end

