-- ==== Sys2Proof/Machine/ExecThiber.lean ====
section
/-! DEFINITION. Machine/ExecThiber.lean: the commands of the Thiber link and troupes (chapter 14). A command whose condition is absent leaves the state as it is. -/

namespace Sys2Proof.Machine

open Sys2Proof

/-- TRAIN (R406): A TRAIN frame is received, and it brings the port UP or reveals an intrusion. -/
def execTrain (k : Fin 4) (seq : Nat) (serial : List Byte) (_keyId : Nat) (_port : Nat) (ack : Bool) (root : Bool) (s : State) : Host.Outcome State Fault Refusal :=
  .next (s.train k seq serial ack root)

/-- TRAIN_SEND (R406): TRAIN is sent every 50 µs in training, or as keep-alive when 1 ms passes without a frame. -/
def execTrainSend (k : Fin 4) (s : State) : Host.Outcome State Fault Refusal :=
  .next (s.trainSend k)

/-- LINK_DOWN (R406): A port loses symbols or frames past its limits and goes DOWN. -/
def execLinkDown (k : Fin 4) (reason : Nat) (s : State) : Host.Outcome State Fault Refusal :=
  .next (s.linkDown k reason)

/-- PENDING (R408): A PENDING frame from a child is received during census. -/
def execPending (k : Fin 4) (seq : Nat) (s : State) : Host.Outcome State Fault Refusal :=
  .next (s.receive k seq true fun s => s.pendingFrom k)

/-- PENDING_SEND (R408): PENDING is sent upward every 1 ms until CENSUS is sent. -/
def execPendingSend (s : State) : Host.Outcome State Fault Refusal :=
  .next (s.pendingSend)

/-- CENSUS (R408): A child's CENSUS is received and its census entry recorded; a late one is treated as a join. -/
def execCensus (k : Fin 4) (seq : Nat) (f : CensusFrame) (s : State) : Host.Outcome State Fault Refusal :=
  .next (s.receive k seq true fun s => s.census k f)

/-- CENSUS_SEND (R410): With all port outcomes known, the device sends its CENSUS upward. -/
def execCensusSend (s : State) : Host.Outcome State Fault Refusal :=
  .next (s.censusSend)

/-- CENSUS_TIMEOUT (R408): A port gets the outcome NONE or ABSENT when its census timers run out. -/
def execCensusTimeout (k : Fin 4) (trained : Bool) (s : State) : Host.Outcome State Fault Refusal :=
  .next (s.censusTimeout k trained)

/-- NUMBERING (R409): NUMBERING gives the device its block, and it numbers its children and starts ACQUIRING. -/
def execNumbering (k : Fin 4) (seq : Nat) (first : Nat) (size : Nat) (depth : Nat) (s : State) : Host.Outcome State Fault Refusal :=
  .next (s.receive k seq false fun s => s.numbering first size depth)

/-- SYNC (R413): A SYNC from the parent is received with T1, CORR and the time state. -/
def execSync (k : Fin 4) (seq : Nat) (f : SyncFrame) (t2 : Nat) (s : State) : Host.Outcome State Fault Refusal :=
  .next (s.receive k seq false fun s => s.syncFrom f t2)

/-- SYNC_SEND (R412): At cycle 0 of every index divisible by 80, SYNC is sent downstream. -/
def execSyncSend (s : State) : Host.Outcome State Fault Refusal :=
  .next (s.syncSend)

/-- DELAY_REQ (R413): A DELAY_REQ from a child is received and answered with DELAY_RESP. -/
def execDelayReq (k : Fin 4) (seq : Nat) (t3 : Nat) (t4 : Nat) (s : State) : Host.Outcome State Fault Refusal :=
  .next (s.receive k seq true fun s => s.delayReqFrom k t3 t4)

/-- DELAY_REQ_SEND (R413): At every index ≡ 40 mod 80, DELAY_REQ is sent upstream. -/
def execDelayReqSend (s : State) : Host.Outcome State Fault Refusal :=
  .next (s.delayReqSend)

/-- DELAY_RESP (R413): A DELAY_RESP completes an exchange: LINK_DELAY and OFFSET are computed and the pull is steered. -/
def execDelayResp (k : Fin 4) (seq : Nat) (t3 : Nat) (t4 : Nat) (s : State) : Host.Outcome State Fault Refusal :=
  .next (s.receive k seq false fun s => s.delayRespFrom t3 t4)

/-- INDEX_ADOPT (R415): At the next index divisible by 80 after frequency match, the root's INDEX_SHIFT is adopted and a rebase is made if needed. -/
def execIndexAdopt (s : State) : Host.Outcome State Fault Refusal :=
  .next (s.indexAdopt.runHeld)

/-- HOLDOVER_EXPIRY (R418): 10 s after a time jump the member starts ACQUIRING again. -/
def execHoldoverExpiry (s : State) : Host.Outcome State Fault Refusal :=
  .next (s.holdoverExpiry)

/-- TSTEP (R419): A TSTEP frame moves INDEX_SHIFT and is forwarded downstream at once. -/
def execTstep (k : Fin 4) (seq : Nat) (e : Nat) (step : Int) (valid : Bool) (s : State) : Host.Outcome State Fault Refusal :=
  .next (s.receive k seq false fun s => s.tstepFrom e step valid)

/-- VP_REPORT (R426): A child's VP_REPORT is received for an interval and summed into the virtual points. -/
def execVpReport (k : Fin 4) (seq : Nat) (f : VpFrame) (s : State) : Host.Outcome State Fault Refusal :=
  .next (s.receive k seq true fun s => s.vpReportFrom k f)

/-- VP_REPORT_SEND (R425): A device sends its 1 ms report of its real or virtual points upward. -/
def execVpReportSend (s : State) : Host.Outcome State Fault Refusal :=
  .next (s.vpReportSend)

/-- SITE_OPEN (R421): SITE_CMD OPEN on the root chooses F and a SITE_ID, freezes the root and sends SITE down. -/
def execSiteOpen (h : Requester) (s : State) : Host.Outcome State Fault Refusal :=
  .next ((s.hostWrite h 0xB030 0 (leBytes 1 1)).runHeld)

/-- SITE_CLOSE (R423): SITE_CMD CLOSE closes the site tableau and sends the CLOSE order down. -/
def execSiteClose (h : Requester) (s : State) : Host.Outcome State Fault Refusal :=
  .next ((s.hostWrite h 0xB030 0 (leBytes 1 2)).runHeld)

/-- SITE (R421): A SITE order is received: the tableau opens or closes and the order is forwarded. -/
def execSite (k : Fin 4) (seq : Nat) (op : Nat) (id : Nat) (f : Nat) (limit : Nat) (s : State) : Host.Outcome State Fault Refusal :=
  .next ((s.receive k seq false fun s => s.siteFrom op id f limit).runHeld)

/-- SITE_ACK (R422): A child's SITE_ACK counts are received and summed. -/
def execSiteAck (k : Fin 4) (seq : Nat) (id : Nat) (frozen : Nat) (unlocked : Nat) (missed : Nat) (s : State) : Host.Outcome State Fault Refusal :=
  .next (s.receive k seq true fun s => s.siteAckFrom k id frozen unlocked missed)

/-- SITE_ACK_SEND (R422): Once the image is complete and the children have answered, or at t(F) + 5 ms, SITE_ACK is sent upward. -/
def execSiteAckSend (s : State) : Host.Outcome State Fault Refusal :=
  .next (s.siteAckSend)

/-- SITE_LIMIT_EXPIRY (R423): SITE_LIMIT seconds after F the device closes the site tableau by itself. -/
def execSiteLimitExpiry (s : State) : Host.Outcome State Fault Refusal :=
  .next (s.siteLimit.runHeld)

/-- JOIN (R428): A JOIN is forwarded toward the top, which grants or refuses a block. -/
def execJoin (k : Fin 4) (seq : Nat) (serial : List Byte) (members : Nat) (prevFirst : Nat) (s : State) : Host.Outcome State Fault Refusal :=
  .next (s.receive k seq true fun s => s.joinFrom k serial members prevFirst)

/-- GRANT (R428): A GRANT returns along its path and the joining unit is numbered. -/
def execGrant (k : Fin 4) (seq : Nat) (serial : List Byte) (first : Nat) (reason : Nat) (s : State) : Host.Outcome State Fault Refusal :=
  .next (s.receive k seq false fun s => s.grantFrom serial first reason)

/-- JOIN_RETRY (R428): A refused unit asks again to join every 10 s. -/
def execJoinRetry (s : State) : Host.Outcome State Fault Refusal :=
  .next (s.joinRetry)

/-- CORRUPTED_LINK_FRAME (R407): A Thiber frame with a wrong CRC, a wrong LENGTH or a corrupted buffer word is discarded and counted in LINK_ERRORS, toward the 16 consecutive discards of R406. -/
def execCorruptedLinkFrame (k : Fin 4) (s : State) : Host.Outcome State Fault Refusal :=
  .next (s.corruptedFrame k)

end Sys2Proof.Machine
end

