-- ==== Sys2Proof/Machine/Dispatch.lean ====
section
/-! DEFINITION. Machine/Dispatch.lean: one arm per command, each a direct call of the command's meaning. -/

namespace Sys2Proof.Machine

/-- The effect of a command on everything but the queue. -/
def exec (i : Instr) (s : State) : Host.Outcome State Fault Refusal :=
  match i with
  | .powerGood time => Sys2Proof.Machine.execPowerGood time s
  | .recallBegin time addr ftm fuseMap fuseAgain stat => Sys2Proof.Machine.execRecallBegin time addr ftm fuseMap fuseAgain stat s
  | .privilegedResolved time fault => Sys2Proof.Machine.execPrivilegedResolved time fault s
  | .ordinaryResolved => Sys2Proof.Machine.execOrdinaryResolved s
  | .selfTestsDone retests kat => Sys2Proof.Machine.execSelfTestsDone retests kat s
  | .recallEnd => Sys2Proof.Machine.execRecallEnd s
  | .recallTimeout => Sys2Proof.Machine.execRecallTimeout s
  | .powerFailDetect time clampNs => Sys2Proof.Machine.execPowerFailDetect time clampNs s
  | .forcedStep => Sys2Proof.Machine.execForcedStep s
  | .holdupSaveComplete => Sys2Proof.Machine.execHoldupSaveComplete s
  | .writeInhibit items groups => Sys2Proof.Machine.execWriteInhibit items groups s
  | .samplePeriod bits => Sys2Proof.Machine.execSamplePeriod bits s
  | .sampleRelease p c o => Sys2Proof.Machine.execSampleRelease p c o s
  | .laneCheckVector l corrections uncorrectable => Sys2Proof.Machine.execLaneCheckVector l corrections uncorrectable s
  | .shadowWarm p => Sys2Proof.Machine.execShadowWarm p s
  | .latencyInterval => Sys2Proof.Machine.execLatencyInterval s
  | .substituteBoundary p => Sys2Proof.Machine.execSubstituteBoundary p s
  | .nettingStep p => Sys2Proof.Machine.execNettingStep p s
  | .offPointApply p => Sys2Proof.Machine.execOffPointApply p s
  | .windowPublish p => Sys2Proof.Machine.execWindowPublish p s
  | .eventRecord => Sys2Proof.Machine.execEventRecord s
  | .blockEnd obs => Sys2Proof.Machine.execBlockEnd obs s
  | .linkCheckFail m check => Sys2Proof.Machine.execLinkCheckFail m check s
  | .portStatus h p c w => Sys2Proof.Machine.execPortStatus h p c w s
  | .portCfg h p c w => Sys2Proof.Machine.execPortCfg h p c w s
  | .decConfig h p w => Sys2Proof.Machine.execDecConfig h p w s
  | .pointCfg h p w => Sys2Proof.Machine.execPointCfg h p w s
  | .evStatus h p w => Sys2Proof.Machine.execEvStatus h p w s
  | .latClear h w => Sys2Proof.Machine.execLatClear h w s
  | .laneMap h p w => Sys2Proof.Machine.execLaneMap h p w s
  | .pulseRise m => Sys2Proof.Machine.execPulseRise m s
  | .pulseFall m => Sys2Proof.Machine.execPulseFall m s
  | .pulseGapEnd m => Sys2Proof.Machine.execPulseGapEnd m s
  | .pulseCfg h m w => Sys2Proof.Machine.execPulseCfg h m w s
  | .meterConst h m w => Sys2Proof.Machine.execMeterConst h m w s
  | .demandIntervalEnd => Sys2Proof.Machine.execDemandIntervalEnd s
  | .mdReset h p w => Sys2Proof.Machine.execMdReset h p w s
  | .dmdCfg h w => Sys2Proof.Machine.execDmdCfg h w s
  | .checkpointDue => Sys2Proof.Machine.execCheckpointDue s
  | .checkpointWritten => Sys2Proof.Machine.execCheckpointWritten s
  | .tiUpdate p => Sys2Proof.Machine.execTiUpdate p s
  | .calBegin h p q => Sys2Proof.Machine.execCalBegin h p q s
  | .calZero h mask => Sys2Proof.Machine.execCalZero h mask s
  | .calGain h mask => Sys2Proof.Machine.execCalGain h mask s
  | .calPhase h => Sys2Proof.Machine.execCalPhase h s
  | .calDrop h q => Sys2Proof.Machine.execCalDrop h q s
  | .calCommit h => Sys2Proof.Machine.execCalCommit h s
  | .calAbort h => Sys2Proof.Machine.execCalAbort h s
  | .calStepEnd => Sys2Proof.Machine.execCalStepEnd s
  | .draftCoefficients h kind c v => Sys2Proof.Machine.execDraftCoefficients h kind c v s
  | .twinEvaluation t fault => Sys2Proof.Machine.execTwinEvaluation t fault s
  | .auxPassStart l => Sys2Proof.Machine.execAuxPassStart l s
  | .auxDelayEnd l => Sys2Proof.Machine.execAuxDelayEnd l s
  | .auxStartupDone a => Sys2Proof.Machine.execAuxStartupDone a s
  | .auxPowerDown a => Sys2Proof.Machine.execAuxPowerDown a s
  | .auxConversionEnd a code edge waits => Sys2Proof.Machine.execAuxConversionEnd a code edge waits s
  | .auxResultWrite l injection => Sys2Proof.Machine.execAuxResultWrite l injection s
  | .auxSelfCheck dev => Sys2Proof.Machine.execAuxSelfCheck dev s
  | .inject h l w => Sys2Proof.Machine.execInject h l w s
  | .coupleCfg h l w => Sys2Proof.Machine.execCoupleCfg h l w s
  | .entry h l e w => Sys2Proof.Machine.execEntry h l e w s
  | .auxCalBegin h input l => Sys2Proof.Machine.execAuxCalBegin h input l s
  | .auxCalZero h => Sys2Proof.Machine.execAuxCalZero h s
  | .auxCalFull h => Sys2Proof.Machine.execAuxCalFull h s
  | .auxCalCommit h => Sys2Proof.Machine.execAuxCalCommit h s
  | .auxCalAbort h => Sys2Proof.Machine.execAuxCalAbort h s
  | .auxCalBurst codes => Sys2Proof.Machine.execAuxCalBurst codes s
  | .sramAccess o => Sys2Proof.Machine.execSramAccess o s
  | .scrubWriteback b => Sys2Proof.Machine.execScrubWriteback b s
  | .marchStart => Sys2Proof.Machine.execMarchStart s
  | .marchPhaseEnd o => Sys2Proof.Machine.execMarchPhaseEnd o s
  | .marchRetry => Sys2Proof.Machine.execMarchRetry s
  | .bankSubRegionDone o => Sys2Proof.Machine.execBankSubRegionDone o s
  | .sweepRead b r w err twin busy => Sys2Proof.Machine.execSweepRead b r w err twin busy s
  | .counterClear h w => Sys2Proof.Machine.execCounterClear h w s
  | .nvmCycleEnd o => Sys2Proof.Machine.execNvmCycleEnd o s
  | .patrolRead o => Sys2Proof.Machine.execPatrolRead o s
  | .journalUnitStart => Sys2Proof.Machine.execJournalUnitStart s
  | .journalCommit => Sys2Proof.Machine.execJournalCommit s
  | .journalRetire => Sys2Proof.Machine.execJournalRetire s
  | .recordCopyWritten => Sys2Proof.Machine.execRecordCopyWritten s
  | .scratchPage h page data cut => Sys2Proof.Machine.execScratchPage h page data cut s
  | .scratchGroup h page g v => Sys2Proof.Machine.execScratchGroup h page g v s
  | .sessionOpen h p => Sys2Proof.Machine.execSessionOpen h p s
  | .sessionClose h p => Sys2Proof.Machine.execSessionClose h p s
  | .hostData h p data => Sys2Proof.Machine.execHostData h p data s
  | .ringAck h w => Sys2Proof.Machine.execRingAck h w s
  | .signStart => Sys2Proof.Machine.execSignStart s
  | .signatureDone => Sys2Proof.Machine.execSignatureDone s
  | .signWaitTimeout p => Sys2Proof.Machine.execSignWaitTimeout p s
  | .rngFailure test => Sys2Proof.Machine.execRngFailure test s
  | .rngStartupDone => Sys2Proof.Machine.execRngStartupDone s
  | .frameBoundary lost => Sys2Proof.Machine.execFrameBoundary lost s
  | .compensationEnd seg => Sys2Proof.Machine.execCompensationEnd seg s
  | .readback codes => Sys2Proof.Machine.execReadback codes s
  | .pumpRegulated pos neg => Sys2Proof.Machine.execPumpRegulated pos neg s
  | .pumpOvervoltage => Sys2Proof.Machine.execPumpOvervoltage s
  | .displayWake codes => Sys2Proof.Machine.execDisplayWake codes s
  | .bandTimeout => Sys2Proof.Machine.execBandTimeout s
  | .hostImage h image => Sys2Proof.Machine.execHostImage h image s
  | .dispPoint h w => Sys2Proof.Machine.execDispPoint h w s
  | .drvFault h bits => Sys2Proof.Machine.execDrvFault h bits s
  | .tamperStrobe time tsw0 tsw1 flds => Sys2Proof.Machine.execTamperStrobe time tsw0 tsw1 flds s
  | .light time => Sys2Proof.Machine.execLight time s
  | .glitch time => Sys2Proof.Machine.execGlitch time s
  | .refClock bad => Sys2Proof.Machine.execRefClock bad s
  | .rtcClock time bad => Sys2Proof.Machine.execRtcClock time bad s
  | .vbatCheck time mv => Sys2Proof.Machine.execVbatCheck time mv s
  | .dieTempCheck time t => Sys2Proof.Machine.execDieTempCheck time t s
  | .svcStrap => Sys2Proof.Machine.execSvcStrap s
  | .tamperWindowExpiry n time => Sys2Proof.Machine.execTamperWindowExpiry n time s
  | .tamperDecision => Sys2Proof.Machine.execTamperDecision s
  | .tamperStatus h w => Sys2Proof.Machine.execTamperStatus h w s
  | .clearMarks h a => Sys2Proof.Machine.execClearMarks h a s
  | .clearLockdown h a => Sys2Proof.Machine.execClearLockdown h a s
  | .blowFuse h n a => Sys2Proof.Machine.execBlowFuse h n a s
  | .enterService h a => Sys2Proof.Machine.execEnterService h a s
  | .sealCmd h a => Sys2Proof.Machine.execSeal h a s
  | .sealKeygenDone failed => Sys2Proof.Machine.execSealKeygenDone failed s
  | .sealFuseSet stat => Sys2Proof.Machine.execSealFuseSet stat s
  | .serviceExit h => Sys2Proof.Machine.execServiceExit h s
  | .svcChange level => Sys2Proof.Machine.execSvcChange level s
  | .serviceMaxExpiry => Sys2Proof.Machine.execServiceMaxExpiry s
  | .authChallenge h => Sys2Proof.Machine.execAuthChallenge h s
  | .authChallengeExpiry => Sys2Proof.Machine.execAuthChallengeExpiry s
  | .timeStep h v => Sys2Proof.Machine.execTimeStep h v s
  | .utcOffset h v => Sys2Proof.Machine.execUtcOffset h v s
  | .spiSend bytes => Sys2Proof.Machine.execSpiSend bytes s
  | .spiFetch clocked => Sys2Proof.Machine.execSpiFetch clocked s
  | .canFrame kind id data => Sys2Proof.Machine.execCanFrame kind id data s
  | .canReassemblyTimeout => Sys2Proof.Machine.execCanReassemblyTimeout s
  | .canTransmit => Sys2Proof.Machine.execCanTransmit s
  | .canBusoffRecovery => Sys2Proof.Machine.execCanBusoffRecovery s
  | .read h index sub => Sys2Proof.Machine.execRead h index sub s
  | .write h index sub data => Sys2Proof.Machine.execWrite h index sub data s
  | .tableauOpen h => Sys2Proof.Machine.execTableauOpen h s
  | .tableauRead h index sub id => Sys2Proof.Machine.execTableauRead h index sub id s
  | .tableauClose h id => Sys2Proof.Machine.execTableauClose h id s
  | .tableauComplete => Sys2Proof.Machine.execTableauComplete s
  | .tableauTimeout => Sys2Proof.Machine.execTableauTimeout s
  | .batch h payload => Sys2Proof.Machine.execBatch h payload s
  | .streamStart h mask divisor src => Sys2Proof.Machine.execStreamStart h mask divisor src s
  | .streamStop h => Sys2Proof.Machine.execStreamStop h s
  | .streamFrameReady => Sys2Proof.Machine.execStreamFrameReady s
  | .train k seq serial keyId port ack root => Sys2Proof.Machine.execTrain k seq serial keyId port ack root s
  | .trainSend k => Sys2Proof.Machine.execTrainSend k s
  | .linkDown k reason => Sys2Proof.Machine.execLinkDown k reason s
  | .pending k seq => Sys2Proof.Machine.execPending k seq s
  | .pendingSend => Sys2Proof.Machine.execPendingSend s
  | .census k seq f => Sys2Proof.Machine.execCensus k seq f s
  | .censusSend => Sys2Proof.Machine.execCensusSend s
  | .censusTimeout k trained => Sys2Proof.Machine.execCensusTimeout k trained s
  | .numbering k seq first size depth => Sys2Proof.Machine.execNumbering k seq first size depth s
  | .sync k seq f t2 => Sys2Proof.Machine.execSync k seq f t2 s
  | .syncSend => Sys2Proof.Machine.execSyncSend s
  | .delayReq k seq t3 t4 => Sys2Proof.Machine.execDelayReq k seq t3 t4 s
  | .delayReqSend => Sys2Proof.Machine.execDelayReqSend s
  | .delayResp k seq t3 t4 => Sys2Proof.Machine.execDelayResp k seq t3 t4 s
  | .indexAdopt => Sys2Proof.Machine.execIndexAdopt s
  | .holdoverExpiry => Sys2Proof.Machine.execHoldoverExpiry s
  | .tstep k seq e step valid => Sys2Proof.Machine.execTstep k seq e step valid s
  | .vpReport k seq f => Sys2Proof.Machine.execVpReport k seq f s
  | .vpReportSend => Sys2Proof.Machine.execVpReportSend s
  | .siteOpen h => Sys2Proof.Machine.execSiteOpen h s
  | .siteClose h => Sys2Proof.Machine.execSiteClose h s
  | .site k seq op id f limit => Sys2Proof.Machine.execSite k seq op id f limit s
  | .siteAck k seq id frozen unlocked missed => Sys2Proof.Machine.execSiteAck k seq id frozen unlocked missed s
  | .siteAckSend => Sys2Proof.Machine.execSiteAckSend s
  | .siteLimitExpiry => Sys2Proof.Machine.execSiteLimitExpiry s
  | .join k seq serial members prevFirst => Sys2Proof.Machine.execJoin k seq serial members prevFirst s
  | .grant k seq serial first reason => Sys2Proof.Machine.execGrant k seq serial first reason s
  | .joinRetry => Sys2Proof.Machine.execJoinRetry s
  | .stringCfg h n w => Sys2Proof.Machine.execStringCfg h n w s
  | .stringClear h w => Sys2Proof.Machine.execStringClear h w s
  | .substitute h l => Sys2Proof.Machine.execSubstitute h l s
  | .restore h l => Sys2Proof.Machine.execRestore h l s
  | .laneRetestDone corrections => Sys2Proof.Machine.execLaneRetestDone corrections s
  | .lightFall time => Sys2Proof.Machine.execLightFall time s
  | .backupDomainReset => Sys2Proof.Machine.execBackupDomainReset s
  | .canBusError transmitter weight => Sys2Proof.Machine.execCanBusError transmitter weight s
  | .corruptedLinkFrame k => Sys2Proof.Machine.execCorruptedLinkFrame k s

end Sys2Proof.Machine
end

