-- ==== Sys2Proof/Safety.lean ====
section
/-! DEFINITION. What claims about runs are stated in: the outcome of a step, the transitions of modes, and the invariants of the state. -/

namespace Sys2Proof.Machine

open Sys2Proof

/-- A step that answers a next state: neither a fault nor a refusal. -/
def Completes (o : Host.Outcome State Fault Refusal) : Prop := ∃ t, o = .next t

/-- The transitions of Table 12.1 (R343). -/
def Mode.goesTo : Mode → Mode → Bool
  | .dormant, .recalling => true
  | .recalling, .metering => true
  | .recalling, .lockdown => true
  | .recalling, .dormant => true
  | .recalling, .holdup => true
  | .metering, .service => true
  | .metering, .lockdown => true
  | .service, .lockdown => true
  | .metering, .holdup => true
  | .service, .holdup => true
  | .lockdown, .holdup => true
  | .service, .metering => true
  | .lockdown, .service => true
  | .holdup, .dormant => true
  | _, _ => false

/-- A mode in which the device serves (R4). -/
def Mode.serving : Mode → Bool
  | .metering => true
  | .service => true
  | .lockdown => true
  | _ => false

/-- A transition that waits for its mode index goes to METERING, SERVICE or LOCKDOWN (R344). -/
def State.NextOk (s : State) : Prop := ∀ m, s.modeNext = some m → m.serving = true

/-- One step's change of mode: none, a transition of Table 12.1, or the two from LOCKDOWN through SERVICE to METERING, where both were decided
within one sample period and so have the same mode index (R344). -/
def ModeStep (a b : Mode) : Prop := b = a ∨ a.goesTo b = true ∨ (a = .lockdown ∧ b = .metering)

/-- The scratch memory is in canonical form. -/
def State.MemoryOk (s : State) : Prop := Memory.wf s.scratch = true

/-- The commands that can change a byte of the scratch memory: host writes of its pages and groups (R237), and a group cycle that reads a group
of the area with two or more bytes wrong, or writes one that it finds so (R229, R240), the patrol's reads among them. -/
def storesScratch : Instr → Bool
  | .write _ index _ _ => decide (0xF000 ≤ index)
  | .scratchPage _ _ _ _ => true
  | .scratchGroup _ _ _ _ => true
  | .nvmCycleEnd o => o.err.wrong && decide (0xE000 ≤ o.group.val)
  | .patrolRead o => o.err.wrong
  | _ => false

/-- A request as its link carries it (Table 13.4). -/
def requestOf (h : Requester) (op idx sub : Nat) (payload : List Byte) : Link × Message := (h.link, ⟨op, h.tag, idx, sub, .ok, payload⟩)

/-- The host request that a command is, with its link: the operation, the entry and the payload that the entry tables give it; none for what
happens without a request of a host. -/
def hostRequest : Instr → Option (Link × Message)
  | .portStatus h p c w => some (requestOf h opWrite (0x2011 + 0x100 * p.val) (c.val + 1) (leBytes 2 w))
  | .portCfg h p c w => some (requestOf h opWrite (0x2010 + 0x100 * p.val) (c.val + 1) (leBytes 2 w))
  | .decConfig h p w => some (requestOf h opWrite (0x2018 + 0x100 * p.val) 0 (leBytes 1 w))
  | .pointCfg h p w => some (requestOf h opWrite (0x2000 + 0x100 * p.val) 0 (leBytes 2 w))
  | .evStatus h p w => some (requestOf h opWrite (0x5001 + 0x100 * p.val) 0 (leBytes 4 w))
  | .latClear h w => some (requestOf h opWrite 0xE025 0 (leBytes 1 w))
  | .laneMap h p w => some (requestOf h opWrite 0xE010 (p.val + 1) (leBytes 1 w))
  | .pulseCfg h m w => some (requestOf h opWrite 0x4810 (m.val + 1) (leBytes 2 w))
  | .meterConst h m w => some (requestOf h opWrite 0x4811 (m.val + 1) (leBytes 4 w))
  | .mdReset h p w => some (requestOf h opWrite (0x4011 + 0x100 * p.val) 0 (leBytes 1 w))
  | .dmdCfg h w => some (requestOf h opWrite 0x4800 0 (leBytes 1 w))
  | .calBegin h p q => some (requestOf h opWrite 0x6800 0 (leBytes 4 (1 + 256 * p.val + 2 ^ 24 * q.val)))
  | .calZero h mask => some (requestOf h opWrite 0x6800 0 (leBytes 4 (2 + 2 ^ 16 * mask)))
  | .calGain h mask => some (requestOf h opWrite 0x6800 0 (leBytes 4 (3 + 2 ^ 16 * mask)))
  | .calPhase h => some (requestOf h opWrite 0x6800 0 (leBytes 4 (4)))
  | .calDrop h q => some (requestOf h opWrite 0x6800 0 (leBytes 4 (5 + 2 ^ 24 * q.val)))
  | .calCommit h => some (requestOf h opWrite 0x6800 0 (leBytes 4 (6)))
  | .calAbort h => some (requestOf h opWrite 0x6800 0 (leBytes 4 (7)))
  | .draftCoefficients h .gain c v => some (requestOf h opWrite 0x6808 (c.val + 1) (leBytes 4 (ofSigned 32 v)))
  | .draftCoefficients h .offset c v => some (requestOf h opWrite 0x6809 (c.val + 1) (leBytes 4 (ofSigned 32 v)))
  | .draftCoefficients h .trim c v => some (requestOf h opWrite 0x680A (c.val + 1) (leBytes 2 (ofSigned 16 v)))
  | .inject h l w => some (requestOf h opWrite 0x7040 0 (leBytes 4 (w - 256 * field w 9 8 + 256 * l.val)))
  | .coupleCfg h l w => some (requestOf h opWrite 0x7011 (l.val + 1) (leBytes 2 w))
  | .entry h l e w => some (requestOf h opWrite (0x7020 + l.val) (e.val + 1) (leBytes 8 w))
  | .auxCalBegin h input l => some (requestOf h opWrite 0x7060 0 (leBytes 4 (1 + 256 * input.val + 2 ^ 16 * l.val)))
  | .auxCalZero h => some (requestOf h opWrite 0x7060 0 (leBytes 4 (2)))
  | .auxCalFull h => some (requestOf h opWrite 0x7060 0 (leBytes 4 (3)))
  | .auxCalCommit h => some (requestOf h opWrite 0x7060 0 (leBytes 4 (4)))
  | .auxCalAbort h => some (requestOf h opWrite 0x7060 0 (leBytes 4 (5)))
  | .counterClear h w => some (requestOf h opWrite 0xE039 0 (leBytes 1 w))
  | .scratchPage h page data _ => some (requestOf h opWrite (0xF000 + page.val) 0 data)
  | .scratchGroup h page g v => some (requestOf h opWrite (0xF000 + page.val) (g.val + 1) (leBytes 8 v))
  | .sessionOpen h p => some (requestOf h opWrite (0xC000 + 0x100 * p.val) 0 (leBytes 1 1))
  | .sessionClose h p => some (requestOf h opWrite (0xC000 + 0x100 * p.val) 0 (leBytes 1 2))
  | .hostData h p data => some (requestOf h opWrite (0xC003 + 0x100 * p.val) 0 data)
  | .ringAck h w => some (requestOf h opWrite 0xC810 2 (leBytes 4 w))
  | .hostImage h image => some (requestOf h opWrite 0x8009 0 image)
  | .dispPoint h w => some (requestOf h opWrite 0x8005 0 (leBytes 1 w))
  | .drvFault h bits => some (requestOf h opWrite 0x8035 0 bits)
  | .tamperStatus h w => some (requestOf h opWrite 0xA010 0 (leBytes 2 w))
  | .clearMarks h a => some (requestOf h opWrite 0x1022 0 (State.authBytes 0xA013 a (leBytes 4 1)))
  | .clearLockdown h a => some (requestOf h opWrite 0x1022 0 (State.authBytes 0xA013 a (leBytes 4 2)))
  | .blowFuse h n a => some (requestOf h opWrite 0x1022 0 (State.authBytes 0xA013 a (leBytes 4 (3 + 256 * n.val))))
  | .enterService h a => some (requestOf h opWrite 0x1022 0 (State.authBytes 0x1010 a (leBytes 1 2)))
  | .sealCmd h a => some (requestOf h opWrite 0x1022 0 (State.authBytes 0x1010 a (leBytes 1 3)))
  | .serviceExit h => some (requestOf h opWrite 0x1010 0 (leBytes 1 1))
  | .authChallenge h => some (requestOf h opRead 0x1021 0 [])
  | .timeStep h v => some (requestOf h opWrite 0x1031 0 (leBytes 8 (ofSigned 64 v)))
  | .utcOffset h v => some (requestOf h opWrite 0x1032 0 (leBytes 2 (ofSigned 16 v)))
  | .read h index sub => some (requestOf h opRead index sub [])
  | .write h index sub data => some (requestOf h opWrite index sub data)
  | .tableauOpen h => some (requestOf h opTabOpen 0 0 [])
  | .tableauRead h index sub id => some (requestOf h opTabRead index sub (leBytes 2 id))
  | .tableauClose h id => some (requestOf h opTabClose 0 0 (leBytes 2 id))
  | .batch h payload => some (requestOf h opBatch 0 0 payload)
  | .streamStart h mask divisor src => some (requestOf h opStreamStart 0 0 (leBytes 8 mask ++ leBytes 2 divisor ++ leBytes 1 src ++ [0]))
  | .streamStop h => some (requestOf h opStreamStop 0 0 [])
  | .siteOpen h => some (requestOf h opWrite 0xB030 0 (leBytes 1 1))
  | .siteClose h => some (requestOf h opWrite 0xB030 0 (leBytes 1 2))
  | .stringCfg h i w => some (requestOf h opWrite 0xD000 (i.val + 1) (leBytes 8 w))
  | .stringClear h w => some (requestOf h opWrite 0xD002 0 (leBytes 1 w))
  | .substitute h l => some (requestOf h opWrite 0xE060 0 (leBytes 2 (1 + 256 * l.val)))
  | .restore h l => some (requestOf h opWrite 0xE060 0 (leBytes 2 (2 + 256 * l.val)))
  | .powerGood _ | .recallBegin _ _ _ _ _ _ | .privilegedResolved _ _ | .ordinaryResolved | .selfTestsDone _ _ | .recallEnd | .recallTimeout
  | .powerFailDetect _ _ | .forcedStep | .holdupSaveComplete | .writeInhibit _ _ | .samplePeriod _ | .sampleRelease _ _ _
  | .laneCheckVector _ _ _ | .shadowWarm _ | .latencyInterval | .substituteBoundary _ | .nettingStep _ | .offPointApply _ | .windowPublish _
  | .eventRecord | .blockEnd _ | .linkCheckFail _ _ | .pulseRise _ | .pulseFall _ | .pulseGapEnd _ | .demandIntervalEnd | .checkpointDue
  | .checkpointWritten | .tiUpdate _ | .calStepEnd | .twinEvaluation _ _ | .auxPassStart _ | .auxDelayEnd _ | .auxStartupDone _
  | .auxPowerDown _ | .auxConversionEnd _ _ _ _ | .auxResultWrite _ _ | .auxSelfCheck _ | .auxCalBurst _ | .sramAccess _ | .scrubWriteback _
  | .marchStart | .marchPhaseEnd _ | .marchRetry | .bankSubRegionDone _ | .sweepRead _ _ _ _ _ _ | .nvmCycleEnd _ | .patrolRead _
  | .journalUnitStart | .journalCommit | .journalRetire | .recordCopyWritten | .signStart | .signatureDone | .signWaitTimeout _ | .rngFailure _
  | .rngStartupDone | .frameBoundary _ | .compensationEnd _ | .readback _ | .pumpRegulated _ _ | .pumpOvervoltage | .displayWake _
  | .bandTimeout | .tamperStrobe _ _ _ _ | .light _ | .glitch _ | .refClock _ | .rtcClock _ _ | .vbatCheck _ _ | .dieTempCheck _ _ | .svcStrap
  | .tamperWindowExpiry _ _ | .tamperDecision | .sealKeygenDone _ | .sealFuseSet _ | .svcChange _ | .serviceMaxExpiry | .authChallengeExpiry
  | .spiSend _ | .spiFetch _ | .canFrame _ _ _ | .canReassemblyTimeout | .canTransmit | .canBusoffRecovery | .tableauComplete | .tableauTimeout
  | .streamFrameReady | .train _ _ _ _ _ _ _ | .trainSend _ | .linkDown _ _ | .pending _ _ | .pendingSend | .census _ _ _ | .censusSend
  | .censusTimeout _ _ | .numbering _ _ _ _ _ | .sync _ _ _ _ | .syncSend | .delayReq _ _ _ _ | .delayReqSend | .delayResp _ _ _ _ | .indexAdopt
  | .holdoverExpiry | .tstep _ _ _ _ _ | .vpReport _ _ _ | .vpReportSend | .site _ _ _ _ _ _ | .siteAck _ _ _ _ _ _ | .siteAckSend
  | .siteLimitExpiry | .join _ _ _ _ _ | .grant _ _ _ _ _ | .joinRetry | .laneRetestDone _ | .lightFall _ | .backupDomainReset
  | .canBusError _ _ | .corruptedLinkFrame _ => none

/-- A request of `h` that is received now is executed now: the device serves, factory test mode is off, and nothing waits on the link (R362, R382,
R393, R445). -/
def State.Ready (s : State) (h : Requester) : Prop := s.serves = true ∧ s.svc.ftm = false ∧ (s.link h.link).queue = []

/-- The state with a request taken up and not answered yet: it alone is in its link's queue. -/
def State.taken (s : State) (h : Requester) (op idx sub : Nat) (payload : List Byte) : State :=
  s.setLink h.link { s.link h.link with queue := [⟨op, h.tag, idx, sub, .ok, payload⟩] }

/-- The state with one response more waiting on the link of `h` (R380, Table 13.4). -/
def State.answered (s : State) (h : Requester) (op idx sub : Nat) (st : Status) (payload : List Byte) : State :=
  s.setLink h.link { s.link h.link with out := (s.link h.link).out ++ [⟨op, h.tag, idx, sub, st, payload⟩] }

/-- From `s` to `t` one request of `h` was answered and nothing else came or went on the two host links. -/
def Answered (s t : State) (h : Requester) (op idx sub : Nat) (st : Status) (payload : List Byte) : Prop :=
  t.spi = (s.answered h op idx sub st payload).spi ∧ t.can = (s.answered h op idx sub st payload).can

/-- What a write of a stored entry that the checks accept leaves (R378): answered OK at once where the entry keeps its value (a draft coefficient or
a pulse setting counts as written all the same, R141, R160), else one journal unit more, whose commit group answers it. -/
def State.storedWrite (s : State) (h : Requester) (idx sub : Nat) (data : List Byte) (v : Val) : State :=
  if s.unchanged (keyOf idx sub) v then (s.sameWritten (keyOf idx sub)).answered h opWrite idx sub .ok []
  else (s.taken h opWrite idx sub data).queueUnit ⟨[⟨keyOf idx sub, v⟩], unitBytes data.length, .write h idx sub⟩

/-- The state with the two host links of another. -/
def State.withLinksOf (s u : State) : State := { s with spi := u.spi, can := u.can }

/-- The state with the challenge used up (R349). -/
def State.spent (s : State) : State := { s with svc := { s.svc with challenge := none } }

/-- An AUTH_CMD that carries the standing challenge and passes verification (R349, R350). -/
def State.Authentic (s : State) (idx : Nat) (a : Auth) (payload : List Byte) : Prop :=
  s.svc.challenge = some a.challenge ∧ a.challenge.length = 16 ∧ s.authVerify (State.authBytes idx a payload) = true

/-- A frame other than TRAIN is taken on a port (R406, R407, R429): the engine runs, the port is UP, its SEQ is no duplicate, and its type, `up` where
it goes upward, is right for the port. -/
def State.takesFrame (s : State) (k : Fin 4) (seq : Nat) (up : Bool) : Prop :=
  s.thbOn = true ∧ s.isUp k = true ∧ s.thb.ports[k].rxSeq ≠ some (seq % 256) ∧ up ≠ decide (k = (0 : Fin 4))

/-- The latest frame that left a port is of a type, with a payload that begins with given bytes (Table 14.2). -/
def State.SentFrame (s : State) (k : Fin 4) (type : Nat) (payload : List Byte) : Prop :=
  s.thb.ports[k].tx.take 1 = leBytes 1 type ∧ (s.thb.ports[k].tx.drop 4).take payload.length = payload

/-- A port takes no frame other than TRAIN: the engine stands or the port is not UP (R406). -/
def State.PortDown (s : State) (k : Fin 4) : Prop := s.thbOn = false ∨ s.isUp k = false

end Sys2Proof.Machine
end

