-- ==== Sys2Proof/Certificates/Slice0/Obligations.lean ====
section
/-! DEFINITION. The statements for the provers. -/

open Sys2Proof Sys2Proof.Machine

/-- Every command completes: it answers a next state, with neither a fault nor a refusal. What each does is stated by its family's own statement. -/
def Obligations.EveryCommandCompletes : Prop := ∀ (c : Instr) (s : State), Completes (exec c s)

/-- A step takes the command at the front of the queue and runs it on the state with the rest of the queue. -/
def Obligations.StepRunsFrontCommand : Prop :=
  ∀ (c : Instr) (rest : List Instr) (s : State), step { s with pending := c :: rest } = exec c { s with pending := rest }

/-- With no command waiting the device idles. The model's choice (log entry 3): what happens with time is a command of the table. -/
def Obligations.EmptyQueueIdles : Prop := ∀ s : State, s.pending = [] → step s = .next s

/-- A step takes one command from the queue and adds none, whatever the command does. -/
def Obligations.StepTakesOneCommand : Prop := ∀ s t : State, step s = .next t → t.pending = s.pending.tail

/-- Every step keeps the scratch memory in canonical form: addresses strictly rising, and no entry equal to what an unlisted address reads as. -/
def Obligations.StepKeepsMemory : Prop := ∀ s t : State, s.MemoryOk → step s = .next t → t.MemoryOk

/-- No command stores to the scratch memory but a write of its pages and groups and a group cycle of its area that meets an uncorrectable group
(R237, R240): all others leave every byte of it as it is. -/
def Obligations.ScratchKept : Prop :=
  ∀ (c : Instr) (s t : State), storesScratch c = false → exec c s = .next t → ∀ a, Memory.read t.scratch a = Memory.read s.scratch a

/-- The mode changes only as Table 12.1 says (R343). Two transitions decided within one sample period have the same mode index (R344), so that a step
can go from LOCKDOWN to METERING, with the SERVICE between them of no length. The premise is an invariant: a transition that waits for its mode index
goes to METERING, SERVICE or LOCKDOWN. Every step keeps it. -/
def Obligations.StepFollowsTable121 : Prop := ∀ s t : State, s.NextOk → step s = .next t → ModeStep s.mode t.mode ∧ t.NextOk

/-- The two invariants that steps keep hold after reset: the scratch memory in canonical form, and no transition waiting for a mode outside METERING,
SERVICE and LOCKDOWN. -/
def Obligations.ResetKeepsInvariants : Prop := State.reset.MemoryOk ∧ State.reset.NextOk

/-- After reset the entries read as the defaults of the entry tables: CAN_TIMING, CAN_ID_BASE and TAB_LIMIT of Table 13.14, and every POINT_CFG and
DEC_CONFIG 0 (kind OFF, OSR 250). That the device starts DORMANT, with no command waiting, is the model's choice (log entry 1). -/
def Obligations.ResetHoldsDefaults : Prop :=
  State.reset.getN (keyOf 0x1060 3) = 0x1222 ∧ State.reset.getN (keyOf 0x1060 4) = 0x1A ∧ State.reset.getN (keyOf 0x1062 4) = 60 ∧
    (∀ p : Fin 8, State.reset.getN (K.POINT_CFG p) = 0 ∧ State.reset.getN (K.DEC_CONFIG p) = 0) ∧ State.reset.mode = .dormant ∧
    State.reset.pending = []

/-- Before RECALL and in HOLDUP no request is answered, and none changes anything (R362). -/
def Obligations.LinksSilentOutsideService : Prop :=
  ∀ (c : Instr) (l : Link) (m : Message) (s : State), hostRequest c = some (l, m) → s.linksOn = false → s.heldBatches = [] → exec c s = .next s

/-- In factory test mode every request is answered ACCESS, and nothing else changes (R445). -/
def Obligations.FactoryTestModeAnswersAccess : Prop :=
  ∀ (c : Instr) (l : Link) (m : Message) (s : State), hostRequest c = some (l, m) → s.linksOn = true → s.svc.ftm = true → s.heldBatches = [] →
    exec c s = .next (s.answerNow l { m with status := .access, payload := [] })

/-- In RECALL every request is answered RECALLING with a remaining time of two bytes, in units of 0.1 ms rounded up and at least what any start-up step
that is not complete may still take, and nothing else changes but the counter of free values (R5, R366, R382). -/
def Obligations.RecallAnswersRecalling : Prop :=
  ∀ (c : Instr) (l : Link) (m : Message) (s : State), hostRequest c = some (l, m) → s.mode = .recalling → s.svc.ftm = false → s.heldBatches = [] →
    ∃ n, n ≤ 65535 ∧
      (∀ e ∈ State.stepLimits, bit s.startup.steps e.1 = false → min 65535 ((e.2 - (s.rtc - s.startup.started) + 99999) / 100000) ≤ n) ∧
      exec c s = .next ({ s with free := s.free + 2 }.answerNow l { m with status := .recalling, payload := leBytes 2 n })

/-- A request that arrives behind others waits its turn; behind four it is answered BUSY, and BUSY_COUNT increments (R393). -/
def Obligations.RequestsWaitTheirTurn : Prop :=
  ∀ (c : Instr) (l : Link) (m : Message) (s : State), hostRequest c = some (l, m) → s.serves = true → s.svc.ftm = false → s.heldBatches = [] →
    (∀ a ∈ (s.link l).queue, a.same m = false) → (s.link l).queue ≠ [] →
    exec c s = .next (if 4 ≤ (s.link l).queue.length then (s.addSat 32 K.BUSY_COUNT 1).answerNow l { m with status := .busy, payload := [] }
      else s.setLink l { s.link l with queue := (s.link l).queue ++ [m] })

/-- A READ of an entry that does not exist is answered UNKNOWN_ENTRY, one of a write-only entry ACCESS; a number entry is answered OK with its
value, that formed from the rest of the state where the entry is such (R376, R377). Nothing else changes. -/
def Obligations.ReadAnswersValue : Prop :=
  ∀ (s : State) (h : Requester) (idx sub : Nat), s.Ready h →
    (findDesc idx sub = none → exec (.read h idx sub) s = .next (s.answered h opRead idx sub .unknownEntry [])) ∧
    (∀ d, findDesc idx sub = some d →
      (d.acc = .wo → exec (.read h idx sub) s = .next (s.answered h opRead idx sub .access [])) ∧
      (d.acc ≠ .wo → (∃ n, d.ty = .u n ∨ d.ty = .i n) → idx < 0xF000 → idx ≠ 0x1021 → idx ≠ 0x8033 → State.isMeasured idx sub = false → s.viewBytes idx sub = none →
        exec (.read h idx sub) s = .next (s.answered h opRead idx sub .ok
          (d.ty.encode (.num (match s.viewNum idx sub with | some v => (v : Int) | none => s.getN (keyOf idx sub)))))))

/-- AUTH_CHALLENGE reads as 16 bytes that replace the challenge before; while the random source is not OK the read is refused with WRONG_STATE
(R349). -/
def Obligations.ChallengeReplaced : Prop :=
  ∀ (s : State) (h : Requester), s.Ready h →
    (s.getN K.RNG_STATE = 0 → ∃ (t : State) (b : List Byte), exec (.authChallenge h) s = .next t ∧ b.length = 16 ∧ t.svc.challenge = some b ∧
      Answered s t h opRead 0x1021 0 .ok b ∧
      { t with svc := { t.svc with challenge := s.svc.challenge }, free := s.free, spi := s.spi, can := s.can } = s) ∧
    (s.getN K.RNG_STATE ≠ 0 → exec (.authChallenge h) s = .next (s.answered h opRead 0x1021 0 .wrongState []))

/-- TABLEAU_OPEN freezes at the first sample period that begins at least 25 µs after acceptance, and answers that index, its stamp and the ID;
while a tableau is open it is refused with WRONG_STATE (R45, R49). -/
def Obligations.TableauOpens : Prop :=
  ∀ (s : State) (h : Requester), s.Ready h →
    (s.tab = none → 0 ≤ ((s.index * 12500 : Nat) : Int) + s.getN K.INDEX_SHIFT →
      ∃ (t : State) (f id : Nat), exec (.tableauOpen h) s = .next t ∧ t.tab = some ⟨id, f, false, false, [], [], s.rtc⟩ ∧ 1 ≤ id ∧ id ≤ 0x7FFF ∧
        t.getN K.TAB_F = f ∧ t.getN K.TAB_ID = id ∧ s.rtc + 25000 ≤ s.instant f ∧
        (∀ n, s.index ≤ n → s.rtc + 25000 ≤ s.instant n → f ≤ n) ∧
        Answered s t h opTabOpen 0 0 .ok (leBytes 8 f ++ leBytes 10 (s.stamp f) ++ leBytes 2 id)) ∧
    (s.tab ≠ none → exec (.tableauOpen h) s = .next (s.answered h opTabOpen 0 0 .wrongState []))

/-- TABLEAU_READ under the open tableau returns the value an entry of the frozen set had at the freeze index, once the image is complete, and waits
until then; without that tableau it is answered TABLEAU_CLOSED, and outside the frozen set NOT_FROZEN (R46, R48, R397). -/
def Obligations.TableauReads : Prop :=
  ∀ (s : State) (h : Requester) (idx sub id : Nat) (d : Desc), s.Ready h → findDesc idx sub = some d → id < 65536 →
    ((∀ t, s.tab = some t → t.id ≠ id) → exec (.tableauRead h idx sub id) s = .next (s.answered h opTabRead idx sub .tableauClosed [])) ∧
    (∀ t, s.tab = some t → t.id = id →
      (isFrozen (keyOf idx sub) = false → exec (.tableauRead h idx sub id) s = .next (s.answered h opTabRead idx sub .notFrozen [])) ∧
      (isFrozen (keyOf idx sub) = true → t.complete = false →
        exec (.tableauRead h idx sub id) s =
          .next { s.taken h opTabRead idx sub (leBytes 2 id) with tab := some { t with held := t.held ++ [(h, idx, sub)] } }) ∧
      (isFrozen (keyOf idx sub) = true → t.complete = true →
        exec (.tableauRead h idx sub id) s = .next (s.answered h opTabRead idx sub .ok (d.ty.encode (.num
          (if keyOf idx sub = K.SAMPLE_INDEX then (t.freeze : Nat)
          else if State.isDisputedUntil (keyOf idx sub) = true ∧ s.modeAt t.freeze = .lockdown then 2 ^ 64 - 1
          else match lookupL t.nums (keyOf idx sub) with | some v => v | none => s.getN (keyOf idx sub)))))))

/-- TABLEAU_CLOSE with the open tableau's ID closes it, and so does the end of TAB_LIMIT for a local one; another ID is answered TABLEAU_CLOSED
(R397). -/
def Obligations.TableauCloses : Prop :=
  ∀ (s : State) (h : Requester) (id : Nat), s.Ready h → id < 65536 → s.heldBatches = [] →
    (∀ t, s.tab = some t → t.held = [] →
      (t.id = id → exec (.tableauClose h id) s = .next ({ s with tab := none }.answered h opTabClose 0 0 .ok [])) ∧
      (t.site = false → exec .tableauTimeout s = .next { s with tab := none })) ∧
    ((∀ t, s.tab = some t → t.id ≠ id) → exec (.tableauClose h id) s = .next (s.answered h opTabClose 0 0 .tableauClosed []))

/-- When the image is complete, every read that was held is answered OK with its value under the tableau (R48). -/
def Obligations.TableauCompletes : Prop :=
  ∀ (s : State) (t0 : Tableau), s.tab = some t0 → t0.complete = false → t0.site = false → s.heldBatches = [] → s.linksOn = true →
    ∃ t, exec .tableauComplete s = .next t ∧ t.tab = some { t0 with complete := true, held := [] } ∧
      (∀ r ∈ t0.held, (⟨opTabRead, r.1.tag, r.2.1, r.2.2, .ok, s.tableauBytes r.2.1 r.2.2⟩ : Message) ∈ (t.link r.1.link).out) ∧
      { t with tab := s.tab, spi := s.spi, can := s.can } = s

/-- A BATCH that breaks a rule of R394 is refused whole. Its WRITEs are checked before any is applied, each beside those before it (`subChecks`): where
one would be refused none is applied. Where every WRITE passes, the stored writes form one journal unit, whose commit group the answer waits for; with
none the batch is answered at once (R395). Where each of them changes its entry, the unit holds exactly these writes, in their order. -/
def Obligations.BatchAppliesAllOrNothing : Prop :=
  ∀ (s : State) (h : Requester) (payload : List Byte), s.Ready h →
    (∀ st, State.batchStatus payload = st → st ≠ .ok → exec (.batch h payload) s = .next (s.answered h opBatch 0 0 st [])) ∧
    ∀ subs, (State.parseSubs 32 payload).1 = subs → State.batchStatus payload = .ok → (∀ m ∈ subs, s.subWaits m = false) →
      ((∃ x ∈ s.subChecks subs, x.2 ≠ .ok) →
        ∃ t replies, exec (.batch h payload) s = .next t ∧ Answered s t h opBatch 0 0 .ok replies ∧
          { t with free := s.free, svc := s.svc, spi := s.spi, can := s.can } = s) ∧
      ((∀ x ∈ s.subChecks subs, x.2 = .ok) →
        ∃ (u : State) (replies : List Byte) (ws : List EntryWrite), u.spi = (s.taken h opBatch 0 0 payload).spi ∧ u.can = (s.taken h opBatch 0 0 payload).can ∧ u.mode = s.mode ∧ u.scratch = s.scratch ∧
          (∀ w ∈ ws, ∃ m ∈ subs, m.op = opWrite ∧ w ∈ State.subWrite m) ∧
          ((∀ m ∈ subs, m.op = opWrite → State.isFlagEntry m.index = false ∧ State.isVolatileEntry m.index = false ∧
              ∀ d, findDesc m.index m.sub = some d → s.unchanged (keyOf m.index m.sub) (d.ty.decode m.payload) = false) →
            ws = (subs.filter fun m => m.op = opWrite).flatMap State.subWrite) ∧
          exec (.batch h payload) s = .next (if ws = [] then u.withLinksOf (s.answered h opBatch 0 0 .ok replies)
            else u.queueUnit ⟨ws, (subs.map State.subStored).sum, .batch h replies⟩))

/-- STREAM_START on SPI starts a stream at the first sample index after acceptance that is a multiple of STEP; while a stream runs it is refused
with WRONG_STATE, and CAN FD does not carry it (R381, R398). -/
def Obligations.StreamStarts : Prop :=
  ∀ (s : State) (h : Requester) (mask divisor src : Nat), s.Ready h → h.link = .spi →
    (s.stream.running = false → s.streamOk mask divisor src = true →
      ∃ t step, exec (.streamStart h mask divisor src) s = .next t ∧
        step = (if (State.maskChans mask).any (fun x : Fin 8 × Fin 7 => s.points[x.1].app.osr500) then 2 * divisor else divisor) ∧
        t.stream.running = true ∧ t.stream.mask = mask ∧ t.stream.step = step ∧ t.stream.samples = [] ∧ (t.stream.corrected = true ↔ src = 1) ∧
        t.stream.begin % step = 0 ∧ s.index < t.stream.begin ∧ (∀ n, s.index < n → n % step = 0 → t.stream.begin ≤ n) ∧
        Answered s t h opStreamStart 0 0 .ok [] ∧ { t with stream := s.stream, spi := s.spi, can := s.can } = s) ∧
    (s.stream.running = true → exec (.streamStart h mask divisor src) s = .next (s.answered h opStreamStart 0 0 .wrongState [])) ∧
    exec (.streamStop h) s = .next ({ s with stream := { s.stream with running := false, samples := [] } }.answered h opStreamStop 0 0 .ok [])

/-- A full stream frame joins the output queue, which holds 16; a frame that finds it full is dropped and counted (R399). -/
def Obligations.StreamFramesQueue : Prop :=
  ∀ s : State, State.streamFull s.stream = true → ∃ t, exec .streamFrameReady s = .next t ∧
    t.stream.begin = s.stream.begin + State.framePeriods (State.maskChans s.stream.mask).length * s.stream.step ∧
    (s.stream.frames.length < 16 → t.stream.frames = s.stream.frames ++ [(s.stream.tag, State.streamPayload s.stream)] ∧ t.stream.lost = 0 ∧
      t.getN K.STREAM_LOST = s.getN K.STREAM_LOST) ∧
    (16 ≤ s.stream.frames.length → t.stream.frames = s.stream.frames ∧ t.stream.lost = s.stream.lost + 1 ∧
      t.getN K.STREAM_LOST = (satAdd 32 (s.getU K.STREAM_LOST) 1 : Nat))

/-- A transaction of one byte reads the status byte only. A SEND that is too short for its header, LENGTH and CRC is discarded and counted in
SPI_SHORT; one whose CRC fails is
counted in SPI_CRC_ERR and answered FRAME; a whole one with a permitted operation and length becomes a waiting request. The device sends its status byte meanwhile (R384,
R385, R393). -/
def Obligations.SpiSendReceives : Prop :=
  ∀ (s : State) (b : List Byte) (m : Message) (n : Nat), s.serves = true → s.svc.ftm = false → parseHeader b = (m, n) → n ≤ 4096 →
    (exec (.spiSend []) s = .next (s.spiSent [byteOf s.spiStatus])) ∧
    (b ≠ [] → b.length < 8 ∨ b.length < 10 + n →
      exec (.spiSend b) s = .next ((s.spiSent [byteOf s.spiStatus]).addSat 32 K.SPI_SHORT 1)) ∧
    (10 + n ≤ b.length → crc16 (b.take (8 + n)) ≠ leNat ((b.drop (8 + n)).take 2) → s.spi.queue = [] →
      exec (.spiSend b) s =
        .next (((s.spiSent [byteOf s.spiStatus]).addSat 32 K.SPI_CRC_ERR 1).answerNow .spi { m with status := .frame, payload := [] })) ∧
    (10 + n ≤ b.length → crc16 (b.take (8 + n)) = leNat ((b.drop (8 + n)).take 2) → carries .spi m.op = true → s.spi.queue.length < 4 →
      exec (.spiSend b) s = .next { s with spi := { s.spi with
        sent := [byteOf s.spiStatus], queue := s.spi.queue ++ [{ m with status := .ok, payload := (b.drop 8).take n }] } })

/-- A FETCH sends the status byte and then the oldest response, or else the oldest stream frame, or else NONE, each with its CRC-16; the message leaves
its queue only when every byte of it was clocked (R384, R386). -/
def Obligations.SpiFetchSends : Prop :=
  ∀ (s : State) (clocked : Nat), s.linksOn = true →
    ∃ t, exec (.spiFetch clocked) s = .next t ∧
      t.spi.sent = byteOf s.spiStatus :: ((State.withCrc s.spiNext.bytes ++ List.replicate (clocked - (State.withCrc s.spiNext.bytes).length) 0).take clocked) ∧
      (clocked < (State.withCrc s.spiNext.bytes).length → t.spi.out = s.spi.out ∧ t.stream = s.stream) ∧
      ((State.withCrc s.spiNext.bytes).length ≤ clocked →
        (s.spi.out ≠ [] → t.spi.out = s.spi.out.tail ∧ t.stream = s.stream) ∧
        (s.spi.out = [] → t.spi.out = [] ∧ t.stream.frames = s.stream.frames.tail)) ∧
      { t with spi := s.spi, stream := s.stream } = s

/-- The CAN receiver takes FD frames with its base, DIR 0 and its node address; it counts classical frames with its base and ignores every other
frame; in bus-off it takes none. A whole message in a SINGLE frame becomes a waiting request (R389 to R391). -/
def Obligations.CanFramesReceived : Prop :=
  ∀ (s : State) (kind : CanKind) (id : Nat) (data : List Byte), s.serves = true → s.svc.ftm = false →
    (s.bus.busOff = true → exec (.canFrame kind id data) s = .next s) ∧
    (s.bus.busOff = false → s.bus.rxErr ≤ 127 →
      (kind = .other → exec (.canFrame kind id data) s = .next { s with bus := { s.bus with rxErr := s.bus.rxErr - 1 } }) ∧
      (kind = .classic → exec (.canFrame kind id data) s =
        .next (if State.canBase id = s.bus.baseActive then ({ s with bus := { s.bus with rxErr := s.bus.rxErr - 1 } } : State).addSat 32 K.CAN_CLASSIC 1
          else { s with bus := { s.bus with rxErr := s.bus.rxErr - 1 } })) ∧
      (kind = .fd → ¬ (State.canBase id = s.bus.baseActive ∧ State.canDir id = 0 ∧ State.canNode id = s.bus.nodeActive) →
        exec (.canFrame kind id data) s = .next { s with bus := { s.bus with rxErr := s.bus.rxErr - 1 } }) ∧
      (∀ b m n, kind = .fd → State.canBase id = s.bus.baseActive → State.canDir id = 0 → State.canNode id = s.bus.nodeActive →
        data = 0 :: b → s.bus.segOpen = false → State.canHeader (State.canOp id) (State.canTag id) b = (m, n) → n ≤ 4096 → 6 + n ≤ b.length →
        carries .can (State.canOp id) = true → s.can.queue.length < 4 →
        exec (.canFrame kind id data) s = .next { s with
          bus := { s.bus with rxErr := s.bus.rxErr - 1 },
          can := { s.can with queue := s.can.queue ++ [{ m with status := .ok, payload := (b.drop 6).take n }] } }))

/-- 100 ms without a segment abandon the reassembly: it is counted in CAN_SEG_ERR, and its request is answered FRAME (R392). -/
def Obligations.CanReassemblyAbandoned : Prop :=
  ∀ (s : State), s.serves = true → s.svc.ftm = false → s.bus.segOpen = true → s.can.queue = [] →
    exec .canReassemblyTimeout s = .next
      ((({ s with bus := { s.bus with segOpen := false, segBytes := [] } } : State).addSat 32 K.CAN_SEG_ERR 1).answerNow .can
        { (State.canHeader s.bus.segOp s.bus.segTag s.bus.segBytes).1 with status := .frame, payload := [] })

/-- The oldest CAN response leaves under DIR 1 with the base and node in force (R390, R391); a transmit error above 255 is bus-off, counted, and
recovery clears the error counters (R389; the counters' values are PRESUMED from ISO 11898-1, log entry 30). -/
def Obligations.CanTransmitsAndRecovers : Prop :=
  ∀ s : State, s.linksOn = true →
    (∀ m r, s.bus.busOff = false → s.can.out = m :: r → ∃ t, exec .canTransmit s = .next t ∧ t.can = { s.can with out := r } ∧
      (∀ f ∈ t.bus.frames, f.1 = s.bus.baseActive * 2 ^ 24 + 2 ^ 23 + s.bus.nodeActive * 2 ^ 16 + m.op % 256 * 2 ^ 8 + m.tag % 256) ∧
      t.bus.frames.map Prod.snd = State.canFields m ∧ { t with can := s.can, bus := s.bus } = s) ∧
    (∀ w, s.bus.busOff = false → s.bus.txErr + w ≤ 255 →
      exec (.canBusError true w) s = .next { s with bus := { s.bus with txErr := s.bus.txErr + w } }) ∧
    (∀ w, s.bus.busOff = false → 255 < s.bus.txErr + w →
      exec (.canBusError true w) s = .next (({ s with bus := { s.bus with txErr := s.bus.txErr + w, busOff := true } } : State).addSat 32 K.CAN_BUSOFF 1)) ∧
    (∀ w, s.bus.busOff = false → exec (.canBusError false w) s = .next { s with bus := { s.bus with rxErr := s.bus.rxErr + w } }) ∧
    (s.bus.busOff = true → exec .canBusoffRecovery s = .next { s with bus := { s.bus with busOff := false, txErr := 0, rxErr := 0 } })

/-- A WRITE of an entry that does not exist is answered UNKNOWN_ENTRY. One that the access class, the state, the length or the value refuses is
answered with the first status of the order of R377 and changes nothing else. An accepted one takes the path of its entry: a stored entry is
answered OK at once where it keeps its value, and else becomes a journal unit that answers it; a flag or volatile entry acts at once (R377,
R378). Batches that are held for a tableau run after it as far as they can. -/
def Obligations.WriteFollowsItsPath : Prop :=
  ∀ (s : State) (h : Requester) (idx sub : Nat) (data : List Byte), s.Ready h →
    (findDesc idx sub = none → exec (.write h idx sub data) s = .next (s.answered h opWrite idx sub .unknownEntry []).runHeld) ∧
    (∀ d, findDesc idx sub = some d → d.acc ≠ .wo →
      (∀ st, s.writeStatus [] d idx sub data = st → st ≠ .ok → exec (.write h idx sub data) s = .next (s.answered h opWrite idx sub st []).runHeld) ∧
      (s.writeStatus [] d idx sub data = .ok → idx < 0xF000 →
        (State.isFlagEntry idx = false → State.isVolatileEntry idx = false →
          exec (.write h idx sub data) s = .next (s.storedWrite h idx sub data (d.ty.decode data)).runHeld) ∧
        (State.isFlagEntry idx = true ∨ State.isVolatileEntry idx = true →
          exec (.write h idx sub data) s =
            .next (((s.taken h opWrite idx sub data).writeNow idx sub (d.ty.decode data)).reply h opWrite idx sub .ok []).runHeld)))

/-- The rows that write a stored entry of the fabric, the ports, the points, the pulses and demand, in the states that their access classes and rules
allow: PORT_CFG, DEC_CONFIG and POINT_CFG in SERVICE before sealing, the last two without a session; LANE_MAP in SERVICE within the load limit;
PULSE_CFG, METER_CONST and DMD_CFG by their values. A value must fit the entries as the writes that wait will leave them, `s.foreseen []` (R29, R55,
R74, R88, R135, R141, R377, R378). -/
def Obligations.ConfigurationWritesQueueUnits : Prop :=
  ∀ (s : State) (h : Requester) (w : Nat), s.Ready h →
    (∀ (p : Fin 8) (c : Fin 7), s.sealed = false → s.inService = true → (s.foreseen []).portCfgOk p c w = true →
      exec (.portCfg h p c w) s = .next (s.storedWrite h (0x2010 + 0x100 * p.val) (c.val + 1) (leBytes 2 w) (.num w))) ∧
    (∀ p : Fin 8, s.sealed = false → s.inService = true → s.sessionOn p = false → w ≤ 1 → (s.foreseen []).decConfigOk p w = true →
      exec (.decConfig h p w) s = .next (s.storedWrite h (0x2018 + 0x100 * p.val) 0 (leBytes 1 w) (.num w))) ∧
    (∀ p : Fin 8, s.sealed = false → s.inService = true → s.sessionOn p = false → w < 32 → (s.foreseen []).pointCfgOk p w = true →
      exec (.pointCfg h p w) s = .next (s.storedWrite h (0x2000 + 0x100 * p.val) 0 (leBytes 2 w) (.num w))) ∧
    (∀ p : Fin 8, s.inService = true → w ≤ 3 → (s.foreseen []).loadOk p ((s.foreseen []).cfgKind p) ((s.foreseen []).cfgOsr p) w = true →
      exec (.laneMap h p w) s = .next (s.storedWrite h 0xE010 (p.val + 1) (leBytes 1 w) (.num w))) ∧
    (∀ m : Fin 8, w < 0x772 → (s.foreseen []).pulseCfgOk w = true →
      exec (.pulseCfg h m w) s = .next (s.storedWrite h 0x4810 (m.val + 1) (leBytes 2 w) (.num w))) ∧
    (∀ m : Fin 8, 1 ≤ w → w ≤ 1000000 →
      exec (.meterConst h m w) s = .next (s.storedWrite h 0x4811 (m.val + 1) (leBytes 4 w) (.num w))) ∧
    (s.inService = true → w < 16 → w % 8 ≤ 5 → exec (.dmdCfg h w) s = .next (s.storedWrite h 0x4800 0 (leBytes 1 w) (.num w)))

/-- The rows that write a stored entry of the auxiliary couples, the sessions, the display, the draft coefficients and the time zone, by their values
and states: ENTRY and COUPLE_CFG, HOST_DATA outside a session, RING_ACK, DISP_POINT, the drafts in SERVICE while CAL_STATE is OPEN, UTC_OFFSET of
at most 1,000 min (R160, R189, R269, R377, R378). -/
def Obligations.SettingWritesQueueUnits : Prop :=
  ∀ (s : State) (h : Requester), s.Ready h →
    (∀ (l : Fin 3) (w : Nat), w < 256 → w % 16 ≤ 3 →
      exec (.coupleCfg h l w) s = .next (s.storedWrite h 0x7011 (l.val + 1) (leBytes 2 w) (.num w))) ∧
    (∀ (l : Fin 3) (e : Fin 16) (w : Nat), w < 2 ^ 64 → inMask w 0xFFFF80FF0FF7DF1F = true → (s.foreseen []).entryOk w = true →
      exec (.entry h l e w) s = .next (s.storedWrite h (0x7020 + l.val) (e.val + 1) (leBytes 8 w) (.num w))) ∧
    (∀ (p : Fin 8) (data : List Byte), s.sessionOn p = false → data.length ≤ 256 →
      exec (.hostData h p data) s = .next (s.storedWrite h (0xC003 + 0x100 * p.val) 0 data (.bytes data))) ∧
    (∀ w, w < 2 ^ 32 → (s.foreseen []).ringAckOk w = true → exec (.ringAck h w) s = .next (s.storedWrite h 0xC810 2 (leBytes 4 w) (.num w))) ∧
    (∀ w, w ≤ 7 → exec (.dispPoint h w) s = .next (s.storedWrite h 0x8005 0 (leBytes 1 w) (.num w))) ∧
    (∀ (c : Fin 7) (v : Int), s.inService = true → s.getN K.CAL_STATE = 1 →
      (0x200000 ≤ v → v ≤ 0x800000 →
        exec (.draftCoefficients h .gain c v) s = .next (s.storedWrite h 0x6808 (c.val + 1) (leBytes 4 (ofSigned 32 v)) (.num v))) ∧
      (v.natAbs ≤ 1342208 →
        exec (.draftCoefficients h .offset c v) s = .next (s.storedWrite h 0x6809 (c.val + 1) (leBytes 4 (ofSigned 32 v)) (.num v))) ∧
      (0 ≤ v → v ≤ 256 →
        exec (.draftCoefficients h .trim c v) s = .next (s.storedWrite h 0x680A (c.val + 1) (leBytes 2 (ofSigned 16 v)) (.num v)))) ∧
    (∀ v : Int, v.natAbs ≤ 1000 → exec (.utcOffset h v) s = .next (s.storedWrite h 0x1032 0 (leBytes 2 (ofSigned 16 v)) (.num v)))

/-- A write of a flag entry clears the bits it carries as 1 and no other, is answered OK, and takes effect at once: PORT_STATUS with its six event
bits (R78), EV_STATUS (R116), TAMPER_STATUS, whose kept copies follow (R321, R322), and DRV_FAULT. -/
def Obligations.FlagWritesClearBits : Prop :=
  ∀ (s : State) (h : Requester) (w : Nat), s.Ready h →
    (∀ (p : Fin 8) (c : Fin 7), w < 512 → ∃ t, exec (.portStatus h p c w) s = .next t ∧ Answered s t h opWrite (0x2011 + 0x100 * p.val) (c.val + 1) .ok [] ∧
      (∀ k, t.getN k = if k = K.PORT_STATUS p (c + 1) then
        ((s.getU (K.PORT_STATUS p (c + 1)) ^^^ (s.getU (K.PORT_STATUS p (c + 1)) &&& w &&& 0x3F) : Nat) : Int) else s.getN k) ∧
      { t with nums := s.nums, tab := s.tab, points := s.points, spi := s.spi, can := s.can } = s) ∧
    (∀ p : Fin 8, w < 2 ^ 32 → inMask w 0x13FFF = true → ∃ t, exec (.evStatus h p w) s = .next t ∧
      Answered s t h opWrite (0x5001 + 0x100 * p.val) 0 .ok [] ∧
      (∀ k, t.getN k = if k = K.EV_STATUS p then ((s.getU (K.EV_STATUS p) ^^^ (s.getU (K.EV_STATUS p) &&& w) : Nat) : Int) else s.getN k) ∧
      { t with nums := s.nums, tab := s.tab, points := s.points, spi := s.spi, can := s.can } = s) ∧
    (w < 2 ^ 16 → ∃ t, exec (.tamperStatus h w) s = .next t ∧ Answered s t h opWrite 0xA010 0 .ok [] ∧
      t.getU K.TAMPER_STATUS = s.getU K.TAMPER_STATUS ^^^ (s.getU K.TAMPER_STATUS &&& w) ∧
      (s.getU K.TAMPER_STATUS &&& w ≠ 0 → t.tamper.backupStatus = t.getU K.TAMPER_STATUS) ∧
      (∀ k, k ≠ K.TAMPER_STATUS → t.getN k = s.getN k) ∧
      { t with nums := s.nums, tab := s.tab, tamper := s.tamper, journal := s.journal, spi := s.spi, can := s.can } = s) ∧
    (∀ bits : List Byte, bits.length = 25 → leNat bits < 2 ^ 194 → ∃ t, exec (.drvFault h bits) s = .next t ∧ Answered s t h opWrite 0x8035 0 .ok [] ∧
      t.disp.fault = s.disp.fault ^^^ (s.disp.fault &&& leNat bits) ∧
      { t with disp := { t.disp with fault := s.disp.fault, faultCleared := s.disp.faultCleared }, spi := s.spi, can := s.can } = s)

/-- A write of a volatile entry acts at once and is answered OK (R378): HOST_IMAGE becomes the host region's target, pending while
the region runs (R301), a STRING_CFG makes its
string taut or slack with its hit counter 0 (R432). -/
def Obligations.VolatileWritesActAtOnce : Prop :=
  ∀ (s : State) (h : Requester), s.Ready h →
    (∀ image : List Byte, image.length = 24 → leNat image &&& (s.foreseen []).regionMask false = 0 → ∃ t, exec (.hostImage h image) s = .next t ∧
      Answered s t h opWrite 0x8009 0 .ok [] ∧ t.getB K.HOST_IMAGE = image ∧
      t.disp.host = (if leNat image &&& s.regionMask true = s.disp.host.pending.getD s.disp.host.target then s.disp.host
        else if s.disp.host.running then { s.disp.host with pending := some (leNat image &&& s.regionMask true) }
        else { s.disp.host with target := leNat image &&& s.regionMask true, due := true, dueTime := s.rtc }) ∧
      t.disp.metro = s.disp.metro ∧ t.disp.shown = s.disp.shown ∧ { t with disp := s.disp, blobs := s.blobs, nums := s.nums, tab := s.tab, spi := s.spi, can := s.can } = s) ∧
    (∀ (i : Fin 8) (w : Nat), s.inService = true → w < 2 ^ 64 → (s.foreseen []).stringCfgOk w = true → ∃ t, exec (.stringCfg h i w) s = .next t ∧
      Answered s t h opWrite 0xD000 (i.val + 1) .ok [] ∧ t.getN (K.STRING_CFG (i + 1)) = w ∧ t.getN (K.STRING_HITS (i + 1)) = 0 ∧
      t.getU K.STRING_TAUT = if bit w 63 then setBit (s.getU K.STRING_TAUT) i else clearBit (s.getU K.STRING_TAUT) i)

/-- The commands that clear take 0x01 and nothing else: any other byte is answered INVALID_VALUE. LAT_CLEAR zeroes LAT_WORST, LAT_OVER and II_WORST
of every lane (R34), COUNTER_CLEAR the counters of conflicts, collisions and waits of every master (R226), MD_RESET the maximum demands of its point
with their times (R136), STRING_CLEAR makes every string slack (R432). -/
def Obligations.ClearCommandsZero : Prop :=
  ∀ (s : State) (h : Requester), s.Ready h →
    (∀ w, w < 256 → w ≠ 1 →
      exec (.latClear h w) s = .next (s.answered h opWrite 0xE025 0 .invalidValue []) ∧
      exec (.counterClear h w) s = .next (s.answered h opWrite 0xE039 0 .invalidValue []) ∧
      exec (.stringClear h w) s = .next (s.answered h opWrite 0xD002 0 .invalidValue []) ∧
      (∀ p : Fin 8, exec (.mdReset h p w) s = .next (s.answered h opWrite (0x4011 + 0x100 * p.val) 0 .invalidValue []))) ∧
    (∃ t, exec (.latClear h 1) s = .next t ∧ Answered s t h opWrite 0xE025 0 .ok [] ∧
      (∀ l, l < 5 → t.getN (K.LAT_WORST (l + 1)) = 0 ∧ t.getN (K.LAT_OVER (l + 1)) = 0 ∧ t.getN (K.II_WORST (l + 1)) = 0) ∧
      (∀ k, (∀ l, l < 5 → k ≠ K.LAT_WORST (l + 1) ∧ k ≠ K.LAT_OVER (l + 1) ∧ k ≠ K.II_WORST (l + 1)) → t.getN k = s.getN k) ∧
      { t with nums := s.nums, spi := s.spi, can := s.can } = s) ∧
    (∃ t, exec (.counterClear h 1) s = .next t ∧ Answered s t h opWrite 0xE039 0 .ok [] ∧
      (∀ m, m < 11 → t.getN (K.CONFLICT_COUNT (m + 1)) = 0 ∧ t.getN (K.COLLISION_COUNT (m + 1)) = 0 ∧ t.getN (K.WAIT_WORST (m + 1)) = 0) ∧
      (∀ k, (∀ m, m < 11 → k ≠ K.CONFLICT_COUNT (m + 1) ∧ k ≠ K.COLLISION_COUNT (m + 1) ∧ k ≠ K.WAIT_WORST (m + 1)) → t.getN k = s.getN k) ∧
      { t with nums := s.nums, spi := s.spi, can := s.can } = s) ∧
    (∀ p : Fin 8, ∃ t, exec (.mdReset h p 1) s = .next t ∧ Answered s t h opWrite (0x4011 + 0x100 * p.val) 0 .ok [] ∧
      (∀ k, t.getN k = if k = K.MAX_DMD_IMPORT p ∨ k = K.MAX_DMD_EXPORT p ∨ k = K.MAX_DMD_IMPORT_TIME p ∨ k = K.MAX_DMD_EXPORT_TIME p then 0
        else s.getN k) ∧
      { t with nums := s.nums, tab := s.tab, spi := s.spi, can := s.can } = s) ∧
    (∃ t, exec (.stringClear h 1) s = .next t ∧ Answered s t h opWrite 0xD002 0 .ok [] ∧ t.getN K.STRING_TAUT = 0 ∧
      (s.getN K.STRING_TAUT = 0 → t = s.answered h opWrite 0xD002 0 .ok []))

/-- An authenticated command that passes verification uses its challenge up. ENTER_SERVICE, SEAL and CLEAR_LOCKDOWN then wait for their twin decision
with the first evaluation, and their answer with it; SEAL while the device is sealing and CLEAR_LOCKDOWN where its conditions fail are answered
WRONG_STATE (R336, R337, R348 to R351, R354). CLEAR_MARKS zeroes TAMPER_MARKS with its kept copy; BLOW_FUSE sets its fuse. -/
def Obligations.AuthenticatedCommandsAct : Prop :=
  ∀ (s : State) (h : Requester) (a : Auth), s.Ready h →
    (s.Authentic 0x1010 a (leBytes 1 2) →
      exec (.enterService h a) s = .next { (s.taken h opWrite 0x1022 0 (State.authBytes 0x1010 a (leBytes 1 2))).spent with
        twins := s.twins ++ [.enterService h s.enterOk] }) ∧
    (s.Authentic 0x1010 a (leBytes 1 3) →
      (s.sealing = false → exec (.sealCmd h a) s = .next { (s.taken h opWrite 0x1022 0 (State.authBytes 0x1010 a (leBytes 1 3))).spent with
        twins := s.twins ++ [.sealing h s.sealChecks] }) ∧
      (s.sealing = true → exec (.sealCmd h a) s = .next (s.spent.answered h opWrite 0x1022 0 .wrongState []))) ∧
    (s.Authentic 0xA013 a (leBytes 4 2) →
      (s.clearOk = true → exec (.clearLockdown h a) s = .next { (s.taken h opWrite 0x1022 0 (State.authBytes 0xA013 a (leBytes 4 2))).spent with
        twins := s.twins ++ [.clearLockdown h true] }) ∧
      (s.clearOk = false → exec (.clearLockdown h a) s = .next (s.spent.answered h opWrite 0x1022 0 .wrongState []))) ∧
    (s.Authentic 0xA013 a (leBytes 4 1) →
      (s.serviceAccess = true → ∃ t, exec (.clearMarks h a) s = .next t ∧ Answered s t h opWrite 0x1022 0 .ok [] ∧ t.getN K.TAMPER_MARKS = 0 ∧
        t.tamper.backupMarks = 0 ∧ t.svc.challenge = none ∧ t.mode = s.mode) ∧
      (s.serviceAccess = false → exec (.clearMarks h a) s = .next (s.spent.answered h opWrite 0x1022 0 .wrongState []))) ∧
    (∀ n : Fin 16, s.Authentic 0xA013 a (leBytes 4 (3 + 256 * n.val)) →
      (n = 11 ∨ n = 13 ∨ s.srcFused n = true → exec (.blowFuse h n a) s = .next (s.spent.answered h opWrite 0x1022 0 .invalidValue [])) ∧
      (n ≠ 11 → n ≠ 13 → s.srcFused n = false → s.serviceAccess = false →
        exec (.blowFuse h n a) s = .next (s.spent.answered h opWrite 0x1022 0 .wrongState [])) ∧
      (n ≠ 11 → n ≠ 13 → s.srcFused n = false → s.serviceAccess = true → ∃ t, exec (.blowFuse h n a) s = .next t ∧
        Answered s t h opWrite 0x1022 0 .ok [] ∧ t.getU K.FUSE_MAP = s.getU K.FUSE_MAP ||| 2 ^ n.val ∧ t.getU K.TDIS = setBit (s.getU K.TDIS) n ∧
        t.svc.challenge = none ∧ t.mode = s.mode))

/-- An authenticated command whose challenge is not the standing one is answered AUTH_FAILED, AUTH_FAIL increments, and nothing of the command takes
place: mode, fuses, marks and twin decisions stay as they are (R349, R350). -/
def Obligations.AuthenticationFailureRefuses : Prop :=
  ∀ (s : State) (h : Requester) (a : Auth) (c : Instr), s.Ready h → a.challenge.length = 16 → s.svc.challenge ≠ some a.challenge →
    (c = .enterService h a ∨ c = .sealCmd h a ∨ c = .clearLockdown h a ∨ c = .clearMarks h a ∨ ∃ n, c = .blowFuse h n a) →
    ∃ t, exec c s = .next t ∧ Answered s t h opWrite 0x1022 0 .authFailed [] ∧ t.getU K.AUTH_FAIL = satAdd 32 (s.getU K.AUTH_FAIL) 1 ∧
      t.mode = s.mode ∧ t.modeNext = s.modeNext ∧ t.twins = s.twins ∧ t.svc = s.svc ∧ t.getN K.FUSE_MAP = s.getN K.FUSE_MAP ∧
      t.getN K.TAMPER_MARKS = s.getN K.TAMPER_MARKS

/-- CAL_CMD in SERVICE (R158 to R162, R167, R170). BEGIN opens a run on a point that is not OFF while none runs; ZERO, GAIN and PHASE start a
measurement on an open run; DROP takes a slot out of the new set; COMMIT waits for its twin decision; ABORT ends the run. Each is answered OK at
once. Outside SERVICE and in COMMITTING all are answered WRONG_STATE, and in MEASURING all but ABORT. -/
def Obligations.CalibrationCommandsAct : Prop :=
  ∀ (s : State) (h : Requester), s.Ready h →
    (s.inService = false ∨ s.getN K.CAL_STATE = 3 ∨ s.getN K.CAL_STATE = 2 → ∀ (p : Fin 8) (q : Fin 4) (mask : Fin 128),
      exec (.calBegin h p q) s = .next (s.answered h opWrite 0x6800 0 .wrongState []) ∧
      exec (.calZero h mask) s = .next (s.answered h opWrite 0x6800 0 .wrongState []) ∧
      exec (.calGain h mask) s = .next (s.answered h opWrite 0x6800 0 .wrongState []) ∧
      exec (.calPhase h) s = .next (s.answered h opWrite 0x6800 0 .wrongState []) ∧
      exec (.calDrop h q) s = .next (s.answered h opWrite 0x6800 0 .wrongState []) ∧
      exec (.calCommit h) s = .next (s.answered h opWrite 0x6800 0 .wrongState []) ∧
      (s.inService = false ∨ s.getN K.CAL_STATE = 3 → exec (.calAbort h) s = .next (s.answered h opWrite 0x6800 0 .wrongState []))) ∧
    (s.inService = true → s.mode = .service →
      (∀ (p : Fin 8) (q : Fin 4), s.cal = none → s.getN K.CAL_STATE = 0 → kindOf s.points[p].app.cfg ≠ 0 →
        ∃ t, exec (.calBegin h p q) s = .next t ∧ Answered s t h opWrite 0x6800 0 .ok [] ∧ t.getN K.CAL_STATE = 1 ∧ t.getN K.CAL_POINT = p.val ∧
          t.getN K.CAL_SLOT = q.val ∧ t.getN K.CAL_DONE = 0 ∧ t.cal.isSome = true ∧
          { t with nums := s.nums, tab := s.tab, cal := s.cal, spi := s.spi, can := s.can } = s) ∧
      (∀ (r : CalRun) (mask : Fin 128), s.cal = some r → s.getN K.CAL_STATE = 1 →
        mask.val &&& ((maskOf allChans fun c => s.points[r.point].app.uses c) ^^^ 127) = 0 →
        (∃ t st, exec (.calZero h mask) s = .next t ∧ Answered s t h opWrite 0x6800 0 .ok [] ∧ t.getN K.CAL_STATE = 2 ∧
          t.cal = some { r with step := some st } ∧ st.op = 2 ∧ st.mask = mask.val ∧ st.blocks = [] ∧
          { t with nums := s.nums, tab := s.tab, cal := s.cal, spi := s.spi, can := s.can } = s) ∧
        (∃ t st, exec (.calGain h mask) s = .next t ∧ Answered s t h opWrite 0x6800 0 .ok [] ∧ t.getN K.CAL_STATE = 2 ∧
          t.cal = some { r with step := some st } ∧ st.op = 3 ∧ st.mask = mask.val ∧ st.blocks = [] ∧
          { t with nums := s.nums, tab := s.tab, cal := s.cal, spi := s.spi, can := s.can } = s)) ∧
      (∀ r : CalRun, s.cal = some r → s.getN K.CAL_STATE = 1 → isAc (kindOf s.points[r.point].app.cfg) = true →
        ∃ t st, exec (.calPhase h) s = .next t ∧ Answered s t h opWrite 0x6800 0 .ok [] ∧ t.getN K.CAL_STATE = 2 ∧
          t.cal = some { r with step := some st } ∧ st.op = 4 ∧ st.blocks = [] ∧
          { t with nums := s.nums, tab := s.tab, cal := s.cal, spi := s.spi, can := s.can } = s) ∧
      (∀ (r : CalRun) (q : Fin 4), s.cal = some r → s.getN K.CAL_STATE = 1 →
        exec (.calDrop h q) s = .next { s.answered h opWrite 0x6800 0 .ok [] with cal := some { r with valid := clearBit r.valid q } }) ∧
      (∀ r : CalRun, s.cal = some r → s.getN K.CAL_STATE = 1 → s.getN (K.SESSION_STATE r.point) = 0 → r.valid % 16 ≠ 0 → r.tainted = false →
        ∃ t, exec (.calCommit h) s = .next t ∧ Answered s t h opWrite 0x6800 0 .ok [] ∧ t.getN K.CAL_STATE = 3 ∧
          t.twins = s.twins ++ [.calCommit (s.twinChecks r).1 (s.twinChecks r).2] ∧
          { t with nums := s.nums, tab := s.tab, twins := s.twins, spi := s.spi, can := s.can } = s) ∧
      (∀ r : CalRun, s.cal = some r → s.getN K.CAL_STATE ≠ 3 → r.committed = false →
        ∃ t, exec (.calAbort h) s = .next t ∧ Answered s t h opWrite 0x6800 0 .ok [] ∧ t.getN K.CAL_STATE = 0 ∧ t.getN K.CAL_REASON = 18 ∧
          t.getN K.CAL_POINT = 0xFF ∧ t.getN K.CAL_SLOT = 0xFF ∧ t.cal = none ∧
          { t with nums := s.nums, tab := s.tab, cal := s.cal, journal := s.journal, twins := s.twins, spi := s.spi, can := s.can } = s))

/-- AUX_CAL_CMD in SERVICE (R198 to R200). BEGIN opens a run on an input, but not on one of the sealed configuration; ZERO and FULL start their steps,
FULL only after a ZERO; COMMIT queues the unit of the coefficients where they lie within their limits; ABORT ends the run. Outside SERVICE all are
answered WRONG_STATE. -/
def Obligations.AuxCalibrationCommandsAct : Prop :=
  ∀ (s : State) (h : Requester), s.Ready h →
    (s.inService = false → ∀ (input : Fin 32) (l : Fin 3),
      exec (.auxCalBegin h input l) s = .next (s.answered h opWrite 0x7060 0 .wrongState []) ∧
      exec (.auxCalZero h) s = .next (s.answered h opWrite 0x7060 0 .wrongState []) ∧
      exec (.auxCalFull h) s = .next (s.answered h opWrite 0x7060 0 .wrongState []) ∧
      exec (.auxCalCommit h) s = .next (s.answered h opWrite 0x7060 0 .wrongState []) ∧
      exec (.auxCalAbort h) s = .next (s.answered h opWrite 0x7060 0 .wrongState [])) ∧
    (s.inService = true → s.mode = .service →
      (∀ (input : Fin 32) (l : Fin 3), s.auxRun = none →
        (s.sealedInput input = true → ∃ t, exec (.auxCalBegin h input l) s = .next t ∧ Answered s t h opWrite 0x7060 0 .wrongState [] ∧
          t.getN K.AUX_CAL_REASON = 7 ∧ { t with nums := s.nums, tab := s.tab, spi := s.spi, can := s.can } = s) ∧
        (s.sealedInput input = false → ∃ t, exec (.auxCalBegin h input l) s = .next t ∧ Answered s t h opWrite 0x7060 0 .ok [] ∧
          t.getN K.AUX_CAL_STATE = 1 ∧ t.getN K.AUX_CAL_INPUT = input.val ∧ t.getN K.AUX_CAL_DONE = 0 ∧
          t.auxRun = some ⟨input, l, none, [], [], true, none, none, false⟩ ∧
          { t with nums := s.nums, tab := s.tab, auxRun := s.auxRun, spi := s.spi, can := s.can } = s)) ∧
      (∀ r : AuxRun, s.auxRun = some r → s.getN K.AUX_CAL_STATE = 1 → r.committing = false →
        (∃ t, exec (.auxCalZero h) s = .next t ∧ Answered s t h opWrite 0x7060 0 .ok [] ∧ t.getN K.AUX_CAL_STATE = 2 ∧
          t.auxRun = some { r with step := some (2, s.getN (K.AUX_CAL_LEVEL 1)), bursts := [], due := [], clean := true } ∧
          { t with nums := s.nums, tab := s.tab, auxRun := s.auxRun, spi := s.spi, can := s.can } = s) ∧
        (r.zero.isSome = true → ∃ t, exec (.auxCalFull h) s = .next t ∧ Answered s t h opWrite 0x7060 0 .ok [] ∧ t.getN K.AUX_CAL_STATE = 2 ∧
          t.auxRun = some { r with step := some (3, s.getN (K.AUX_CAL_LEVEL 2)), bursts := [], due := [], clean := true } ∧
          { t with nums := s.nums, tab := s.tab, auxRun := s.auxRun, spi := s.spi, can := s.can } = s) ∧
        (∀ g z : Int, s.auxCoefficients r = some (g, z) → 3774874 ≤ g → g ≤ 4613734 → z.natAbs ≤ 3277 →
          ∃ t, exec (.auxCalCommit h) s = .next t ∧ Answered s t h opWrite 0x7060 0 .ok [] ∧ t.auxRun = some { r with committing := true } ∧
            t.journal.waiting = s.journal.waiting ++ [⟨[⟨K.AUX_GAIN (r.input + 1), .num g⟩, ⟨K.AUX_ZERO (r.input + 1), .num z⟩,
              ⟨K.AUX_CAL_TIME (r.input + 1), .num (s.now : Nat)⟩], 18, .auxCal r.input⟩] ∧
            { t with auxRun := s.auxRun, journal := s.journal, spi := s.spi, can := s.can } = s)) ∧
      (∀ r : AuxRun, s.auxRun = some r → ∃ t, exec (.auxCalAbort h) s = .next t ∧ Answered s t h opWrite 0x7060 0 .ok [] ∧
        t.getN K.AUX_CAL_STATE = 0 ∧ t.getN K.AUX_CAL_REASON = 8 ∧ t.getN K.AUX_CAL_INPUT = 0xFF ∧ t.auxRun = none ∧
        { t with nums := s.nums, tab := s.tab, auxRun := s.auxRun, journal := s.journal, spi := s.spi, can := s.can } = s))

/-- INJECT of a couple that has none waiting or running is answered OK, and its injection is WAITING, or RUNNING where the lead converter takes it at
once; while one waits or runs it is answered WRONG_STATE (R197). `w` with its couple field replaced is the word written. -/
def Obligations.InjectionAccepted : Prop :=
  ∀ (s : State) (h : Requester) (l : Fin 3) (w : Nat), s.Ready h → w < 2 ^ 32 →
    (s.getN (K.INJ_STATE (l + 1)) = 1 ∨ s.getN (K.INJ_STATE (l + 1)) = 2 →
      exec (.inject h l w) s = .next (s.answered h opWrite 0x7040 0 .wrongState [])) ∧
    (s.getN (K.INJ_STATE (l + 1)) ≠ 1 → s.getN (K.INJ_STATE (l + 1)) ≠ 2 → inMask (w - 256 * field w 9 8 + 256 * l.val) 0x00FF731F = true →
      (s.foreseen []).injectOk (w - 256 * field w 9 8 + 256 * l.val) = true →
      ∃ t, exec (.inject h l w) s = .next t ∧ Answered s t h opWrite 0x7040 0 .ok [] ∧
        (t.getN (K.INJ_STATE (l + 1)) = 1 ∨ t.getN (K.INJ_STATE (l + 1)) = 2) ∧
        t.couples[l].injWord = injEntry (w - 256 * field w 9 8 + 256 * l.val) ∧
        { t with nums := s.nums, tab := s.tab, convs := s.convs, couples := s.couples, spi := s.spi, can := s.can } = s)

/-- SESSION_CMD (R266, R267, R270). OPEN is accepted where the point is IDLE, of kind AC or DC, in METERING or SERVICE, and the ring guard permits it;
while a plate commit runs on the point it is held. CLOSE of an OPEN session makes it CLOSING, CLOSE of one still OPENING cancels it, and in any other
state it is answered WRONG_STATE. -/
def Obligations.SessionCommandsAct : Prop :=
  ∀ (s : State) (h : Requester) (p : Fin 8), s.Ready h →
    (s.commitRuns p = false → s.openOk p = true →
      ∃ t, exec (.sessionOpen h p) s = .next t ∧ Answered s t h opWrite (0xC000 + 0x100 * p.val) 0 .ok [] ∧ t.getN (K.SESSION_STATE p) = 1 ∧
        t.sessions[p].desc = none ∧ t.sessions[p].closing = false ∧ t.sessions[p].held = s.sessions[p].held ∧
        (∀ k, k ≠ K.SESSION_STATE p → t.getN k = s.getN k) ∧ (∀ q : Fin 8, q ≠ p → t.sessions[q] = s.sessions[q]) ∧
        { t with nums := s.nums, tab := s.tab, sessions := s.sessions, spi := s.spi, can := s.can } = s) ∧
    (s.commitRuns p = false → s.openOk p = false →
      exec (.sessionOpen h p) s = .next (s.answered h opWrite (0xC000 + 0x100 * p.val) 0 .wrongState [])) ∧
    (s.commitRuns p = true → ∃ t, exec (.sessionOpen h p) s = .next t ∧ t.sessions[p].held = s.sessions[p].held ++ [h] ∧
        (t.link h.link).out = (s.link h.link).out ∧ { t with sessions := s.sessions, spi := s.spi, can := s.can } = s) ∧
    (s.getN (K.SESSION_STATE p) = 2 →
      ∃ t, exec (.sessionClose h p) s = .next t ∧ Answered s t h opWrite (0xC000 + 0x100 * p.val) 0 .ok [] ∧ t.getN (K.SESSION_STATE p) = 3 ∧
        t.sessions[p].closing = true ∧ (∀ k, k ≠ K.SESSION_STATE p → t.getN k = s.getN k) ∧
        (∀ q : Fin 8, q ≠ p → t.sessions[q] = s.sessions[q]) ∧
        { t with nums := s.nums, tab := s.tab, sessions := s.sessions, spi := s.spi, can := s.can } = s) ∧
    (s.getN (K.SESSION_STATE p) = 1 → s.sessions[p].closing = false → s.sessions[p].desc = none → s.points[p].closing = none →
      ∃ t, exec (.sessionClose h p) s = .next t ∧ Answered s t h opWrite (0xC000 + 0x100 * p.val) 0 .ok [] ∧ t.getN (K.SESSION_STATE p) = 0 ∧
        (∀ k, k ≠ K.SESSION_STATE p → t.getN k = s.getN k) ∧ (∀ q : Fin 8, q ≠ p → t.sessions[q] = s.sessions[q]) ∧
        { t with nums := s.nums, tab := s.tab, sessions := s.sessions, spi := s.spi, can := s.can } = s) ∧
    (s.getN (K.SESSION_STATE p) ≠ 1 → s.getN (K.SESSION_STATE p) ≠ 2 →
      exec (.sessionClose h p) s = .next (s.answered h opWrite (0xC000 + 0x100 * p.val) 0 .wrongState []))

/-- SERVICE_EXIT ends SERVICE, or ATTENDED in LOCKDOWN (R348, R352): with neither, or while SEALING is set, it is answered WRONG_STATE. A SERVICE that
ends is followed by METERING at the mode index. -/
def Obligations.ServiceExitEndsService : Prop :=
  ∀ (s : State) (h : Requester), s.Ready h →
    (s.serviceAccess = false ∨ s.sealing = true → exec (.serviceExit h) s = .next (s.answered h opWrite 0x1010 0 .wrongState [])) ∧
    (s.serviceAccess = true → s.sealing = false → ∃ t, exec (.serviceExit h) s = .next t ∧ Answered s t h opWrite 0x1010 0 .ok [] ∧
      t.serviceAccess = false ∧ t.mode = s.mode ∧
      (s.inService = true → t.modeNext = some .metering ∧ { t with modeNext := s.modeNext, spi := s.spi, can := s.can } = s) ∧
      (s.inService = false → t.attended = false ∧ t.modeNext = s.modeNext))

/-- TIME_STEP moves the clock from the next sample period on (R359): at most 1 s either way, or 2⁴⁶ ns in SERVICE or while the clock is not valid;
a step beyond that is answered INVALID_VALUE, and one on a MEMBER that follows its parent's time WRONG_STATE. -/
def Obligations.TimeStepIsTaken : Prop :=
  ∀ (s : State) (h : Requester) (v : Int), s.Ready h → -(2 ^ 63) ≤ v → v < 2 ^ 63 →
    (s.timeLocked = true → exec (.timeStep h v) s = .next (s.answered h opWrite 0x1031 0 .wrongState [])) ∧
    (s.timeLocked = false → v.natAbs ≤ (if s.mode = .service ∨ s.getN K.RTC_VALID = 0 then 2 ^ 46 else 1000000000) →
      ∃ t, exec (.timeStep h v) s = .next t ∧ Answered s t h opWrite 0x1031 0 .ok [] ∧ t.timeStepNext = s.timeStepNext + v ∧
        t.getN K.TIME_STEP_LAST = v ∧ t.getU K.TIME_STEP_COUNT = min (2 ^ 32 - 1) (s.getU K.TIME_STEP_COUNT + 1) ∧ t.getN K.RTC_VALID = 1 ∧
        (∀ k, k ≠ K.TIME_STEP_LAST → k ≠ K.TIME_STEP_COUNT → k ≠ K.RTC_VALID → t.getN k = s.getN k) ∧
        { t with nums := s.nums, tab := s.tab, timeStepNext := s.timeStepNext, spi := s.spi, can := s.can } = s) ∧
    (s.timeLocked = false → (if s.mode = .service ∨ s.getN K.RTC_VALID = 0 then 2 ^ 46 else 1000000000) < v.natAbs →
      exec (.timeStep h v) s = .next (s.answered h opWrite 0x1031 0 .invalidValue []))

/-- LANE_CMD (R441). Outside SERVICE it is answered WRONG_STATE. SUBSTITUTE of a lane in service, with L4 idle and no shadowing under way, declares it worn:
L4 shadows it, or has taken its logical lane over already where nothing has to warm. RESTORE of a retired lane, with L4 carrying a logical lane and no
other substitution or retest under way, starts its retest. -/
def Obligations.LaneCommandsAct : Prop :=
  ∀ (s : State) (h : Requester) (l : Fin 4), s.Ready h →
    (s.inService = false →
      exec (.substitute h l) s = .next (s.answered h opWrite 0xE060 0 .wrongState []) ∧
      exec (.restore h l) s = .next (s.answered h opWrite 0xE060 0 .wrongState [])) ∧
    (s.inService = true →
      (s.lanes[l.castSucc].state = .inService → s.lanes[(4 : Fin 5)].state = .idle → s.laneSub = none →
        ∃ t, exec (.substitute h l) s = .next t ∧ Answered s t h opWrite 0xE060 0 .ok [] ∧
          (t.lanes[l.castSucc].state = .worn ∨ t.lanes[l.castSucc].state = .retired) ∧
          (t.lanes[(4 : Fin 5)].state = .shadowing ∨ t.lanes[(4 : Fin 5)].state = .inService) ∧
          (∀ j : Fin 5, j ≠ l.castSucc → j ≠ 4 → t.lanes[j] = s.lanes[j]) ∧
          (s.servedBy l.castSucc = [] → t.lanes[l.castSucc].state = .retired ∧ t.lanes[(4 : Fin 5)].state = .inService ∧
            t.lanes[(4 : Fin 5)].logical = s.lanes[l.castSucc].logical ∧ t.laneSub = none)) ∧
      (s.lanes[l.castSucc].state ≠ .inService ∨ s.lanes[(4 : Fin 5)].state ≠ .idle ∨ s.laneSub ≠ none →
        exec (.substitute h l) s = .next (s.answered h opWrite 0xE060 0 .wrongState [])) ∧
      (s.lanes[l.castSucc].state = .retired → s.lanes[(4 : Fin 5)].logical ≠ none → s.laneSub = none → s.svc.retest = none →
        ∃ t, exec (.restore h l) s = .next t ∧ Answered s t h opWrite 0xE060 0 .ok [] ∧
          t.lanes[l.castSucc] = { s.lanes[l.castSucc] with state := .testing } ∧ t.svc = { s.svc with retest := some l.castSucc } ∧
          (∀ j : Fin 5, j ≠ l.castSucc → t.lanes[j] = s.lanes[j]) ∧
          { t with lanes := s.lanes, svc := s.svc, spi := s.spi, can := s.can } = s))

/-- A string written to a scratch page or group (R236, R237, R240): 1 to 4,096 bytes from the page's start on, or the 8 bytes of one group, are stored as
written, and every other byte keeps its value; a group that cannot be written answers MEMORY_ERROR. While the writing of the array is inhibited (R230)
nothing is written and nothing answered. -/
def Obligations.ScratchWritesStore : Prop :=
  ∀ (s : State) (h : Requester) (page : Fin 256), s.Ready h →
    (s.nvm.writeInhibit = false →
      (∀ data : List Byte, 1 ≤ data.length → data.length ≤ 4096 → 256 * page.val + data.length ≤ 65536 →
        (s.rangeBad (State.scratchAddr page 0) data.length = false →
          ∃ t, exec (.scratchPage h page data none) s = .next t ∧ Answered s t h opWrite (0xF000 + page.val) 0 .ok [] ∧
            (s.MemoryOk → ∀ i, i < data.length → Memory.read t.scratch (State.scratchAddr page i) = data[i]?.getD 0) ∧
            (∀ a, a < State.scratchAddr page 0 ∨ State.scratchAddr page data.length ≤ a → Memory.read t.scratch a = Memory.read s.scratch a) ∧
            { t.nvm with writtenSince := s.nvm.writtenSince } = s.nvm ∧ { t with scratch := s.scratch, nvm := s.nvm, spi := s.spi, can := s.can } = s) ∧
        (∀ g, s.rangeBad (State.scratchAddr page 0) data.length = false →
          ∃ t, exec (.scratchPage h page data (some g)) s = .next t ∧ (t.link h.link).out = (s.link h.link).out ∧
            (s.MemoryOk → ∀ i, i < data.length → i < 8 * g → Memory.read t.scratch (State.scratchAddr page i) = data[i]?.getD 0) ∧
            (∀ a, a < State.scratchAddr page 0 ∨ State.scratchAddr page (min data.length (8 * g)) ≤ a →
              Memory.read t.scratch a = Memory.read s.scratch a) ∧
            { t.nvm with writtenSince := s.nvm.writtenSince } = s.nvm ∧ { t with scratch := s.scratch, nvm := s.nvm, spi := s.spi, can := s.can } = s) ∧
        (∀ cut, s.rangeBad (State.scratchAddr page 0) data.length = true →
          exec (.scratchPage h page data cut) s = .next (s.answered h opWrite (0xF000 + page.val) 0 .memoryError []))) ∧
      (∀ (g : Fin 32) (v : Nat),
        (s.rangeBad (State.scratchAddr page (8 * g.val)) 8 = false →
          ∃ t, exec (.scratchGroup h page g v) s = .next t ∧ Answered s t h opWrite (0xF000 + page.val) (g.val + 1) .ok [] ∧
            (s.MemoryOk → ∀ i, i < 8 → Memory.read t.scratch (State.scratchAddr page (8 * g.val + i)) = (leBytes 8 v)[i]?.getD 0) ∧
            (∀ a, a < State.scratchAddr page (8 * g.val) ∨ State.scratchAddr page (8 * g.val + 8) ≤ a → Memory.read t.scratch a = Memory.read s.scratch a) ∧
            { t.nvm with writtenSince := s.nvm.writtenSince } = s.nvm ∧ { t with scratch := s.scratch, nvm := s.nvm, spi := s.spi, can := s.can } = s) ∧
        (s.rangeBad (State.scratchAddr page (8 * g.val)) 8 = true →
          exec (.scratchGroup h page g v) s = .next (s.answered h opWrite (0xF000 + page.val) (g.val + 1) .memoryError [])))) ∧
    (s.nvm.writeInhibit = true →
      (∀ data : List Byte, 1 ≤ data.length → data.length ≤ 4096 → 256 * page.val + data.length ≤ 65536 → ∀ cut,
        ∃ t, exec (.scratchPage h page data cut) s = .next t ∧ (t.link h.link).out = (s.link h.link).out ∧ { t with spi := s.spi, can := s.can } = s) ∧
      ∀ (g : Fin 32) (v : Nat),
        ∃ t, exec (.scratchGroup h page g v) s = .next t ∧ (t.link h.link).out = (s.link h.link).out ∧ { t with spi := s.spi, can := s.can } = s) ∧
    (∀ data : List Byte, data = [] ∨ 4096 < data.length → ∀ cut,
      exec (.scratchPage h page data cut) s = .next (s.answered h opWrite (0xF000 + page.val) 0 .length [])) ∧
    (∀ data : List Byte, 1 ≤ data.length → data.length ≤ 4096 → 65536 < 256 * page.val + data.length → ∀ cut,
      exec (.scratchPage h page data cut) s = .next (s.answered h opWrite (0xF000 + page.val) 0 .invalidValue []))

/-- SITE_CMD on the root (R421, R423). OPEN, where no site tableau is open, opens one with the next site ID for an instant SITE_LEAD ms ahead; CLOSE closes it.
In every other case both are answered WRONG_STATE. -/
def Obligations.SiteCommandsAct : Prop :=
  ∀ (s : State) (h : Requester), s.Ready h →
    (s.isRoot = true → s.thb.site = none → ∃ u : State, exec (.siteOpen h) s = .next (u.reply h opWrite 0xB030 0 .ok []).runHeld ∧
      (∃ id : Nat, (if s.getU K.SITE_ID < 0x8001 ∨ s.getU K.SITE_ID = 0xFFFF then id = 0x8001 else id = s.getU K.SITE_ID + 1) ∧
        u.thb.site = some ⟨id, s.freezeIdx (s.getU K.SITE_LEAD * 1000000), s.getU K.SITE_LIMIT, none, false⟩ ∧ u.getN K.SITE_ID = (id : Nat) ∧
        ∃ t : Tableau, u.tab = some t ∧ t.id = id ∧ t.freeze = s.freezeIdx (s.getU K.SITE_LEAD * 1000000) ∧ t.site = true ∧ t.complete = false) ∧
      u.getN K.SITE_F = (s.freezeIdx (s.getU K.SITE_LEAD * 1000000) : Nat) ∧ u.getN K.SITE_STATE = 1 ∧ u.getN K.SITE_FROZEN = 0 ∧
      u.getN K.SITE_UNLOCKED = 0 ∧ u.getN K.SITE_MISSED = 0) ∧
    (s.isRoot = false ∨ s.thb.site ≠ none → exec (.siteOpen h) s = .next (s.answered h opWrite 0xB030 0 .wrongState []).runHeld) ∧
    (s.isRoot = true → s.thb.site ≠ none → ∃ u : State, exec (.siteClose h) s = .next (u.reply h opWrite 0xB030 0 .ok []).runHeld ∧
      u.thb.site = none ∧ u.getN K.SITE_STATE = 0 ∧ (∀ t, u.tab = some t → t.site = false)) ∧
    (s.isRoot = false ∨ s.thb.site = none → exec (.siteClose h) s = .next (s.answered h opWrite 0xB030 0 .wrongState []).runHeld)

/-- Power good and RECALL's start (R343, R365, Table 12.7). POWER_GOOD starts the oscillator of a DORMANT device; RECALL begins after it, with the address
straps and the factory-test strap read and no fuse cleared. Out of its turn neither changes anything. -/
def Obligations.RecallBegins : Prop :=
  ∀ (s : State) (time : Nat),
    (s.mode = .dormant → ∃ t, exec (.powerGood time) s = .next t ∧ t.rtc = max s.rtc time ∧ t.startup.steps = setBit s.startup.steps 1 ∧
      { t with rtc := s.rtc, startup := { t.startup with steps := s.startup.steps } } = s) ∧
    (s.mode ≠ .dormant → exec (.powerGood time) s = .next s) ∧
    ∀ (addr : Fin 8) (ftm : Bool) (map again : Nat) (stat : StatuteObs),
      (s.mode = .dormant → bit s.startup.steps 1 = true → ∃ t, exec (.recallBegin time addr ftm map again stat) s = .next t ∧
        t.mode = .recalling ∧ t.attended = false ∧ t.svc.addr = addr.val ∧ t.svc.ftm = ftm ∧ t.startup.started = max s.rtc time ∧
        t.startup.steps = 26 ∧ t.nvm.writeInhibit = false ∧ t.spi = s.spi ∧ t.can = s.can) ∧
      (s.mode ≠ .dormant ∨ bit s.startup.steps 1 = false → exec (.recallBegin time addr ftm map again stat) s = .next s)

/-- RECALL's steps (Table 12.7, R261, R365, R439): each is marked complete when it is reached in its turn, and a known-answer test that fails leaves
step 10 open. The device stays in RECALL; with step 5 the Thiber ports begin to train. -/
def Obligations.RecallStepsComplete : Prop :=
  ∀ s : State,
    (∀ (time : Nat) (fault : Option Nat), s.mode = .recalling → bit s.startup.steps 4 = true → bit s.startup.steps 5 = false →
      ∃ u : State, exec (.privilegedResolved time fault) s = .next u.thbRecall ∧ u.mode = .recalling ∧ bit u.startup.steps 5 = true ∧
        bit u.startup.steps 6 = true ∧ bit u.startup.steps 7 = true) ∧
    (∀ (time : Nat) (fault : Option Nat), s.mode ≠ .recalling ∨ bit s.startup.steps 4 = false ∨ bit s.startup.steps 5 = true →
      exec (.privilegedResolved time fault) s = .next s) ∧
    (s.mode = .recalling → bit s.startup.steps 7 = true → bit s.startup.steps 11 = false →
      ∃ t, exec .ordinaryResolved s = .next t ∧ t.mode = .recalling ∧ bit t.startup.steps 11 = true) ∧
    (s.mode ≠ .recalling ∨ bit s.startup.steps 7 = false ∨ bit s.startup.steps 11 = true → exec .ordinaryResolved s = .next s) ∧
    (∀ retests : List Retest, s.mode = .recalling → bit s.startup.steps 5 = true → bit s.startup.steps 10 = false →
      (∃ t, exec (.selfTestsDone retests none) s = .next t ∧ t.mode = .recalling ∧ bit t.startup.steps 10 = true) ∧
      (∀ k, ∃ t, exec (.selfTestsDone retests (some k)) s = .next t ∧ t.mode = .recalling ∧ t.svc.katBad = true)) ∧
    (∀ (retests : List Retest) (kat : Option Nat), s.mode ≠ .recalling ∨ bit s.startup.steps 5 = false ∨ bit s.startup.steps 10 = true →
      exec (.selfTestsDone retests kat) s = .next s)

/-- RECALL ends (R345, R365, R367): with steps 3 to 11 complete in LOCKDOWN where that is decided, else in METERING; after 50 ms in LOCKDOWN, as an
integrity fault. -/
def Obligations.RecallEnds : Prop :=
  ∀ s : State, s.mode = .recalling →
    (State.recallSteps.all (fun i => bit s.startup.steps i) = true → ∃ u : State, exec .recallEnd s = .next u.censusCheck ∧
      u.mode = (if s.decided = .lockdown then .lockdown else .metering) ∧ u.modeNext = none ∧ u.censusCheck.mode = u.mode) ∧
    (State.recallSteps.all (fun i => bit s.startup.steps i) = false → exec .recallEnd s = .next s) ∧
    (∃ u : State, exec .recallTimeout s = .next u.censusCheck ∧ u.mode = .lockdown ∧ u.modeNext = none ∧ u.censusCheck.mode = u.mode)

/-- Power-fail detection (R343, R361): a device that has written its recall checkpoint, or serves, goes to HOLDUP and begins the save, sections S0 to S3 of
Table 08.6; a RECALL before its checkpoint ends in DORMANT. -/
def Obligations.PowerFailEntersHoldup : Prop :=
  ∀ (s : State) (time clampNs : Nat),
    (s.serves = true ∨ s.mode = .recalling ∧ s.startup.ckptWritten = true → ∃ t, exec (.powerFailDetect time clampNs) s = .next t ∧
      t.mode = .holdup ∧ t.twins = [] ∧ t.stream = Stream.init ∧ t.store.writing = none ∧
      t.store.saves[t.saveSlot].sections = 15) ∧
    (s.mode = .recalling → s.startup.ckptWritten = false → ∃ t, exec (.powerFailDetect time clampNs) s = .next t ∧ t.mode = .dormant) ∧
    (s.mode = .dormant ∨ s.mode = .holdup → exec (.powerFailDetect time clampNs) s = .next s)

/-- The hold-up save (R146, R230, R257, R343): the forced step adds the tail, sections S4 and S5; the end of the save, or the supply's write-inhibit level,
leaves the device DORMANT with nothing volatile. -/
def Obligations.HoldupEndsDormant : Prop :=
  ∀ s : State,
    (s.mode = .holdup → bit s.store.saves[s.saveSlot].sections 1 = true → bit s.store.saves[s.saveSlot].sections 4 = false →
      ∃ t, exec .forcedStep s = .next t ∧ t.mode = .holdup ∧ bit t.store.saves[t.saveSlot].sections 4 = true ∧
        bit t.store.saves[t.saveSlot].sections 5 = true ∧ t.store.saves[t.saveSlot].tail.isSome = true) ∧
    (s.mode = .holdup → bit s.store.saves[s.saveSlot].sections 4 = true →
      ∃ t, exec .holdupSaveComplete s = .next t ∧ t.mode = .dormant ∧ t.tab = none ∧ t.evq = [] ∧ t.cal.all (·.committed) = true ∧ t.startup = RecallSt.init ∧
        t.spi = LinkSt.init ∧ t.can = LinkSt.init) ∧
    (s.mode = .holdup → bit s.store.saves[s.saveSlot].sections 4 = false → exec .holdupSaveComplete s = .next s) ∧
    (∀ items groups : Nat, s.mode = .holdup → ∃ t, exec (.writeInhibit items groups) s = .next t ∧ t.mode = .dormant ∧ t.tab = none ∧ t.evq = [] ∧
      t.startup = RecallSt.init ∧ t.spi = LinkSt.init ∧ t.can = LinkSt.init) ∧
    (∀ items groups : Nat, s.mode ≠ .holdup → ∃ t, exec (.writeInhibit items groups) s = .next t ∧ t.nvm.writeInhibit = true ∧
      { t with nvm := { t.nvm with writeInhibit := s.nvm.writeInhibit } } = s)

/-- Checkpoints (R145, R255, R256). One becomes due only while the device serves, no plate commit is written and none is being written already: its slot is
invalid from then on. When it is written its slot is valid, and CKPT_SEQ and STATE_SEQ have moved; while writing is inhibited (R230) none is. -/
def Obligations.CheckpointsAlternate : Prop :=
  ∀ s : State,
    (s.serves = true → s.store.writing = none → s.platesWriting = false → ∃ t, exec .checkpointDue s = .next t ∧
      t.store.writing.isSome = true ∧ t.store.nextDue = s.rtc + s.getU K.CKPT_INTERVAL * 1000000 ∧
      (∀ i : Fin 2, i.val = s.getU K.CKPT_SEQ % 2 → t.store.slots[i].valid = false) ∧
      (∀ i : Fin 2, i.val ≠ s.getU K.CKPT_SEQ % 2 → t.store.slots[i] = s.store.slots[i]) ∧ { t with store := s.store } = s) ∧
    (s.serves = false ∨ s.store.writing.isSome = true ∨ s.platesWriting = true → exec .checkpointDue s = .next s) ∧
    (∀ c : CkptSlot, s.store.writing = some c → s.svc.sealHistory = false → s.nvm.writeInhibit = false → ∃ t, exec .checkpointWritten s = .next t ∧ t.store.writing = none ∧
      (∀ i : Fin 2, i.val = c.seq % 2 → t.store.slots[i] = c) ∧ (∀ i : Fin 2, i.val ≠ c.seq % 2 → t.store.slots[i] = s.store.slots[i]) ∧
      t.getN K.CKPT_SEQ = (wrapAdd 32 c.seq 1 : Nat) ∧ t.getN K.STATE_SEQ = (c.stateSeq : Nat)) ∧
    (s.store.writing = none ∨ s.svc.sealHistory = false ∧ s.nvm.writeInhibit = true → exec .checkpointWritten s = .next s)

/-- NETTING_STEP (R122 to R126, R143): the step that waits at a boundary is booked and waits no more. Net active energy goes into the import or the
export register, apparent and reactive energy into the registers that the signs choose, on a DC point the compensated energy too: each adds to its
register with carry from its 32-bit residue. A step whose last sample was taken in LOCKDOWN goes into the disputed set. Every other register of either
set, on every point, keeps its value. OFF_POINT_APPLY applies what waits on a point of kind OFF at an index divisible by 80, and books nothing (R89). -/
def Obligations.StepsBookEnergy : Prop :=
  ∀ (s : State) (p : Fin 8),
    (s.points[p].closing = none → exec (.nettingStep p) s = .next s) ∧
    (∀ cl, s.points[p].closing = some cl → ∃ t, exec (.nettingStep p) s = .next t ∧ t.points[p].closing = none ∧
      { t with
        nums := s.nums, lanes := s.lanes, laneSub := s.laneSub, ports := s.ports, spares := s.spares, mclk := s.mclk
        points := s.points, pulses := s.pulses, evq := s.evq, evOver := s.evOver, jobs := s.jobs, logs := s.logs, merges := s.merges
        journal := s.journal, spi := s.spi, can := s.can, tab := s.tab, cal := s.cal, plateUse := s.plateUse, sessions := s.sessions } = s ∧
      (cl.isStep = false → ∀ (q : Fin 8) (reg : Fin 10), t.getN (K.ENERGY q (reg + 1)) = s.getN (K.ENERGY q (reg + 1)) ∧
        t.getN (K.DISPUTED q (reg + 1)) = s.getN (K.DISPUTED q (reg + 1))) ∧
      (cl.isStep = true → ∀ (kind : Nat) (qt comp : Int) (dests : List (Nat × Nat)), kind = kindOf s.points[p].app.cfg → qt = State.closingQ cl kind →
        comp = cl.sums.f - roundUp (cl.sums.phases[(0 : Fin 3)].si * cl.kl : Nat) (2 ^ 64) →
        dests = [(if 0 ≤ cl.sums.f then 1 else 2, cl.sums.f.natAbs),
            (if 0 ≤ cl.sums.f then 7 else 8, State.stepS (phaseList kind) cl),
            (if 0 ≤ cl.sums.f then (if 0 ≤ qt then 3 else 6) else (if 0 ≤ qt then 4 else 5), qt.natAbs)] ++
          (if kind = 4 then [(if 0 ≤ comp ∨ 0 ≤ cl.sums.f then 9 else 10, if 0 ≤ cl.sums.f ∧ comp < 0 then 0 else comp.natAbs)] else []) →
        (∀ d ∈ dests, s.modeAt cl.sums.lastIdx ≠ .lockdown →
          t.getN (K.ENERGY p d.1) = ((s.getU (K.ENERGY p d.1) + (s.getU (K.RESIDUE p d.1) + d.2) / 2 ^ 32) % 2 ^ 64 : Nat) ∧
          t.getN (K.RESIDUE p d.1) = ((s.getU (K.RESIDUE p d.1) + d.2) % 2 ^ 32 : Nat)) ∧
        (∀ d ∈ dests, s.modeAt cl.sums.lastIdx = .lockdown →
          t.getN (K.DISPUTED p d.1) = ((s.getU (K.DISPUTED p d.1) + (s.getU (K.DISPUTED_RESIDUE p d.1) + d.2) / 2 ^ 32) % 2 ^ 64 : Nat) ∧
          t.getN (K.DISPUTED_RESIDUE p d.1) = ((s.getU (K.DISPUTED_RESIDUE p d.1) + d.2) % 2 ^ 32 : Nat)) ∧
        (∀ (q : Fin 8) (reg : Fin 10), (q ≠ p ∨ (∀ d ∈ dests, d.1 ≠ reg.val + 1) ∨ s.modeAt cl.sums.lastIdx = .lockdown) →
          t.getN (K.ENERGY q (reg + 1)) = s.getN (K.ENERGY q (reg + 1))) ∧
        (∀ (q : Fin 8) (reg : Fin 10), (q ≠ p ∨ (∀ d ∈ dests, d.1 ≠ reg.val + 1) ∨ s.modeAt cl.sums.lastIdx ≠ .lockdown) →
          t.getN (K.DISPUTED q (reg + 1)) = s.getN (K.DISPUTED q (reg + 1))) ∧
        t.getN (K.NET_INDEX p) = cl.bound.idx ∧ t.getN (K.LAST_NET p) = cl.sums.f ∧
        t.getN (K.STEP_COUNT p) = (wrapAdd 32 (s.getU (K.STEP_COUNT p)) 1 : Nat))) ∧
    (kindOf s.points[p].app.cfg ≠ 0 ∨ s.index % 80 ≠ 0 ∨ s.clocksOn = false → exec (.offPointApply p) s = .next s) ∧
    (kindOf s.points[p].app.cfg = 0 → s.index % 80 = 0 → s.clocksOn = true → ∃ t, exec (.offPointApply p) s = .next t ∧
      (∀ (q : Fin 8) (reg : Fin 10), t.getN (K.ENERGY q (reg + 1)) = s.getN (K.ENERGY q (reg + 1)) ∧
        t.getN (K.DISPUTED q (reg + 1)) = s.getN (K.DISPUTED q (reg + 1))) ∧
      { t with
        nums := s.nums, lanes := s.lanes, laneSub := s.laneSub, ports := s.ports, mclk := s.mclk, points := s.points
        pulses := s.pulses, evq := s.evq, evOver := s.evOver, jobs := s.jobs, logs := s.logs, merges := s.merges, journal := s.journal, spi := s.spi, can := s.can
        tab := s.tab, cal := s.cal, plateUse := s.plateUse, sessions := s.sessions } = s)

/-- LANE_CHECK_VECTOR (R27, R37, R38): it counts the corrections of the lane, and an operation of a serving lane that cannot be corrected is an integrity
fault. SHADOW_WARM (R39): after 64 shadowed samples of a point the shadowing lane is warm for it. LATENCY_INTERVAL (R33, R38): the 1 s figures of every lane
and bank are published and begin anew. BLOCK_END (R62, R63, R66, R68): a block of an observed port in normal mode gives its EYE entry; a density of at most
51 or at least 973 ones sets DENSITY; in link fault the fourth clean whole block ends the fault. LINK_CHECK_FAIL (R66, R67): a failed check sets its flag, a
returned clock's on every port of its group, and the channel of a home port without a paired understudy is in link fault from the next period. While the
sample clock stands none of them acts but SHADOW_WARM and LATENCY_INTERVAL. -/
def Obligations.LanesAndPortsAreChecked : Prop :=
  ∀ s : State,
    (∀ (l : Fin 5) (ds : List Nat) (u : Bool), (s.clocksOn = false → exec (.laneCheckVector l ds u) s = .next s) ∧
      (s.clocksOn = true → ∃ t, exec (.laneCheckVector l ds u) s = .next t ∧
        (ds = [] → u = false → t = s) ∧
        (∀ d, ds = [d] → u = false → t.getN (K.LANE_CORRECTED (l + 1)) = (if d = 0 then s.getN (K.LANE_CORRECTED (l + 1))
          else (satAdd 32 (s.getU (K.LANE_CORRECTED (l + 1))) 1 : Nat))) ∧
        (ds = [] → u = true → s.lanes[l].state = .inService ∨ s.lanes[l].state = .worn → t.integrityFlag = true ∧ t.decided = .lockdown ∧
          t.getN K.INTEGRITY_CAUSE = (2 * 2 ^ 24 + (l * 256 + (match s.servedBy l with | q :: _ => q.val | [] => 0xFF)) : Nat) ∧
          t.getN K.INTEGRITY_INDEX = (s.index : Nat)) ∧
        { t with
          nums := s.nums, attended := s.attended, modeNext := s.modeNext, lockLatch := s.lockLatch, integrityFlag := s.integrityFlag
          lanes := s.lanes, laneSub := s.laneSub, points := s.points, jobs := s.jobs, logs := s.logs, merges := s.merges
          journal := s.journal, tab := s.tab } = s)) ∧
    (∀ p : Fin 8, (∀ sub, s.laneSub = some sub → p ∈ sub.points → 64 ≤ s.points[p].shadowed →
        exec (.shadowWarm p) s = .next { s with points := s.points.set p { s.points[p] with warm := true } }) ∧
      ((∀ sub, s.laneSub = some sub → p ∈ sub.points → s.points[p].shadowed < 64) → exec (.shadowWarm p) s = .next s)) ∧
    (∃ t, exec .latencyInterval s = .next t ∧
      (∀ l : Fin 5, t.getN (K.LAT_WORST_1S (l + 1)) = (s.lanes[l].worst1s : Nat) ∧ t.lanes[l] = { s.lanes[l] with
        worst1s := 0, corrected1s := 0, latHighLast := s.lanes[l].latHigh, latHigh := false } ∧
        t.banks[l] = { s.banks[l] with corrected1s := 0 }) ∧
      { t with nums := s.nums, lanes := s.lanes, banks := s.banks } = s) ∧
    (∀ obs : List BlockObs, (s.clocksOn = false → exec (.blockEnd obs) s = .next s) ∧
      (s.clocksOn = true → ∃ t, exec (.blockEnd obs) s = .next t ∧ t.blockNo = s.blockNo + 1 ∧
        (obs = [] → t = { s with blockNo := s.blockNo + 1 }) ∧
        (∀ (o : BlockObs) (p : Fin 8) (c : Fin 7), obs = [o] → o.port = homePort p c → s.physPort p c = o.port → s.points[p].app.uses c = true →
          s.mclk[s.clockGroup o.port] = true → s.clkReturn (groupOf o.port) = false → (∀ cond, s.linkString o.port cond = false) →
          t.getN (K.EYE p (c + 1)) = ((8 - popCount 8 o.transitions) * 256 + eyeCentre o.transitions * 16 + s.capturePhase o.port : Nat) ∧
          (o.ones ≤ 51 ∨ 973 ≤ o.ones → bit (t.getU (K.PORT_STATUS p (c + 1))) 2 = true) ∧
          (51 < o.ones → o.ones < 973 → s.ports[o.port].partBlock = false → s.ports[o.port].failedInBlock = false → s.ports[o.port].phase = .fault →
            t.ports[o.port].phase = (if s.ports[o.port].clean + 1 < 4 then .fault else .good) ∧
            t.ports[o.port].clean = (if s.ports[o.port].clean + 1 < 4 then s.ports[o.port].clean + 1 else 0))) ∧
        { t with
          nums := s.nums, ports := s.ports, spares := s.spares, blockNo := s.blockNo, portNoSpare := s.portNoSpare, learned := s.learned
          points := s.points, jobs := s.jobs, logs := s.logs, merges := s.merges, journal := s.journal, tab := s.tab, tamper := s.tamper } = s)) ∧
    (∀ (m : Fin 60) (k : LinkCheck), (s.clocksOn = false → exec (.linkCheckFail m k) s = .next s) ∧
      (k = .stuck → s.portUsed m = false → exec (.linkCheckFail m k) s = .next s) ∧
      (k ≠ .stuck → s.clkReturn (groupOf m) = false → exec (.linkCheckFail m k) s = .next s) ∧
      (∀ (p : Fin 8) (c : Fin 7), s.clocksOn = true → k = .stuck → m = homePort p c → s.physPort p c = m → s.points[p].app.uses c = true →
        ∃ t, exec (.linkCheckFail m k) s = .next t ∧
          t.getN (K.PORT_STATUS p (c + 1)) = (s.getU (K.PORT_STATUS p (c + 1)) ||| 2 : Nat) ∧
          (s.ports[m].phase = .good → s.spareOf m = none → t.ports[m].faultPending = true ∧ t.portNoSpare = true) ∧
          { t with
            nums := s.nums, ports := s.ports, spares := s.spares, portNoSpare := s.portNoSpare, points := s.points, jobs := s.jobs
            logs := s.logs, merges := s.merges, journal := s.journal, tab := s.tab, tamper := s.tamper } = s) ∧
      (s.clocksOn = true → k ≠ .stuck → s.clkReturn (groupOf m) = true → ∃ t, exec (.linkCheckFail m k) s = .next t ∧
        (∀ (p : Fin 8) (c : Fin 7), groupOf (homePort p c) = groupOf m → s.physPort p c = homePort p c → s.points[p].app.uses c = true →
          bit (t.getU (K.PORT_STATUS p (c + 1))) 3 = true) ∧
        { t with
            nums := s.nums, ports := s.ports, spares := s.spares, portNoSpare := s.portNoSpare, points := s.points, jobs := s.jobs
            logs := s.logs, merges := s.merges, journal := s.journal, tab := s.tab, tamper := s.tamper } = s))

/-- Pulse outputs (R139, R140): a queued pulse rises on an idle output, or after the gap, to the active level; when its width is over it falls, and with
another pulse due the gap begins. DEMAND_INTERVAL_END (R132 to R134): where the instant of the running index is
the first in another aligned interval, that interval begins at this index; a point of kind OFF that has no ended
interval left to close closes the one that ends now, and its amounts begin at 0; every other point waits for its first step of the new interval. -/
def Obligations.PulsesAndDemandRun : Prop :=
  ∀ s : State,
    (∀ m : Fin 8,
      (∀ c : Instr, (c = .pulseRise m ∧ s.pulses[m].phase = .idle ∧ s.serves = true) ∨ (c = .pulseGapEnd m ∧ s.pulses[m].phase = .gap) →
        ∃ t, exec c s = .next t ∧
          (s.getU (K.PULSE_BACKLOG (m + 1)) = 0 → t.pulses[m] = { s.pulses[m] with phase := .idle } ∧ t.nums = s.nums) ∧
          (s.getU (K.PULSE_BACKLOG (m + 1)) ≠ 0 →
            t.pulses[m] = { s.pulses[m] with phase := .high, level := !s.pulses[m].activeLow, since := s.rtc } ∧
            t.getN (K.PULSE_BACKLOG (m + 1)) = (s.getU (K.PULSE_BACKLOG (m + 1)) - 1 : Nat) ∧
            (∀ k, k ≠ K.PULSE_BACKLOG (m + 1) → t.getN k = s.getN k)) ∧
          (∀ j : Fin 8, j ≠ m → t.pulses[j] = s.pulses[j]) ∧ { t with nums := s.nums, pulses := s.pulses, tab := s.tab } = s) ∧
      (s.pulses[m].phase ≠ .idle ∨ s.serves = false → exec (.pulseRise m) s = .next s) ∧
      (s.pulses[m].phase ≠ .gap → exec (.pulseGapEnd m) s = .next s) ∧
      (s.pulses[m].phase = .high → ∃ t, exec (.pulseFall m) s = .next t ∧
        t.pulses[m] = { s.pulses[m] with
          phase := if s.getU (K.PULSE_BACKLOG (m + 1)) = 0 then .idle else .gap, level := bit s.pulses[m].cfg 0, activeLow := bit s.pulses[m].cfg 0
          since := s.rtc } ∧
        (∀ j : Fin 8, j ≠ m → t.pulses[j] = s.pulses[j]) ∧ { t with pulses := s.pulses } = s) ∧
      (s.pulses[m].phase ≠ .high → exec (.pulseFall m) s = .next s)) ∧
    (¬ (s.clocksOn = true ∧ s.mode ≠ .holdup ∧ s.demandSlot (s.instant s.index) ≠ s.demandSlot (s.instant (s.index - 1))) → exec .demandIntervalEnd s = .next s) ∧
    (s.clocksOn = true ∧ s.mode ≠ .holdup ∧ s.demandSlot (s.instant s.index) ≠ s.demandSlot (s.instant (s.index - 1)) →
      ∃ t, exec .demandIntervalEnd s = .next t ∧ t.getN K.DMD_START = (s.stamp s.index : Nat) ∧ t.getN K.DMD_INDEX = (s.index : Nat) ∧
      t.demand = ⟨State.demandLen (s.getU K.DMD_CFG), s.getU K.DMD_START, s.demand.len⟩ ∧
      (∀ p : Fin 8, kindOf s.points[p].app.cfg = 0 → s.points[p].dmdFrom = none →
        t.getN (K.DMD_IMPORT_LAST p) = (s.getU (K.DMD_IMPORT p) : Nat) ∧ t.getN (K.DMD_EXPORT_LAST p) = (s.getU (K.DMD_EXPORT p) : Nat) ∧
        t.getN (K.DMD_IMPORT p) = 0 ∧ t.getN (K.DMD_EXPORT p) = 0) ∧
      (∀ p : Fin 8, kindOf s.points[p].app.cfg ≠ 0 → t.points[p].dmdFrom = some s.index ∧
        (s.points[p].dmdFrom = none → t.getN (K.DMD_IMPORT p) = s.getN (K.DMD_IMPORT p) ∧ t.getN (K.DMD_EXPORT p) = s.getN (K.DMD_EXPORT p))) ∧
      { t with nums := s.nums, points := s.points, demand := s.demand, tab := s.tab } = s)

/-- Signing (R271, R272, R277 to R280). SIGN_START: with a healthy random source and no hallmark being stored, the first waiting record reaches the engine
and its key is chosen the first time. SIGNATURE_DONE: the hallmark with its 64 byte signature is queued for the ring under its sequence and SIGN_COUNT
increments. SIGN_WAIT_TIMEOUT: a record that waited 1 s for a healthy source is stored unsigned, with 64 zero bytes, and UNSIGNED_COUNT increments.
RNG_FAILURE and RNG_STARTUP_DONE: the source is in failure, counted, and OK again after its start-up test. Each changes nothing where its condition is
absent. -/
def Obligations.SigningProceeds : Prop :=
  ∀ s : State,
    (∀ p rest, s.sign.queue = p :: rest → s.sign.run = none → s.serves = true → s.getN K.RNG_STATE = 0 → (∀ j ∈ s.jobs, j.log ≠ .ring) →
      exec .signStart s =
        .next { s with sign := { s.sign with run := some ⟨p, s.rtc, none, 0, []⟩ }, twins := s.twins ++ [.signing (s.keyChoice p)] }) ∧
    (s.sign.queue = [] ∨ s.sign.run ≠ none ∨ s.serves = false ∨ s.getN K.RNG_STATE ≠ 0 ∨ (∃ j ∈ s.jobs, j.log = .ring) →
      exec .signStart s = .next s) ∧
    (∀ r k c, s.sign.run = some r → r.key = some k → s.sessions[r.point].close = some c → ∃ t sig, exec .signatureDone s = .next t ∧
      sig.length = 64 ∧ (⟨.ring, r.body ++ sig, some c.seq, 0, some r.point⟩ : RecJob) ∈ t.jobs ∧ t.jobs.length = s.jobs.length + 1 ∧
      t.sign = { s.sign with run := none, queue := s.sign.queue.filter (· ≠ r.point) } ∧
      t.getN K.SIGN_COUNT = (wrapAdd 32 (s.getU K.SIGN_COUNT) 1 : Nat) ∧
      { t with nums := s.nums, free := s.free, jobs := s.jobs, logs := s.logs, tab := s.tab, sign := s.sign } = s) ∧
    (s.sign.run = none ∨ (∃ r, s.sign.run = some r ∧ (r.key = none ∨ s.sessions[r.point].close = none)) → exec .signatureDone s = .next s) ∧
    (∀ (p : Fin 8) d c, p ∈ s.sign.queue → s.getN K.RNG_STATE ≠ 0 → (∀ r, s.sign.run = some r → r.point ≠ p) → s.sessions[p].desc = some d →
      s.sessions[p].close = some c → ∃ t, exec (.signWaitTimeout p) s = .next t ∧
      (⟨.ring, s.hallmark p d c (.unsigned 5) s.prevDigest ++ List.replicate 64 0, some c.seq, 0, some p⟩ : RecJob) ∈ t.jobs ∧
      t.sign = { s.sign with queue := s.sign.queue.filter (· ≠ p) } ∧
      t.getN K.UNSIGNED_COUNT = (satAdd 32 (s.getU K.UNSIGNED_COUNT) 1 : Nat) ∧
      { t with nums := s.nums, jobs := s.jobs, logs := s.logs, tab := s.tab, sign := s.sign } = s) ∧
    (∀ p : Fin 8, p ∉ s.sign.queue ∨ s.getN K.RNG_STATE = 0 ∨ (∃ r, s.sign.run = some r ∧ r.point = p) → exec (.signWaitTimeout p) s = .next s) ∧
    (∀ test : Fin 3, (s.mode = .dormant → exec (.rngFailure test) s = .next s) ∧
      (s.mode ≠ .dormant → ∃ t, exec (.rngFailure test) s = .next t ∧ t.getN K.RNG_STATE = 2 ∧
        t.getN K.RNG_FAIL = (satAdd 32 (s.getU K.RNG_FAIL) 1 : Nat) ∧
        { t with nums := s.nums, jobs := s.jobs, logs := s.logs, merges := s.merges, tab := s.tab } = s)) ∧
    (s.mode = .dormant → exec .rngStartupDone s = .next s) ∧
    (s.mode ≠ .dormant → ∃ t, exec .rngStartupDone s = .next t ∧ t.getN K.RNG_STATE = 0 ∧
      (∀ k, k ≠ K.RNG_STATE → t.getN k = s.getN k) ∧ { t with nums := s.nums } = s)

/-- The display (R291 to R293, R299 to R306, R310, R312). FRAME_BOUNDARY: a stencil of a region that alone runs counts its frame in the ledgers and goes on to
the next, and with its last frame its segments show its target; a display with nothing left to do stops its pump. COMPENSATION_END: the segment is driven no
more, and its ledger has the whole of what it was driven by. READBACK: the CRCs of what was commanded and read, and each difference a bit of DRV_FAULT and
a count of READBACK_FAIL. PUMP_REGULATED and PUMP_OVERVOLTAGE report of a running pump, and change nothing of a pump that is off. DISPLAY_WAKE: a
read-back while nothing runs. BAND_TIMEOUT: a clearing that waits for its band takes FALLBACK_BAND. Without
main power none of them runs. -/
def Obligations.DisplayRuns : Prop :=
  ∀ s : State,
    (∀ lost : List (Nat × Int), s.mainOn = true → s.disp.host.running = false → s.disp.host.due = false → s.disp.clear = .none → s.disp.clearDrive = none → s.disp.clearComp = none →
      (∀ d, s.disp.metro.drive = some d → s.disp.metro.due = false →
        (d.frame + 1 < d.total → exec (.frameBoundary lost) s = .next { s with disp := { s.disp with
            ledger := allSegs.map fun g => ledgerClamp ((s.ledgerAfter 200).getD g 0 + ((lost.filter fun e => e.1 = g).map (·.2)).sum)
            frameStart := s.rtc, metro := { s.disp.metro with drive := some { d with frame := d.frame + 1 } } } }) ∧
        (d.total ≤ d.frame + 1 → ∃ t, exec (.frameBoundary lost) s = .next t ∧
          t.disp.shown = (s.disp.shown &&& (fullImage ^^^ d.segs)) ||| (d.target &&& d.segs) ∧
          { t with nums := s.nums, jobs := s.jobs, logs := s.logs, merges := s.merges, tab := s.tab, disp := s.disp } = s)) ∧
      (s.disp.metro.running = false → s.disp.metro.due = false → ∃ t, exec (.frameBoundary lost) s = .next t ∧
        t.disp = { s.disp with frameStart := s.rtc, pump := false, regulated := false } ∧ t.getN K.PUMP_POS_MV = 0 ∧ t.getN K.PUMP_NEG_MV = 0 ∧
        { t with nums := s.nums, disp := s.disp } = s)) ∧
    (∀ (seg : Fin 192) (c : Compensate), s.mainOn = true → s.disp.metro.comp = some c → bit c.driven seg = true → s.disp.host.comp = none → s.disp.clearComp = none →
      exec (.compensationEnd seg) s = .next { s with disp := { s.disp with
        metro := { s.disp.metro with comp := some { c with driven := clearBit c.driven seg } }
        ledger := s.disp.ledger.set seg.val (ledgerClamp (s.disp.ledger.getD seg.val 0 + c.units seg 200)) } }) ∧
    (∀ codes : List Nat, s.mainOn = true → ∃ t, exec (.readback codes) s = .next t ∧ t.getN K.FRAME_CRC = (crc32c (State.codeImage s.commanded) : Nat) ∧
      t.getN K.READBACK_CRC = (crc32c (State.codeImage codes) : Nat) ∧
      (∀ wrong, wrong = (List.range 194).filter (fun i => codes.getD i 0 % 4 ≠ s.commanded.getD i 0) →
        (wrong = [] → t.disp = s.disp ∧ t.tamper = s.tamper) ∧
        (wrong ≠ [] → t.disp.fault = s.disp.fault ||| wrong.foldl setBit 0 ∧
          t.getN K.READBACK_FAIL = (satAdd 32 (s.getU K.READBACK_FAIL) wrong.length : Nat))) ∧
      { t with nums := s.nums, journal := s.journal, tab := s.tab, disp := s.disp, tamper := s.tamper } = s) ∧
    (∀ pos neg : Nat,
      (s.disp.pump = true → ∃ t, exec (.pumpRegulated pos neg) s = .next t ∧ t.disp = { s.disp with regulated := true } ∧
        t.getN K.PUMP_POS_MV = (pos : Nat) ∧ t.getN K.PUMP_NEG_MV = (neg : Nat) ∧ { t with nums := s.nums, disp := s.disp } = s) ∧
      (s.disp.pump = false → exec (.pumpRegulated pos neg) s = .next s)) ∧
    (s.disp.pump = true → ∃ t, exec .pumpOvervoltage s = .next t ∧ t.getN K.PUMP_OVERV = (satAdd 32 (s.getU K.PUMP_OVERV) 1 : Nat) ∧
      (∀ k, k ≠ K.PUMP_OVERV → t.getN k = s.getN k) ∧ { t with nums := s.nums, tab := s.tab } = s) ∧
    (s.disp.pump = false → exec .pumpOvervoltage s = .next s) ∧
    (∀ codes : List Nat, s.mainOn = true → ∃ t, exec (.displayWake codes) s = .next t ∧
      (s.dispRunning = false → t.getN K.FRAME_CRC = (crc32c (State.codeImage s.commanded) : Nat) ∧
        t.getN K.READBACK_CRC = (crc32c (State.codeImage codes) : Nat)) ∧
      (s.dispOn = true → s.disp.clear = .none → s.disp.metro.running = true → s.metroImage &&& s.regionMask false ≠ s.disp.metro.pending.getD s.disp.metro.target →
        t.disp.metro.pending = some (s.metroImage &&& s.regionMask false)) ∧
      { t with nums := s.nums, journal := s.journal, tab := s.tab, disp := s.disp, tamper := s.tamper } = s) ∧
    (s.disp.clear = .wantBand → s.mainOn = true → ∃ t, exec .bandTimeout s = .next t ∧ t.disp.clear = .ready s.fallbackBand ∧ t.disp.band = s.fallbackBand ∧
      t.disp.tFallback = true ∧ t.getN K.FALLBACK_STENCILS = (satAdd 32 (s.getU K.FALLBACK_STENCILS) 1 : Nat) ∧
      { t with nums := s.nums, tab := s.tab, disp := s.disp } = s) ∧
    (s.disp.clear ≠ .wantBand ∨ s.mainOn = false → exec .bandTimeout s = .next s) ∧
    (s.mainOn = false → (∀ lost, exec (.frameBoundary lost) s = .next s) ∧ (∀ seg, exec (.compensationEnd seg) s = .next s) ∧
      (∀ codes, exec (.readback codes) s = .next s ∧ exec (.displayWake codes) s = .next s))

/-- Temperature, calibration and the auxiliary bank. TI_UPDATE (R155): TI takes a valid temperature that differs by the hysteresis or more, and the
coefficients are then due; the first one after a fallback ends the fallback. CAL_STEP_END (R163, R166): a step of 20 blocks ends; a substitute boundary in a
PHASE step or a missing temperature refuses it with its reason. AUX_PASS_START (R188): an idle PERIODIC couple starts a pass with its LAST, a busy one
counts one OVERRUN for the grid point it misses. AUX_DELAY_END (R187): the wait is over and the entry's result begins. AUX_STARTUP_DONE, AUX_POWER_DOWN
(R185): a converter is up, or powered down where it is free. AUX_CONVERSION_END (R183, R190): the free converter lets the next one begin, and its code
joins the result's sum. AUX_RESULT_WRITE (R193, R197): the index of a finished result stands, and it waits no more. AUX_SELF_CHECK (R201): every converter
is checked or its check is due. AUX_CAL_BURST (R199): a burst runs on a free lead
converter and waits for a busy one. With nothing of its own to do, each changes nothing. -/
def Obligations.AuxiliaryBankRuns : Prop :=
  ∀ s : State,
    (∀ p : Fin 8,
      (32 ≤ s.getU (K.PLATE_TEMP_SRC p) → exec (.tiUpdate p) s = .next s) ∧
      (∀ T, s.getU (K.PLATE_TEMP_SRC p) < 32 → s.validTemp (s.getU (K.PLATE_TEMP_SRC p)) s.index = some T → ∃ t, exec (.tiUpdate p) s = .next t ∧
        t.getN (K.ACTIVE_T p) = (if s.tFallback p = true ∨ s.getU (K.PLATE_T_HYST p) ≤ (T - s.getN (K.ACTIVE_T p)).natAbs then T else s.getN (K.ACTIVE_T p)) ∧
        t.tFallback p = false ∧ t.plateUse[p] = ⟨s.plateUse[p].due || decide (t.getN (K.ACTIVE_T p) ≠ s.getN (K.ACTIVE_T p)), s.index⟩ ∧
        { t with nums := s.nums, tab := s.tab, plateUse := s.plateUse } = s)) ∧
    ((∀ r st, s.cal = some r → r.step = some st → st.blocks.length < 20) → exec .calStepEnd s = .next s) ∧
    (∀ r st, s.cal = some r → r.step = some st → 20 ≤ st.blocks.length → ∃ t, exec .calStepEnd s = .next t ∧ t.getN K.CAL_STATE = 1 ∧
      (∀ r', t.cal = some r' → r'.step = none) ∧
      (st.op = 4 → (∃ b ∈ st.blocks, b.substitute = true) → t.getN K.CAL_REASON = 4 ∧ t.getN K.CAL_REASON_CH = (st.mask : Nat)) ∧
      (st.op ≠ 4 → none ∈ st.temps → t.getN K.CAL_REASON = 5 ∧ t.getN K.CAL_REASON_CH = (st.mask : Nat)) ∧
      { t with nums := s.nums, tab := s.tab, cal := s.cal } = s) ∧
    (∀ l : Fin 3,
      (s.runOf l ≠ 2 ∨ s.auxRuns = false → exec (.auxPassStart l) s = .next s) ∧
      (s.runOf l = 2 → s.auxRuns = true → s.couples[l].phase = .idle → ∃ t, exec (.auxPassStart l) s = .next t ∧
        t.couples[l].last = field (s.getU (K.COUPLE_CFG (l + 1))) 7 4 ∧ t.couples[l].late = false ∧
        { t with
          nums := s.nums, jobs := s.jobs, logs := s.logs, merges := s.merges, journal := s.journal, tab := s.tab, convs := s.convs
          couples := s.couples, auxRun := s.auxRun } = s) ∧
      (s.runOf l = 2 → s.auxRuns = true → s.couples[l].phase ≠ .idle → s.couples[l].late = true → exec (.auxPassStart l) s = .next s) ∧
      (s.runOf l = 2 → s.auxRuns = true → s.couples[l].phase ≠ .idle → s.couples[l].late = false → ∃ t, exec (.auxPassStart l) s = .next t ∧
        t.couples = s.couples.set l { s.couples[l] with late := true } ∧
        t.getN (K.OVERRUN (l + 1)) = (satAdd 32 (s.getU (K.OVERRUN (l + 1))) 1 : Nat) ∧ (∀ k, k ≠ K.OVERRUN (l + 1) → t.getN k = s.getN k) ∧
        { t with nums := s.nums, tab := s.tab, couples := s.couples } = s) ∧
      (s.couples[l].phase ≠ .delay → exec (.auxDelayEnd l) s = .next s) ∧
      (s.couples[l].phase = .delay → s.runOf l = 0 →
        exec (.auxDelayEnd l) s = .next { s with couples := s.couples.set l { s.couples[l] with phase := .idle } }) ∧
      (∀ w, w = s.getU (K.ENTRY l (s.couples[l].entry + 1)) → s.couples[l].phase = .delay → s.runOf l ≠ 0 → s.couples[l].entry ≤ s.couples[l].last →
        s.auxRuns = true → s.couples[l].k ≤ entRepeat w → s.entryOpen w = true → ∃ t, exec (.auxDelayEnd l) s = .next t ∧
          t.couples[l].phase = .convert ∧ t.couples[l].word = w ∧
          { t with
            nums := s.nums, jobs := s.jobs, logs := s.logs, merges := s.merges, journal := s.journal, tab := s.tab, convs := s.convs
            couples := s.couples, auxRun := s.auxRun } = s) ∧
      (s.couples[l].due = [] → s.disp.clear ≠ .wantBand → exec (.auxResultWrite l false) s = .next s) ∧
      (s.couples[l].injDue = false → s.disp.clear ≠ .wantBand → exec (.auxResultWrite l true) s = .next s) ∧
      (∀ d r, s.couples[l].due = d :: r → s.couples[l].phase ≠ .tail → ∃ t, exec (.auxResultWrite l false) s = .next t ∧
        t.getN (K.RES_INDEX l (d.entry + 1)) = (d.idx / 500 : Nat) ∧ t.couples = s.couples.set l { s.couples[l] with due := r } ∧
        { t with nums := s.nums, tab := s.tab, couples := s.couples, inputAt := s.inputAt, disp := s.disp } = s) ∧
      (s.couples[l].injDue = true → ∃ t, exec (.auxResultWrite l true) s = .next t ∧ t.getN (K.INJ_STATE (l + 1)) = 3 ∧
        t.getN (K.INJ_INDEX (l + 1)) = (s.couples[l].injIdx / 500 : Nat) ∧ t.couples = s.couples.set l { s.couples[l] with injDue := false } ∧
        { t with nums := s.nums, tab := s.tab, couples := s.couples, inputAt := s.inputAt, disp := s.disp } = s)) ∧
    (∀ a : Fin 8,
      (s.convs[a].starting = false → exec (.auxStartupDone a) s = .next s) ∧
      (s.convs[a].starting = true → ∃ t, exec (.auxStartupDone a) s = .next t ∧ t.convs[a].starting = false ∧ t.convs[a].off = false ∧
        { t with
          nums := s.nums, jobs := s.jobs, logs := s.logs, merges := s.merges, journal := s.journal, tab := s.tab, convs := s.convs
          couples := s.couples, auxRun := s.auxRun } = s) ∧
      (s.convs[a].busy = true ∨ s.convs[a].starting = true → exec (.auxPowerDown a) s = .next s) ∧
      (s.convs[a].busy = false → s.convs[a].starting = false →
        exec (.auxPowerDown a) s = .next { s with convs := s.convs.set a { s.convs[a] with off := true } }) ∧
      (∀ (code : Int) (edge waits : Nat),
        (s.convs[a].busy = false ∨ s.convs[a].behind ≠ [] → exec (.auxConversionEnd a code edge waits) s = .next s) ∧
        (s.convs[a].busy = true → s.convs[a].behind = [] → ∃ t, exec (.auxConversionEnd a code edge waits) s = .next t ∧
          t.getN K.MUX_WAIT = (satAdd 32 (s.getU K.MUX_WAIT) (min waits (allConvs.filter fun b => s.convs[b].behind.contains a).length) : Nat) ∧
          ((∀ l : Fin 3, (s.carrier l).val ≠ a.val / 2) →
            t.convs[a].busy = false ∧ (code < s.codeLow s.convs[a].input ∨ s.codeHigh s.convs[a].input < code → t.convs[a].settle = 2)) ∧
          (∀ l : Fin 3, a = s.leadOf l → (∀ m : Fin 3, s.carrier m = s.carrier l → m = l) → s.getN (K.INJ_STATE (l + 1)) ≠ 2 →
            s.couples[l].phase = .convert → s.couples[l].a.n + 1 ≠ 2 ^ entAvg s.couples[l].word →
            t.couples[l].a = s.couples[l].a.add code (s.codeLow s.convs[a].input) (s.codeHigh s.convs[a].input) s.convs[a].gain s.convs[a].zero
              (decide (0 < s.convs[a].settle))) ∧
          { t with
            nums := s.nums, jobs := s.jobs, logs := s.logs, merges := s.merges, journal := s.journal, tab := s.tab, convs := s.convs
            couples := s.couples, auxRun := s.auxRun } = s))) ∧
    (∀ dev : List Nat,
      (s.auxRuns = false → exec (.auxSelfCheck dev) s = .next s) ∧
      (s.auxRuns = true → ∃ t, exec (.auxSelfCheck dev) s = .next t ∧
        (∀ a : Fin 8, t.convs[a].check = some (dev.getD a 0) ∨
          (t.convs[a].check = none ∧ min (dev.getD a 0) 65535 ≤ t.getU (K.CHECK_WORST (a + 1)))) ∧
        { t with
          nums := s.nums, jobs := s.jobs, logs := s.logs, merges := s.merges, journal := s.journal, tab := s.tab, convs := s.convs
          couples := s.couples, auxRun := s.auxRun } = s)) ∧
    (∀ codes : List Int,
      ((∀ r, s.auxRun = some r → r.step = none ∨ 16 ≤ r.bursts.length + r.due.length) → exec (.auxCalBurst codes) s = .next s) ∧
      (∀ r, s.auxRun = some r → r.step ≠ none → r.bursts.length + r.due.length < 16 → s.convs[s.leadOf r.couple].busy = true → s.injecting r.couple = false →
        exec (.auxCalBurst codes) s = .next { s with auxRun := some { r with due := r.due ++ [codes] } }) ∧
      (∀ r, s.auxRun = some r → r.step ≠ none → r.bursts.length + r.due.length + 1 < 16 → s.convs[s.leadOf r.couple].busy = false →
        s.injecting r.couple = false → ∃ t r', exec (.auxCalBurst codes) s = .next t ∧ t.auxRun = some r' ∧
          r'.bursts.length = r.bursts.length + r.due.length + 1 ∧ r'.due = [] ∧
          { t with
            nums := s.nums, jobs := s.jobs, logs := s.logs, merges := s.merges, journal := s.journal, tab := s.tab, convs := s.convs
            couples := s.couples, auxRun := s.auxRun } = s))

/-- The banks and the non-volatile store. SRAM_ACCESS (R207, R210, R211): a port without any request does nothing; the one request that reaches an idle
port without strings or errors is granted, and a whole word written is the data with its check symbols. SCRUB_WRITEBACK (R216): the oldest waiting word of a bank with
a free port is written back and counted. MARCH_START, MARCH_PHASE_END, MARCH_RETRY (R218, R220): an attempt begins, goes through its phases, and is repeated,
forced after eight abandonments. BANK_SUB_REGION_DONE (R223): the region copied is served by B4. SWEEP_READ (R224): the sweep goes on to the next word.
NVM_CYCLE_END (R229, R238): a read that had to be corrected is counted. PATROL_READ (R241): the patrol goes on to the next group. JOURNAL_UNIT_START,
JOURNAL_COMMIT, JOURNAL_RETIRE (R246): the first waiting unit is opened, its commit counts it, and it leaves the journal. RECORD_COPY_WRITTEN (R253): a
record's first copy is complete, then its second. With nothing to do, or where the mode does not allow it (R227, R230, R235), none changes anything. -/
def Obligations.MemoriesAreServed : Prop :=
  ∀ s : State,
    (∀ o : SramObs,
      (s.mode = .dormant → exec (.sramAccess o) s = .next s) ∧
      ((s.bankPort o.bank o.portS).waiting = [] → o.reqs = [] → exec (.sramAccess o) s = .next s) ∧
      (∀ r d, s.mode ≠ .dormant → (s.bankPort o.bank o.portS).waiting = [] → o.reqs = [r] → r.busy = false → s.requestOk o.bank o.portS r = true →
        o.meets = false → r.store = some (255, d) → s.march.phase ≠ .segment → s.alsoWritten r.bank r.region = none →
        ∃ t, exec (.sramAccess o) s = .next t ∧
          t.wordAt (wordPlace o.bank (s.regionServed r.bank r.region).2 r.word) =
            codeWord (mergeBytes (s.wordAt (wordPlace o.bank (s.regionServed r.bank r.region).2 r.word) % 2 ^ 64) d 255) ∧
          t.getU (K.WAIT_WORST (r.master + 1)) = max (s.getU (K.WAIT_WORST (r.master + 1))) (min o.wait 65535) ∧
          { t with nums := s.nums, tab := s.tab, banks := s.banks, sram := s.sram } = s)) ∧
    (∀ b : Fin 5,
      (s.banks[b].scrubs = [] ∨ s.portFree b = false → exec (.scrubWriteback b) s = .next s) ∧
      (∀ a r, s.banks[b].scrubs = a :: r → s.portFree b = true → ∃ t, exec (.scrubWriteback b) s = .next t ∧ t.banks[b].scrubs = r ∧
        t.getN (K.SCRUB_COUNT (b + 1)) = (satAdd 32 (s.getU (K.SCRUB_COUNT (b + 1))) 1 : Nat) ∧
        (∀ k, k ≠ K.SCRUB_COUNT (b + 1) → t.getN k = s.getN k) ∧ (∀ c : Fin 5, c ≠ b → t.banks[c] = s.banks[c]) ∧
        { t with nums := s.nums, tab := s.tab, banks := s.banks } = s)) ∧
    (s.marchAllowed = false ∨ s.march.phase ≠ .idle → exec .marchStart s = .next s) ∧
    (s.marchAllowed = true → s.march.phase = .idle →
      exec .marchStart s = .next { s with march := ⟨.mirror, s.march.mirror, 0, false, false⟩ }) ∧
    (s.marchAllowed = false ∨ s.march.phase ≠ .retry → exec .marchRetry s = .next s) ∧
    (s.marchAllowed = true → s.march.phase = .retry → ∃ t, exec .marchRetry s = .next t ∧
      t.march = ⟨.mirror, s.march.mirror, s.march.tries, decide (8 ≤ s.march.tries), false⟩ ∧
      t.getN K.MARCH_FORCED = (if 8 ≤ s.march.tries then ((satAdd 32 (s.getU K.MARCH_FORCED) 1 : Nat) : Int) else s.getN K.MARCH_FORCED) ∧
      { t with nums := s.nums, tab := s.tab, march := s.march } = s) ∧
    (∀ (failed : Bool) (errs : List CopyErr),
      (s.banksWork = false → exec (.marchPhaseEnd ⟨failed, errs⟩) s = .next s) ∧
      (s.banksWork = true → s.march.phase = .mirror → failed = false → ∃ t, exec (.marchPhaseEnd ⟨failed, errs⟩) s = .next t ∧ t.march.phase = .copy ∧
        { t with banks := s.banks, march := s.march, sram := s.sram } = s) ∧
      (s.banksWork = true → s.march.phase = .copy → errs = [] → ∃ t, exec (.marchPhaseEnd ⟨failed, errs⟩) s = .next t ∧ t.march.phase = .segment ∧
        { t with banks := s.banks, march := s.march, sram := s.sram } = s) ∧
      (s.banksWork = true → s.march.phase = .segment → failed = false → ∃ t, exec (.marchPhaseEnd ⟨failed, errs⟩) s = .next t ∧ t.march.phase = .copyBack ∧
        { t with banks := s.banks, march := s.march, sram := s.sram } = s) ∧
      (s.banksWork = true → s.march.phase = .copyBack → errs = [] → s.bankSub = none → s.banks[(4 : Fin 5)].state = .idle → s.march.abandoned = false →
        ∃ t, exec (.marchPhaseEnd ⟨failed, errs⟩) s = .next t ∧ t.march = ⟨.idle, s.march.mirror + 1, 0, false, false⟩ ∧
          t.getN K.MARCH_NEXT = ((s.getU K.MARCH_NEXT + 1) % 64 : Nat) ∧
          { t with nums := s.nums, tab := s.tab, banks := s.banks, march := s.march, sram := s.sram } = s)) ∧
    (∀ (r : Fin 16) (errs : List CopyErr),
      (s.bankSub = none ∨ s.banksWork = false ∨ s.copying ≠ some r → exec (.bankSubRegionDone ⟨r, errs⟩) s = .next s) ∧
      (∀ (sub : BankSub) (x : Bank), s.bankSub = some sub → s.banks.toList.find? (fun (x : Bank) => x.state = .worn && !x.noSpare) = some x → s.banksWork = true →
        s.copying = some r → errs = [] → sub.done.length < 15 → ∃ t, exec (.bankSubRegionDone ⟨r, errs⟩) s = .next t ∧
          t.bankSub = some { sub with done := sub.done ++ [r.val] } ∧ { t with banks := s.banks, bankSub := s.bankSub, sram := s.sram } = s)) ∧
    (∀ (b : Fin 5) (r : Fin 16) (w : Fin 512) (err twin : SymErr) (busy : Bool),
      (busy = true ∨ s.getN K.SWEEP_MODE = 0 ∨ s.banksWork = false ∨ s.sweepPlace s.sweepAt ≠ some (wordPlace b r w) ∨ s.portFree b = false →
        exec (.sweepRead b r w err twin busy) s = .next s) ∧
      (busy = false → s.getN K.SWEEP_MODE ≠ 0 → s.banksWork = true → s.sweepPlace s.sweepAt = some (wordPlace b r w) → s.portFree b = true → err = .none →
        ∃ t, exec (.sweepRead b r w err twin busy) s = .next t ∧ t.sweepAt = (wordPlace b r w + 1) % 40960 ∧
          { t with banks := s.banks, sweepAt := s.sweepAt } = s)) ∧
    (∀ o : NvmObs,
      (s.cycleServed o = false → exec (.nvmCycleEnd o) s = .next s) ∧
      (s.cycleServed o = true → o.write = false → o.err = .none → s.nvm.remaps = [] → (∀ i, s.tautWord i = none) → exec (.nvmCycleEnd o) s = .next s) ∧
      (∀ b, s.cycleServed o = true → o.write = false → o.err = .one b → s.nvm.remaps = [] → (∀ i, s.tautWord i = none) → ∃ t,
        exec (.nvmCycleEnd o) s = .next t ∧ t.getN K.NVM_CORRECTED = (satAdd 32 (s.getU K.NVM_CORRECTED) 1 : Nat)) ∧
      (s.cycleServed o = true → o.write = true → o.err = .none → s.nvm.remaps = [] → (o.group.val < 0x600 → s.sealed = false) →
        exec (.nvmCycleEnd o) s = .next (s.rangeWrote (8 * o.group.val) 8))) ∧
    (∀ (err : GroupErr) (bothBad : Bool) (part g : Nat) (o : NvmObs), g = s.getU K.PATROL_NEXT →
      o = ⟨⟨g % 65536, by omega⟩, false, err, bothBad, none, part⟩ →
      (s.cycleServed o = false → exec (.patrolRead ⟨err, bothBad, part⟩) s = .next s) ∧
      (s.cycleServed o = true → err = .none → s.nvm.remaps = [] → ∃ t, exec (.patrolRead ⟨err, bothBad, part⟩) s = .next t ∧
        t.getN K.PATROL_NEXT = ((g + 1) % 65536 : Nat) ∧
        t.getN K.PATROL_CYCLES = (if g = 65535 then ((wrapAdd 32 (s.getU K.PATROL_CYCLES) 1 : Nat) : Int) else s.getN K.PATROL_CYCLES) ∧
        { t with nums := s.nums, tab := s.tab, nvm := s.nvm } = s)) ∧
    (s.journal.openUnit.isSome = true ∨ s.journal.waiting = [] ∨ 8192 < s.journal.used + 2080 ∨ s.journalOn = false ∨ s.store.writing.isSome = true →
      exec .journalUnitStart s = .next s) ∧
    (∀ u r, s.journal.openUnit = none → s.journal.waiting = u :: r → s.journal.used + 2080 ≤ 8192 → s.serves = true → s.journalOn = true →
      s.store.writing = none → s.rtc + 2500000 < s.store.nextDue →
      exec .journalUnitStart s = .next { s with journal := { s.journal with
        openUnit := some u, waiting := r, committed := false, unitNo := wrapAdd 32 s.journal.unitNo 1, startedAt := s.rtc,
        used := s.journal.used + unitSpace u } }) ∧
    (s.journal.openUnit = none ∨ s.journal.committed = true ∨ s.journalOn = false → exec .journalCommit s = .next s) ∧
    (∀ u, s.journal.openUnit = some u → s.journal.committed = false → s.journalOn = true →
      (∀ w ∈ u.writes, s.statuteLocked w = false) → ∃ t, exec .journalCommit s = .next t ∧ t.journal.committed = true ∧
        { t with
          nums := s.nums, blobs := s.blobs, lockNvm := s.lockNvm, lanes := s.lanes, ports := s.ports, spares := s.spares, points := s.points
          pulses := s.pulses, jobs := s.jobs, logs := s.logs, merges := s.merges, journal := s.journal, spi := s.spi, can := s.can, tab := s.tab
          cal := s.cal, plateUse := s.plateUse, convs := s.convs, couples := s.couples, auxRun := s.auxRun, banks := s.banks, sessions := s.sessions
          sign := s.sign, disp := s.disp, tamper := s.tamper, thb := s.thb, svc := s.svc } = s) ∧
    (s.journal.openUnit.isSome = true → s.journal.committed = true → s.journalOn = true →
      exec .journalRetire s = .next { s with journal := { s.journal with
        openUnit := none, committed := false, used := if s.journal.stale = [] then 0 else s.journal.used } }) ∧
    (s.journal.openUnit = none ∨ s.journal.committed = false ∨ s.journalOn = false → exec .journalRetire s = .next s) ∧
    (s.mainOn = false ∨ s.nvm.writeInhibit = true ∨ s.jobs = [] → exec .recordCopyWritten s = .next s) ∧
    (∀ j rest q, s.mainOn = true → s.nvm.writeInhibit = false → s.jobs = j :: rest → j.seq = some q → j.log ≠ .ring → ∃ t,
      exec .recordCopyWritten s = .next t ∧ (j.copies = 0 → t.jobs = { j with copies := 1 } :: rest) ∧
        (j.copies ≠ 0 → t.jobs.length = rest.length) ∧
        { t with nums := s.nums, jobs := s.jobs, logs := s.logs, journal := s.journal, nvm := s.nvm, tab := s.tab, sign := s.sign } = s)

/-- Tamper sources, service and decisions (R318 to R320, R324, R334, R346 to R355, R441). TAMPER_STROBE: a ball at its active level counts towards DEBOUNCE and
makes its source ACTIVE with the last count; at the inactive level it counts towards the end of ACTIVE. LIGHT, LIGHT_FALL, REF_CLOCK, RTC_CLOCK: the source is ACTIVE
as the level, or the clock, says. GLITCH and SVC_STRAP: an event of T8, of T15; where COUNT is at most 1 it is an alarm. VBAT_CHECK, DIE_TEMP_CHECK: the value
stands, and a good one ends ACTIVE. TAMPER_WINDOW_EXPIRY: a window that has passed counts no more. TAMPER_DECISION: a decision runs over every waiting alarm.
BACKUP_DOMAIN_RESET: clock and latch are lost. SVC_CHANGE, SERVICE_MAX_EXPIRY: the level stands; SERVICE ends. AUTH_CHALLENGE_EXPIRY: no challenge stands.
SEAL_KEYGEN_DONE, SEAL_FUSE_SET: the sequence goes on, or is over with reason 8; the fuse bit is set. TWIN_EVALUATION: an ENTER_SERVICE on which both
evaluations agree enters SERVICE. LANE_RETEST_DONE: a lane with corrections stays retired. Where none applies, nothing changes. -/
def Obligations.SourcesAndDecisionsRun : Prop :=
  ∀ s : State,
    (∀ (time : Nat) (lv : Fin 3 → Bool), ∃ t, exec (.tamperStrobe time (lv 0) (lv 1) (lv 2)) s = .next t ∧ t.rtc = max s.rtc time ∧
      (∀ (i : Fin 3) (n : Fin 16), n.val = i.val →
        ((lv i != bit (s.getU (K.SRC_PARAM (n + 1))) 15) = true → (t.src n).high = min ((s.src n).high + 1) 255 ∧ (t.src n).low = 0 ∧
          (t.src n).active = ((s.src n).active || decide (s.getU (K.SRC_PARAM (n + 1)) % 256 ≤ (s.src n).high + 1))) ∧
        ((lv i != bit (s.getU (K.SRC_PARAM (n + 1))) 15) = false → (t.src n).low = min ((s.src n).low + 1) 255 ∧ (t.src n).high = 0 ∧
          (t.src n).active = ((s.src n).active && decide ((s.src n).low + 1 < s.getU (K.SRC_PARAM (n + 1)) % 256)))) ∧
      { t with nums := s.nums, rtc := s.rtc, journal := s.journal, tab := s.tab, tamper := s.tamper } = s) ∧
    (∀ (c : Instr) (n : Fin 16) (time : Nat) (on : Bool),
      ((c = .light time ∧ n = 10 ∧ on = true) ∨ (c = .lightFall time ∧ n = 10 ∧ on = false) ∨ (c = .rtcClock time on ∧ n = 7)) →
      ∃ t, exec c s = .next t ∧ t.rtc = max s.rtc time ∧ (t.src n).active = on ∧
        { t with nums := s.nums, rtc := s.rtc, journal := s.journal, tab := s.tab, tamper := s.tamper } = s) ∧
    (∀ bad : Bool, (s.mainOn = false → exec (.refClock bad) s = .next s) ∧
      (s.mainOn = true → ∃ t, exec (.refClock bad) s = .next t ∧ (t.src 9).active = bad ∧
        { t with nums := s.nums, journal := s.journal, tab := s.tab, tamper := s.tamper } = s)) ∧
    (∀ (c : Instr) (n : Fin 16) (time : Nat), (c = .glitch time ∧ n = 8) ∨ (c = .svcStrap ∧ n = 15 ∧ time = 0 ∧ s.sealed = true ∧ s.svc.svc = true ∧ s.serviceAccess = false) →
      s.mainOn = true → s.srcFused n = false → (s.src n).counting = false → s.srcCount n ≤ 1 → ∃ t, exec c s = .next t ∧
        t.getN (K.ALARM_COUNT (n + 1)) = (satAdd 32 (s.getU (K.ALARM_COUNT (n + 1))) 1 : Nat) ∧ (t.src n).waiting = (s.src n).waiting + 1 ∧
        { t with nums := s.nums, rtc := s.rtc, journal := s.journal, tab := s.tab, tamper := s.tamper } = s) ∧
    (s.sealed = false ∨ s.svc.svc = false ∨ s.serviceAccess = true → exec .svcStrap s = .next s) ∧
    (∀ (time mv : Nat), ∃ t, exec (.vbatCheck time mv) s = .next t ∧ t.rtc = max s.rtc time ∧ t.getN K.VBAT_MV = (mv : Nat) ∧
      (2200 ≤ mv → (t.src 3).active = false ∧ (t.src 3).high = 0) ∧ (mv < 2200 → (t.src 3).high = min ((s.src 3).high + 1) 4) ∧
      { t with nums := s.nums, rtc := s.rtc, journal := s.journal, tab := s.tab, tamper := s.tamper } = s) ∧
    (∀ (time : Nat) (x : Int), ∃ t, exec (.dieTempCheck time x) s = .next t ∧ t.rtc = max s.rtc time ∧ t.getN K.DIE_TEMP = x ∧
      (-5000 ≤ x → x ≤ 12500 → (t.src 4).active = false ∧ (t.src 4).high = 0) ∧ (x < -5000 ∨ 12500 < x → (t.src 4).high = min ((s.src 4).high + 1) 2) ∧
      { t with nums := s.nums, rtc := s.rtc, journal := s.journal, tab := s.tab, tamper := s.tamper } = s) ∧
    (∀ (n : Fin 16) (time : Nat),
      ((s.src n).counting = true → (s.src n).start + s.srcWindow n * 1000000 < max s.rtc time → ∃ t, exec (.tamperWindowExpiry n time) s = .next t ∧
        t.src n = { s.src n with counting := false, count := 0 } ∧ { t with nums := s.nums, rtc := s.rtc, tab := s.tab, tamper := s.tamper } = s) ∧
      ((s.src n).counting = false ∨ max s.rtc time ≤ (s.src n).start + s.srcWindow n * 1000000 →
        exec (.tamperWindowExpiry n time) s = .next { s with rtc := max s.rtc time })) ∧
    (s.alarmSet false = [] ∨ s.tamper.run.isSome = true ∨ s.mainOn = false → exec .tamperDecision s = .next s) ∧
    (s.alarmSet false ≠ [] → s.tamper.run = none → s.mainOn = true → s.mode ≠ .recalling → ∃ t c, exec .tamperDecision s = .next t ∧
      t.tamper.run = some ⟨s.alarmSet false, c, s.rtc, s.index⟩ ∧ t.twins = s.twins ++ [.decision] ∧
      (∀ a ∈ s.alarmSet false, (t.src a.source).waiting = 0) ∧ { t with twins := s.twins, tamper := s.tamper } = s) ∧
    (s.mode ≠ .dormant → exec .backupDomainReset s = .next s) ∧
    (s.mode = .dormant → ∃ t, exec .backupDomainReset s = .next t ∧ t.rtc = 0 ∧ t.lockLatch = false ∧ t.getN K.RTC_VALID = 0 ∧ t.tamper.backupLost = true ∧
      (∀ k, k ≠ K.RTC_VALID → t.getN k = s.getN k) ∧
      { t with nums := s.nums, rtc := s.rtc, lockLatch := s.lockLatch, tamper := s.tamper, svc := s.svc } = s) ∧
    (∀ level : Bool, (s.mainOn = false → exec (.svcChange level) s = .next s) ∧
      (s.mainOn = true → level = true ∨ s.serviceAccess = false → exec (.svcChange level) s = .next { s with svc := { s.svc with svc := level } }) ∧
      (s.mainOn = true → level = false → s.serviceAccess = true → s.decided = .service → s.sealing = false →
        exec (.svcChange level) s = .next { s with svc := { s.svc with svc := false }, modeNext := some .metering })) ∧
    (s.serviceAccess = false → exec .serviceMaxExpiry s = .next s) ∧
    (s.serviceAccess = true → s.sealing = true → exec .serviceMaxExpiry s = .next { s with svc := { s.svc with exitDue := true } }) ∧
    (s.serviceAccess = true → s.sealing = false → s.decided = .service → exec .serviceMaxExpiry s = .next { s with modeNext := some .metering }) ∧
    exec .authChallengeExpiry s = .next { s with svc := { s.svc with challenge := none } } ∧
    (∀ failed : Nat, (s.svc.sealStep ≠ .keygen → exec (.sealKeygenDone failed) s = .next s) ∧
      (s.svc.sealStep = .keygen → 3 ≤ failed → s.svc.exitDue = false → ∃ t, exec (.sealKeygenDone failed) s = .next t ∧
        t.getN K.SEAL_REASON = 8 ∧ t.svc.sealStep = .none ∧ t.sign.prodKey = none) ∧
      (s.svc.sealStep = .keygen → failed < 3 → ∃ t, exec (.sealKeygenDone failed) s = .next t ∧ t.svc.sealStep = .statute ∧ t.sign.prodKey.isSome = true)) ∧
    (∀ o : StatuteObs, (s.svc.sealStep ≠ .fuse ∨ s.svc.sealHistory = true → exec (.sealFuseSet o) s = .next s) ∧
      (s.svc.sealStep = .fuse → s.svc.sealHistory = false → o.a1 = true → o.a2 = true → o.b1 = true → o.b2 = true → ∃ t, exec (.sealFuseSet o) s = .next t ∧
        t.getN K.FUSE_MAP = (s.getU K.FUSE_MAP ||| 2 ^ 31 : Nat) ∧ t.getB K.STATUTE_DIGEST = s.svc.statute ∧ t.svc.sealHistory = true)) ∧
    (∀ (i : Nat) (fault : Option Nat), (s.twins[i]? = none → exec (.twinEvaluation i fault) s = .next s) ∧
      (∀ h, s.twins[i]? = some (.enterService h true) → fault = none → s.enterOk = true → ∃ t, exec (.twinEvaluation i fault) s = .next t ∧
        t.twins = s.twins.eraseIdx i ∧ t.getN K.SERVICE_COUNT = (satAdd 32 (s.getU K.SERVICE_COUNT) 1 : Nat) ∧ t.svc.entered = s.rtc ∧
        (s.decided = .lockdown → t.attended = true) ∧ (s.decided ≠ .lockdown → t.modeNext = some .service))) ∧
    (∀ n : Nat, (s.svc.retest = none → exec (.laneRetestDone n) s = .next s) ∧
      (∀ l : Fin 5, s.svc.retest = some l → n ≠ 0 → ∃ t, exec (.laneRetestDone n) s = .next t ∧ t.svc = { s.svc with retest := none } ∧
        t.getN (K.LANE_RETEST (l + 1)) = (min n 65535 * 65536 + 65535 : Nat) ∧ t.getN K.RESTORE_FAIL = (satAdd 32 (s.getU K.RESTORE_FAIL) 1 : Nat) ∧
        { t with nums := s.nums, lanes := s.lanes, tab := s.tab, svc := s.svc } = s))

/-- The Thiber link (R406 to R428). A port that is down takes no frame. TRAIN, TRAIN_SEND, LINK_DOWN, CORRUPTED_LINK_FRAME (R406, R407): a port learns its
peer, answers it, goes DOWN, counts a bad frame. PENDING, PENDING_SEND, CENSUS, CENSUS_SEND, CENSUS_TIMEOUT (R408, R411): the outcomes of the downstream
ports and this unit's own entry upward. NUMBERING (R409, R415): the unit is a MEMBER with its number and acquires time. SYNC, SYNC_SEND, DELAY_REQ,
DELAY_REQ_SEND, DELAY_RESP (R413): the exchange and its OFFSET. INDEX_ADOPT, HOLDOVER_EXPIRY (R415, R418): the parent's INDEX_SHIFT is taken; ACQUIRING
begins again. TSTEP (R419): INDEX_SHIFT moves. VP_REPORT, VP_REPORT_SEND (R425): a child's report stands; the own one goes upward. SITE, SITE_ACK, SITE_ACK_SEND,
SITE_LIMIT_EXPIRY (R421 to R423): the site tableau opens, is acknowledged and closes. JOIN, GRANT, JOIN_RETRY (R428): the top grants or refuses a
block, other units pass the request on, a refused unit asks again. -/
def Obligations.ThiberLinksAct : Prop :=
  ∀ s : State,
    (∀ (k : Fin 4) (seq : Nat), s.PortDown k →
      exec (.pending k seq) s = .next s ∧ (∀ f, exec (.census k seq f) s = .next s) ∧ (∀ first size depth, exec (.numbering k seq first size depth) s = .next s) ∧
      (∀ f t2, exec (.sync k seq f t2) s = .next s) ∧
      (∀ t3 t4, exec (.delayReq k seq t3 t4) s = .next s ∧ exec (.delayResp k seq t3 t4) s = .next s) ∧
      (∀ e step valid, exec (.tstep k seq e step valid) s = .next s) ∧ (∀ f, exec (.vpReport k seq f) s = .next s) ∧
      (s.heldBatches = [] → ∀ op id f limit, exec (.site k seq op id f limit) s = .next s) ∧
      (∀ id n m o, exec (.siteAck k seq id n m o) s = .next s) ∧ (∀ serial n f, exec (.join k seq serial n f) s = .next s) ∧
      (∀ serial f r, exec (.grant k seq serial f r) s = .next s)) ∧
    (∀ (k : Fin 4) (seq : Nat) (serial : List Byte) (key port : Nat) (ack root : Bool),
      (s.thbOn = false ∨ s.thb.ports[k].state = .disabled → exec (.train k seq serial key port ack root) s = .next s) ∧
      (s.thbOn = true → s.thb.ports[k].state ≠ .disabled → s.thb.ports[k].rxSeq ≠ some (seq % 256) →
        ((decide (k ≠ 0) && root) || (decide (k = 0) && s.isRoot)) = false → ∃ t, exec (.train k seq serial key port ack root) s = .next t ∧
          t.thb.ports[k].gotTrain = true ∧ t.thb.ports[k].gotAck = (s.thb.ports[k].gotAck || ack) ∧
          t.getB (K.PEER_SERIAL (k + 1)) = leBytes 8 (leNat (serial.take 8)) ∧
          { t with nums := s.nums, blobs := s.blobs, journal := s.journal, tab := s.tab, tamper := s.tamper, thb := s.thb } = s)) ∧
    (∀ k : Fin 4,
      (s.thbOn = false ∨ s.thb.ports[k].state = .disabled → exec (.trainSend k) s = .next s ∧ exec (.corruptedLinkFrame k) s = .next s) ∧
      (s.thbOn = true → s.thb.ports[k].state ≠ .disabled →
        (∃ t, exec (.trainSend k) s = .next t ∧ t.SentFrame k 0x01 (s.getB K.SERIAL ++ leBytes 4 (s.getU K.KEY_ID)) ∧
          t.thb.ports[k].sentAck = (s.thb.ports[k].sentAck || s.thb.ports[k].gotTrain) ∧ { t with blobs := s.blobs, thb := s.thb } = s) ∧
        (∃ t, exec (.corruptedLinkFrame k) s = .next t ∧ t.getN (K.LINK_ERRORS (k + 1)) = (satAdd 32 (s.getU (K.LINK_ERRORS (k + 1))) 1 : Nat) ∧
          (s.thb.ports[k].discards + 1 < 16 → t.thb.ports[k].discards = s.thb.ports[k].discards + 1) ∧
          (16 ≤ s.thb.ports[k].discards + 1 → t.thb.ports[k].state = .down) ∧
          { t with nums := s.nums, tab := s.tab, thb := s.thb } = s)) ∧
      (∀ reason : Nat,
        (s.thbOn = false ∨ s.thb.ports[k].state = .disabled ∨ s.thb.ports[k].state = .down → exec (.linkDown k reason) s = .next s) ∧
        (s.thbOn = true → s.thb.ports[k].state ≠ .disabled → s.thb.ports[k].state ≠ .down → ∃ t, exec (.linkDown k reason) s = .next t ∧
          t.thb.ports[k].state = .down ∧ t.thb.ports[k].lastDown = reason % 8 ∧
          { t with nums := s.nums, tab := s.tab, thb := s.thb } = s)) ∧
      (∀ trained : Bool,
        (s.serves = false ∨ k = 0 ∨ s.thb.ports[k].known = true ∨ s.portEnabled k = false → exec (.censusTimeout k trained) s = .next s) ∧
        (s.serves = true → k ≠ 0 → s.thb.ports[k].known = false → s.portEnabled k = true → ∃ t, exec (.censusTimeout k trained) s = .next t ∧
          t.thb.ports[k].known = true ∧ t.thb.ports[k].child.state = (if trained || s.isUp k then 3 else 0) ∧ { t with nums := s.nums, thb := s.thb } = s))) ∧
    (∀ (k : Fin 4) (seq : Nat), s.takesFrame k seq true →
      (∃ t, exec (.pending k seq) s = .next t ∧ t.thb.ports[k].rxSeq = some (seq % 256) ∧
        t.thb.ports[k].child.state = (if s.thb.ports[k].known then s.thb.ports[k].child.state else 1) ∧
        { t with nums := s.nums, tab := s.tab, thb := s.thb } = s) ∧
      (∀ f : CensusFrame, ∃ t, exec (.census k seq f) s = .next t ∧ t.thb.ports[k].known = true ∧ t.thb.ports[k].prevFirst = f.prevFirst ∧
        t.thb.ports[k].child.serial = leBytes 8 (leNat (f.serial.take 8)) ∧ t.thb.ports[k].child.members = f.members ∧
        t.thb.ports[k].child.depthBelow = f.depthBelow ∧ t.thb.ports[k].child.points = f.points ∧ t.thb.ports[k].child.flags = f.flags ∧
        { t with nums := s.nums, tab := s.tab, thb := s.thb } = s) ∧
      (∀ t3 t4, ∃ t, exec (.delayReq k seq t3 t4) s = .next t ∧ t.SentFrame k 0x22 (leBytes 8 t3 ++ leBytes 8 t4) ∧
        { t with nums := s.nums, tab := s.tab, thb := s.thb } = s) ∧
      (∀ f : VpFrame, ∃ t, exec (.vpReport k seq f) s = .next t ∧
        t.thb.ports[k].report = some ⟨f.endIdx, f.flags, f.points.map fun (q : Fin 8 × Nat × Nat × Nat) => (q.1.val, q.2.1, q.2.2.1, q.2.2.2)⟩ ∧
        { t with nums := s.nums, tab := s.tab, thb := s.thb } = s) ∧
      (∀ id frozen unlocked missed, ∃ t, exec (.siteAck k seq id frozen unlocked missed) s = .next t ∧
        t.thb.ports[k].ack = (match s.thb.site with
          | some x => if x.id = id then some (frozen, unlocked, missed) else s.thb.ports[k].ack
          | none => s.thb.ports[k].ack) ∧
        { t with nums := s.nums, tab := s.tab, thb := s.thb } = s) ∧
      (∀ (serial : List Byte) (n first : Nat), ∃ t, exec (.join k seq serial n first) s = .next t ∧
        (s.isTop = true → s.blockFree first n k false = true → t.getN K.JOIN_COUNT = (satAdd 32 (s.getU K.JOIN_COUNT) 1 : Nat)) ∧
        (s.isTop = true → s.blockFree first n k false = false → s.lowestFree n = none →
          t.getN K.JOIN_REFUSED = (satAdd 32 (s.getU K.JOIN_REFUSED) 1 : Nat)) ∧
        (s.isTop = false → (serial, k.val) ∈ t.thb.joins) ∧
        { t with nums := s.nums, tab := s.tab, thb := s.thb } = s)) ∧
    (∀ (k : Fin 4) (seq : Nat), s.takesFrame k seq false →
      (∀ first size depth, s.isRoot = false → ∃ t, exec (.numbering k seq first size depth) s = .next t ∧
        t.getN K.ROLE = 2 ∧ t.getN K.UNIT_NO = (first : Nat) ∧ t.getN K.PREV_FIRST = (first : Nat) ∧ t.getN K.DEPTH = (depth : Nat) ∧
        t.getN K.TIME_STATE = 1 ∧ t.thb.complete = true ∧ t.thb.refused = false ∧ { t with nums := s.nums, tab := s.tab, thb := s.thb } = s) ∧
      (∀ (f : SyncFrame) (t2 : Nat), s.isMember = true → s.getN K.TIME_STATE ≠ 4 → (∀ q, s.thb.time.parentSeq = some q → q = f.rebaseSeq) →
        (s.getN K.TIME_STATE ≠ 3 ∨ (((t2 / 65536 : Nat) : Int) - ((f.t1 / 65536 : Nat) : Int)).natAbs < 2 → ∃ t,
          exec (.sync k seq f t2) s = .next t ∧ t.getN K.HOPS = (f.hops + 1 : Nat) ∧
          t.getN K.RTC_VALID = (if s.getN K.TIME_STATE = 3 ∧ f.valid = true then 1 else s.getN K.RTC_VALID) ∧
          t.thb.time = { s.thb.time with
            t1 := f.t1, t2 := t2, synced := true, corr := f.corr, shift := f.shift, valid := f.valid, parentSeq := some f.rebaseSeq } ∧
          { t with nums := s.nums, tab := s.tab, thb := s.thb } = s) ∧
        (s.getN K.TIME_STATE = 3 → 2 ≤ (((t2 / 65536 : Nat) : Int) - ((f.t1 / 65536 : Nat) : Int)).natAbs → ∃ t,
          exec (.sync k seq f t2) s = .next t ∧ t.getN K.TIME_STATE = 4 ∧ t.thb.time.t3 = none ∧ t.thb.time.offset = none ∧
          { t with nums := s.nums, tab := s.tab, tamper := s.tamper, journal := s.journal, thb := s.thb } = s)) ∧
      (∀ t3 t4 : Nat, s.isMember = true → s.thb.time.t3 = some t3 → s.thb.time.synced = true → s.getN K.TIME_STATE ≠ 3 → s.getN K.TIME_STATE ≠ 4 → ∃ t,
        exec (.delayResp k seq t3 t4) s = .next t ∧ t.thb.time.t3 = none ∧
        t.getN K.LINK_DELAY = ((min ((linkQuarter s.thb.time.t2 - linkQuarter s.thb.time.t1 + (linkQuarter t4 - linkQuarter t3)) * 5 / 4).toNat
          (2 ^ 32 - 1) : Nat) : Int) ∧
        t.getN K.OFFSET = clampInt (-2147483648) 2147483647
          ((((linkQuarter s.thb.time.t2 - linkQuarter s.thb.time.t1) - (linkQuarter t4 - linkQuarter t3)) * 5 + 2 * s.getN K.UP_ASYM) / 4
            + s.thb.time.corr) ∧
        { t with nums := s.nums, free := s.free, rtc := s.rtc, tab := s.tab, thb := s.thb } = s) ∧
      (∀ (e : Nat) (step : Int) (valid : Bool), s.isMember = true → ∃ t, exec (.tstep k seq e step valid) s = .next t ∧
        t.getN K.INDEX_SHIFT = s.getN K.INDEX_SHIFT + step ∧ t.thb.time.valid = valid ∧ t.thb.time.shift = s.thb.time.shift + step ∧
        { t with nums := s.nums, points := s.points, tab := s.tab, thb := s.thb } = s) ∧
      (∀ id f limit : Nat, s.isMember = true → s.serves = true → s.heldBatches = [] → ∃ t, exec (.site k seq 1 id f limit) s = .next t ∧
        t.getN K.SITE_STATE = 1 ∧ t.getN K.SITE_ID = (id : Nat) ∧ t.getN K.SITE_F = (f : Nat) ∧
        t.thb.site = some ⟨id, f, limit, if s.instant f < s.rtc then some 2 else none, false⟩ ∧
        { t with nums := s.nums, spi := s.spi, can := s.can, tab := s.tab, thb := s.thb } = s) ∧
      (∀ (x : SiteSt) (f limit : Nat), s.isMember = true → s.serves = true → s.heldBatches = [] → s.thb.site = some x → ∃ t,
        exec (.site k seq 2 x.id f limit) s = .next t ∧ t.getN K.SITE_STATE = 0 ∧ t.thb.site = none ∧
        { t with nums := s.nums, spi := s.spi, can := s.can, tab := s.tab, thb := s.thb } = s) ∧
      (∀ (serial : List Byte) (first reason : Nat), ∃ t, exec (.grant k seq serial first reason) s = .next t ∧
        (serial = s.getB K.SERIAL → t.thb.refused = decide (reason ≠ 0)) ∧
        (serial ≠ s.getB K.SERIAL → ∀ j ∈ t.thb.joins, j.1 ≠ serial) ∧
        { t with nums := s.nums, tab := s.tab, thb := s.thb } = s)) ∧
    (s.serves = false ∨ s.thb.census = true ∨ s.isUp 0 = false ∨ s.isRoot = true → exec .pendingSend s = .next s) ∧
    (s.serves = true → s.thb.census = false → s.isUp 0 = true → s.isRoot = false → ∃ t, exec .pendingSend s = .next t ∧
      t.SentFrame 0 0x10 [] ∧ { t with thb := s.thb } = s) ∧
    (s.serves = false ∨ s.isUp 0 = false ∨ s.isRoot = true ∨ s.allKnown = false → exec .censusSend s = .next s) ∧
    (s.serves = true → s.isUp 0 = true → s.isRoot = false → s.allKnown = true → ∃ t, exec .censusSend s = .next t ∧ t.thb.census = true ∧
      t.SentFrame 0 0x11 ((s.getB K.SERIAL).take 8 ++ List.replicate (8 - (s.getB K.SERIAL).length) 0 ++ leBytes 2 (t.getU K.MEMBERS)) ∧
      t.getN K.MEMBERS = ((downPorts.filter fun k => s.present k).foldl (fun (n : Nat) (k : Fin 4) => n + s.thb.ports[k].child.members) 1 : Nat) ∧
      t.getN K.CENSUS_TIME = (if s.thb.census then s.getN K.CENSUS_TIME else (s.sinceRecall : Nat)) ∧
      { t with nums := s.nums, thb := s.thb } = s) ∧
    (s.thbOn = false ∨ s.index % 80 ≠ 0 → exec .syncSend s = .next s) ∧
    (s.thbOn = true → s.index % 80 = 0 → ∃ t, exec .syncSend s = .next t ∧
      (∀ k : Fin 4, k ≠ 0 → s.isUp k = true → t.SentFrame k 0x20 (leBytes 8 (linkStamp s.index))) ∧ { t with thb := s.thb } = s) ∧
    (s.thbOn = false ∨ s.index % 80 ≠ 40 ∨ s.isMember = false ∨ s.isUp 0 = false → exec .delayReqSend s = .next s) ∧
    (s.thbOn = true → s.index % 80 = 40 → s.isMember = true → s.isUp 0 = true → ∃ t, exec .delayReqSend s = .next t ∧
      t.thb.time.t3 = some (linkStamp s.index) ∧ (s.isRoot = false → t.SentFrame 0 0x21 (leBytes 8 (linkStamp s.index))) ∧ { t with thb := s.thb } = s) ∧
    (s.heldBatches = [] → s.getN K.TIME_STATE ≠ 1 ∨ s.thb.time.matched = false ∨ s.index % 80 ≠ 0 ∨ s.isMember = false ∨ s.serves = false →
      exec .indexAdopt s = .next s) ∧
    (s.heldBatches = [] → s.getN K.TIME_STATE = 1 → s.thb.time.matched = true → s.index % 80 = 0 → s.isMember = true → s.serves = true → ∃ t,
      exec .indexAdopt s = .next t ∧ t.getN K.TIME_STATE = 2 ∧ t.getN K.INDEX_SHIFT = s.thb.time.shift ∧ t.thb.time.good = 0 ∧
      { t with
        nums := s.nums, free := s.free, modeHist := s.modeHist, index := s.index, points := s.points, jobs := s.jobs, logs := s.logs, spi := s.spi
        can := s.can, tab := s.tab, plateUse := s.plateUse, inputAt := s.inputAt, thb := s.thb } = s) ∧
    (s.isMember = false ∨ s.getN K.TIME_STATE ≠ 4 → exec .holdoverExpiry s = .next s) ∧
    (s.isMember = true → s.getN K.TIME_STATE = 4 → ∃ t, exec .holdoverExpiry s = .next t ∧ t.getN K.TIME_STATE = 1 ∧ t.thb.time.exchanges = 0 ∧
      t.thb.time.matched = false ∧ { t with nums := s.nums, tab := s.tab, thb := s.thb } = s) ∧
    (s.serves = false → exec .vpReportSend s = .next s) ∧
    (s.serves = true → ∃ t, exec .vpReportSend s = .next t ∧
      (s.isMember = true → s.isUp 0 = true → s.isRoot = false → t.SentFrame 0 0x30 (leBytes 6 (s.index / 80 * 80))) ∧
      { t with nums := s.nums, thb := s.thb } = s) ∧
    (s.serves = false ∨ (∀ x, s.thb.site = some x → x.answered = true) → exec .siteAckSend s = .next s) ∧
    (∀ x : SiteSt, s.serves = true → s.thb.site = some x → x.answered = false → ∃ t, exec .siteAckSend s = .next t ∧ t.getN K.SITE_STATE = 2 ∧
      t.getN K.SITE_FROZEN = (s.siteSums.1 : Nat) ∧ t.getN K.SITE_UNLOCKED = (s.siteSums.2.1 : Nat) ∧ t.getN K.SITE_MISSED = (s.siteSums.2.2 : Nat) ∧
      t.thb.site = some { x with answered := true } ∧ { t with nums := s.nums, thb := s.thb } = s) ∧
    (s.heldBatches = [] → s.thb.site = none → exec .siteLimitExpiry s = .next s) ∧
    (s.heldBatches = [] → s.thb.site.isSome = true → ∃ t, exec .siteLimitExpiry s = .next t ∧ t.getN K.SITE_STATE = 0 ∧ t.thb.site = none ∧
      { t with nums := s.nums, spi := s.spi, can := s.can, tab := s.tab, thb := s.thb } = s) ∧
    (s.serves = false ∨ s.thb.refused = false ∨ s.isUp 0 = false ∨ s.isRoot = true → exec .joinRetry s = .next s) ∧
    (s.serves = true → s.thb.refused = true → s.isUp 0 = true → s.isRoot = false → ∃ t, exec .joinRetry s = .next t ∧
      t.SentFrame 0 0x11 ((s.getB K.SERIAL).take 8) ∧ { t with thb := s.thb } = s)

/-- SAMPLE_PERIOD (R24, R58, R73, R344, R359): where the sample clock runs, the sample index increments and the RTC moves by 12,500 ns. In HOLDUP no
mode and no time step takes effect. In a serving mode an accepted time step takes effect, on the RTC and on INDEX_SHIFT alike, and so does a decided
transition, at this index. SAMPLE_RELEASE (R28, R30, R73, R76): a word that waits on a channel is released and waits no more; a whole word is the channel's raw sample, and
(on a channel other than 0, at whose sample a step may begin with new coefficients) its corrected sample is the interpolation of the words corrected so
far; the raw sample of no other channel changes. SUBSTITUTE_BOUNDARY (R93): where no crossing came in time, the substitute boundary lies at channel 0's
sample, and the tracker says so; where nothing waits to take effect at that boundary, nothing more happens at it. WINDOW_PUBLISH (R97): the oldest ended
window is published at its close index, 3,200 periods after its end. EVENT_RECORD (R115, R117): the oldest entry of the event queue leaves it for the
log; the entry that waited behind a full queue takes its place. With nothing that waits, none changes anything. -/
def Obligations.SamplesAdvance : Prop :=
  (∀ (s : State) (bits : List Nat),
      (s.clocksOn = false → s.timeStepNext = 0 → exec (.samplePeriod bits) s = .next s) ∧
      (s.clocksOn = true → s.mode = .holdup → s.timeStepNext = 0 → ∃ t, exec (.samplePeriod bits) s = .next t ∧ t.index = s.index + 1 ∧
        t.rtc = s.rtc + 12500 ∧ t.mode = .holdup ∧ t.modeNext = s.modeNext) ∧
      (s.clocksOn = true → s.mode ≠ .holdup → ∃ t, exec (.samplePeriod bits) s = .next t ∧ t.index = s.index + 1 ∧
        t.rtc = (((s.rtc + 12500 : Nat) : Int) + s.timeStepNext).toNat ∧ t.timeStepNext = 0 ∧
        t.getN K.INDEX_SHIFT = s.getN K.INDEX_SHIFT + s.timeStepNext ∧
        (s.serves = true → t.mode = s.modeNext.getD s.mode ∧ t.modeNext = none ∧
          (∀ m, s.modeNext = some m → t.modeHist = (s.index + 1, m) :: s.modeHist.take 7)) ∧
        (s.serves = false → t.mode = s.mode ∧ t.modeNext = s.modeNext))) ∧
  (∀ (s : State) (p : Fin 8),
      (∀ (c : Fin 7) (o : LaneObs), s.points[p].chans[c].out = none → exec (.sampleRelease p c o) s = .next s) ∧
      (∀ (c : Fin 7) (o : LaneObs) (w : Word20), s.points[p].chans[c].out = some w → ∃ t, exec (.sampleRelease p c o) s = .next t ∧
        t.points[p].chans[c].out = none ∧
        (o.lost = false → o.uncorrectable = false → t.getN (K.RAW_SAMPLE p (c + 1)) = w.code ∧
          (c ≠ 0 → t.getN (K.CORR_SAMPLE p (c + 1)) = (interpolate s.points[p].app.osr500 (s.getU (K.ACTIVE_TRIM p (c + 1)))
            ((correctWord (s.getU (K.ACTIVE_GAIN p (c + 1))) (s.getN (K.ACTIVE_OFFSET p (c + 1))) w.code w.qual, w.qual) ::
              s.points[p].chans[c].hist.take 15)).1)) ∧
        (c ≠ 0 → ∀ (q : Fin 8) (d : Fin 7), (q ≠ p ∨ d ≠ c) → t.getN (K.RAW_SAMPLE q (d + 1)) = s.getN (K.RAW_SAMPLE q (d + 1)) ∧
          t.getN (K.CORR_SAMPLE q (d + 1)) = s.getN (K.CORR_SAMPLE q (d + 1))) ∧
        { t with
          nums := s.nums, free := s.free, attended := s.attended, modeNext := s.modeNext, lockLatch := s.lockLatch, integrityFlag := s.integrityFlag
          lanes := s.lanes, laneSub := s.laneSub, ports := s.ports, spares := s.spares, mclk := s.mclk, points := s.points
          pulses := s.pulses, evq := s.evq, evOver := s.evOver, jobs := s.jobs, logs := s.logs, merges := s.merges, journal := s.journal, spi := s.spi
          can := s.can, stream := s.stream, tab := s.tab, cal := s.cal, plateUse := s.plateUse, sessions := s.sessions } = s) ∧
      (∀ n, n = s.points[p].chans[(0 : Fin 7)].n →
        (s.points[p].started = false ∨ s.points[p].bound.idx = n ∨ substituteDue s.points[p] n = false → exec (.substituteBoundary p) s = .next s) ∧
        (s.points[p].started = true → s.points[p].bound.idx ≠ n → substituteDue s.points[p] n = true → ∃ (t u : State), exec (.substituteBoundary p) s = .next t ∧
          u.getN (K.LAST_BOUNDARY p) = (n : Nat) ∧ u.getN (K.ZC_FRAC p) = 0 ∧ u.getN (K.TRACK_STATE p) = 2 ∧
          t = u.stepAtOnce p ∧ (u.stepDue p = false → t = u) ∧
          { t with
            nums := s.nums, lanes := s.lanes, laneSub := s.laneSub, ports := s.ports, spares := s.spares, mclk := s.mclk
            points := s.points, pulses := s.pulses, evq := s.evq, evOver := s.evOver, jobs := s.jobs, logs := s.logs, merges := s.merges
            journal := s.journal, spi := s.spi, can := s.can, tab := s.tab, cal := s.cal, plateUse := s.plateUse, sessions := s.sessions } = s)) ∧
      (s.points[p].ended = [] → exec (.windowPublish p) s = .next s) ∧
      (∀ ew later, s.points[p].ended = ew :: later → ∃ t, exec (.windowPublish p) s = .next t ∧
        t.getN (K.WIN_INDEX p 1) = (ew.win.start.idx : Nat) ∧ t.getN (K.WIN_INDEX p 2) = (ew.stop.idx : Nat) ∧
        t.getN (K.WIN_INDEX p 3) = (ew.stop.idx + 3200 : Nat) ∧ t.getN (K.WIN_CYCLES p) = (windowCycles s.points[p].app.cfg : Nat) ∧
        { t with nums := s.nums, points := s.points, evq := s.evq, evOver := s.evOver, tab := s.tab, sessions := s.sessions } = s) ∧
      (s.evq = [] → exec .eventRecord s = .next s) ∧
      (∀ e rest, s.evq = e :: rest → ∃ t, exec .eventRecord s = .next t ∧ t.evq = rest ++ s.evOver.take 1 ∧ t.evOver = s.evOver.drop 1 ∧
        t.jobs.length = s.jobs.length + 1 ∧ (∃ j ∈ t.jobs, j.log = .event ∧ j.seq = (if s.jobs = [] then some (s.log .event).total else none)) ∧ { t with evq := s.evq, evOver := s.evOver, jobs := s.jobs, logs := s.logs } = s))
end

