-- ==== Sys2Proof/Laws/State.lean ====
section
/-! SUPPORT. What each shared update of the state leaves as it is: one lemma per field per update, so that no proof unfolds a record update. -/

namespace Sys2Proof.Machine.State

open Sys2Proof

/-! ### setN -/

@[simp] theorem setN_blobs (s : State) (k : Nat) (v : Int) : (s.setN k v).blobs = s.blobs := (rfl)
@[simp] theorem setN_pending (s : State) (k : Nat) (v : Int) : (s.setN k v).pending = s.pending := (rfl)
@[simp] theorem setN_free (s : State) (k : Nat) (v : Int) : (s.setN k v).free = s.free := (rfl)
@[simp] theorem setN_mode (s : State) (k : Nat) (v : Int) : (s.setN k v).mode = s.mode := (rfl)
@[simp] theorem setN_attended (s : State) (k : Nat) (v : Int) : (s.setN k v).attended = s.attended := (rfl)
@[simp] theorem setN_modeNext (s : State) (k : Nat) (v : Int) : (s.setN k v).modeNext = s.modeNext := (rfl)
@[simp] theorem setN_modeHist (s : State) (k : Nat) (v : Int) : (s.setN k v).modeHist = s.modeHist := (rfl)
@[simp] theorem setN_rtc (s : State) (k : Nat) (v : Int) : (s.setN k v).rtc = s.rtc := (rfl)
@[simp] theorem setN_index (s : State) (k : Nat) (v : Int) : (s.setN k v).index = s.index := (rfl)
@[simp] theorem setN_timeStepNext (s : State) (k : Nat) (v : Int) : (s.setN k v).timeStepNext = s.timeStepNext := (rfl)
@[simp] theorem setN_startup (s : State) (k : Nat) (v : Int) : (s.setN k v).startup = s.startup := (rfl)
@[simp] theorem setN_twins (s : State) (k : Nat) (v : Int) : (s.setN k v).twins = s.twins := (rfl)
@[simp] theorem setN_lockLatch (s : State) (k : Nat) (v : Int) : (s.setN k v).lockLatch = s.lockLatch := (rfl)
@[simp] theorem setN_lockNvm (s : State) (k : Nat) (v : Int) : (s.setN k v).lockNvm = s.lockNvm := (rfl)
@[simp] theorem setN_integrityFlag (s : State) (k : Nat) (v : Int) : (s.setN k v).integrityFlag = s.integrityFlag := (rfl)
@[simp] theorem setN_lanes (s : State) (k : Nat) (v : Int) : (s.setN k v).lanes = s.lanes := (rfl)
@[simp] theorem setN_laneSub (s : State) (k : Nat) (v : Int) : (s.setN k v).laneSub = s.laneSub := (rfl)
@[simp] theorem setN_ports (s : State) (k : Nat) (v : Int) : (s.setN k v).ports = s.ports := (rfl)
@[simp] theorem setN_spares (s : State) (k : Nat) (v : Int) : (s.setN k v).spares = s.spares := (rfl)
@[simp] theorem setN_mclk (s : State) (k : Nat) (v : Int) : (s.setN k v).mclk = s.mclk := (rfl)
@[simp] theorem setN_blockNo (s : State) (k : Nat) (v : Int) : (s.setN k v).blockNo = s.blockNo := (rfl)
@[simp] theorem setN_portNoSpare (s : State) (k : Nat) (v : Int) : (s.setN k v).portNoSpare = s.portNoSpare := (rfl)
@[simp] theorem setN_learned (s : State) (k : Nat) (v : Int) : (s.setN k v).learned = s.learned := (rfl)
@[simp] theorem setN_points (s : State) (k : Nat) (v : Int) : (s.setN k v).points = s.points := (rfl)
@[simp] theorem setN_pulses (s : State) (k : Nat) (v : Int) : (s.setN k v).pulses = s.pulses := (rfl)
@[simp] theorem setN_demand (s : State) (k : Nat) (v : Int) : (s.setN k v).demand = s.demand := (rfl)
@[simp] theorem setN_evq (s : State) (k : Nat) (v : Int) : (s.setN k v).evq = s.evq := (rfl)
@[simp] theorem setN_evOver (s : State) (k : Nat) (v : Int) : (s.setN k v).evOver = s.evOver := (rfl)
@[simp] theorem setN_jobs (s : State) (k : Nat) (v : Int) : (s.setN k v).jobs = s.jobs := (rfl)
@[simp] theorem setN_logs (s : State) (k : Nat) (v : Int) : (s.setN k v).logs = s.logs := (rfl)
@[simp] theorem setN_merges (s : State) (k : Nat) (v : Int) : (s.setN k v).merges = s.merges := (rfl)
@[simp] theorem setN_journal (s : State) (k : Nat) (v : Int) : (s.setN k v).journal = s.journal := (rfl)
@[simp] theorem setN_store (s : State) (k : Nat) (v : Int) : (s.setN k v).store = s.store := (rfl)
@[simp] theorem setN_nvm (s : State) (k : Nat) (v : Int) : (s.setN k v).nvm = s.nvm := (rfl)
@[simp] theorem setN_scratch (s : State) (k : Nat) (v : Int) : (s.setN k v).scratch = s.scratch := (rfl)
@[simp] theorem setN_spi (s : State) (k : Nat) (v : Int) : (s.setN k v).spi = s.spi := (rfl)
@[simp] theorem setN_can (s : State) (k : Nat) (v : Int) : (s.setN k v).can = s.can := (rfl)
@[simp] theorem setN_bus (s : State) (k : Nat) (v : Int) : (s.setN k v).bus = s.bus := (rfl)
@[simp] theorem setN_stream (s : State) (k : Nat) (v : Int) : (s.setN k v).stream = s.stream := (rfl)
@[simp] theorem setN_tab (s : State) (k : Nat) (v : Int) : (s.setN k v).tab = s.tab := (rfl)
@[simp] theorem setN_tabLast (s : State) (k : Nat) (v : Int) : (s.setN k v).tabLast = s.tabLast := (rfl)
@[simp] theorem setN_heldBatches (s : State) (k : Nat) (v : Int) : (s.setN k v).heldBatches = s.heldBatches := (rfl)
@[simp] theorem setN_cal (s : State) (k : Nat) (v : Int) : (s.setN k v).cal = s.cal := (rfl)
@[simp] theorem setN_plateUse (s : State) (k : Nat) (v : Int) : (s.setN k v).plateUse = s.plateUse := (rfl)
@[simp] theorem setN_sealedRef (s : State) (k : Nat) (v : Int) : (s.setN k v).sealedRef = s.sealedRef := (rfl)
@[simp] theorem setN_convs (s : State) (k : Nat) (v : Int) : (s.setN k v).convs = s.convs := (rfl)
@[simp] theorem setN_couples (s : State) (k : Nat) (v : Int) : (s.setN k v).couples = s.couples := (rfl)
@[simp] theorem setN_inputAt (s : State) (k : Nat) (v : Int) : (s.setN k v).inputAt = s.inputAt := (rfl)
@[simp] theorem setN_auxRun (s : State) (k : Nat) (v : Int) : (s.setN k v).auxRun = s.auxRun := (rfl)
@[simp] theorem setN_banks (s : State) (k : Nat) (v : Int) : (s.setN k v).banks = s.banks := (rfl)
@[simp] theorem setN_march (s : State) (k : Nat) (v : Int) : (s.setN k v).march = s.march := (rfl)
@[simp] theorem setN_bankSub (s : State) (k : Nat) (v : Int) : (s.setN k v).bankSub = s.bankSub := (rfl)
@[simp] theorem setN_sram (s : State) (k : Nat) (v : Int) : (s.setN k v).sram = s.sram := (rfl)
@[simp] theorem setN_sweepAt (s : State) (k : Nat) (v : Int) : (s.setN k v).sweepAt = s.sweepAt := (rfl)
@[simp] theorem setN_stringReads (s : State) (k : Nat) (v : Int) : (s.setN k v).stringReads = s.stringReads := (rfl)
@[simp] theorem setN_sessions (s : State) (k : Nat) (v : Int) : (s.setN k v).sessions = s.sessions := (rfl)
@[simp] theorem setN_sign (s : State) (k : Nat) (v : Int) : (s.setN k v).sign = s.sign := (rfl)
@[simp] theorem setN_disp (s : State) (k : Nat) (v : Int) : (s.setN k v).disp = s.disp := (rfl)
@[simp] theorem setN_tamper (s : State) (k : Nat) (v : Int) : (s.setN k v).tamper = s.tamper := (rfl)
@[simp] theorem setN_thb (s : State) (k : Nat) (v : Int) : (s.setN k v).thb = s.thb := (rfl)
@[simp] theorem setN_svc (s : State) (k : Nat) (v : Int) : (s.setN k v).svc = s.svc := (rfl)

/-! ### setB -/

@[simp] theorem setB_nums (s : State) (k : Nat) (v : List Byte) : (s.setB k v).nums = s.nums := (rfl)
@[simp] theorem setB_pending (s : State) (k : Nat) (v : List Byte) : (s.setB k v).pending = s.pending := (rfl)
@[simp] theorem setB_free (s : State) (k : Nat) (v : List Byte) : (s.setB k v).free = s.free := (rfl)
@[simp] theorem setB_mode (s : State) (k : Nat) (v : List Byte) : (s.setB k v).mode = s.mode := (rfl)
@[simp] theorem setB_attended (s : State) (k : Nat) (v : List Byte) : (s.setB k v).attended = s.attended := (rfl)
@[simp] theorem setB_modeNext (s : State) (k : Nat) (v : List Byte) : (s.setB k v).modeNext = s.modeNext := (rfl)
@[simp] theorem setB_modeHist (s : State) (k : Nat) (v : List Byte) : (s.setB k v).modeHist = s.modeHist := (rfl)
@[simp] theorem setB_rtc (s : State) (k : Nat) (v : List Byte) : (s.setB k v).rtc = s.rtc := (rfl)
@[simp] theorem setB_index (s : State) (k : Nat) (v : List Byte) : (s.setB k v).index = s.index := (rfl)
@[simp] theorem setB_timeStepNext (s : State) (k : Nat) (v : List Byte) : (s.setB k v).timeStepNext = s.timeStepNext := (rfl)
@[simp] theorem setB_startup (s : State) (k : Nat) (v : List Byte) : (s.setB k v).startup = s.startup := (rfl)
@[simp] theorem setB_twins (s : State) (k : Nat) (v : List Byte) : (s.setB k v).twins = s.twins := (rfl)
@[simp] theorem setB_lockLatch (s : State) (k : Nat) (v : List Byte) : (s.setB k v).lockLatch = s.lockLatch := (rfl)
@[simp] theorem setB_lockNvm (s : State) (k : Nat) (v : List Byte) : (s.setB k v).lockNvm = s.lockNvm := (rfl)
@[simp] theorem setB_integrityFlag (s : State) (k : Nat) (v : List Byte) : (s.setB k v).integrityFlag = s.integrityFlag := (rfl)
@[simp] theorem setB_lanes (s : State) (k : Nat) (v : List Byte) : (s.setB k v).lanes = s.lanes := (rfl)
@[simp] theorem setB_laneSub (s : State) (k : Nat) (v : List Byte) : (s.setB k v).laneSub = s.laneSub := (rfl)
@[simp] theorem setB_ports (s : State) (k : Nat) (v : List Byte) : (s.setB k v).ports = s.ports := (rfl)
@[simp] theorem setB_spares (s : State) (k : Nat) (v : List Byte) : (s.setB k v).spares = s.spares := (rfl)
@[simp] theorem setB_mclk (s : State) (k : Nat) (v : List Byte) : (s.setB k v).mclk = s.mclk := (rfl)
@[simp] theorem setB_blockNo (s : State) (k : Nat) (v : List Byte) : (s.setB k v).blockNo = s.blockNo := (rfl)
@[simp] theorem setB_portNoSpare (s : State) (k : Nat) (v : List Byte) : (s.setB k v).portNoSpare = s.portNoSpare := (rfl)
@[simp] theorem setB_learned (s : State) (k : Nat) (v : List Byte) : (s.setB k v).learned = s.learned := (rfl)
@[simp] theorem setB_points (s : State) (k : Nat) (v : List Byte) : (s.setB k v).points = s.points := (rfl)
@[simp] theorem setB_pulses (s : State) (k : Nat) (v : List Byte) : (s.setB k v).pulses = s.pulses := (rfl)
@[simp] theorem setB_demand (s : State) (k : Nat) (v : List Byte) : (s.setB k v).demand = s.demand := (rfl)
@[simp] theorem setB_evq (s : State) (k : Nat) (v : List Byte) : (s.setB k v).evq = s.evq := (rfl)
@[simp] theorem setB_evOver (s : State) (k : Nat) (v : List Byte) : (s.setB k v).evOver = s.evOver := (rfl)
@[simp] theorem setB_jobs (s : State) (k : Nat) (v : List Byte) : (s.setB k v).jobs = s.jobs := (rfl)
@[simp] theorem setB_logs (s : State) (k : Nat) (v : List Byte) : (s.setB k v).logs = s.logs := (rfl)
@[simp] theorem setB_merges (s : State) (k : Nat) (v : List Byte) : (s.setB k v).merges = s.merges := (rfl)
@[simp] theorem setB_journal (s : State) (k : Nat) (v : List Byte) : (s.setB k v).journal = s.journal := (rfl)
@[simp] theorem setB_store (s : State) (k : Nat) (v : List Byte) : (s.setB k v).store = s.store := (rfl)
@[simp] theorem setB_nvm (s : State) (k : Nat) (v : List Byte) : (s.setB k v).nvm = s.nvm := (rfl)
@[simp] theorem setB_scratch (s : State) (k : Nat) (v : List Byte) : (s.setB k v).scratch = s.scratch := (rfl)
@[simp] theorem setB_spi (s : State) (k : Nat) (v : List Byte) : (s.setB k v).spi = s.spi := (rfl)
@[simp] theorem setB_can (s : State) (k : Nat) (v : List Byte) : (s.setB k v).can = s.can := (rfl)
@[simp] theorem setB_bus (s : State) (k : Nat) (v : List Byte) : (s.setB k v).bus = s.bus := (rfl)
@[simp] theorem setB_stream (s : State) (k : Nat) (v : List Byte) : (s.setB k v).stream = s.stream := (rfl)
@[simp] theorem setB_tab (s : State) (k : Nat) (v : List Byte) : (s.setB k v).tab = s.tab := (rfl)
@[simp] theorem setB_tabLast (s : State) (k : Nat) (v : List Byte) : (s.setB k v).tabLast = s.tabLast := (rfl)
@[simp] theorem setB_heldBatches (s : State) (k : Nat) (v : List Byte) : (s.setB k v).heldBatches = s.heldBatches := (rfl)
@[simp] theorem setB_cal (s : State) (k : Nat) (v : List Byte) : (s.setB k v).cal = s.cal := (rfl)
@[simp] theorem setB_plateUse (s : State) (k : Nat) (v : List Byte) : (s.setB k v).plateUse = s.plateUse := (rfl)
@[simp] theorem setB_sealedRef (s : State) (k : Nat) (v : List Byte) : (s.setB k v).sealedRef = s.sealedRef := (rfl)
@[simp] theorem setB_convs (s : State) (k : Nat) (v : List Byte) : (s.setB k v).convs = s.convs := (rfl)
@[simp] theorem setB_couples (s : State) (k : Nat) (v : List Byte) : (s.setB k v).couples = s.couples := (rfl)
@[simp] theorem setB_inputAt (s : State) (k : Nat) (v : List Byte) : (s.setB k v).inputAt = s.inputAt := (rfl)
@[simp] theorem setB_auxRun (s : State) (k : Nat) (v : List Byte) : (s.setB k v).auxRun = s.auxRun := (rfl)
@[simp] theorem setB_banks (s : State) (k : Nat) (v : List Byte) : (s.setB k v).banks = s.banks := (rfl)
@[simp] theorem setB_march (s : State) (k : Nat) (v : List Byte) : (s.setB k v).march = s.march := (rfl)
@[simp] theorem setB_bankSub (s : State) (k : Nat) (v : List Byte) : (s.setB k v).bankSub = s.bankSub := (rfl)
@[simp] theorem setB_sram (s : State) (k : Nat) (v : List Byte) : (s.setB k v).sram = s.sram := (rfl)
@[simp] theorem setB_sweepAt (s : State) (k : Nat) (v : List Byte) : (s.setB k v).sweepAt = s.sweepAt := (rfl)
@[simp] theorem setB_stringReads (s : State) (k : Nat) (v : List Byte) : (s.setB k v).stringReads = s.stringReads := (rfl)
@[simp] theorem setB_sessions (s : State) (k : Nat) (v : List Byte) : (s.setB k v).sessions = s.sessions := (rfl)
@[simp] theorem setB_sign (s : State) (k : Nat) (v : List Byte) : (s.setB k v).sign = s.sign := (rfl)
@[simp] theorem setB_disp (s : State) (k : Nat) (v : List Byte) : (s.setB k v).disp = s.disp := (rfl)
@[simp] theorem setB_tamper (s : State) (k : Nat) (v : List Byte) : (s.setB k v).tamper = s.tamper := (rfl)
@[simp] theorem setB_thb (s : State) (k : Nat) (v : List Byte) : (s.setB k v).thb = s.thb := (rfl)
@[simp] theorem setB_svc (s : State) (k : Nat) (v : List Byte) : (s.setB k v).svc = s.svc := (rfl)

/-! ### at' -/

@[simp] theorem atTime_nums (s : State) (ns : Nat) : (s.at' ns).nums = s.nums := rfl
@[simp] theorem atTime_blobs (s : State) (ns : Nat) : (s.at' ns).blobs = s.blobs := rfl
@[simp] theorem atTime_pending (s : State) (ns : Nat) : (s.at' ns).pending = s.pending := rfl
@[simp] theorem atTime_free (s : State) (ns : Nat) : (s.at' ns).free = s.free := rfl
@[simp] theorem atTime_mode (s : State) (ns : Nat) : (s.at' ns).mode = s.mode := rfl
@[simp] theorem atTime_attended (s : State) (ns : Nat) : (s.at' ns).attended = s.attended := rfl
@[simp] theorem atTime_modeNext (s : State) (ns : Nat) : (s.at' ns).modeNext = s.modeNext := rfl
@[simp] theorem atTime_modeHist (s : State) (ns : Nat) : (s.at' ns).modeHist = s.modeHist := rfl
@[simp] theorem atTime_index (s : State) (ns : Nat) : (s.at' ns).index = s.index := rfl
@[simp] theorem atTime_timeStepNext (s : State) (ns : Nat) : (s.at' ns).timeStepNext = s.timeStepNext := rfl
@[simp] theorem atTime_startup (s : State) (ns : Nat) : (s.at' ns).startup = s.startup := rfl
@[simp] theorem atTime_twins (s : State) (ns : Nat) : (s.at' ns).twins = s.twins := rfl
@[simp] theorem atTime_lockLatch (s : State) (ns : Nat) : (s.at' ns).lockLatch = s.lockLatch := rfl
@[simp] theorem atTime_lockNvm (s : State) (ns : Nat) : (s.at' ns).lockNvm = s.lockNvm := rfl
@[simp] theorem atTime_integrityFlag (s : State) (ns : Nat) : (s.at' ns).integrityFlag = s.integrityFlag := rfl
@[simp] theorem atTime_lanes (s : State) (ns : Nat) : (s.at' ns).lanes = s.lanes := rfl
@[simp] theorem atTime_laneSub (s : State) (ns : Nat) : (s.at' ns).laneSub = s.laneSub := rfl
@[simp] theorem atTime_ports (s : State) (ns : Nat) : (s.at' ns).ports = s.ports := rfl
@[simp] theorem atTime_spares (s : State) (ns : Nat) : (s.at' ns).spares = s.spares := rfl
@[simp] theorem atTime_mclk (s : State) (ns : Nat) : (s.at' ns).mclk = s.mclk := rfl
@[simp] theorem atTime_blockNo (s : State) (ns : Nat) : (s.at' ns).blockNo = s.blockNo := rfl
@[simp] theorem atTime_portNoSpare (s : State) (ns : Nat) : (s.at' ns).portNoSpare = s.portNoSpare := rfl
@[simp] theorem atTime_learned (s : State) (ns : Nat) : (s.at' ns).learned = s.learned := rfl
@[simp] theorem atTime_points (s : State) (ns : Nat) : (s.at' ns).points = s.points := rfl
@[simp] theorem atTime_pulses (s : State) (ns : Nat) : (s.at' ns).pulses = s.pulses := rfl
@[simp] theorem atTime_demand (s : State) (ns : Nat) : (s.at' ns).demand = s.demand := rfl
@[simp] theorem atTime_evq (s : State) (ns : Nat) : (s.at' ns).evq = s.evq := rfl
@[simp] theorem atTime_evOver (s : State) (ns : Nat) : (s.at' ns).evOver = s.evOver := rfl
@[simp] theorem atTime_jobs (s : State) (ns : Nat) : (s.at' ns).jobs = s.jobs := rfl
@[simp] theorem atTime_logs (s : State) (ns : Nat) : (s.at' ns).logs = s.logs := rfl
@[simp] theorem atTime_merges (s : State) (ns : Nat) : (s.at' ns).merges = s.merges := rfl
@[simp] theorem atTime_journal (s : State) (ns : Nat) : (s.at' ns).journal = s.journal := rfl
@[simp] theorem atTime_store (s : State) (ns : Nat) : (s.at' ns).store = s.store := rfl
@[simp] theorem atTime_nvm (s : State) (ns : Nat) : (s.at' ns).nvm = s.nvm := rfl
@[simp] theorem atTime_scratch (s : State) (ns : Nat) : (s.at' ns).scratch = s.scratch := rfl
@[simp] theorem atTime_spi (s : State) (ns : Nat) : (s.at' ns).spi = s.spi := rfl
@[simp] theorem atTime_can (s : State) (ns : Nat) : (s.at' ns).can = s.can := rfl
@[simp] theorem atTime_bus (s : State) (ns : Nat) : (s.at' ns).bus = s.bus := rfl
@[simp] theorem atTime_stream (s : State) (ns : Nat) : (s.at' ns).stream = s.stream := rfl
@[simp] theorem atTime_tab (s : State) (ns : Nat) : (s.at' ns).tab = s.tab := rfl
@[simp] theorem atTime_tabLast (s : State) (ns : Nat) : (s.at' ns).tabLast = s.tabLast := rfl
@[simp] theorem atTime_heldBatches (s : State) (ns : Nat) : (s.at' ns).heldBatches = s.heldBatches := rfl
@[simp] theorem atTime_cal (s : State) (ns : Nat) : (s.at' ns).cal = s.cal := rfl
@[simp] theorem atTime_plateUse (s : State) (ns : Nat) : (s.at' ns).plateUse = s.plateUse := rfl
@[simp] theorem atTime_sealedRef (s : State) (ns : Nat) : (s.at' ns).sealedRef = s.sealedRef := rfl
@[simp] theorem atTime_convs (s : State) (ns : Nat) : (s.at' ns).convs = s.convs := rfl
@[simp] theorem atTime_couples (s : State) (ns : Nat) : (s.at' ns).couples = s.couples := rfl
@[simp] theorem atTime_inputAt (s : State) (ns : Nat) : (s.at' ns).inputAt = s.inputAt := rfl
@[simp] theorem atTime_auxRun (s : State) (ns : Nat) : (s.at' ns).auxRun = s.auxRun := rfl
@[simp] theorem atTime_banks (s : State) (ns : Nat) : (s.at' ns).banks = s.banks := rfl
@[simp] theorem atTime_march (s : State) (ns : Nat) : (s.at' ns).march = s.march := rfl
@[simp] theorem atTime_bankSub (s : State) (ns : Nat) : (s.at' ns).bankSub = s.bankSub := rfl
@[simp] theorem atTime_sram (s : State) (ns : Nat) : (s.at' ns).sram = s.sram := rfl
@[simp] theorem atTime_sweepAt (s : State) (ns : Nat) : (s.at' ns).sweepAt = s.sweepAt := rfl
@[simp] theorem atTime_stringReads (s : State) (ns : Nat) : (s.at' ns).stringReads = s.stringReads := rfl
@[simp] theorem atTime_sessions (s : State) (ns : Nat) : (s.at' ns).sessions = s.sessions := rfl
@[simp] theorem atTime_sign (s : State) (ns : Nat) : (s.at' ns).sign = s.sign := rfl
@[simp] theorem atTime_disp (s : State) (ns : Nat) : (s.at' ns).disp = s.disp := rfl
@[simp] theorem atTime_tamper (s : State) (ns : Nat) : (s.at' ns).tamper = s.tamper := rfl
@[simp] theorem atTime_thb (s : State) (ns : Nat) : (s.at' ns).thb = s.thb := rfl
@[simp] theorem atTime_svc (s : State) (ns : Nat) : (s.at' ns).svc = s.svc := rfl

/-! ### queueUnit -/

@[simp] theorem queueUnit_nums (s : State) (u : JUnit) : (s.queueUnit u).nums = s.nums := rfl
@[simp] theorem queueUnit_blobs (s : State) (u : JUnit) : (s.queueUnit u).blobs = s.blobs := rfl
@[simp] theorem queueUnit_pending (s : State) (u : JUnit) : (s.queueUnit u).pending = s.pending := rfl
@[simp] theorem queueUnit_free (s : State) (u : JUnit) : (s.queueUnit u).free = s.free := rfl
@[simp] theorem queueUnit_mode (s : State) (u : JUnit) : (s.queueUnit u).mode = s.mode := rfl
@[simp] theorem queueUnit_attended (s : State) (u : JUnit) : (s.queueUnit u).attended = s.attended := rfl
@[simp] theorem queueUnit_modeNext (s : State) (u : JUnit) : (s.queueUnit u).modeNext = s.modeNext := rfl
@[simp] theorem queueUnit_modeHist (s : State) (u : JUnit) : (s.queueUnit u).modeHist = s.modeHist := rfl
@[simp] theorem queueUnit_rtc (s : State) (u : JUnit) : (s.queueUnit u).rtc = s.rtc := rfl
@[simp] theorem queueUnit_index (s : State) (u : JUnit) : (s.queueUnit u).index = s.index := rfl
@[simp] theorem queueUnit_timeStepNext (s : State) (u : JUnit) : (s.queueUnit u).timeStepNext = s.timeStepNext := rfl
@[simp] theorem queueUnit_startup (s : State) (u : JUnit) : (s.queueUnit u).startup = s.startup := rfl
@[simp] theorem queueUnit_twins (s : State) (u : JUnit) : (s.queueUnit u).twins = s.twins := rfl
@[simp] theorem queueUnit_lockLatch (s : State) (u : JUnit) : (s.queueUnit u).lockLatch = s.lockLatch := rfl
@[simp] theorem queueUnit_lockNvm (s : State) (u : JUnit) : (s.queueUnit u).lockNvm = s.lockNvm := rfl
@[simp] theorem queueUnit_integrityFlag (s : State) (u : JUnit) : (s.queueUnit u).integrityFlag = s.integrityFlag := rfl
@[simp] theorem queueUnit_lanes (s : State) (u : JUnit) : (s.queueUnit u).lanes = s.lanes := rfl
@[simp] theorem queueUnit_laneSub (s : State) (u : JUnit) : (s.queueUnit u).laneSub = s.laneSub := rfl
@[simp] theorem queueUnit_ports (s : State) (u : JUnit) : (s.queueUnit u).ports = s.ports := rfl
@[simp] theorem queueUnit_spares (s : State) (u : JUnit) : (s.queueUnit u).spares = s.spares := rfl
@[simp] theorem queueUnit_mclk (s : State) (u : JUnit) : (s.queueUnit u).mclk = s.mclk := rfl
@[simp] theorem queueUnit_blockNo (s : State) (u : JUnit) : (s.queueUnit u).blockNo = s.blockNo := rfl
@[simp] theorem queueUnit_portNoSpare (s : State) (u : JUnit) : (s.queueUnit u).portNoSpare = s.portNoSpare := rfl
@[simp] theorem queueUnit_learned (s : State) (u : JUnit) : (s.queueUnit u).learned = s.learned := rfl
@[simp] theorem queueUnit_points (s : State) (u : JUnit) : (s.queueUnit u).points = s.points := rfl
@[simp] theorem queueUnit_pulses (s : State) (u : JUnit) : (s.queueUnit u).pulses = s.pulses := rfl
@[simp] theorem queueUnit_demand (s : State) (u : JUnit) : (s.queueUnit u).demand = s.demand := rfl
@[simp] theorem queueUnit_evq (s : State) (u : JUnit) : (s.queueUnit u).evq = s.evq := rfl
@[simp] theorem queueUnit_evOver (s : State) (u : JUnit) : (s.queueUnit u).evOver = s.evOver := rfl
@[simp] theorem queueUnit_jobs (s : State) (u : JUnit) : (s.queueUnit u).jobs = s.jobs := rfl
@[simp] theorem queueUnit_logs (s : State) (u : JUnit) : (s.queueUnit u).logs = s.logs := rfl
@[simp] theorem queueUnit_merges (s : State) (u : JUnit) : (s.queueUnit u).merges = s.merges := rfl
@[simp] theorem queueUnit_store (s : State) (u : JUnit) : (s.queueUnit u).store = s.store := rfl
@[simp] theorem queueUnit_nvm (s : State) (u : JUnit) : (s.queueUnit u).nvm = s.nvm := rfl
@[simp] theorem queueUnit_scratch (s : State) (u : JUnit) : (s.queueUnit u).scratch = s.scratch := rfl
@[simp] theorem queueUnit_spi (s : State) (u : JUnit) : (s.queueUnit u).spi = s.spi := rfl
@[simp] theorem queueUnit_can (s : State) (u : JUnit) : (s.queueUnit u).can = s.can := rfl
@[simp] theorem queueUnit_bus (s : State) (u : JUnit) : (s.queueUnit u).bus = s.bus := rfl
@[simp] theorem queueUnit_stream (s : State) (u : JUnit) : (s.queueUnit u).stream = s.stream := rfl
@[simp] theorem queueUnit_tab (s : State) (u : JUnit) : (s.queueUnit u).tab = s.tab := rfl
@[simp] theorem queueUnit_tabLast (s : State) (u : JUnit) : (s.queueUnit u).tabLast = s.tabLast := rfl
@[simp] theorem queueUnit_heldBatches (s : State) (u : JUnit) : (s.queueUnit u).heldBatches = s.heldBatches := rfl
@[simp] theorem queueUnit_cal (s : State) (u : JUnit) : (s.queueUnit u).cal = s.cal := rfl
@[simp] theorem queueUnit_plateUse (s : State) (u : JUnit) : (s.queueUnit u).plateUse = s.plateUse := rfl
@[simp] theorem queueUnit_sealedRef (s : State) (u : JUnit) : (s.queueUnit u).sealedRef = s.sealedRef := rfl
@[simp] theorem queueUnit_convs (s : State) (u : JUnit) : (s.queueUnit u).convs = s.convs := rfl
@[simp] theorem queueUnit_couples (s : State) (u : JUnit) : (s.queueUnit u).couples = s.couples := rfl
@[simp] theorem queueUnit_inputAt (s : State) (u : JUnit) : (s.queueUnit u).inputAt = s.inputAt := rfl
@[simp] theorem queueUnit_auxRun (s : State) (u : JUnit) : (s.queueUnit u).auxRun = s.auxRun := rfl
@[simp] theorem queueUnit_banks (s : State) (u : JUnit) : (s.queueUnit u).banks = s.banks := rfl
@[simp] theorem queueUnit_march (s : State) (u : JUnit) : (s.queueUnit u).march = s.march := rfl
@[simp] theorem queueUnit_bankSub (s : State) (u : JUnit) : (s.queueUnit u).bankSub = s.bankSub := rfl
@[simp] theorem queueUnit_sram (s : State) (u : JUnit) : (s.queueUnit u).sram = s.sram := rfl
@[simp] theorem queueUnit_sweepAt (s : State) (u : JUnit) : (s.queueUnit u).sweepAt = s.sweepAt := rfl
@[simp] theorem queueUnit_stringReads (s : State) (u : JUnit) : (s.queueUnit u).stringReads = s.stringReads := rfl
@[simp] theorem queueUnit_sessions (s : State) (u : JUnit) : (s.queueUnit u).sessions = s.sessions := rfl
@[simp] theorem queueUnit_sign (s : State) (u : JUnit) : (s.queueUnit u).sign = s.sign := rfl
@[simp] theorem queueUnit_disp (s : State) (u : JUnit) : (s.queueUnit u).disp = s.disp := rfl
@[simp] theorem queueUnit_tamper (s : State) (u : JUnit) : (s.queueUnit u).tamper = s.tamper := rfl
@[simp] theorem queueUnit_thb (s : State) (u : JUnit) : (s.queueUnit u).thb = s.thb := rfl
@[simp] theorem queueUnit_svc (s : State) (u : JUnit) : (s.queueUnit u).svc = s.svc := rfl

/-! ### updPoint -/

@[simp] theorem updPoint_nums (s : State) (p : Fin 8) (f : Point → Point) : (s.updPoint p f).nums = s.nums := rfl
@[simp] theorem updPoint_blobs (s : State) (p : Fin 8) (f : Point → Point) : (s.updPoint p f).blobs = s.blobs := rfl
@[simp] theorem updPoint_pending (s : State) (p : Fin 8) (f : Point → Point) : (s.updPoint p f).pending = s.pending := rfl
@[simp] theorem updPoint_free (s : State) (p : Fin 8) (f : Point → Point) : (s.updPoint p f).free = s.free := rfl
@[simp] theorem updPoint_mode (s : State) (p : Fin 8) (f : Point → Point) : (s.updPoint p f).mode = s.mode := rfl
@[simp] theorem updPoint_attended (s : State) (p : Fin 8) (f : Point → Point) : (s.updPoint p f).attended = s.attended := rfl
@[simp] theorem updPoint_modeNext (s : State) (p : Fin 8) (f : Point → Point) : (s.updPoint p f).modeNext = s.modeNext := rfl
@[simp] theorem updPoint_modeHist (s : State) (p : Fin 8) (f : Point → Point) : (s.updPoint p f).modeHist = s.modeHist := rfl
@[simp] theorem updPoint_rtc (s : State) (p : Fin 8) (f : Point → Point) : (s.updPoint p f).rtc = s.rtc := rfl
@[simp] theorem updPoint_index (s : State) (p : Fin 8) (f : Point → Point) : (s.updPoint p f).index = s.index := rfl
@[simp] theorem updPoint_timeStepNext (s : State) (p : Fin 8) (f : Point → Point) : (s.updPoint p f).timeStepNext = s.timeStepNext := rfl
@[simp] theorem updPoint_startup (s : State) (p : Fin 8) (f : Point → Point) : (s.updPoint p f).startup = s.startup := rfl
@[simp] theorem updPoint_twins (s : State) (p : Fin 8) (f : Point → Point) : (s.updPoint p f).twins = s.twins := rfl
@[simp] theorem updPoint_lockLatch (s : State) (p : Fin 8) (f : Point → Point) : (s.updPoint p f).lockLatch = s.lockLatch := rfl
@[simp] theorem updPoint_lockNvm (s : State) (p : Fin 8) (f : Point → Point) : (s.updPoint p f).lockNvm = s.lockNvm := rfl
@[simp] theorem updPoint_integrityFlag (s : State) (p : Fin 8) (f : Point → Point) : (s.updPoint p f).integrityFlag = s.integrityFlag := rfl
@[simp] theorem updPoint_lanes (s : State) (p : Fin 8) (f : Point → Point) : (s.updPoint p f).lanes = s.lanes := rfl
@[simp] theorem updPoint_laneSub (s : State) (p : Fin 8) (f : Point → Point) : (s.updPoint p f).laneSub = s.laneSub := rfl
@[simp] theorem updPoint_ports (s : State) (p : Fin 8) (f : Point → Point) : (s.updPoint p f).ports = s.ports := rfl
@[simp] theorem updPoint_spares (s : State) (p : Fin 8) (f : Point → Point) : (s.updPoint p f).spares = s.spares := rfl
@[simp] theorem updPoint_mclk (s : State) (p : Fin 8) (f : Point → Point) : (s.updPoint p f).mclk = s.mclk := rfl
@[simp] theorem updPoint_blockNo (s : State) (p : Fin 8) (f : Point → Point) : (s.updPoint p f).blockNo = s.blockNo := rfl
@[simp] theorem updPoint_portNoSpare (s : State) (p : Fin 8) (f : Point → Point) : (s.updPoint p f).portNoSpare = s.portNoSpare := rfl
@[simp] theorem updPoint_learned (s : State) (p : Fin 8) (f : Point → Point) : (s.updPoint p f).learned = s.learned := rfl
@[simp] theorem updPoint_pulses (s : State) (p : Fin 8) (f : Point → Point) : (s.updPoint p f).pulses = s.pulses := rfl
@[simp] theorem updPoint_demand (s : State) (p : Fin 8) (f : Point → Point) : (s.updPoint p f).demand = s.demand := rfl
@[simp] theorem updPoint_evq (s : State) (p : Fin 8) (f : Point → Point) : (s.updPoint p f).evq = s.evq := rfl
@[simp] theorem updPoint_evOver (s : State) (p : Fin 8) (f : Point → Point) : (s.updPoint p f).evOver = s.evOver := rfl
@[simp] theorem updPoint_jobs (s : State) (p : Fin 8) (f : Point → Point) : (s.updPoint p f).jobs = s.jobs := rfl
@[simp] theorem updPoint_logs (s : State) (p : Fin 8) (f : Point → Point) : (s.updPoint p f).logs = s.logs := rfl
@[simp] theorem updPoint_merges (s : State) (p : Fin 8) (f : Point → Point) : (s.updPoint p f).merges = s.merges := rfl
@[simp] theorem updPoint_journal (s : State) (p : Fin 8) (f : Point → Point) : (s.updPoint p f).journal = s.journal := rfl
@[simp] theorem updPoint_store (s : State) (p : Fin 8) (f : Point → Point) : (s.updPoint p f).store = s.store := rfl
@[simp] theorem updPoint_nvm (s : State) (p : Fin 8) (f : Point → Point) : (s.updPoint p f).nvm = s.nvm := rfl
@[simp] theorem updPoint_scratch (s : State) (p : Fin 8) (f : Point → Point) : (s.updPoint p f).scratch = s.scratch := rfl
@[simp] theorem updPoint_spi (s : State) (p : Fin 8) (f : Point → Point) : (s.updPoint p f).spi = s.spi := rfl
@[simp] theorem updPoint_can (s : State) (p : Fin 8) (f : Point → Point) : (s.updPoint p f).can = s.can := rfl
@[simp] theorem updPoint_bus (s : State) (p : Fin 8) (f : Point → Point) : (s.updPoint p f).bus = s.bus := rfl
@[simp] theorem updPoint_stream (s : State) (p : Fin 8) (f : Point → Point) : (s.updPoint p f).stream = s.stream := rfl
@[simp] theorem updPoint_tab (s : State) (p : Fin 8) (f : Point → Point) : (s.updPoint p f).tab = s.tab := rfl
@[simp] theorem updPoint_tabLast (s : State) (p : Fin 8) (f : Point → Point) : (s.updPoint p f).tabLast = s.tabLast := rfl
@[simp] theorem updPoint_heldBatches (s : State) (p : Fin 8) (f : Point → Point) : (s.updPoint p f).heldBatches = s.heldBatches := rfl
@[simp] theorem updPoint_cal (s : State) (p : Fin 8) (f : Point → Point) : (s.updPoint p f).cal = s.cal := rfl
@[simp] theorem updPoint_plateUse (s : State) (p : Fin 8) (f : Point → Point) : (s.updPoint p f).plateUse = s.plateUse := rfl
@[simp] theorem updPoint_sealedRef (s : State) (p : Fin 8) (f : Point → Point) : (s.updPoint p f).sealedRef = s.sealedRef := rfl
@[simp] theorem updPoint_convs (s : State) (p : Fin 8) (f : Point → Point) : (s.updPoint p f).convs = s.convs := rfl
@[simp] theorem updPoint_couples (s : State) (p : Fin 8) (f : Point → Point) : (s.updPoint p f).couples = s.couples := rfl
@[simp] theorem updPoint_inputAt (s : State) (p : Fin 8) (f : Point → Point) : (s.updPoint p f).inputAt = s.inputAt := rfl
@[simp] theorem updPoint_auxRun (s : State) (p : Fin 8) (f : Point → Point) : (s.updPoint p f).auxRun = s.auxRun := rfl
@[simp] theorem updPoint_banks (s : State) (p : Fin 8) (f : Point → Point) : (s.updPoint p f).banks = s.banks := rfl
@[simp] theorem updPoint_march (s : State) (p : Fin 8) (f : Point → Point) : (s.updPoint p f).march = s.march := rfl
@[simp] theorem updPoint_bankSub (s : State) (p : Fin 8) (f : Point → Point) : (s.updPoint p f).bankSub = s.bankSub := rfl
@[simp] theorem updPoint_sram (s : State) (p : Fin 8) (f : Point → Point) : (s.updPoint p f).sram = s.sram := rfl
@[simp] theorem updPoint_sweepAt (s : State) (p : Fin 8) (f : Point → Point) : (s.updPoint p f).sweepAt = s.sweepAt := rfl
@[simp] theorem updPoint_stringReads (s : State) (p : Fin 8) (f : Point → Point) : (s.updPoint p f).stringReads = s.stringReads := rfl
@[simp] theorem updPoint_sessions (s : State) (p : Fin 8) (f : Point → Point) : (s.updPoint p f).sessions = s.sessions := rfl
@[simp] theorem updPoint_sign (s : State) (p : Fin 8) (f : Point → Point) : (s.updPoint p f).sign = s.sign := rfl
@[simp] theorem updPoint_disp (s : State) (p : Fin 8) (f : Point → Point) : (s.updPoint p f).disp = s.disp := rfl
@[simp] theorem updPoint_tamper (s : State) (p : Fin 8) (f : Point → Point) : (s.updPoint p f).tamper = s.tamper := rfl
@[simp] theorem updPoint_thb (s : State) (p : Fin 8) (f : Point → Point) : (s.updPoint p f).thb = s.thb := rfl
@[simp] theorem updPoint_svc (s : State) (p : Fin 8) (f : Point → Point) : (s.updPoint p f).svc = s.svc := rfl

/-! ### updPort -/

@[simp] theorem updPort_nums (s : State) (m : Fin 60) (f : Port → Port) : (s.updPort m f).nums = s.nums := rfl
@[simp] theorem updPort_blobs (s : State) (m : Fin 60) (f : Port → Port) : (s.updPort m f).blobs = s.blobs := rfl
@[simp] theorem updPort_pending (s : State) (m : Fin 60) (f : Port → Port) : (s.updPort m f).pending = s.pending := rfl
@[simp] theorem updPort_free (s : State) (m : Fin 60) (f : Port → Port) : (s.updPort m f).free = s.free := rfl
@[simp] theorem updPort_mode (s : State) (m : Fin 60) (f : Port → Port) : (s.updPort m f).mode = s.mode := rfl
@[simp] theorem updPort_attended (s : State) (m : Fin 60) (f : Port → Port) : (s.updPort m f).attended = s.attended := rfl
@[simp] theorem updPort_modeNext (s : State) (m : Fin 60) (f : Port → Port) : (s.updPort m f).modeNext = s.modeNext := rfl
@[simp] theorem updPort_modeHist (s : State) (m : Fin 60) (f : Port → Port) : (s.updPort m f).modeHist = s.modeHist := rfl
@[simp] theorem updPort_rtc (s : State) (m : Fin 60) (f : Port → Port) : (s.updPort m f).rtc = s.rtc := rfl
@[simp] theorem updPort_index (s : State) (m : Fin 60) (f : Port → Port) : (s.updPort m f).index = s.index := rfl
@[simp] theorem updPort_timeStepNext (s : State) (m : Fin 60) (f : Port → Port) : (s.updPort m f).timeStepNext = s.timeStepNext := rfl
@[simp] theorem updPort_startup (s : State) (m : Fin 60) (f : Port → Port) : (s.updPort m f).startup = s.startup := rfl
@[simp] theorem updPort_twins (s : State) (m : Fin 60) (f : Port → Port) : (s.updPort m f).twins = s.twins := rfl
@[simp] theorem updPort_lockLatch (s : State) (m : Fin 60) (f : Port → Port) : (s.updPort m f).lockLatch = s.lockLatch := rfl
@[simp] theorem updPort_lockNvm (s : State) (m : Fin 60) (f : Port → Port) : (s.updPort m f).lockNvm = s.lockNvm := rfl
@[simp] theorem updPort_integrityFlag (s : State) (m : Fin 60) (f : Port → Port) : (s.updPort m f).integrityFlag = s.integrityFlag := rfl
@[simp] theorem updPort_lanes (s : State) (m : Fin 60) (f : Port → Port) : (s.updPort m f).lanes = s.lanes := rfl
@[simp] theorem updPort_laneSub (s : State) (m : Fin 60) (f : Port → Port) : (s.updPort m f).laneSub = s.laneSub := rfl
@[simp] theorem updPort_spares (s : State) (m : Fin 60) (f : Port → Port) : (s.updPort m f).spares = s.spares := rfl
@[simp] theorem updPort_mclk (s : State) (m : Fin 60) (f : Port → Port) : (s.updPort m f).mclk = s.mclk := rfl
@[simp] theorem updPort_blockNo (s : State) (m : Fin 60) (f : Port → Port) : (s.updPort m f).blockNo = s.blockNo := rfl
@[simp] theorem updPort_portNoSpare (s : State) (m : Fin 60) (f : Port → Port) : (s.updPort m f).portNoSpare = s.portNoSpare := rfl
@[simp] theorem updPort_learned (s : State) (m : Fin 60) (f : Port → Port) : (s.updPort m f).learned = s.learned := rfl
@[simp] theorem updPort_points (s : State) (m : Fin 60) (f : Port → Port) : (s.updPort m f).points = s.points := rfl
@[simp] theorem updPort_pulses (s : State) (m : Fin 60) (f : Port → Port) : (s.updPort m f).pulses = s.pulses := rfl
@[simp] theorem updPort_demand (s : State) (m : Fin 60) (f : Port → Port) : (s.updPort m f).demand = s.demand := rfl
@[simp] theorem updPort_evq (s : State) (m : Fin 60) (f : Port → Port) : (s.updPort m f).evq = s.evq := rfl
@[simp] theorem updPort_evOver (s : State) (m : Fin 60) (f : Port → Port) : (s.updPort m f).evOver = s.evOver := rfl
@[simp] theorem updPort_jobs (s : State) (m : Fin 60) (f : Port → Port) : (s.updPort m f).jobs = s.jobs := rfl
@[simp] theorem updPort_logs (s : State) (m : Fin 60) (f : Port → Port) : (s.updPort m f).logs = s.logs := rfl
@[simp] theorem updPort_merges (s : State) (m : Fin 60) (f : Port → Port) : (s.updPort m f).merges = s.merges := rfl
@[simp] theorem updPort_journal (s : State) (m : Fin 60) (f : Port → Port) : (s.updPort m f).journal = s.journal := rfl
@[simp] theorem updPort_store (s : State) (m : Fin 60) (f : Port → Port) : (s.updPort m f).store = s.store := rfl
@[simp] theorem updPort_nvm (s : State) (m : Fin 60) (f : Port → Port) : (s.updPort m f).nvm = s.nvm := rfl
@[simp] theorem updPort_scratch (s : State) (m : Fin 60) (f : Port → Port) : (s.updPort m f).scratch = s.scratch := rfl
@[simp] theorem updPort_spi (s : State) (m : Fin 60) (f : Port → Port) : (s.updPort m f).spi = s.spi := rfl
@[simp] theorem updPort_can (s : State) (m : Fin 60) (f : Port → Port) : (s.updPort m f).can = s.can := rfl
@[simp] theorem updPort_bus (s : State) (m : Fin 60) (f : Port → Port) : (s.updPort m f).bus = s.bus := rfl
@[simp] theorem updPort_stream (s : State) (m : Fin 60) (f : Port → Port) : (s.updPort m f).stream = s.stream := rfl
@[simp] theorem updPort_tab (s : State) (m : Fin 60) (f : Port → Port) : (s.updPort m f).tab = s.tab := rfl
@[simp] theorem updPort_tabLast (s : State) (m : Fin 60) (f : Port → Port) : (s.updPort m f).tabLast = s.tabLast := rfl
@[simp] theorem updPort_heldBatches (s : State) (m : Fin 60) (f : Port → Port) : (s.updPort m f).heldBatches = s.heldBatches := rfl
@[simp] theorem updPort_cal (s : State) (m : Fin 60) (f : Port → Port) : (s.updPort m f).cal = s.cal := rfl
@[simp] theorem updPort_plateUse (s : State) (m : Fin 60) (f : Port → Port) : (s.updPort m f).plateUse = s.plateUse := rfl
@[simp] theorem updPort_sealedRef (s : State) (m : Fin 60) (f : Port → Port) : (s.updPort m f).sealedRef = s.sealedRef := rfl
@[simp] theorem updPort_convs (s : State) (m : Fin 60) (f : Port → Port) : (s.updPort m f).convs = s.convs := rfl
@[simp] theorem updPort_couples (s : State) (m : Fin 60) (f : Port → Port) : (s.updPort m f).couples = s.couples := rfl
@[simp] theorem updPort_inputAt (s : State) (m : Fin 60) (f : Port → Port) : (s.updPort m f).inputAt = s.inputAt := rfl
@[simp] theorem updPort_auxRun (s : State) (m : Fin 60) (f : Port → Port) : (s.updPort m f).auxRun = s.auxRun := rfl
@[simp] theorem updPort_banks (s : State) (m : Fin 60) (f : Port → Port) : (s.updPort m f).banks = s.banks := rfl
@[simp] theorem updPort_march (s : State) (m : Fin 60) (f : Port → Port) : (s.updPort m f).march = s.march := rfl
@[simp] theorem updPort_bankSub (s : State) (m : Fin 60) (f : Port → Port) : (s.updPort m f).bankSub = s.bankSub := rfl
@[simp] theorem updPort_sram (s : State) (m : Fin 60) (f : Port → Port) : (s.updPort m f).sram = s.sram := rfl
@[simp] theorem updPort_sweepAt (s : State) (m : Fin 60) (f : Port → Port) : (s.updPort m f).sweepAt = s.sweepAt := rfl
@[simp] theorem updPort_stringReads (s : State) (m : Fin 60) (f : Port → Port) : (s.updPort m f).stringReads = s.stringReads := rfl
@[simp] theorem updPort_sessions (s : State) (m : Fin 60) (f : Port → Port) : (s.updPort m f).sessions = s.sessions := rfl
@[simp] theorem updPort_sign (s : State) (m : Fin 60) (f : Port → Port) : (s.updPort m f).sign = s.sign := rfl
@[simp] theorem updPort_disp (s : State) (m : Fin 60) (f : Port → Port) : (s.updPort m f).disp = s.disp := rfl
@[simp] theorem updPort_tamper (s : State) (m : Fin 60) (f : Port → Port) : (s.updPort m f).tamper = s.tamper := rfl
@[simp] theorem updPort_thb (s : State) (m : Fin 60) (f : Port → Port) : (s.updPort m f).thb = s.thb := rfl
@[simp] theorem updPort_svc (s : State) (m : Fin 60) (f : Port → Port) : (s.updPort m f).svc = s.svc := rfl

/-! ### updLane -/

@[simp] theorem updLane_nums (s : State) (l : Fin 5) (f : Lane → Lane) : (s.updLane l f).nums = s.nums := rfl
@[simp] theorem updLane_blobs (s : State) (l : Fin 5) (f : Lane → Lane) : (s.updLane l f).blobs = s.blobs := rfl
@[simp] theorem updLane_pending (s : State) (l : Fin 5) (f : Lane → Lane) : (s.updLane l f).pending = s.pending := rfl
@[simp] theorem updLane_free (s : State) (l : Fin 5) (f : Lane → Lane) : (s.updLane l f).free = s.free := rfl
@[simp] theorem updLane_mode (s : State) (l : Fin 5) (f : Lane → Lane) : (s.updLane l f).mode = s.mode := rfl
@[simp] theorem updLane_attended (s : State) (l : Fin 5) (f : Lane → Lane) : (s.updLane l f).attended = s.attended := rfl
@[simp] theorem updLane_modeNext (s : State) (l : Fin 5) (f : Lane → Lane) : (s.updLane l f).modeNext = s.modeNext := rfl
@[simp] theorem updLane_modeHist (s : State) (l : Fin 5) (f : Lane → Lane) : (s.updLane l f).modeHist = s.modeHist := rfl
@[simp] theorem updLane_rtc (s : State) (l : Fin 5) (f : Lane → Lane) : (s.updLane l f).rtc = s.rtc := rfl
@[simp] theorem updLane_index (s : State) (l : Fin 5) (f : Lane → Lane) : (s.updLane l f).index = s.index := rfl
@[simp] theorem updLane_timeStepNext (s : State) (l : Fin 5) (f : Lane → Lane) : (s.updLane l f).timeStepNext = s.timeStepNext := rfl
@[simp] theorem updLane_startup (s : State) (l : Fin 5) (f : Lane → Lane) : (s.updLane l f).startup = s.startup := rfl
@[simp] theorem updLane_twins (s : State) (l : Fin 5) (f : Lane → Lane) : (s.updLane l f).twins = s.twins := rfl
@[simp] theorem updLane_lockLatch (s : State) (l : Fin 5) (f : Lane → Lane) : (s.updLane l f).lockLatch = s.lockLatch := rfl
@[simp] theorem updLane_lockNvm (s : State) (l : Fin 5) (f : Lane → Lane) : (s.updLane l f).lockNvm = s.lockNvm := rfl
@[simp] theorem updLane_integrityFlag (s : State) (l : Fin 5) (f : Lane → Lane) : (s.updLane l f).integrityFlag = s.integrityFlag := rfl
@[simp] theorem updLane_laneSub (s : State) (l : Fin 5) (f : Lane → Lane) : (s.updLane l f).laneSub = s.laneSub := rfl
@[simp] theorem updLane_ports (s : State) (l : Fin 5) (f : Lane → Lane) : (s.updLane l f).ports = s.ports := rfl
@[simp] theorem updLane_spares (s : State) (l : Fin 5) (f : Lane → Lane) : (s.updLane l f).spares = s.spares := rfl
@[simp] theorem updLane_mclk (s : State) (l : Fin 5) (f : Lane → Lane) : (s.updLane l f).mclk = s.mclk := rfl
@[simp] theorem updLane_blockNo (s : State) (l : Fin 5) (f : Lane → Lane) : (s.updLane l f).blockNo = s.blockNo := rfl
@[simp] theorem updLane_portNoSpare (s : State) (l : Fin 5) (f : Lane → Lane) : (s.updLane l f).portNoSpare = s.portNoSpare := rfl
@[simp] theorem updLane_learned (s : State) (l : Fin 5) (f : Lane → Lane) : (s.updLane l f).learned = s.learned := rfl
@[simp] theorem updLane_points (s : State) (l : Fin 5) (f : Lane → Lane) : (s.updLane l f).points = s.points := rfl
@[simp] theorem updLane_pulses (s : State) (l : Fin 5) (f : Lane → Lane) : (s.updLane l f).pulses = s.pulses := rfl
@[simp] theorem updLane_demand (s : State) (l : Fin 5) (f : Lane → Lane) : (s.updLane l f).demand = s.demand := rfl
@[simp] theorem updLane_evq (s : State) (l : Fin 5) (f : Lane → Lane) : (s.updLane l f).evq = s.evq := rfl
@[simp] theorem updLane_evOver (s : State) (l : Fin 5) (f : Lane → Lane) : (s.updLane l f).evOver = s.evOver := rfl
@[simp] theorem updLane_jobs (s : State) (l : Fin 5) (f : Lane → Lane) : (s.updLane l f).jobs = s.jobs := rfl
@[simp] theorem updLane_logs (s : State) (l : Fin 5) (f : Lane → Lane) : (s.updLane l f).logs = s.logs := rfl
@[simp] theorem updLane_merges (s : State) (l : Fin 5) (f : Lane → Lane) : (s.updLane l f).merges = s.merges := rfl
@[simp] theorem updLane_journal (s : State) (l : Fin 5) (f : Lane → Lane) : (s.updLane l f).journal = s.journal := rfl
@[simp] theorem updLane_store (s : State) (l : Fin 5) (f : Lane → Lane) : (s.updLane l f).store = s.store := rfl
@[simp] theorem updLane_nvm (s : State) (l : Fin 5) (f : Lane → Lane) : (s.updLane l f).nvm = s.nvm := rfl
@[simp] theorem updLane_scratch (s : State) (l : Fin 5) (f : Lane → Lane) : (s.updLane l f).scratch = s.scratch := rfl
@[simp] theorem updLane_spi (s : State) (l : Fin 5) (f : Lane → Lane) : (s.updLane l f).spi = s.spi := rfl
@[simp] theorem updLane_can (s : State) (l : Fin 5) (f : Lane → Lane) : (s.updLane l f).can = s.can := rfl
@[simp] theorem updLane_bus (s : State) (l : Fin 5) (f : Lane → Lane) : (s.updLane l f).bus = s.bus := rfl
@[simp] theorem updLane_stream (s : State) (l : Fin 5) (f : Lane → Lane) : (s.updLane l f).stream = s.stream := rfl
@[simp] theorem updLane_tab (s : State) (l : Fin 5) (f : Lane → Lane) : (s.updLane l f).tab = s.tab := rfl
@[simp] theorem updLane_tabLast (s : State) (l : Fin 5) (f : Lane → Lane) : (s.updLane l f).tabLast = s.tabLast := rfl
@[simp] theorem updLane_heldBatches (s : State) (l : Fin 5) (f : Lane → Lane) : (s.updLane l f).heldBatches = s.heldBatches := rfl
@[simp] theorem updLane_cal (s : State) (l : Fin 5) (f : Lane → Lane) : (s.updLane l f).cal = s.cal := rfl
@[simp] theorem updLane_plateUse (s : State) (l : Fin 5) (f : Lane → Lane) : (s.updLane l f).plateUse = s.plateUse := rfl
@[simp] theorem updLane_sealedRef (s : State) (l : Fin 5) (f : Lane → Lane) : (s.updLane l f).sealedRef = s.sealedRef := rfl
@[simp] theorem updLane_convs (s : State) (l : Fin 5) (f : Lane → Lane) : (s.updLane l f).convs = s.convs := rfl
@[simp] theorem updLane_couples (s : State) (l : Fin 5) (f : Lane → Lane) : (s.updLane l f).couples = s.couples := rfl
@[simp] theorem updLane_inputAt (s : State) (l : Fin 5) (f : Lane → Lane) : (s.updLane l f).inputAt = s.inputAt := rfl
@[simp] theorem updLane_auxRun (s : State) (l : Fin 5) (f : Lane → Lane) : (s.updLane l f).auxRun = s.auxRun := rfl
@[simp] theorem updLane_banks (s : State) (l : Fin 5) (f : Lane → Lane) : (s.updLane l f).banks = s.banks := rfl
@[simp] theorem updLane_march (s : State) (l : Fin 5) (f : Lane → Lane) : (s.updLane l f).march = s.march := rfl
@[simp] theorem updLane_bankSub (s : State) (l : Fin 5) (f : Lane → Lane) : (s.updLane l f).bankSub = s.bankSub := rfl
@[simp] theorem updLane_sram (s : State) (l : Fin 5) (f : Lane → Lane) : (s.updLane l f).sram = s.sram := rfl
@[simp] theorem updLane_sweepAt (s : State) (l : Fin 5) (f : Lane → Lane) : (s.updLane l f).sweepAt = s.sweepAt := rfl
@[simp] theorem updLane_stringReads (s : State) (l : Fin 5) (f : Lane → Lane) : (s.updLane l f).stringReads = s.stringReads := rfl
@[simp] theorem updLane_sessions (s : State) (l : Fin 5) (f : Lane → Lane) : (s.updLane l f).sessions = s.sessions := rfl
@[simp] theorem updLane_sign (s : State) (l : Fin 5) (f : Lane → Lane) : (s.updLane l f).sign = s.sign := rfl
@[simp] theorem updLane_disp (s : State) (l : Fin 5) (f : Lane → Lane) : (s.updLane l f).disp = s.disp := rfl
@[simp] theorem updLane_tamper (s : State) (l : Fin 5) (f : Lane → Lane) : (s.updLane l f).tamper = s.tamper := rfl
@[simp] theorem updLane_thb (s : State) (l : Fin 5) (f : Lane → Lane) : (s.updLane l f).thb = s.thb := rfl
@[simp] theorem updLane_svc (s : State) (l : Fin 5) (f : Lane → Lane) : (s.updLane l f).svc = s.svc := rfl

/-! ### updSpare -/

@[simp] theorem updSpare_nums (s : State) (i : Fin 4) (f : Spare → Spare) : (s.updSpare i f).nums = s.nums := rfl
@[simp] theorem updSpare_blobs (s : State) (i : Fin 4) (f : Spare → Spare) : (s.updSpare i f).blobs = s.blobs := rfl
@[simp] theorem updSpare_pending (s : State) (i : Fin 4) (f : Spare → Spare) : (s.updSpare i f).pending = s.pending := rfl
@[simp] theorem updSpare_free (s : State) (i : Fin 4) (f : Spare → Spare) : (s.updSpare i f).free = s.free := rfl
@[simp] theorem updSpare_mode (s : State) (i : Fin 4) (f : Spare → Spare) : (s.updSpare i f).mode = s.mode := rfl
@[simp] theorem updSpare_attended (s : State) (i : Fin 4) (f : Spare → Spare) : (s.updSpare i f).attended = s.attended := rfl
@[simp] theorem updSpare_modeNext (s : State) (i : Fin 4) (f : Spare → Spare) : (s.updSpare i f).modeNext = s.modeNext := rfl
@[simp] theorem updSpare_modeHist (s : State) (i : Fin 4) (f : Spare → Spare) : (s.updSpare i f).modeHist = s.modeHist := rfl
@[simp] theorem updSpare_rtc (s : State) (i : Fin 4) (f : Spare → Spare) : (s.updSpare i f).rtc = s.rtc := rfl
@[simp] theorem updSpare_index (s : State) (i : Fin 4) (f : Spare → Spare) : (s.updSpare i f).index = s.index := rfl
@[simp] theorem updSpare_timeStepNext (s : State) (i : Fin 4) (f : Spare → Spare) : (s.updSpare i f).timeStepNext = s.timeStepNext := rfl
@[simp] theorem updSpare_startup (s : State) (i : Fin 4) (f : Spare → Spare) : (s.updSpare i f).startup = s.startup := rfl
@[simp] theorem updSpare_twins (s : State) (i : Fin 4) (f : Spare → Spare) : (s.updSpare i f).twins = s.twins := rfl
@[simp] theorem updSpare_lockLatch (s : State) (i : Fin 4) (f : Spare → Spare) : (s.updSpare i f).lockLatch = s.lockLatch := rfl
@[simp] theorem updSpare_lockNvm (s : State) (i : Fin 4) (f : Spare → Spare) : (s.updSpare i f).lockNvm = s.lockNvm := rfl
@[simp] theorem updSpare_integrityFlag (s : State) (i : Fin 4) (f : Spare → Spare) : (s.updSpare i f).integrityFlag = s.integrityFlag := rfl
@[simp] theorem updSpare_lanes (s : State) (i : Fin 4) (f : Spare → Spare) : (s.updSpare i f).lanes = s.lanes := rfl
@[simp] theorem updSpare_laneSub (s : State) (i : Fin 4) (f : Spare → Spare) : (s.updSpare i f).laneSub = s.laneSub := rfl
@[simp] theorem updSpare_ports (s : State) (i : Fin 4) (f : Spare → Spare) : (s.updSpare i f).ports = s.ports := rfl
@[simp] theorem updSpare_mclk (s : State) (i : Fin 4) (f : Spare → Spare) : (s.updSpare i f).mclk = s.mclk := rfl
@[simp] theorem updSpare_blockNo (s : State) (i : Fin 4) (f : Spare → Spare) : (s.updSpare i f).blockNo = s.blockNo := rfl
@[simp] theorem updSpare_portNoSpare (s : State) (i : Fin 4) (f : Spare → Spare) : (s.updSpare i f).portNoSpare = s.portNoSpare := rfl
@[simp] theorem updSpare_learned (s : State) (i : Fin 4) (f : Spare → Spare) : (s.updSpare i f).learned = s.learned := rfl
@[simp] theorem updSpare_points (s : State) (i : Fin 4) (f : Spare → Spare) : (s.updSpare i f).points = s.points := rfl
@[simp] theorem updSpare_pulses (s : State) (i : Fin 4) (f : Spare → Spare) : (s.updSpare i f).pulses = s.pulses := rfl
@[simp] theorem updSpare_demand (s : State) (i : Fin 4) (f : Spare → Spare) : (s.updSpare i f).demand = s.demand := rfl
@[simp] theorem updSpare_evq (s : State) (i : Fin 4) (f : Spare → Spare) : (s.updSpare i f).evq = s.evq := rfl
@[simp] theorem updSpare_evOver (s : State) (i : Fin 4) (f : Spare → Spare) : (s.updSpare i f).evOver = s.evOver := rfl
@[simp] theorem updSpare_jobs (s : State) (i : Fin 4) (f : Spare → Spare) : (s.updSpare i f).jobs = s.jobs := rfl
@[simp] theorem updSpare_logs (s : State) (i : Fin 4) (f : Spare → Spare) : (s.updSpare i f).logs = s.logs := rfl
@[simp] theorem updSpare_merges (s : State) (i : Fin 4) (f : Spare → Spare) : (s.updSpare i f).merges = s.merges := rfl
@[simp] theorem updSpare_journal (s : State) (i : Fin 4) (f : Spare → Spare) : (s.updSpare i f).journal = s.journal := rfl
@[simp] theorem updSpare_store (s : State) (i : Fin 4) (f : Spare → Spare) : (s.updSpare i f).store = s.store := rfl
@[simp] theorem updSpare_nvm (s : State) (i : Fin 4) (f : Spare → Spare) : (s.updSpare i f).nvm = s.nvm := rfl
@[simp] theorem updSpare_scratch (s : State) (i : Fin 4) (f : Spare → Spare) : (s.updSpare i f).scratch = s.scratch := rfl
@[simp] theorem updSpare_spi (s : State) (i : Fin 4) (f : Spare → Spare) : (s.updSpare i f).spi = s.spi := rfl
@[simp] theorem updSpare_can (s : State) (i : Fin 4) (f : Spare → Spare) : (s.updSpare i f).can = s.can := rfl
@[simp] theorem updSpare_bus (s : State) (i : Fin 4) (f : Spare → Spare) : (s.updSpare i f).bus = s.bus := rfl
@[simp] theorem updSpare_stream (s : State) (i : Fin 4) (f : Spare → Spare) : (s.updSpare i f).stream = s.stream := rfl
@[simp] theorem updSpare_tab (s : State) (i : Fin 4) (f : Spare → Spare) : (s.updSpare i f).tab = s.tab := rfl
@[simp] theorem updSpare_tabLast (s : State) (i : Fin 4) (f : Spare → Spare) : (s.updSpare i f).tabLast = s.tabLast := rfl
@[simp] theorem updSpare_heldBatches (s : State) (i : Fin 4) (f : Spare → Spare) : (s.updSpare i f).heldBatches = s.heldBatches := rfl
@[simp] theorem updSpare_cal (s : State) (i : Fin 4) (f : Spare → Spare) : (s.updSpare i f).cal = s.cal := rfl
@[simp] theorem updSpare_plateUse (s : State) (i : Fin 4) (f : Spare → Spare) : (s.updSpare i f).plateUse = s.plateUse := rfl
@[simp] theorem updSpare_sealedRef (s : State) (i : Fin 4) (f : Spare → Spare) : (s.updSpare i f).sealedRef = s.sealedRef := rfl
@[simp] theorem updSpare_convs (s : State) (i : Fin 4) (f : Spare → Spare) : (s.updSpare i f).convs = s.convs := rfl
@[simp] theorem updSpare_couples (s : State) (i : Fin 4) (f : Spare → Spare) : (s.updSpare i f).couples = s.couples := rfl
@[simp] theorem updSpare_inputAt (s : State) (i : Fin 4) (f : Spare → Spare) : (s.updSpare i f).inputAt = s.inputAt := rfl
@[simp] theorem updSpare_auxRun (s : State) (i : Fin 4) (f : Spare → Spare) : (s.updSpare i f).auxRun = s.auxRun := rfl
@[simp] theorem updSpare_banks (s : State) (i : Fin 4) (f : Spare → Spare) : (s.updSpare i f).banks = s.banks := rfl
@[simp] theorem updSpare_march (s : State) (i : Fin 4) (f : Spare → Spare) : (s.updSpare i f).march = s.march := rfl
@[simp] theorem updSpare_bankSub (s : State) (i : Fin 4) (f : Spare → Spare) : (s.updSpare i f).bankSub = s.bankSub := rfl
@[simp] theorem updSpare_sram (s : State) (i : Fin 4) (f : Spare → Spare) : (s.updSpare i f).sram = s.sram := rfl
@[simp] theorem updSpare_sweepAt (s : State) (i : Fin 4) (f : Spare → Spare) : (s.updSpare i f).sweepAt = s.sweepAt := rfl
@[simp] theorem updSpare_stringReads (s : State) (i : Fin 4) (f : Spare → Spare) : (s.updSpare i f).stringReads = s.stringReads := rfl
@[simp] theorem updSpare_sessions (s : State) (i : Fin 4) (f : Spare → Spare) : (s.updSpare i f).sessions = s.sessions := rfl
@[simp] theorem updSpare_sign (s : State) (i : Fin 4) (f : Spare → Spare) : (s.updSpare i f).sign = s.sign := rfl
@[simp] theorem updSpare_disp (s : State) (i : Fin 4) (f : Spare → Spare) : (s.updSpare i f).disp = s.disp := rfl
@[simp] theorem updSpare_tamper (s : State) (i : Fin 4) (f : Spare → Spare) : (s.updSpare i f).tamper = s.tamper := rfl
@[simp] theorem updSpare_thb (s : State) (i : Fin 4) (f : Spare → Spare) : (s.updSpare i f).thb = s.thb := rfl
@[simp] theorem updSpare_svc (s : State) (i : Fin 4) (f : Spare → Spare) : (s.updSpare i f).svc = s.svc := rfl

/-! ### updPulse -/

@[simp] theorem updPulse_nums (s : State) (m : Fin 8) (f : Pulse → Pulse) : (s.updPulse m f).nums = s.nums := rfl
@[simp] theorem updPulse_blobs (s : State) (m : Fin 8) (f : Pulse → Pulse) : (s.updPulse m f).blobs = s.blobs := rfl
@[simp] theorem updPulse_pending (s : State) (m : Fin 8) (f : Pulse → Pulse) : (s.updPulse m f).pending = s.pending := rfl
@[simp] theorem updPulse_free (s : State) (m : Fin 8) (f : Pulse → Pulse) : (s.updPulse m f).free = s.free := rfl
@[simp] theorem updPulse_mode (s : State) (m : Fin 8) (f : Pulse → Pulse) : (s.updPulse m f).mode = s.mode := rfl
@[simp] theorem updPulse_attended (s : State) (m : Fin 8) (f : Pulse → Pulse) : (s.updPulse m f).attended = s.attended := rfl
@[simp] theorem updPulse_modeNext (s : State) (m : Fin 8) (f : Pulse → Pulse) : (s.updPulse m f).modeNext = s.modeNext := rfl
@[simp] theorem updPulse_modeHist (s : State) (m : Fin 8) (f : Pulse → Pulse) : (s.updPulse m f).modeHist = s.modeHist := rfl
@[simp] theorem updPulse_rtc (s : State) (m : Fin 8) (f : Pulse → Pulse) : (s.updPulse m f).rtc = s.rtc := rfl
@[simp] theorem updPulse_index (s : State) (m : Fin 8) (f : Pulse → Pulse) : (s.updPulse m f).index = s.index := rfl
@[simp] theorem updPulse_timeStepNext (s : State) (m : Fin 8) (f : Pulse → Pulse) : (s.updPulse m f).timeStepNext = s.timeStepNext := rfl
@[simp] theorem updPulse_startup (s : State) (m : Fin 8) (f : Pulse → Pulse) : (s.updPulse m f).startup = s.startup := rfl
@[simp] theorem updPulse_twins (s : State) (m : Fin 8) (f : Pulse → Pulse) : (s.updPulse m f).twins = s.twins := rfl
@[simp] theorem updPulse_lockLatch (s : State) (m : Fin 8) (f : Pulse → Pulse) : (s.updPulse m f).lockLatch = s.lockLatch := rfl
@[simp] theorem updPulse_lockNvm (s : State) (m : Fin 8) (f : Pulse → Pulse) : (s.updPulse m f).lockNvm = s.lockNvm := rfl
@[simp] theorem updPulse_integrityFlag (s : State) (m : Fin 8) (f : Pulse → Pulse) : (s.updPulse m f).integrityFlag = s.integrityFlag := rfl
@[simp] theorem updPulse_lanes (s : State) (m : Fin 8) (f : Pulse → Pulse) : (s.updPulse m f).lanes = s.lanes := rfl
@[simp] theorem updPulse_laneSub (s : State) (m : Fin 8) (f : Pulse → Pulse) : (s.updPulse m f).laneSub = s.laneSub := rfl
@[simp] theorem updPulse_ports (s : State) (m : Fin 8) (f : Pulse → Pulse) : (s.updPulse m f).ports = s.ports := rfl
@[simp] theorem updPulse_spares (s : State) (m : Fin 8) (f : Pulse → Pulse) : (s.updPulse m f).spares = s.spares := rfl
@[simp] theorem updPulse_mclk (s : State) (m : Fin 8) (f : Pulse → Pulse) : (s.updPulse m f).mclk = s.mclk := rfl
@[simp] theorem updPulse_blockNo (s : State) (m : Fin 8) (f : Pulse → Pulse) : (s.updPulse m f).blockNo = s.blockNo := rfl
@[simp] theorem updPulse_portNoSpare (s : State) (m : Fin 8) (f : Pulse → Pulse) : (s.updPulse m f).portNoSpare = s.portNoSpare := rfl
@[simp] theorem updPulse_learned (s : State) (m : Fin 8) (f : Pulse → Pulse) : (s.updPulse m f).learned = s.learned := rfl
@[simp] theorem updPulse_points (s : State) (m : Fin 8) (f : Pulse → Pulse) : (s.updPulse m f).points = s.points := rfl
@[simp] theorem updPulse_demand (s : State) (m : Fin 8) (f : Pulse → Pulse) : (s.updPulse m f).demand = s.demand := rfl
@[simp] theorem updPulse_evq (s : State) (m : Fin 8) (f : Pulse → Pulse) : (s.updPulse m f).evq = s.evq := rfl
@[simp] theorem updPulse_evOver (s : State) (m : Fin 8) (f : Pulse → Pulse) : (s.updPulse m f).evOver = s.evOver := rfl
@[simp] theorem updPulse_jobs (s : State) (m : Fin 8) (f : Pulse → Pulse) : (s.updPulse m f).jobs = s.jobs := rfl
@[simp] theorem updPulse_logs (s : State) (m : Fin 8) (f : Pulse → Pulse) : (s.updPulse m f).logs = s.logs := rfl
@[simp] theorem updPulse_merges (s : State) (m : Fin 8) (f : Pulse → Pulse) : (s.updPulse m f).merges = s.merges := rfl
@[simp] theorem updPulse_journal (s : State) (m : Fin 8) (f : Pulse → Pulse) : (s.updPulse m f).journal = s.journal := rfl
@[simp] theorem updPulse_store (s : State) (m : Fin 8) (f : Pulse → Pulse) : (s.updPulse m f).store = s.store := rfl
@[simp] theorem updPulse_nvm (s : State) (m : Fin 8) (f : Pulse → Pulse) : (s.updPulse m f).nvm = s.nvm := rfl
@[simp] theorem updPulse_scratch (s : State) (m : Fin 8) (f : Pulse → Pulse) : (s.updPulse m f).scratch = s.scratch := rfl
@[simp] theorem updPulse_spi (s : State) (m : Fin 8) (f : Pulse → Pulse) : (s.updPulse m f).spi = s.spi := rfl
@[simp] theorem updPulse_can (s : State) (m : Fin 8) (f : Pulse → Pulse) : (s.updPulse m f).can = s.can := rfl
@[simp] theorem updPulse_bus (s : State) (m : Fin 8) (f : Pulse → Pulse) : (s.updPulse m f).bus = s.bus := rfl
@[simp] theorem updPulse_stream (s : State) (m : Fin 8) (f : Pulse → Pulse) : (s.updPulse m f).stream = s.stream := rfl
@[simp] theorem updPulse_tab (s : State) (m : Fin 8) (f : Pulse → Pulse) : (s.updPulse m f).tab = s.tab := rfl
@[simp] theorem updPulse_tabLast (s : State) (m : Fin 8) (f : Pulse → Pulse) : (s.updPulse m f).tabLast = s.tabLast := rfl
@[simp] theorem updPulse_heldBatches (s : State) (m : Fin 8) (f : Pulse → Pulse) : (s.updPulse m f).heldBatches = s.heldBatches := rfl
@[simp] theorem updPulse_cal (s : State) (m : Fin 8) (f : Pulse → Pulse) : (s.updPulse m f).cal = s.cal := rfl
@[simp] theorem updPulse_plateUse (s : State) (m : Fin 8) (f : Pulse → Pulse) : (s.updPulse m f).plateUse = s.plateUse := rfl
@[simp] theorem updPulse_sealedRef (s : State) (m : Fin 8) (f : Pulse → Pulse) : (s.updPulse m f).sealedRef = s.sealedRef := rfl
@[simp] theorem updPulse_convs (s : State) (m : Fin 8) (f : Pulse → Pulse) : (s.updPulse m f).convs = s.convs := rfl
@[simp] theorem updPulse_couples (s : State) (m : Fin 8) (f : Pulse → Pulse) : (s.updPulse m f).couples = s.couples := rfl
@[simp] theorem updPulse_inputAt (s : State) (m : Fin 8) (f : Pulse → Pulse) : (s.updPulse m f).inputAt = s.inputAt := rfl
@[simp] theorem updPulse_auxRun (s : State) (m : Fin 8) (f : Pulse → Pulse) : (s.updPulse m f).auxRun = s.auxRun := rfl
@[simp] theorem updPulse_banks (s : State) (m : Fin 8) (f : Pulse → Pulse) : (s.updPulse m f).banks = s.banks := rfl
@[simp] theorem updPulse_march (s : State) (m : Fin 8) (f : Pulse → Pulse) : (s.updPulse m f).march = s.march := rfl
@[simp] theorem updPulse_bankSub (s : State) (m : Fin 8) (f : Pulse → Pulse) : (s.updPulse m f).bankSub = s.bankSub := rfl
@[simp] theorem updPulse_sram (s : State) (m : Fin 8) (f : Pulse → Pulse) : (s.updPulse m f).sram = s.sram := rfl
@[simp] theorem updPulse_sweepAt (s : State) (m : Fin 8) (f : Pulse → Pulse) : (s.updPulse m f).sweepAt = s.sweepAt := rfl
@[simp] theorem updPulse_stringReads (s : State) (m : Fin 8) (f : Pulse → Pulse) : (s.updPulse m f).stringReads = s.stringReads := rfl
@[simp] theorem updPulse_sessions (s : State) (m : Fin 8) (f : Pulse → Pulse) : (s.updPulse m f).sessions = s.sessions := rfl
@[simp] theorem updPulse_sign (s : State) (m : Fin 8) (f : Pulse → Pulse) : (s.updPulse m f).sign = s.sign := rfl
@[simp] theorem updPulse_disp (s : State) (m : Fin 8) (f : Pulse → Pulse) : (s.updPulse m f).disp = s.disp := rfl
@[simp] theorem updPulse_tamper (s : State) (m : Fin 8) (f : Pulse → Pulse) : (s.updPulse m f).tamper = s.tamper := rfl
@[simp] theorem updPulse_thb (s : State) (m : Fin 8) (f : Pulse → Pulse) : (s.updPulse m f).thb = s.thb := rfl
@[simp] theorem updPulse_svc (s : State) (m : Fin 8) (f : Pulse → Pulse) : (s.updPulse m f).svc = s.svc := rfl

/-! ### cow -/

@[simp] theorem cow_nums (s : State) (n k : Nat) : (s.cow n k).nums = s.nums := by unfold cow; (repeat' split) <;> rfl
@[simp] theorem cow_blobs (s : State) (n k : Nat) : (s.cow n k).blobs = s.blobs := by unfold cow; (repeat' split) <;> rfl
@[simp] theorem cow_pending (s : State) (n k : Nat) : (s.cow n k).pending = s.pending := by unfold cow; (repeat' split) <;> rfl
@[simp] theorem cow_free (s : State) (n k : Nat) : (s.cow n k).free = s.free := by unfold cow; (repeat' split) <;> rfl
@[simp] theorem cow_mode (s : State) (n k : Nat) : (s.cow n k).mode = s.mode := by unfold cow; (repeat' split) <;> rfl
@[simp] theorem cow_attended (s : State) (n k : Nat) : (s.cow n k).attended = s.attended := by unfold cow; (repeat' split) <;> rfl
@[simp] theorem cow_modeNext (s : State) (n k : Nat) : (s.cow n k).modeNext = s.modeNext := by unfold cow; (repeat' split) <;> rfl
@[simp] theorem cow_modeHist (s : State) (n k : Nat) : (s.cow n k).modeHist = s.modeHist := by unfold cow; (repeat' split) <;> rfl
@[simp] theorem cow_rtc (s : State) (n k : Nat) : (s.cow n k).rtc = s.rtc := by unfold cow; (repeat' split) <;> rfl
@[simp] theorem cow_index (s : State) (n k : Nat) : (s.cow n k).index = s.index := by unfold cow; (repeat' split) <;> rfl
@[simp] theorem cow_timeStepNext (s : State) (n k : Nat) : (s.cow n k).timeStepNext = s.timeStepNext := by unfold cow; (repeat' split) <;> rfl
@[simp] theorem cow_startup (s : State) (n k : Nat) : (s.cow n k).startup = s.startup := by unfold cow; (repeat' split) <;> rfl
@[simp] theorem cow_twins (s : State) (n k : Nat) : (s.cow n k).twins = s.twins := by unfold cow; (repeat' split) <;> rfl
@[simp] theorem cow_lockLatch (s : State) (n k : Nat) : (s.cow n k).lockLatch = s.lockLatch := by unfold cow; (repeat' split) <;> rfl
@[simp] theorem cow_lockNvm (s : State) (n k : Nat) : (s.cow n k).lockNvm = s.lockNvm := by unfold cow; (repeat' split) <;> rfl
@[simp] theorem cow_integrityFlag (s : State) (n k : Nat) : (s.cow n k).integrityFlag = s.integrityFlag := by unfold cow; (repeat' split) <;> rfl
@[simp] theorem cow_lanes (s : State) (n k : Nat) : (s.cow n k).lanes = s.lanes := by unfold cow; (repeat' split) <;> rfl
@[simp] theorem cow_laneSub (s : State) (n k : Nat) : (s.cow n k).laneSub = s.laneSub := by unfold cow; (repeat' split) <;> rfl
@[simp] theorem cow_ports (s : State) (n k : Nat) : (s.cow n k).ports = s.ports := by unfold cow; (repeat' split) <;> rfl
@[simp] theorem cow_spares (s : State) (n k : Nat) : (s.cow n k).spares = s.spares := by unfold cow; (repeat' split) <;> rfl
@[simp] theorem cow_mclk (s : State) (n k : Nat) : (s.cow n k).mclk = s.mclk := by unfold cow; (repeat' split) <;> rfl
@[simp] theorem cow_blockNo (s : State) (n k : Nat) : (s.cow n k).blockNo = s.blockNo := by unfold cow; (repeat' split) <;> rfl
@[simp] theorem cow_portNoSpare (s : State) (n k : Nat) : (s.cow n k).portNoSpare = s.portNoSpare := by unfold cow; (repeat' split) <;> rfl
@[simp] theorem cow_learned (s : State) (n k : Nat) : (s.cow n k).learned = s.learned := by unfold cow; (repeat' split) <;> rfl
@[simp] theorem cow_points (s : State) (n k : Nat) : (s.cow n k).points = s.points := by unfold cow; (repeat' split) <;> rfl
@[simp] theorem cow_pulses (s : State) (n k : Nat) : (s.cow n k).pulses = s.pulses := by unfold cow; (repeat' split) <;> rfl
@[simp] theorem cow_demand (s : State) (n k : Nat) : (s.cow n k).demand = s.demand := by unfold cow; (repeat' split) <;> rfl
@[simp] theorem cow_evq (s : State) (n k : Nat) : (s.cow n k).evq = s.evq := by unfold cow; (repeat' split) <;> rfl
@[simp] theorem cow_evOver (s : State) (n k : Nat) : (s.cow n k).evOver = s.evOver := by unfold cow; (repeat' split) <;> rfl
@[simp] theorem cow_jobs (s : State) (n k : Nat) : (s.cow n k).jobs = s.jobs := by unfold cow; (repeat' split) <;> rfl
@[simp] theorem cow_logs (s : State) (n k : Nat) : (s.cow n k).logs = s.logs := by unfold cow; (repeat' split) <;> rfl
@[simp] theorem cow_merges (s : State) (n k : Nat) : (s.cow n k).merges = s.merges := by unfold cow; (repeat' split) <;> rfl
@[simp] theorem cow_journal (s : State) (n k : Nat) : (s.cow n k).journal = s.journal := by unfold cow; (repeat' split) <;> rfl
@[simp] theorem cow_store (s : State) (n k : Nat) : (s.cow n k).store = s.store := by unfold cow; (repeat' split) <;> rfl
@[simp] theorem cow_nvm (s : State) (n k : Nat) : (s.cow n k).nvm = s.nvm := by unfold cow; (repeat' split) <;> rfl
@[simp] theorem cow_scratch (s : State) (n k : Nat) : (s.cow n k).scratch = s.scratch := by unfold cow; (repeat' split) <;> rfl
@[simp] theorem cow_spi (s : State) (n k : Nat) : (s.cow n k).spi = s.spi := by unfold cow; (repeat' split) <;> rfl
@[simp] theorem cow_can (s : State) (n k : Nat) : (s.cow n k).can = s.can := by unfold cow; (repeat' split) <;> rfl
@[simp] theorem cow_bus (s : State) (n k : Nat) : (s.cow n k).bus = s.bus := by unfold cow; (repeat' split) <;> rfl
@[simp] theorem cow_stream (s : State) (n k : Nat) : (s.cow n k).stream = s.stream := by unfold cow; (repeat' split) <;> rfl
@[simp] theorem cow_tabLast (s : State) (n k : Nat) : (s.cow n k).tabLast = s.tabLast := by unfold cow; (repeat' split) <;> rfl
@[simp] theorem cow_heldBatches (s : State) (n k : Nat) : (s.cow n k).heldBatches = s.heldBatches := by unfold cow; (repeat' split) <;> rfl
@[simp] theorem cow_cal (s : State) (n k : Nat) : (s.cow n k).cal = s.cal := by unfold cow; (repeat' split) <;> rfl
@[simp] theorem cow_plateUse (s : State) (n k : Nat) : (s.cow n k).plateUse = s.plateUse := by unfold cow; (repeat' split) <;> rfl
@[simp] theorem cow_sealedRef (s : State) (n k : Nat) : (s.cow n k).sealedRef = s.sealedRef := by unfold cow; (repeat' split) <;> rfl
@[simp] theorem cow_convs (s : State) (n k : Nat) : (s.cow n k).convs = s.convs := by unfold cow; (repeat' split) <;> rfl
@[simp] theorem cow_couples (s : State) (n k : Nat) : (s.cow n k).couples = s.couples := by unfold cow; (repeat' split) <;> rfl
@[simp] theorem cow_inputAt (s : State) (n k : Nat) : (s.cow n k).inputAt = s.inputAt := by unfold cow; (repeat' split) <;> rfl
@[simp] theorem cow_auxRun (s : State) (n k : Nat) : (s.cow n k).auxRun = s.auxRun := by unfold cow; (repeat' split) <;> rfl
@[simp] theorem cow_banks (s : State) (n k : Nat) : (s.cow n k).banks = s.banks := by unfold cow; (repeat' split) <;> rfl
@[simp] theorem cow_march (s : State) (n k : Nat) : (s.cow n k).march = s.march := by unfold cow; (repeat' split) <;> rfl
@[simp] theorem cow_bankSub (s : State) (n k : Nat) : (s.cow n k).bankSub = s.bankSub := by unfold cow; (repeat' split) <;> rfl
@[simp] theorem cow_sram (s : State) (n k : Nat) : (s.cow n k).sram = s.sram := by unfold cow; (repeat' split) <;> rfl
@[simp] theorem cow_sweepAt (s : State) (n k : Nat) : (s.cow n k).sweepAt = s.sweepAt := by unfold cow; (repeat' split) <;> rfl
@[simp] theorem cow_stringReads (s : State) (n k : Nat) : (s.cow n k).stringReads = s.stringReads := by unfold cow; (repeat' split) <;> rfl
@[simp] theorem cow_sessions (s : State) (n k : Nat) : (s.cow n k).sessions = s.sessions := by unfold cow; (repeat' split) <;> rfl
@[simp] theorem cow_sign (s : State) (n k : Nat) : (s.cow n k).sign = s.sign := by unfold cow; (repeat' split) <;> rfl
@[simp] theorem cow_disp (s : State) (n k : Nat) : (s.cow n k).disp = s.disp := by unfold cow; (repeat' split) <;> rfl
@[simp] theorem cow_tamper (s : State) (n k : Nat) : (s.cow n k).tamper = s.tamper := by unfold cow; (repeat' split) <;> rfl
@[simp] theorem cow_thb (s : State) (n k : Nat) : (s.cow n k).thb = s.thb := by unfold cow; (repeat' split) <;> rfl
@[simp] theorem cow_svc (s : State) (n k : Nat) : (s.cow n k).svc = s.svc := by unfold cow; (repeat' split) <;> rfl

/-! ### setQ -/

@[simp] theorem setQ_blobs (s : State) (n k : Nat) (v : Int) : (s.setQ n k v).blobs = s.blobs := by simp [setQ]
@[simp] theorem setQ_pending (s : State) (n k : Nat) (v : Int) : (s.setQ n k v).pending = s.pending := by simp [setQ]
@[simp] theorem setQ_free (s : State) (n k : Nat) (v : Int) : (s.setQ n k v).free = s.free := by simp [setQ]
@[simp] theorem setQ_mode (s : State) (n k : Nat) (v : Int) : (s.setQ n k v).mode = s.mode := by simp [setQ]
@[simp] theorem setQ_attended (s : State) (n k : Nat) (v : Int) : (s.setQ n k v).attended = s.attended := by simp [setQ]
@[simp] theorem setQ_modeNext (s : State) (n k : Nat) (v : Int) : (s.setQ n k v).modeNext = s.modeNext := by simp [setQ]
@[simp] theorem setQ_modeHist (s : State) (n k : Nat) (v : Int) : (s.setQ n k v).modeHist = s.modeHist := by simp [setQ]
@[simp] theorem setQ_rtc (s : State) (n k : Nat) (v : Int) : (s.setQ n k v).rtc = s.rtc := by simp [setQ]
@[simp] theorem setQ_index (s : State) (n k : Nat) (v : Int) : (s.setQ n k v).index = s.index := by simp [setQ]
@[simp] theorem setQ_timeStepNext (s : State) (n k : Nat) (v : Int) : (s.setQ n k v).timeStepNext = s.timeStepNext := by simp [setQ]
@[simp] theorem setQ_startup (s : State) (n k : Nat) (v : Int) : (s.setQ n k v).startup = s.startup := by simp [setQ]
@[simp] theorem setQ_twins (s : State) (n k : Nat) (v : Int) : (s.setQ n k v).twins = s.twins := by simp [setQ]
@[simp] theorem setQ_lockLatch (s : State) (n k : Nat) (v : Int) : (s.setQ n k v).lockLatch = s.lockLatch := by simp [setQ]
@[simp] theorem setQ_lockNvm (s : State) (n k : Nat) (v : Int) : (s.setQ n k v).lockNvm = s.lockNvm := by simp [setQ]
@[simp] theorem setQ_integrityFlag (s : State) (n k : Nat) (v : Int) : (s.setQ n k v).integrityFlag = s.integrityFlag := by simp [setQ]
@[simp] theorem setQ_lanes (s : State) (n k : Nat) (v : Int) : (s.setQ n k v).lanes = s.lanes := by simp [setQ]
@[simp] theorem setQ_laneSub (s : State) (n k : Nat) (v : Int) : (s.setQ n k v).laneSub = s.laneSub := by simp [setQ]
@[simp] theorem setQ_ports (s : State) (n k : Nat) (v : Int) : (s.setQ n k v).ports = s.ports := by simp [setQ]
@[simp] theorem setQ_spares (s : State) (n k : Nat) (v : Int) : (s.setQ n k v).spares = s.spares := by simp [setQ]
@[simp] theorem setQ_mclk (s : State) (n k : Nat) (v : Int) : (s.setQ n k v).mclk = s.mclk := by simp [setQ]
@[simp] theorem setQ_blockNo (s : State) (n k : Nat) (v : Int) : (s.setQ n k v).blockNo = s.blockNo := by simp [setQ]
@[simp] theorem setQ_portNoSpare (s : State) (n k : Nat) (v : Int) : (s.setQ n k v).portNoSpare = s.portNoSpare := by simp [setQ]
@[simp] theorem setQ_learned (s : State) (n k : Nat) (v : Int) : (s.setQ n k v).learned = s.learned := by simp [setQ]
@[simp] theorem setQ_points (s : State) (n k : Nat) (v : Int) : (s.setQ n k v).points = s.points := by simp [setQ]
@[simp] theorem setQ_pulses (s : State) (n k : Nat) (v : Int) : (s.setQ n k v).pulses = s.pulses := by simp [setQ]
@[simp] theorem setQ_demand (s : State) (n k : Nat) (v : Int) : (s.setQ n k v).demand = s.demand := by simp [setQ]
@[simp] theorem setQ_evq (s : State) (n k : Nat) (v : Int) : (s.setQ n k v).evq = s.evq := by simp [setQ]
@[simp] theorem setQ_evOver (s : State) (n k : Nat) (v : Int) : (s.setQ n k v).evOver = s.evOver := by simp [setQ]
@[simp] theorem setQ_jobs (s : State) (n k : Nat) (v : Int) : (s.setQ n k v).jobs = s.jobs := by simp [setQ]
@[simp] theorem setQ_logs (s : State) (n k : Nat) (v : Int) : (s.setQ n k v).logs = s.logs := by simp [setQ]
@[simp] theorem setQ_merges (s : State) (n k : Nat) (v : Int) : (s.setQ n k v).merges = s.merges := by simp [setQ]
@[simp] theorem setQ_journal (s : State) (n k : Nat) (v : Int) : (s.setQ n k v).journal = s.journal := by simp [setQ]
@[simp] theorem setQ_store (s : State) (n k : Nat) (v : Int) : (s.setQ n k v).store = s.store := by simp [setQ]
@[simp] theorem setQ_nvm (s : State) (n k : Nat) (v : Int) : (s.setQ n k v).nvm = s.nvm := by simp [setQ]
@[simp] theorem setQ_scratch (s : State) (n k : Nat) (v : Int) : (s.setQ n k v).scratch = s.scratch := by simp [setQ]
@[simp] theorem setQ_spi (s : State) (n k : Nat) (v : Int) : (s.setQ n k v).spi = s.spi := by simp [setQ]
@[simp] theorem setQ_can (s : State) (n k : Nat) (v : Int) : (s.setQ n k v).can = s.can := by simp [setQ]
@[simp] theorem setQ_bus (s : State) (n k : Nat) (v : Int) : (s.setQ n k v).bus = s.bus := by simp [setQ]
@[simp] theorem setQ_stream (s : State) (n k : Nat) (v : Int) : (s.setQ n k v).stream = s.stream := by simp [setQ]
@[simp] theorem setQ_tabLast (s : State) (n k : Nat) (v : Int) : (s.setQ n k v).tabLast = s.tabLast := by simp [setQ]
@[simp] theorem setQ_heldBatches (s : State) (n k : Nat) (v : Int) : (s.setQ n k v).heldBatches = s.heldBatches := by simp [setQ]
@[simp] theorem setQ_cal (s : State) (n k : Nat) (v : Int) : (s.setQ n k v).cal = s.cal := by simp [setQ]
@[simp] theorem setQ_plateUse (s : State) (n k : Nat) (v : Int) : (s.setQ n k v).plateUse = s.plateUse := by simp [setQ]
@[simp] theorem setQ_sealedRef (s : State) (n k : Nat) (v : Int) : (s.setQ n k v).sealedRef = s.sealedRef := by simp [setQ]
@[simp] theorem setQ_convs (s : State) (n k : Nat) (v : Int) : (s.setQ n k v).convs = s.convs := by simp [setQ]
@[simp] theorem setQ_couples (s : State) (n k : Nat) (v : Int) : (s.setQ n k v).couples = s.couples := by simp [setQ]
@[simp] theorem setQ_inputAt (s : State) (n k : Nat) (v : Int) : (s.setQ n k v).inputAt = s.inputAt := by simp [setQ]
@[simp] theorem setQ_auxRun (s : State) (n k : Nat) (v : Int) : (s.setQ n k v).auxRun = s.auxRun := by simp [setQ]
@[simp] theorem setQ_banks (s : State) (n k : Nat) (v : Int) : (s.setQ n k v).banks = s.banks := by simp [setQ]
@[simp] theorem setQ_march (s : State) (n k : Nat) (v : Int) : (s.setQ n k v).march = s.march := by simp [setQ]
@[simp] theorem setQ_bankSub (s : State) (n k : Nat) (v : Int) : (s.setQ n k v).bankSub = s.bankSub := by simp [setQ]
@[simp] theorem setQ_sram (s : State) (n k : Nat) (v : Int) : (s.setQ n k v).sram = s.sram := by simp [setQ]
@[simp] theorem setQ_sweepAt (s : State) (n k : Nat) (v : Int) : (s.setQ n k v).sweepAt = s.sweepAt := by simp [setQ]
@[simp] theorem setQ_stringReads (s : State) (n k : Nat) (v : Int) : (s.setQ n k v).stringReads = s.stringReads := by simp [setQ]
@[simp] theorem setQ_sessions (s : State) (n k : Nat) (v : Int) : (s.setQ n k v).sessions = s.sessions := by simp [setQ]
@[simp] theorem setQ_sign (s : State) (n k : Nat) (v : Int) : (s.setQ n k v).sign = s.sign := by simp [setQ]
@[simp] theorem setQ_disp (s : State) (n k : Nat) (v : Int) : (s.setQ n k v).disp = s.disp := by simp [setQ]
@[simp] theorem setQ_tamper (s : State) (n k : Nat) (v : Int) : (s.setQ n k v).tamper = s.tamper := by simp [setQ]
@[simp] theorem setQ_thb (s : State) (n k : Nat) (v : Int) : (s.setQ n k v).thb = s.thb := by simp [setQ]
@[simp] theorem setQ_svc (s : State) (n k : Nat) (v : Int) : (s.setQ n k v).svc = s.svc := by simp [setQ]

/-! ### put -/

@[simp] theorem put_blobs (s : State) (k : Nat) (v : Int) : (s.put k v).blobs = s.blobs := by simp [put]
@[simp] theorem put_pending (s : State) (k : Nat) (v : Int) : (s.put k v).pending = s.pending := by simp [put]
@[simp] theorem put_free (s : State) (k : Nat) (v : Int) : (s.put k v).free = s.free := by simp [put]
@[simp] theorem put_mode (s : State) (k : Nat) (v : Int) : (s.put k v).mode = s.mode := by simp [put]
@[simp] theorem put_attended (s : State) (k : Nat) (v : Int) : (s.put k v).attended = s.attended := by simp [put]
@[simp] theorem put_modeNext (s : State) (k : Nat) (v : Int) : (s.put k v).modeNext = s.modeNext := by simp [put]
@[simp] theorem put_modeHist (s : State) (k : Nat) (v : Int) : (s.put k v).modeHist = s.modeHist := by simp [put]
@[simp] theorem put_rtc (s : State) (k : Nat) (v : Int) : (s.put k v).rtc = s.rtc := by simp [put]
@[simp] theorem put_index (s : State) (k : Nat) (v : Int) : (s.put k v).index = s.index := by simp [put]
@[simp] theorem put_timeStepNext (s : State) (k : Nat) (v : Int) : (s.put k v).timeStepNext = s.timeStepNext := by simp [put]
@[simp] theorem put_startup (s : State) (k : Nat) (v : Int) : (s.put k v).startup = s.startup := by simp [put]
@[simp] theorem put_twins (s : State) (k : Nat) (v : Int) : (s.put k v).twins = s.twins := by simp [put]
@[simp] theorem put_lockLatch (s : State) (k : Nat) (v : Int) : (s.put k v).lockLatch = s.lockLatch := by simp [put]
@[simp] theorem put_lockNvm (s : State) (k : Nat) (v : Int) : (s.put k v).lockNvm = s.lockNvm := by simp [put]
@[simp] theorem put_integrityFlag (s : State) (k : Nat) (v : Int) : (s.put k v).integrityFlag = s.integrityFlag := by simp [put]
@[simp] theorem put_lanes (s : State) (k : Nat) (v : Int) : (s.put k v).lanes = s.lanes := by simp [put]
@[simp] theorem put_laneSub (s : State) (k : Nat) (v : Int) : (s.put k v).laneSub = s.laneSub := by simp [put]
@[simp] theorem put_ports (s : State) (k : Nat) (v : Int) : (s.put k v).ports = s.ports := by simp [put]
@[simp] theorem put_spares (s : State) (k : Nat) (v : Int) : (s.put k v).spares = s.spares := by simp [put]
@[simp] theorem put_mclk (s : State) (k : Nat) (v : Int) : (s.put k v).mclk = s.mclk := by simp [put]
@[simp] theorem put_blockNo (s : State) (k : Nat) (v : Int) : (s.put k v).blockNo = s.blockNo := by simp [put]
@[simp] theorem put_portNoSpare (s : State) (k : Nat) (v : Int) : (s.put k v).portNoSpare = s.portNoSpare := by simp [put]
@[simp] theorem put_learned (s : State) (k : Nat) (v : Int) : (s.put k v).learned = s.learned := by simp [put]
@[simp] theorem put_points (s : State) (k : Nat) (v : Int) : (s.put k v).points = s.points := by simp [put]
@[simp] theorem put_pulses (s : State) (k : Nat) (v : Int) : (s.put k v).pulses = s.pulses := by simp [put]
@[simp] theorem put_demand (s : State) (k : Nat) (v : Int) : (s.put k v).demand = s.demand := by simp [put]
@[simp] theorem put_evq (s : State) (k : Nat) (v : Int) : (s.put k v).evq = s.evq := by simp [put]
@[simp] theorem put_evOver (s : State) (k : Nat) (v : Int) : (s.put k v).evOver = s.evOver := by simp [put]
@[simp] theorem put_jobs (s : State) (k : Nat) (v : Int) : (s.put k v).jobs = s.jobs := by simp [put]
@[simp] theorem put_logs (s : State) (k : Nat) (v : Int) : (s.put k v).logs = s.logs := by simp [put]
@[simp] theorem put_merges (s : State) (k : Nat) (v : Int) : (s.put k v).merges = s.merges := by simp [put]
@[simp] theorem put_journal (s : State) (k : Nat) (v : Int) : (s.put k v).journal = s.journal := by simp [put]
@[simp] theorem put_store (s : State) (k : Nat) (v : Int) : (s.put k v).store = s.store := by simp [put]
@[simp] theorem put_nvm (s : State) (k : Nat) (v : Int) : (s.put k v).nvm = s.nvm := by simp [put]
@[simp] theorem put_scratch (s : State) (k : Nat) (v : Int) : (s.put k v).scratch = s.scratch := by simp [put]
@[simp] theorem put_spi (s : State) (k : Nat) (v : Int) : (s.put k v).spi = s.spi := by simp [put]
@[simp] theorem put_can (s : State) (k : Nat) (v : Int) : (s.put k v).can = s.can := by simp [put]
@[simp] theorem put_bus (s : State) (k : Nat) (v : Int) : (s.put k v).bus = s.bus := by simp [put]
@[simp] theorem put_stream (s : State) (k : Nat) (v : Int) : (s.put k v).stream = s.stream := by simp [put]
@[simp] theorem put_tabLast (s : State) (k : Nat) (v : Int) : (s.put k v).tabLast = s.tabLast := by simp [put]
@[simp] theorem put_heldBatches (s : State) (k : Nat) (v : Int) : (s.put k v).heldBatches = s.heldBatches := by simp [put]
@[simp] theorem put_cal (s : State) (k : Nat) (v : Int) : (s.put k v).cal = s.cal := by simp [put]
@[simp] theorem put_plateUse (s : State) (k : Nat) (v : Int) : (s.put k v).plateUse = s.plateUse := by simp [put]
@[simp] theorem put_sealedRef (s : State) (k : Nat) (v : Int) : (s.put k v).sealedRef = s.sealedRef := by simp [put]
@[simp] theorem put_convs (s : State) (k : Nat) (v : Int) : (s.put k v).convs = s.convs := by simp [put]
@[simp] theorem put_couples (s : State) (k : Nat) (v : Int) : (s.put k v).couples = s.couples := by simp [put]
@[simp] theorem put_inputAt (s : State) (k : Nat) (v : Int) : (s.put k v).inputAt = s.inputAt := by simp [put]
@[simp] theorem put_auxRun (s : State) (k : Nat) (v : Int) : (s.put k v).auxRun = s.auxRun := by simp [put]
@[simp] theorem put_banks (s : State) (k : Nat) (v : Int) : (s.put k v).banks = s.banks := by simp [put]
@[simp] theorem put_march (s : State) (k : Nat) (v : Int) : (s.put k v).march = s.march := by simp [put]
@[simp] theorem put_bankSub (s : State) (k : Nat) (v : Int) : (s.put k v).bankSub = s.bankSub := by simp [put]
@[simp] theorem put_sram (s : State) (k : Nat) (v : Int) : (s.put k v).sram = s.sram := by simp [put]
@[simp] theorem put_sweepAt (s : State) (k : Nat) (v : Int) : (s.put k v).sweepAt = s.sweepAt := by simp [put]
@[simp] theorem put_stringReads (s : State) (k : Nat) (v : Int) : (s.put k v).stringReads = s.stringReads := by simp [put]
@[simp] theorem put_sessions (s : State) (k : Nat) (v : Int) : (s.put k v).sessions = s.sessions := by simp [put]
@[simp] theorem put_sign (s : State) (k : Nat) (v : Int) : (s.put k v).sign = s.sign := by simp [put]
@[simp] theorem put_disp (s : State) (k : Nat) (v : Int) : (s.put k v).disp = s.disp := by simp [put]
@[simp] theorem put_tamper (s : State) (k : Nat) (v : Int) : (s.put k v).tamper = s.tamper := by simp [put]
@[simp] theorem put_thb (s : State) (k : Nat) (v : Int) : (s.put k v).thb = s.thb := by simp [put]
@[simp] theorem put_svc (s : State) (k : Nat) (v : Int) : (s.put k v).svc = s.svc := by simp [put]

/-! ### queueRecord -/

@[simp] theorem queueRecord_nums (s : State) (j : RecJob) : (s.queueRecord j).nums = s.nums := by
  unfold queueRecord startJob; (repeat' split) <;> rfl
@[simp] theorem queueRecord_blobs (s : State) (j : RecJob) : (s.queueRecord j).blobs = s.blobs := by
  unfold queueRecord startJob; (repeat' split) <;> rfl
@[simp] theorem queueRecord_pending (s : State) (j : RecJob) : (s.queueRecord j).pending = s.pending := by
  unfold queueRecord startJob; (repeat' split) <;> rfl
@[simp] theorem queueRecord_free (s : State) (j : RecJob) : (s.queueRecord j).free = s.free := by
  unfold queueRecord startJob; (repeat' split) <;> rfl
@[simp] theorem queueRecord_mode (s : State) (j : RecJob) : (s.queueRecord j).mode = s.mode := by
  unfold queueRecord startJob; (repeat' split) <;> rfl
@[simp] theorem queueRecord_attended (s : State) (j : RecJob) : (s.queueRecord j).attended = s.attended := by
  unfold queueRecord startJob; (repeat' split) <;> rfl
@[simp] theorem queueRecord_modeNext (s : State) (j : RecJob) : (s.queueRecord j).modeNext = s.modeNext := by
  unfold queueRecord startJob; (repeat' split) <;> rfl
@[simp] theorem queueRecord_modeHist (s : State) (j : RecJob) : (s.queueRecord j).modeHist = s.modeHist := by
  unfold queueRecord startJob; (repeat' split) <;> rfl
@[simp] theorem queueRecord_rtc (s : State) (j : RecJob) : (s.queueRecord j).rtc = s.rtc := by
  unfold queueRecord startJob; (repeat' split) <;> rfl
@[simp] theorem queueRecord_index (s : State) (j : RecJob) : (s.queueRecord j).index = s.index := by
  unfold queueRecord startJob; (repeat' split) <;> rfl
@[simp] theorem queueRecord_timeStepNext (s : State) (j : RecJob) : (s.queueRecord j).timeStepNext = s.timeStepNext := by
  unfold queueRecord startJob; (repeat' split) <;> rfl
@[simp] theorem queueRecord_startup (s : State) (j : RecJob) : (s.queueRecord j).startup = s.startup := by
  unfold queueRecord startJob; (repeat' split) <;> rfl
@[simp] theorem queueRecord_twins (s : State) (j : RecJob) : (s.queueRecord j).twins = s.twins := by
  unfold queueRecord startJob; (repeat' split) <;> rfl
@[simp] theorem queueRecord_lockLatch (s : State) (j : RecJob) : (s.queueRecord j).lockLatch = s.lockLatch := by
  unfold queueRecord startJob; (repeat' split) <;> rfl
@[simp] theorem queueRecord_lockNvm (s : State) (j : RecJob) : (s.queueRecord j).lockNvm = s.lockNvm := by
  unfold queueRecord startJob; (repeat' split) <;> rfl
@[simp] theorem queueRecord_integrityFlag (s : State) (j : RecJob) : (s.queueRecord j).integrityFlag = s.integrityFlag := by
  unfold queueRecord startJob; (repeat' split) <;> rfl
@[simp] theorem queueRecord_lanes (s : State) (j : RecJob) : (s.queueRecord j).lanes = s.lanes := by
  unfold queueRecord startJob; (repeat' split) <;> rfl
@[simp] theorem queueRecord_laneSub (s : State) (j : RecJob) : (s.queueRecord j).laneSub = s.laneSub := by
  unfold queueRecord startJob; (repeat' split) <;> rfl
@[simp] theorem queueRecord_ports (s : State) (j : RecJob) : (s.queueRecord j).ports = s.ports := by
  unfold queueRecord startJob; (repeat' split) <;> rfl
@[simp] theorem queueRecord_spares (s : State) (j : RecJob) : (s.queueRecord j).spares = s.spares := by
  unfold queueRecord startJob; (repeat' split) <;> rfl
@[simp] theorem queueRecord_mclk (s : State) (j : RecJob) : (s.queueRecord j).mclk = s.mclk := by
  unfold queueRecord startJob; (repeat' split) <;> rfl
@[simp] theorem queueRecord_blockNo (s : State) (j : RecJob) : (s.queueRecord j).blockNo = s.blockNo := by
  unfold queueRecord startJob; (repeat' split) <;> rfl
@[simp] theorem queueRecord_portNoSpare (s : State) (j : RecJob) : (s.queueRecord j).portNoSpare = s.portNoSpare := by
  unfold queueRecord startJob; (repeat' split) <;> rfl
@[simp] theorem queueRecord_learned (s : State) (j : RecJob) : (s.queueRecord j).learned = s.learned := by
  unfold queueRecord startJob; (repeat' split) <;> rfl
@[simp] theorem queueRecord_points (s : State) (j : RecJob) : (s.queueRecord j).points = s.points := by
  unfold queueRecord startJob; (repeat' split) <;> rfl
@[simp] theorem queueRecord_pulses (s : State) (j : RecJob) : (s.queueRecord j).pulses = s.pulses := by
  unfold queueRecord startJob; (repeat' split) <;> rfl
@[simp] theorem queueRecord_demand (s : State) (j : RecJob) : (s.queueRecord j).demand = s.demand := by
  unfold queueRecord startJob; (repeat' split) <;> rfl
@[simp] theorem queueRecord_evq (s : State) (j : RecJob) : (s.queueRecord j).evq = s.evq := by
  unfold queueRecord startJob; (repeat' split) <;> rfl
@[simp] theorem queueRecord_evOver (s : State) (j : RecJob) : (s.queueRecord j).evOver = s.evOver := by
  unfold queueRecord startJob; (repeat' split) <;> rfl
@[simp] theorem queueRecord_merges (s : State) (j : RecJob) : (s.queueRecord j).merges = s.merges := by
  unfold queueRecord startJob; (repeat' split) <;> rfl
@[simp] theorem queueRecord_journal (s : State) (j : RecJob) : (s.queueRecord j).journal = s.journal := by
  unfold queueRecord startJob; (repeat' split) <;> rfl
@[simp] theorem queueRecord_store (s : State) (j : RecJob) : (s.queueRecord j).store = s.store := by
  unfold queueRecord startJob; (repeat' split) <;> rfl
@[simp] theorem queueRecord_nvm (s : State) (j : RecJob) : (s.queueRecord j).nvm = s.nvm := by
  unfold queueRecord startJob; (repeat' split) <;> rfl
@[simp] theorem queueRecord_scratch (s : State) (j : RecJob) : (s.queueRecord j).scratch = s.scratch := by
  unfold queueRecord startJob; (repeat' split) <;> rfl
@[simp] theorem queueRecord_spi (s : State) (j : RecJob) : (s.queueRecord j).spi = s.spi := by
  unfold queueRecord startJob; (repeat' split) <;> rfl
@[simp] theorem queueRecord_can (s : State) (j : RecJob) : (s.queueRecord j).can = s.can := by
  unfold queueRecord startJob; (repeat' split) <;> rfl
@[simp] theorem queueRecord_bus (s : State) (j : RecJob) : (s.queueRecord j).bus = s.bus := by
  unfold queueRecord startJob; (repeat' split) <;> rfl
@[simp] theorem queueRecord_stream (s : State) (j : RecJob) : (s.queueRecord j).stream = s.stream := by
  unfold queueRecord startJob; (repeat' split) <;> rfl
@[simp] theorem queueRecord_tab (s : State) (j : RecJob) : (s.queueRecord j).tab = s.tab := by
  unfold queueRecord startJob; (repeat' split) <;> rfl
@[simp] theorem queueRecord_tabLast (s : State) (j : RecJob) : (s.queueRecord j).tabLast = s.tabLast := by
  unfold queueRecord startJob; (repeat' split) <;> rfl
@[simp] theorem queueRecord_heldBatches (s : State) (j : RecJob) : (s.queueRecord j).heldBatches = s.heldBatches := by
  unfold queueRecord startJob; (repeat' split) <;> rfl
@[simp] theorem queueRecord_cal (s : State) (j : RecJob) : (s.queueRecord j).cal = s.cal := by
  unfold queueRecord startJob; (repeat' split) <;> rfl
@[simp] theorem queueRecord_plateUse (s : State) (j : RecJob) : (s.queueRecord j).plateUse = s.plateUse := by
  unfold queueRecord startJob; (repeat' split) <;> rfl
@[simp] theorem queueRecord_sealedRef (s : State) (j : RecJob) : (s.queueRecord j).sealedRef = s.sealedRef := by
  unfold queueRecord startJob; (repeat' split) <;> rfl
@[simp] theorem queueRecord_convs (s : State) (j : RecJob) : (s.queueRecord j).convs = s.convs := by
  unfold queueRecord startJob; (repeat' split) <;> rfl
@[simp] theorem queueRecord_couples (s : State) (j : RecJob) : (s.queueRecord j).couples = s.couples := by
  unfold queueRecord startJob; (repeat' split) <;> rfl
@[simp] theorem queueRecord_inputAt (s : State) (j : RecJob) : (s.queueRecord j).inputAt = s.inputAt := by
  unfold queueRecord startJob; (repeat' split) <;> rfl
@[simp] theorem queueRecord_auxRun (s : State) (j : RecJob) : (s.queueRecord j).auxRun = s.auxRun := by
  unfold queueRecord startJob; (repeat' split) <;> rfl
@[simp] theorem queueRecord_banks (s : State) (j : RecJob) : (s.queueRecord j).banks = s.banks := by
  unfold queueRecord startJob; (repeat' split) <;> rfl
@[simp] theorem queueRecord_march (s : State) (j : RecJob) : (s.queueRecord j).march = s.march := by
  unfold queueRecord startJob; (repeat' split) <;> rfl
@[simp] theorem queueRecord_bankSub (s : State) (j : RecJob) : (s.queueRecord j).bankSub = s.bankSub := by
  unfold queueRecord startJob; (repeat' split) <;> rfl
@[simp] theorem queueRecord_sram (s : State) (j : RecJob) : (s.queueRecord j).sram = s.sram := by
  unfold queueRecord startJob; (repeat' split) <;> rfl
@[simp] theorem queueRecord_sweepAt (s : State) (j : RecJob) : (s.queueRecord j).sweepAt = s.sweepAt := by
  unfold queueRecord startJob; (repeat' split) <;> rfl
@[simp] theorem queueRecord_stringReads (s : State) (j : RecJob) : (s.queueRecord j).stringReads = s.stringReads := by
  unfold queueRecord startJob; (repeat' split) <;> rfl
@[simp] theorem queueRecord_sessions (s : State) (j : RecJob) : (s.queueRecord j).sessions = s.sessions := by
  unfold queueRecord startJob; (repeat' split) <;> rfl
@[simp] theorem queueRecord_sign (s : State) (j : RecJob) : (s.queueRecord j).sign = s.sign := by
  unfold queueRecord startJob; (repeat' split) <;> rfl
@[simp] theorem queueRecord_disp (s : State) (j : RecJob) : (s.queueRecord j).disp = s.disp := by
  unfold queueRecord startJob; (repeat' split) <;> rfl
@[simp] theorem queueRecord_tamper (s : State) (j : RecJob) : (s.queueRecord j).tamper = s.tamper := by
  unfold queueRecord startJob; (repeat' split) <;> rfl
@[simp] theorem queueRecord_thb (s : State) (j : RecJob) : (s.queueRecord j).thb = s.thb := by
  unfold queueRecord startJob; (repeat' split) <;> rfl
@[simp] theorem queueRecord_svc (s : State) (j : RecJob) : (s.queueRecord j).svc = s.svc := by
  unfold queueRecord startJob; (repeat' split) <;> rfl

/-! ### health -/

@[simp] theorem health_nums (s : State) (code resource detail : Nat) : (s.health code resource detail).nums = s.nums := by
  unfold health; dsimp only; (repeat' split) <;> simp
@[simp] theorem health_blobs (s : State) (code resource detail : Nat) : (s.health code resource detail).blobs = s.blobs := by
  unfold health; dsimp only; (repeat' split) <;> simp
@[simp] theorem health_pending (s : State) (code resource detail : Nat) : (s.health code resource detail).pending = s.pending := by
  unfold health; dsimp only; (repeat' split) <;> simp
@[simp] theorem health_free (s : State) (code resource detail : Nat) : (s.health code resource detail).free = s.free := by
  unfold health; dsimp only; (repeat' split) <;> simp
@[simp] theorem health_mode (s : State) (code resource detail : Nat) : (s.health code resource detail).mode = s.mode := by
  unfold health; dsimp only; (repeat' split) <;> simp
@[simp] theorem health_attended (s : State) (code resource detail : Nat) : (s.health code resource detail).attended = s.attended := by
  unfold health; dsimp only; (repeat' split) <;> simp
@[simp] theorem health_modeNext (s : State) (code resource detail : Nat) : (s.health code resource detail).modeNext = s.modeNext := by
  unfold health; dsimp only; (repeat' split) <;> simp
@[simp] theorem health_modeHist (s : State) (code resource detail : Nat) : (s.health code resource detail).modeHist = s.modeHist := by
  unfold health; dsimp only; (repeat' split) <;> simp
@[simp] theorem health_rtc (s : State) (code resource detail : Nat) : (s.health code resource detail).rtc = s.rtc := by
  unfold health; dsimp only; (repeat' split) <;> simp
@[simp] theorem health_index (s : State) (code resource detail : Nat) : (s.health code resource detail).index = s.index := by
  unfold health; dsimp only; (repeat' split) <;> simp
@[simp] theorem health_timeStepNext (s : State) (code resource detail : Nat) : (s.health code resource detail).timeStepNext = s.timeStepNext := by
  unfold health; dsimp only; (repeat' split) <;> simp
@[simp] theorem health_startup (s : State) (code resource detail : Nat) : (s.health code resource detail).startup = s.startup := by
  unfold health; dsimp only; (repeat' split) <;> simp
@[simp] theorem health_twins (s : State) (code resource detail : Nat) : (s.health code resource detail).twins = s.twins := by
  unfold health; dsimp only; (repeat' split) <;> simp
@[simp] theorem health_lockLatch (s : State) (code resource detail : Nat) : (s.health code resource detail).lockLatch = s.lockLatch := by
  unfold health; dsimp only; (repeat' split) <;> simp
@[simp] theorem health_lockNvm (s : State) (code resource detail : Nat) : (s.health code resource detail).lockNvm = s.lockNvm := by
  unfold health; dsimp only; (repeat' split) <;> simp
@[simp] theorem health_integrityFlag (s : State) (code resource detail : Nat) : (s.health code resource detail).integrityFlag = s.integrityFlag := by
  unfold health; dsimp only; (repeat' split) <;> simp
@[simp] theorem health_lanes (s : State) (code resource detail : Nat) : (s.health code resource detail).lanes = s.lanes := by
  unfold health; dsimp only; (repeat' split) <;> simp
@[simp] theorem health_laneSub (s : State) (code resource detail : Nat) : (s.health code resource detail).laneSub = s.laneSub := by
  unfold health; dsimp only; (repeat' split) <;> simp
@[simp] theorem health_ports (s : State) (code resource detail : Nat) : (s.health code resource detail).ports = s.ports := by
  unfold health; dsimp only; (repeat' split) <;> simp
@[simp] theorem health_spares (s : State) (code resource detail : Nat) : (s.health code resource detail).spares = s.spares := by
  unfold health; dsimp only; (repeat' split) <;> simp
@[simp] theorem health_mclk (s : State) (code resource detail : Nat) : (s.health code resource detail).mclk = s.mclk := by
  unfold health; dsimp only; (repeat' split) <;> simp
@[simp] theorem health_blockNo (s : State) (code resource detail : Nat) : (s.health code resource detail).blockNo = s.blockNo := by
  unfold health; dsimp only; (repeat' split) <;> simp
@[simp] theorem health_portNoSpare (s : State) (code resource detail : Nat) : (s.health code resource detail).portNoSpare = s.portNoSpare := by
  unfold health; dsimp only; (repeat' split) <;> simp
@[simp] theorem health_learned (s : State) (code resource detail : Nat) : (s.health code resource detail).learned = s.learned := by
  unfold health; dsimp only; (repeat' split) <;> simp
@[simp] theorem health_points (s : State) (code resource detail : Nat) : (s.health code resource detail).points = s.points := by
  unfold health; dsimp only; (repeat' split) <;> simp
@[simp] theorem health_pulses (s : State) (code resource detail : Nat) : (s.health code resource detail).pulses = s.pulses := by
  unfold health; dsimp only; (repeat' split) <;> simp
@[simp] theorem health_demand (s : State) (code resource detail : Nat) : (s.health code resource detail).demand = s.demand := by
  unfold health; dsimp only; (repeat' split) <;> simp
@[simp] theorem health_evq (s : State) (code resource detail : Nat) : (s.health code resource detail).evq = s.evq := by
  unfold health; dsimp only; (repeat' split) <;> simp
@[simp] theorem health_evOver (s : State) (code resource detail : Nat) : (s.health code resource detail).evOver = s.evOver := by
  unfold health; dsimp only; (repeat' split) <;> simp
@[simp] theorem health_journal (s : State) (code resource detail : Nat) : (s.health code resource detail).journal = s.journal := by
  unfold health; dsimp only; (repeat' split) <;> simp
@[simp] theorem health_store (s : State) (code resource detail : Nat) : (s.health code resource detail).store = s.store := by
  unfold health; dsimp only; (repeat' split) <;> simp
@[simp] theorem health_nvm (s : State) (code resource detail : Nat) : (s.health code resource detail).nvm = s.nvm := by
  unfold health; dsimp only; (repeat' split) <;> simp
@[simp] theorem health_scratch (s : State) (code resource detail : Nat) : (s.health code resource detail).scratch = s.scratch := by
  unfold health; dsimp only; (repeat' split) <;> simp
@[simp] theorem health_spi (s : State) (code resource detail : Nat) : (s.health code resource detail).spi = s.spi := by
  unfold health; dsimp only; (repeat' split) <;> simp
@[simp] theorem health_can (s : State) (code resource detail : Nat) : (s.health code resource detail).can = s.can := by
  unfold health; dsimp only; (repeat' split) <;> simp
@[simp] theorem health_bus (s : State) (code resource detail : Nat) : (s.health code resource detail).bus = s.bus := by
  unfold health; dsimp only; (repeat' split) <;> simp
@[simp] theorem health_stream (s : State) (code resource detail : Nat) : (s.health code resource detail).stream = s.stream := by
  unfold health; dsimp only; (repeat' split) <;> simp
@[simp] theorem health_tab (s : State) (code resource detail : Nat) : (s.health code resource detail).tab = s.tab := by
  unfold health; dsimp only; (repeat' split) <;> simp
@[simp] theorem health_tabLast (s : State) (code resource detail : Nat) : (s.health code resource detail).tabLast = s.tabLast := by
  unfold health; dsimp only; (repeat' split) <;> simp
@[simp] theorem health_heldBatches (s : State) (code resource detail : Nat) : (s.health code resource detail).heldBatches = s.heldBatches := by
  unfold health; dsimp only; (repeat' split) <;> simp
@[simp] theorem health_cal (s : State) (code resource detail : Nat) : (s.health code resource detail).cal = s.cal := by
  unfold health; dsimp only; (repeat' split) <;> simp
@[simp] theorem health_plateUse (s : State) (code resource detail : Nat) : (s.health code resource detail).plateUse = s.plateUse := by
  unfold health; dsimp only; (repeat' split) <;> simp
@[simp] theorem health_sealedRef (s : State) (code resource detail : Nat) : (s.health code resource detail).sealedRef = s.sealedRef := by
  unfold health; dsimp only; (repeat' split) <;> simp
@[simp] theorem health_convs (s : State) (code resource detail : Nat) : (s.health code resource detail).convs = s.convs := by
  unfold health; dsimp only; (repeat' split) <;> simp
@[simp] theorem health_couples (s : State) (code resource detail : Nat) : (s.health code resource detail).couples = s.couples := by
  unfold health; dsimp only; (repeat' split) <;> simp
@[simp] theorem health_inputAt (s : State) (code resource detail : Nat) : (s.health code resource detail).inputAt = s.inputAt := by
  unfold health; dsimp only; (repeat' split) <;> simp
@[simp] theorem health_auxRun (s : State) (code resource detail : Nat) : (s.health code resource detail).auxRun = s.auxRun := by
  unfold health; dsimp only; (repeat' split) <;> simp
@[simp] theorem health_banks (s : State) (code resource detail : Nat) : (s.health code resource detail).banks = s.banks := by
  unfold health; dsimp only; (repeat' split) <;> simp
@[simp] theorem health_march (s : State) (code resource detail : Nat) : (s.health code resource detail).march = s.march := by
  unfold health; dsimp only; (repeat' split) <;> simp
@[simp] theorem health_bankSub (s : State) (code resource detail : Nat) : (s.health code resource detail).bankSub = s.bankSub := by
  unfold health; dsimp only; (repeat' split) <;> simp
@[simp] theorem health_sram (s : State) (code resource detail : Nat) : (s.health code resource detail).sram = s.sram := by
  unfold health; dsimp only; (repeat' split) <;> simp
@[simp] theorem health_sweepAt (s : State) (code resource detail : Nat) : (s.health code resource detail).sweepAt = s.sweepAt := by
  unfold health; dsimp only; (repeat' split) <;> simp
@[simp] theorem health_stringReads (s : State) (code resource detail : Nat) : (s.health code resource detail).stringReads = s.stringReads := by
  unfold health; dsimp only; (repeat' split) <;> simp
@[simp] theorem health_sessions (s : State) (code resource detail : Nat) : (s.health code resource detail).sessions = s.sessions := by
  unfold health; dsimp only; (repeat' split) <;> simp
@[simp] theorem health_sign (s : State) (code resource detail : Nat) : (s.health code resource detail).sign = s.sign := by
  unfold health; dsimp only; (repeat' split) <;> simp
@[simp] theorem health_disp (s : State) (code resource detail : Nat) : (s.health code resource detail).disp = s.disp := by
  unfold health; dsimp only; (repeat' split) <;> simp
@[simp] theorem health_tamper (s : State) (code resource detail : Nat) : (s.health code resource detail).tamper = s.tamper := by
  unfold health; dsimp only; (repeat' split) <;> simp
@[simp] theorem health_thb (s : State) (code resource detail : Nat) : (s.health code resource detail).thb = s.thb := by
  unfold health; dsimp only; (repeat' split) <;> simp
@[simp] theorem health_svc (s : State) (code resource detail : Nat) : (s.health code resource detail).svc = s.svc := by
  unfold health; dsimp only; (repeat' split) <;> simp

/-! ### setLink -/

@[simp] theorem setLink_nums (s : State) (l : Link) (x : LinkSt) : (s.setLink l x).nums = s.nums := by cases l <;> rfl
@[simp] theorem setLink_blobs (s : State) (l : Link) (x : LinkSt) : (s.setLink l x).blobs = s.blobs := by cases l <;> rfl
@[simp] theorem setLink_pending (s : State) (l : Link) (x : LinkSt) : (s.setLink l x).pending = s.pending := by cases l <;> rfl
@[simp] theorem setLink_free (s : State) (l : Link) (x : LinkSt) : (s.setLink l x).free = s.free := by cases l <;> rfl
@[simp] theorem setLink_mode (s : State) (l : Link) (x : LinkSt) : (s.setLink l x).mode = s.mode := by cases l <;> rfl
@[simp] theorem setLink_attended (s : State) (l : Link) (x : LinkSt) : (s.setLink l x).attended = s.attended := by cases l <;> rfl
@[simp] theorem setLink_modeNext (s : State) (l : Link) (x : LinkSt) : (s.setLink l x).modeNext = s.modeNext := by cases l <;> rfl
@[simp] theorem setLink_modeHist (s : State) (l : Link) (x : LinkSt) : (s.setLink l x).modeHist = s.modeHist := by cases l <;> rfl
@[simp] theorem setLink_rtc (s : State) (l : Link) (x : LinkSt) : (s.setLink l x).rtc = s.rtc := by cases l <;> rfl
@[simp] theorem setLink_index (s : State) (l : Link) (x : LinkSt) : (s.setLink l x).index = s.index := by cases l <;> rfl
@[simp] theorem setLink_timeStepNext (s : State) (l : Link) (x : LinkSt) : (s.setLink l x).timeStepNext = s.timeStepNext := by cases l <;> rfl
@[simp] theorem setLink_startup (s : State) (l : Link) (x : LinkSt) : (s.setLink l x).startup = s.startup := by cases l <;> rfl
@[simp] theorem setLink_twins (s : State) (l : Link) (x : LinkSt) : (s.setLink l x).twins = s.twins := by cases l <;> rfl
@[simp] theorem setLink_lockLatch (s : State) (l : Link) (x : LinkSt) : (s.setLink l x).lockLatch = s.lockLatch := by cases l <;> rfl
@[simp] theorem setLink_lockNvm (s : State) (l : Link) (x : LinkSt) : (s.setLink l x).lockNvm = s.lockNvm := by cases l <;> rfl
@[simp] theorem setLink_integrityFlag (s : State) (l : Link) (x : LinkSt) : (s.setLink l x).integrityFlag = s.integrityFlag := by cases l <;> rfl
@[simp] theorem setLink_lanes (s : State) (l : Link) (x : LinkSt) : (s.setLink l x).lanes = s.lanes := by cases l <;> rfl
@[simp] theorem setLink_laneSub (s : State) (l : Link) (x : LinkSt) : (s.setLink l x).laneSub = s.laneSub := by cases l <;> rfl
@[simp] theorem setLink_ports (s : State) (l : Link) (x : LinkSt) : (s.setLink l x).ports = s.ports := by cases l <;> rfl
@[simp] theorem setLink_spares (s : State) (l : Link) (x : LinkSt) : (s.setLink l x).spares = s.spares := by cases l <;> rfl
@[simp] theorem setLink_mclk (s : State) (l : Link) (x : LinkSt) : (s.setLink l x).mclk = s.mclk := by cases l <;> rfl
@[simp] theorem setLink_blockNo (s : State) (l : Link) (x : LinkSt) : (s.setLink l x).blockNo = s.blockNo := by cases l <;> rfl
@[simp] theorem setLink_portNoSpare (s : State) (l : Link) (x : LinkSt) : (s.setLink l x).portNoSpare = s.portNoSpare := by cases l <;> rfl
@[simp] theorem setLink_learned (s : State) (l : Link) (x : LinkSt) : (s.setLink l x).learned = s.learned := by cases l <;> rfl
@[simp] theorem setLink_points (s : State) (l : Link) (x : LinkSt) : (s.setLink l x).points = s.points := by cases l <;> rfl
@[simp] theorem setLink_pulses (s : State) (l : Link) (x : LinkSt) : (s.setLink l x).pulses = s.pulses := by cases l <;> rfl
@[simp] theorem setLink_demand (s : State) (l : Link) (x : LinkSt) : (s.setLink l x).demand = s.demand := by cases l <;> rfl
@[simp] theorem setLink_evq (s : State) (l : Link) (x : LinkSt) : (s.setLink l x).evq = s.evq := by cases l <;> rfl
@[simp] theorem setLink_evOver (s : State) (l : Link) (x : LinkSt) : (s.setLink l x).evOver = s.evOver := by cases l <;> rfl
@[simp] theorem setLink_jobs (s : State) (l : Link) (x : LinkSt) : (s.setLink l x).jobs = s.jobs := by cases l <;> rfl
@[simp] theorem setLink_logs (s : State) (l : Link) (x : LinkSt) : (s.setLink l x).logs = s.logs := by cases l <;> rfl
@[simp] theorem setLink_merges (s : State) (l : Link) (x : LinkSt) : (s.setLink l x).merges = s.merges := by cases l <;> rfl
@[simp] theorem setLink_journal (s : State) (l : Link) (x : LinkSt) : (s.setLink l x).journal = s.journal := by cases l <;> rfl
@[simp] theorem setLink_store (s : State) (l : Link) (x : LinkSt) : (s.setLink l x).store = s.store := by cases l <;> rfl
@[simp] theorem setLink_nvm (s : State) (l : Link) (x : LinkSt) : (s.setLink l x).nvm = s.nvm := by cases l <;> rfl
@[simp] theorem setLink_scratch (s : State) (l : Link) (x : LinkSt) : (s.setLink l x).scratch = s.scratch := by cases l <;> rfl
@[simp] theorem setLink_bus (s : State) (l : Link) (x : LinkSt) : (s.setLink l x).bus = s.bus := by cases l <;> rfl
@[simp] theorem setLink_stream (s : State) (l : Link) (x : LinkSt) : (s.setLink l x).stream = s.stream := by cases l <;> rfl
@[simp] theorem setLink_tab (s : State) (l : Link) (x : LinkSt) : (s.setLink l x).tab = s.tab := by cases l <;> rfl
@[simp] theorem setLink_tabLast (s : State) (l : Link) (x : LinkSt) : (s.setLink l x).tabLast = s.tabLast := by cases l <;> rfl
@[simp] theorem setLink_heldBatches (s : State) (l : Link) (x : LinkSt) : (s.setLink l x).heldBatches = s.heldBatches := by cases l <;> rfl
@[simp] theorem setLink_cal (s : State) (l : Link) (x : LinkSt) : (s.setLink l x).cal = s.cal := by cases l <;> rfl
@[simp] theorem setLink_plateUse (s : State) (l : Link) (x : LinkSt) : (s.setLink l x).plateUse = s.plateUse := by cases l <;> rfl
@[simp] theorem setLink_sealedRef (s : State) (l : Link) (x : LinkSt) : (s.setLink l x).sealedRef = s.sealedRef := by cases l <;> rfl
@[simp] theorem setLink_convs (s : State) (l : Link) (x : LinkSt) : (s.setLink l x).convs = s.convs := by cases l <;> rfl
@[simp] theorem setLink_couples (s : State) (l : Link) (x : LinkSt) : (s.setLink l x).couples = s.couples := by cases l <;> rfl
@[simp] theorem setLink_inputAt (s : State) (l : Link) (x : LinkSt) : (s.setLink l x).inputAt = s.inputAt := by cases l <;> rfl
@[simp] theorem setLink_auxRun (s : State) (l : Link) (x : LinkSt) : (s.setLink l x).auxRun = s.auxRun := by cases l <;> rfl
@[simp] theorem setLink_banks (s : State) (l : Link) (x : LinkSt) : (s.setLink l x).banks = s.banks := by cases l <;> rfl
@[simp] theorem setLink_march (s : State) (l : Link) (x : LinkSt) : (s.setLink l x).march = s.march := by cases l <;> rfl
@[simp] theorem setLink_bankSub (s : State) (l : Link) (x : LinkSt) : (s.setLink l x).bankSub = s.bankSub := by cases l <;> rfl
@[simp] theorem setLink_sram (s : State) (l : Link) (x : LinkSt) : (s.setLink l x).sram = s.sram := by cases l <;> rfl
@[simp] theorem setLink_sweepAt (s : State) (l : Link) (x : LinkSt) : (s.setLink l x).sweepAt = s.sweepAt := by cases l <;> rfl
@[simp] theorem setLink_stringReads (s : State) (l : Link) (x : LinkSt) : (s.setLink l x).stringReads = s.stringReads := by cases l <;> rfl
@[simp] theorem setLink_sessions (s : State) (l : Link) (x : LinkSt) : (s.setLink l x).sessions = s.sessions := by cases l <;> rfl
@[simp] theorem setLink_sign (s : State) (l : Link) (x : LinkSt) : (s.setLink l x).sign = s.sign := by cases l <;> rfl
@[simp] theorem setLink_disp (s : State) (l : Link) (x : LinkSt) : (s.setLink l x).disp = s.disp := by cases l <;> rfl
@[simp] theorem setLink_tamper (s : State) (l : Link) (x : LinkSt) : (s.setLink l x).tamper = s.tamper := by cases l <;> rfl
@[simp] theorem setLink_thb (s : State) (l : Link) (x : LinkSt) : (s.setLink l x).thb = s.thb := by cases l <;> rfl
@[simp] theorem setLink_svc (s : State) (l : Link) (x : LinkSt) : (s.setLink l x).svc = s.svc := by cases l <;> rfl

/-! ### reply -/

@[simp] theorem reply_nums (s : State) (h : Requester) (op idx sub : Nat) (st : Status) (payload : List Byte) : (s.reply h op idx sub st payload).nums = s.nums := by
  unfold reply; split <;> simp
@[simp] theorem reply_blobs (s : State) (h : Requester) (op idx sub : Nat) (st : Status) (payload : List Byte) : (s.reply h op idx sub st payload).blobs = s.blobs := by
  unfold reply; split <;> simp
@[simp] theorem reply_pending (s : State) (h : Requester) (op idx sub : Nat) (st : Status) (payload : List Byte) : (s.reply h op idx sub st payload).pending = s.pending := by
  unfold reply; split <;> simp
@[simp] theorem reply_free (s : State) (h : Requester) (op idx sub : Nat) (st : Status) (payload : List Byte) : (s.reply h op idx sub st payload).free = s.free := by
  unfold reply; split <;> simp
@[simp] theorem reply_mode (s : State) (h : Requester) (op idx sub : Nat) (st : Status) (payload : List Byte) : (s.reply h op idx sub st payload).mode = s.mode := by
  unfold reply; split <;> simp
@[simp] theorem reply_attended (s : State) (h : Requester) (op idx sub : Nat) (st : Status) (payload : List Byte) : (s.reply h op idx sub st payload).attended = s.attended := by
  unfold reply; split <;> simp
@[simp] theorem reply_modeNext (s : State) (h : Requester) (op idx sub : Nat) (st : Status) (payload : List Byte) : (s.reply h op idx sub st payload).modeNext = s.modeNext := by
  unfold reply; split <;> simp
@[simp] theorem reply_modeHist (s : State) (h : Requester) (op idx sub : Nat) (st : Status) (payload : List Byte) : (s.reply h op idx sub st payload).modeHist = s.modeHist := by
  unfold reply; split <;> simp
@[simp] theorem reply_rtc (s : State) (h : Requester) (op idx sub : Nat) (st : Status) (payload : List Byte) : (s.reply h op idx sub st payload).rtc = s.rtc := by
  unfold reply; split <;> simp
@[simp] theorem reply_index (s : State) (h : Requester) (op idx sub : Nat) (st : Status) (payload : List Byte) : (s.reply h op idx sub st payload).index = s.index := by
  unfold reply; split <;> simp
@[simp] theorem reply_timeStepNext (s : State) (h : Requester) (op idx sub : Nat) (st : Status) (payload : List Byte) : (s.reply h op idx sub st payload).timeStepNext = s.timeStepNext := by
  unfold reply; split <;> simp
@[simp] theorem reply_startup (s : State) (h : Requester) (op idx sub : Nat) (st : Status) (payload : List Byte) : (s.reply h op idx sub st payload).startup = s.startup := by
  unfold reply; split <;> simp
@[simp] theorem reply_twins (s : State) (h : Requester) (op idx sub : Nat) (st : Status) (payload : List Byte) : (s.reply h op idx sub st payload).twins = s.twins := by
  unfold reply; split <;> simp
@[simp] theorem reply_lockLatch (s : State) (h : Requester) (op idx sub : Nat) (st : Status) (payload : List Byte) : (s.reply h op idx sub st payload).lockLatch = s.lockLatch := by
  unfold reply; split <;> simp
@[simp] theorem reply_lockNvm (s : State) (h : Requester) (op idx sub : Nat) (st : Status) (payload : List Byte) : (s.reply h op idx sub st payload).lockNvm = s.lockNvm := by
  unfold reply; split <;> simp
@[simp] theorem reply_integrityFlag (s : State) (h : Requester) (op idx sub : Nat) (st : Status) (payload : List Byte) : (s.reply h op idx sub st payload).integrityFlag = s.integrityFlag := by
  unfold reply; split <;> simp
@[simp] theorem reply_lanes (s : State) (h : Requester) (op idx sub : Nat) (st : Status) (payload : List Byte) : (s.reply h op idx sub st payload).lanes = s.lanes := by
  unfold reply; split <;> simp
@[simp] theorem reply_laneSub (s : State) (h : Requester) (op idx sub : Nat) (st : Status) (payload : List Byte) : (s.reply h op idx sub st payload).laneSub = s.laneSub := by
  unfold reply; split <;> simp
@[simp] theorem reply_ports (s : State) (h : Requester) (op idx sub : Nat) (st : Status) (payload : List Byte) : (s.reply h op idx sub st payload).ports = s.ports := by
  unfold reply; split <;> simp
@[simp] theorem reply_spares (s : State) (h : Requester) (op idx sub : Nat) (st : Status) (payload : List Byte) : (s.reply h op idx sub st payload).spares = s.spares := by
  unfold reply; split <;> simp
@[simp] theorem reply_mclk (s : State) (h : Requester) (op idx sub : Nat) (st : Status) (payload : List Byte) : (s.reply h op idx sub st payload).mclk = s.mclk := by
  unfold reply; split <;> simp
@[simp] theorem reply_blockNo (s : State) (h : Requester) (op idx sub : Nat) (st : Status) (payload : List Byte) : (s.reply h op idx sub st payload).blockNo = s.blockNo := by
  unfold reply; split <;> simp
@[simp] theorem reply_portNoSpare (s : State) (h : Requester) (op idx sub : Nat) (st : Status) (payload : List Byte) : (s.reply h op idx sub st payload).portNoSpare = s.portNoSpare := by
  unfold reply; split <;> simp
@[simp] theorem reply_learned (s : State) (h : Requester) (op idx sub : Nat) (st : Status) (payload : List Byte) : (s.reply h op idx sub st payload).learned = s.learned := by
  unfold reply; split <;> simp
@[simp] theorem reply_points (s : State) (h : Requester) (op idx sub : Nat) (st : Status) (payload : List Byte) : (s.reply h op idx sub st payload).points = s.points := by
  unfold reply; split <;> simp
@[simp] theorem reply_pulses (s : State) (h : Requester) (op idx sub : Nat) (st : Status) (payload : List Byte) : (s.reply h op idx sub st payload).pulses = s.pulses := by
  unfold reply; split <;> simp
@[simp] theorem reply_demand (s : State) (h : Requester) (op idx sub : Nat) (st : Status) (payload : List Byte) : (s.reply h op idx sub st payload).demand = s.demand := by
  unfold reply; split <;> simp
@[simp] theorem reply_evq (s : State) (h : Requester) (op idx sub : Nat) (st : Status) (payload : List Byte) : (s.reply h op idx sub st payload).evq = s.evq := by
  unfold reply; split <;> simp
@[simp] theorem reply_evOver (s : State) (h : Requester) (op idx sub : Nat) (st : Status) (payload : List Byte) : (s.reply h op idx sub st payload).evOver = s.evOver := by
  unfold reply; split <;> simp
@[simp] theorem reply_jobs (s : State) (h : Requester) (op idx sub : Nat) (st : Status) (payload : List Byte) : (s.reply h op idx sub st payload).jobs = s.jobs := by
  unfold reply; split <;> simp
@[simp] theorem reply_logs (s : State) (h : Requester) (op idx sub : Nat) (st : Status) (payload : List Byte) : (s.reply h op idx sub st payload).logs = s.logs := by
  unfold reply; split <;> simp
@[simp] theorem reply_merges (s : State) (h : Requester) (op idx sub : Nat) (st : Status) (payload : List Byte) : (s.reply h op idx sub st payload).merges = s.merges := by
  unfold reply; split <;> simp
@[simp] theorem reply_journal (s : State) (h : Requester) (op idx sub : Nat) (st : Status) (payload : List Byte) : (s.reply h op idx sub st payload).journal = s.journal := by
  unfold reply; split <;> simp
@[simp] theorem reply_store (s : State) (h : Requester) (op idx sub : Nat) (st : Status) (payload : List Byte) : (s.reply h op idx sub st payload).store = s.store := by
  unfold reply; split <;> simp
@[simp] theorem reply_nvm (s : State) (h : Requester) (op idx sub : Nat) (st : Status) (payload : List Byte) : (s.reply h op idx sub st payload).nvm = s.nvm := by
  unfold reply; split <;> simp
@[simp] theorem reply_scratch (s : State) (h : Requester) (op idx sub : Nat) (st : Status) (payload : List Byte) : (s.reply h op idx sub st payload).scratch = s.scratch := by
  unfold reply; split <;> simp
@[simp] theorem reply_bus (s : State) (h : Requester) (op idx sub : Nat) (st : Status) (payload : List Byte) : (s.reply h op idx sub st payload).bus = s.bus := by
  unfold reply; split <;> simp
@[simp] theorem reply_stream (s : State) (h : Requester) (op idx sub : Nat) (st : Status) (payload : List Byte) : (s.reply h op idx sub st payload).stream = s.stream := by
  unfold reply; split <;> simp
@[simp] theorem reply_tab (s : State) (h : Requester) (op idx sub : Nat) (st : Status) (payload : List Byte) : (s.reply h op idx sub st payload).tab = s.tab := by
  unfold reply; split <;> simp
@[simp] theorem reply_tabLast (s : State) (h : Requester) (op idx sub : Nat) (st : Status) (payload : List Byte) : (s.reply h op idx sub st payload).tabLast = s.tabLast := by
  unfold reply; split <;> simp
@[simp] theorem reply_heldBatches (s : State) (h : Requester) (op idx sub : Nat) (st : Status) (payload : List Byte) : (s.reply h op idx sub st payload).heldBatches = s.heldBatches := by
  unfold reply; split <;> simp
@[simp] theorem reply_cal (s : State) (h : Requester) (op idx sub : Nat) (st : Status) (payload : List Byte) : (s.reply h op idx sub st payload).cal = s.cal := by
  unfold reply; split <;> simp
@[simp] theorem reply_plateUse (s : State) (h : Requester) (op idx sub : Nat) (st : Status) (payload : List Byte) : (s.reply h op idx sub st payload).plateUse = s.plateUse := by
  unfold reply; split <;> simp
@[simp] theorem reply_sealedRef (s : State) (h : Requester) (op idx sub : Nat) (st : Status) (payload : List Byte) : (s.reply h op idx sub st payload).sealedRef = s.sealedRef := by
  unfold reply; split <;> simp
@[simp] theorem reply_convs (s : State) (h : Requester) (op idx sub : Nat) (st : Status) (payload : List Byte) : (s.reply h op idx sub st payload).convs = s.convs := by
  unfold reply; split <;> simp
@[simp] theorem reply_couples (s : State) (h : Requester) (op idx sub : Nat) (st : Status) (payload : List Byte) : (s.reply h op idx sub st payload).couples = s.couples := by
  unfold reply; split <;> simp
@[simp] theorem reply_inputAt (s : State) (h : Requester) (op idx sub : Nat) (st : Status) (payload : List Byte) : (s.reply h op idx sub st payload).inputAt = s.inputAt := by
  unfold reply; split <;> simp
@[simp] theorem reply_auxRun (s : State) (h : Requester) (op idx sub : Nat) (st : Status) (payload : List Byte) : (s.reply h op idx sub st payload).auxRun = s.auxRun := by
  unfold reply; split <;> simp
@[simp] theorem reply_banks (s : State) (h : Requester) (op idx sub : Nat) (st : Status) (payload : List Byte) : (s.reply h op idx sub st payload).banks = s.banks := by
  unfold reply; split <;> simp
@[simp] theorem reply_march (s : State) (h : Requester) (op idx sub : Nat) (st : Status) (payload : List Byte) : (s.reply h op idx sub st payload).march = s.march := by
  unfold reply; split <;> simp
@[simp] theorem reply_bankSub (s : State) (h : Requester) (op idx sub : Nat) (st : Status) (payload : List Byte) : (s.reply h op idx sub st payload).bankSub = s.bankSub := by
  unfold reply; split <;> simp
@[simp] theorem reply_sram (s : State) (h : Requester) (op idx sub : Nat) (st : Status) (payload : List Byte) : (s.reply h op idx sub st payload).sram = s.sram := by
  unfold reply; split <;> simp
@[simp] theorem reply_sweepAt (s : State) (h : Requester) (op idx sub : Nat) (st : Status) (payload : List Byte) : (s.reply h op idx sub st payload).sweepAt = s.sweepAt := by
  unfold reply; split <;> simp
@[simp] theorem reply_stringReads (s : State) (h : Requester) (op idx sub : Nat) (st : Status) (payload : List Byte) : (s.reply h op idx sub st payload).stringReads = s.stringReads := by
  unfold reply; split <;> simp
@[simp] theorem reply_sessions (s : State) (h : Requester) (op idx sub : Nat) (st : Status) (payload : List Byte) : (s.reply h op idx sub st payload).sessions = s.sessions := by
  unfold reply; split <;> simp
@[simp] theorem reply_sign (s : State) (h : Requester) (op idx sub : Nat) (st : Status) (payload : List Byte) : (s.reply h op idx sub st payload).sign = s.sign := by
  unfold reply; split <;> simp
@[simp] theorem reply_disp (s : State) (h : Requester) (op idx sub : Nat) (st : Status) (payload : List Byte) : (s.reply h op idx sub st payload).disp = s.disp := by
  unfold reply; split <;> simp
@[simp] theorem reply_tamper (s : State) (h : Requester) (op idx sub : Nat) (st : Status) (payload : List Byte) : (s.reply h op idx sub st payload).tamper = s.tamper := by
  unfold reply; split <;> simp
@[simp] theorem reply_thb (s : State) (h : Requester) (op idx sub : Nat) (st : Status) (payload : List Byte) : (s.reply h op idx sub st payload).thb = s.thb := by
  unfold reply; split <;> simp
@[simp] theorem reply_svc (s : State) (h : Requester) (op idx sub : Nat) (st : Status) (payload : List Byte) : (s.reply h op idx sub st payload).svc = s.svc := by
  unfold reply; split <;> simp

/-! ### taken -/

@[simp] theorem taken_nums (s : State) (h : Requester) (op idx sub : Nat) (payload : List Byte) : (s.taken h op idx sub payload).nums = s.nums := by simp [taken]
@[simp] theorem taken_blobs (s : State) (h : Requester) (op idx sub : Nat) (payload : List Byte) : (s.taken h op idx sub payload).blobs = s.blobs := by simp [taken]
@[simp] theorem taken_pending (s : State) (h : Requester) (op idx sub : Nat) (payload : List Byte) : (s.taken h op idx sub payload).pending = s.pending := by simp [taken]
@[simp] theorem taken_free (s : State) (h : Requester) (op idx sub : Nat) (payload : List Byte) : (s.taken h op idx sub payload).free = s.free := by simp [taken]
@[simp] theorem taken_mode (s : State) (h : Requester) (op idx sub : Nat) (payload : List Byte) : (s.taken h op idx sub payload).mode = s.mode := by simp [taken]
@[simp] theorem taken_attended (s : State) (h : Requester) (op idx sub : Nat) (payload : List Byte) : (s.taken h op idx sub payload).attended = s.attended := by simp [taken]
@[simp] theorem taken_modeNext (s : State) (h : Requester) (op idx sub : Nat) (payload : List Byte) : (s.taken h op idx sub payload).modeNext = s.modeNext := by simp [taken]
@[simp] theorem taken_modeHist (s : State) (h : Requester) (op idx sub : Nat) (payload : List Byte) : (s.taken h op idx sub payload).modeHist = s.modeHist := by simp [taken]
@[simp] theorem taken_rtc (s : State) (h : Requester) (op idx sub : Nat) (payload : List Byte) : (s.taken h op idx sub payload).rtc = s.rtc := by simp [taken]
@[simp] theorem taken_index (s : State) (h : Requester) (op idx sub : Nat) (payload : List Byte) : (s.taken h op idx sub payload).index = s.index := by simp [taken]
@[simp] theorem taken_timeStepNext (s : State) (h : Requester) (op idx sub : Nat) (payload : List Byte) : (s.taken h op idx sub payload).timeStepNext = s.timeStepNext := by simp [taken]
@[simp] theorem taken_startup (s : State) (h : Requester) (op idx sub : Nat) (payload : List Byte) : (s.taken h op idx sub payload).startup = s.startup := by simp [taken]
@[simp] theorem taken_twins (s : State) (h : Requester) (op idx sub : Nat) (payload : List Byte) : (s.taken h op idx sub payload).twins = s.twins := by simp [taken]
@[simp] theorem taken_lockLatch (s : State) (h : Requester) (op idx sub : Nat) (payload : List Byte) : (s.taken h op idx sub payload).lockLatch = s.lockLatch := by simp [taken]
@[simp] theorem taken_lockNvm (s : State) (h : Requester) (op idx sub : Nat) (payload : List Byte) : (s.taken h op idx sub payload).lockNvm = s.lockNvm := by simp [taken]
@[simp] theorem taken_integrityFlag (s : State) (h : Requester) (op idx sub : Nat) (payload : List Byte) : (s.taken h op idx sub payload).integrityFlag = s.integrityFlag := by simp [taken]
@[simp] theorem taken_lanes (s : State) (h : Requester) (op idx sub : Nat) (payload : List Byte) : (s.taken h op idx sub payload).lanes = s.lanes := by simp [taken]
@[simp] theorem taken_laneSub (s : State) (h : Requester) (op idx sub : Nat) (payload : List Byte) : (s.taken h op idx sub payload).laneSub = s.laneSub := by simp [taken]
@[simp] theorem taken_ports (s : State) (h : Requester) (op idx sub : Nat) (payload : List Byte) : (s.taken h op idx sub payload).ports = s.ports := by simp [taken]
@[simp] theorem taken_spares (s : State) (h : Requester) (op idx sub : Nat) (payload : List Byte) : (s.taken h op idx sub payload).spares = s.spares := by simp [taken]
@[simp] theorem taken_mclk (s : State) (h : Requester) (op idx sub : Nat) (payload : List Byte) : (s.taken h op idx sub payload).mclk = s.mclk := by simp [taken]
@[simp] theorem taken_blockNo (s : State) (h : Requester) (op idx sub : Nat) (payload : List Byte) : (s.taken h op idx sub payload).blockNo = s.blockNo := by simp [taken]
@[simp] theorem taken_portNoSpare (s : State) (h : Requester) (op idx sub : Nat) (payload : List Byte) : (s.taken h op idx sub payload).portNoSpare = s.portNoSpare := by simp [taken]
@[simp] theorem taken_learned (s : State) (h : Requester) (op idx sub : Nat) (payload : List Byte) : (s.taken h op idx sub payload).learned = s.learned := by simp [taken]
@[simp] theorem taken_points (s : State) (h : Requester) (op idx sub : Nat) (payload : List Byte) : (s.taken h op idx sub payload).points = s.points := by simp [taken]
@[simp] theorem taken_pulses (s : State) (h : Requester) (op idx sub : Nat) (payload : List Byte) : (s.taken h op idx sub payload).pulses = s.pulses := by simp [taken]
@[simp] theorem taken_demand (s : State) (h : Requester) (op idx sub : Nat) (payload : List Byte) : (s.taken h op idx sub payload).demand = s.demand := by simp [taken]
@[simp] theorem taken_evq (s : State) (h : Requester) (op idx sub : Nat) (payload : List Byte) : (s.taken h op idx sub payload).evq = s.evq := by simp [taken]
@[simp] theorem taken_evOver (s : State) (h : Requester) (op idx sub : Nat) (payload : List Byte) : (s.taken h op idx sub payload).evOver = s.evOver := by simp [taken]
@[simp] theorem taken_jobs (s : State) (h : Requester) (op idx sub : Nat) (payload : List Byte) : (s.taken h op idx sub payload).jobs = s.jobs := by simp [taken]
@[simp] theorem taken_logs (s : State) (h : Requester) (op idx sub : Nat) (payload : List Byte) : (s.taken h op idx sub payload).logs = s.logs := by simp [taken]
@[simp] theorem taken_merges (s : State) (h : Requester) (op idx sub : Nat) (payload : List Byte) : (s.taken h op idx sub payload).merges = s.merges := by simp [taken]
@[simp] theorem taken_journal (s : State) (h : Requester) (op idx sub : Nat) (payload : List Byte) : (s.taken h op idx sub payload).journal = s.journal := by simp [taken]
@[simp] theorem taken_store (s : State) (h : Requester) (op idx sub : Nat) (payload : List Byte) : (s.taken h op idx sub payload).store = s.store := by simp [taken]
@[simp] theorem taken_nvm (s : State) (h : Requester) (op idx sub : Nat) (payload : List Byte) : (s.taken h op idx sub payload).nvm = s.nvm := by simp [taken]
@[simp] theorem taken_scratch (s : State) (h : Requester) (op idx sub : Nat) (payload : List Byte) : (s.taken h op idx sub payload).scratch = s.scratch := by simp [taken]
@[simp] theorem taken_bus (s : State) (h : Requester) (op idx sub : Nat) (payload : List Byte) : (s.taken h op idx sub payload).bus = s.bus := by simp [taken]
@[simp] theorem taken_stream (s : State) (h : Requester) (op idx sub : Nat) (payload : List Byte) : (s.taken h op idx sub payload).stream = s.stream := by simp [taken]
@[simp] theorem taken_tab (s : State) (h : Requester) (op idx sub : Nat) (payload : List Byte) : (s.taken h op idx sub payload).tab = s.tab := by simp [taken]
@[simp] theorem taken_tabLast (s : State) (h : Requester) (op idx sub : Nat) (payload : List Byte) : (s.taken h op idx sub payload).tabLast = s.tabLast := by simp [taken]
@[simp] theorem taken_heldBatches (s : State) (h : Requester) (op idx sub : Nat) (payload : List Byte) : (s.taken h op idx sub payload).heldBatches = s.heldBatches := by simp [taken]
@[simp] theorem taken_cal (s : State) (h : Requester) (op idx sub : Nat) (payload : List Byte) : (s.taken h op idx sub payload).cal = s.cal := by simp [taken]
@[simp] theorem taken_plateUse (s : State) (h : Requester) (op idx sub : Nat) (payload : List Byte) : (s.taken h op idx sub payload).plateUse = s.plateUse := by simp [taken]
@[simp] theorem taken_sealedRef (s : State) (h : Requester) (op idx sub : Nat) (payload : List Byte) : (s.taken h op idx sub payload).sealedRef = s.sealedRef := by simp [taken]
@[simp] theorem taken_convs (s : State) (h : Requester) (op idx sub : Nat) (payload : List Byte) : (s.taken h op idx sub payload).convs = s.convs := by simp [taken]
@[simp] theorem taken_couples (s : State) (h : Requester) (op idx sub : Nat) (payload : List Byte) : (s.taken h op idx sub payload).couples = s.couples := by simp [taken]
@[simp] theorem taken_inputAt (s : State) (h : Requester) (op idx sub : Nat) (payload : List Byte) : (s.taken h op idx sub payload).inputAt = s.inputAt := by simp [taken]
@[simp] theorem taken_auxRun (s : State) (h : Requester) (op idx sub : Nat) (payload : List Byte) : (s.taken h op idx sub payload).auxRun = s.auxRun := by simp [taken]
@[simp] theorem taken_banks (s : State) (h : Requester) (op idx sub : Nat) (payload : List Byte) : (s.taken h op idx sub payload).banks = s.banks := by simp [taken]
@[simp] theorem taken_march (s : State) (h : Requester) (op idx sub : Nat) (payload : List Byte) : (s.taken h op idx sub payload).march = s.march := by simp [taken]
@[simp] theorem taken_bankSub (s : State) (h : Requester) (op idx sub : Nat) (payload : List Byte) : (s.taken h op idx sub payload).bankSub = s.bankSub := by simp [taken]
@[simp] theorem taken_sram (s : State) (h : Requester) (op idx sub : Nat) (payload : List Byte) : (s.taken h op idx sub payload).sram = s.sram := by simp [taken]
@[simp] theorem taken_sweepAt (s : State) (h : Requester) (op idx sub : Nat) (payload : List Byte) : (s.taken h op idx sub payload).sweepAt = s.sweepAt := by simp [taken]
@[simp] theorem taken_stringReads (s : State) (h : Requester) (op idx sub : Nat) (payload : List Byte) : (s.taken h op idx sub payload).stringReads = s.stringReads := by simp [taken]
@[simp] theorem taken_sessions (s : State) (h : Requester) (op idx sub : Nat) (payload : List Byte) : (s.taken h op idx sub payload).sessions = s.sessions := by simp [taken]
@[simp] theorem taken_sign (s : State) (h : Requester) (op idx sub : Nat) (payload : List Byte) : (s.taken h op idx sub payload).sign = s.sign := by simp [taken]
@[simp] theorem taken_disp (s : State) (h : Requester) (op idx sub : Nat) (payload : List Byte) : (s.taken h op idx sub payload).disp = s.disp := by simp [taken]
@[simp] theorem taken_tamper (s : State) (h : Requester) (op idx sub : Nat) (payload : List Byte) : (s.taken h op idx sub payload).tamper = s.tamper := by simp [taken]
@[simp] theorem taken_thb (s : State) (h : Requester) (op idx sub : Nat) (payload : List Byte) : (s.taken h op idx sub payload).thb = s.thb := by simp [taken]
@[simp] theorem taken_svc (s : State) (h : Requester) (op idx sub : Nat) (payload : List Byte) : (s.taken h op idx sub payload).svc = s.svc := by simp [taken]

/-! ### answered -/

@[simp] theorem answered_nums (s : State) (h : Requester) (op idx sub : Nat) (st : Status) (payload : List Byte) : (s.answered h op idx sub st payload).nums = s.nums := by simp [answered]
@[simp] theorem answered_blobs (s : State) (h : Requester) (op idx sub : Nat) (st : Status) (payload : List Byte) : (s.answered h op idx sub st payload).blobs = s.blobs := by simp [answered]
@[simp] theorem answered_pending (s : State) (h : Requester) (op idx sub : Nat) (st : Status) (payload : List Byte) : (s.answered h op idx sub st payload).pending = s.pending := by simp [answered]
@[simp] theorem answered_free (s : State) (h : Requester) (op idx sub : Nat) (st : Status) (payload : List Byte) : (s.answered h op idx sub st payload).free = s.free := by simp [answered]
@[simp] theorem answered_mode (s : State) (h : Requester) (op idx sub : Nat) (st : Status) (payload : List Byte) : (s.answered h op idx sub st payload).mode = s.mode := by simp [answered]
@[simp] theorem answered_attended (s : State) (h : Requester) (op idx sub : Nat) (st : Status) (payload : List Byte) : (s.answered h op idx sub st payload).attended = s.attended := by simp [answered]
@[simp] theorem answered_modeNext (s : State) (h : Requester) (op idx sub : Nat) (st : Status) (payload : List Byte) : (s.answered h op idx sub st payload).modeNext = s.modeNext := by simp [answered]
@[simp] theorem answered_modeHist (s : State) (h : Requester) (op idx sub : Nat) (st : Status) (payload : List Byte) : (s.answered h op idx sub st payload).modeHist = s.modeHist := by simp [answered]
@[simp] theorem answered_rtc (s : State) (h : Requester) (op idx sub : Nat) (st : Status) (payload : List Byte) : (s.answered h op idx sub st payload).rtc = s.rtc := by simp [answered]
@[simp] theorem answered_index (s : State) (h : Requester) (op idx sub : Nat) (st : Status) (payload : List Byte) : (s.answered h op idx sub st payload).index = s.index := by simp [answered]
@[simp] theorem answered_timeStepNext (s : State) (h : Requester) (op idx sub : Nat) (st : Status) (payload : List Byte) : (s.answered h op idx sub st payload).timeStepNext = s.timeStepNext := by simp [answered]
@[simp] theorem answered_startup (s : State) (h : Requester) (op idx sub : Nat) (st : Status) (payload : List Byte) : (s.answered h op idx sub st payload).startup = s.startup := by simp [answered]
@[simp] theorem answered_twins (s : State) (h : Requester) (op idx sub : Nat) (st : Status) (payload : List Byte) : (s.answered h op idx sub st payload).twins = s.twins := by simp [answered]
@[simp] theorem answered_lockLatch (s : State) (h : Requester) (op idx sub : Nat) (st : Status) (payload : List Byte) : (s.answered h op idx sub st payload).lockLatch = s.lockLatch := by simp [answered]
@[simp] theorem answered_lockNvm (s : State) (h : Requester) (op idx sub : Nat) (st : Status) (payload : List Byte) : (s.answered h op idx sub st payload).lockNvm = s.lockNvm := by simp [answered]
@[simp] theorem answered_integrityFlag (s : State) (h : Requester) (op idx sub : Nat) (st : Status) (payload : List Byte) : (s.answered h op idx sub st payload).integrityFlag = s.integrityFlag := by simp [answered]
@[simp] theorem answered_lanes (s : State) (h : Requester) (op idx sub : Nat) (st : Status) (payload : List Byte) : (s.answered h op idx sub st payload).lanes = s.lanes := by simp [answered]
@[simp] theorem answered_laneSub (s : State) (h : Requester) (op idx sub : Nat) (st : Status) (payload : List Byte) : (s.answered h op idx sub st payload).laneSub = s.laneSub := by simp [answered]
@[simp] theorem answered_ports (s : State) (h : Requester) (op idx sub : Nat) (st : Status) (payload : List Byte) : (s.answered h op idx sub st payload).ports = s.ports := by simp [answered]
@[simp] theorem answered_spares (s : State) (h : Requester) (op idx sub : Nat) (st : Status) (payload : List Byte) : (s.answered h op idx sub st payload).spares = s.spares := by simp [answered]
@[simp] theorem answered_mclk (s : State) (h : Requester) (op idx sub : Nat) (st : Status) (payload : List Byte) : (s.answered h op idx sub st payload).mclk = s.mclk := by simp [answered]
@[simp] theorem answered_blockNo (s : State) (h : Requester) (op idx sub : Nat) (st : Status) (payload : List Byte) : (s.answered h op idx sub st payload).blockNo = s.blockNo := by simp [answered]
@[simp] theorem answered_portNoSpare (s : State) (h : Requester) (op idx sub : Nat) (st : Status) (payload : List Byte) : (s.answered h op idx sub st payload).portNoSpare = s.portNoSpare := by simp [answered]
@[simp] theorem answered_learned (s : State) (h : Requester) (op idx sub : Nat) (st : Status) (payload : List Byte) : (s.answered h op idx sub st payload).learned = s.learned := by simp [answered]
@[simp] theorem answered_points (s : State) (h : Requester) (op idx sub : Nat) (st : Status) (payload : List Byte) : (s.answered h op idx sub st payload).points = s.points := by simp [answered]
@[simp] theorem answered_pulses (s : State) (h : Requester) (op idx sub : Nat) (st : Status) (payload : List Byte) : (s.answered h op idx sub st payload).pulses = s.pulses := by simp [answered]
@[simp] theorem answered_demand (s : State) (h : Requester) (op idx sub : Nat) (st : Status) (payload : List Byte) : (s.answered h op idx sub st payload).demand = s.demand := by simp [answered]
@[simp] theorem answered_evq (s : State) (h : Requester) (op idx sub : Nat) (st : Status) (payload : List Byte) : (s.answered h op idx sub st payload).evq = s.evq := by simp [answered]
@[simp] theorem answered_evOver (s : State) (h : Requester) (op idx sub : Nat) (st : Status) (payload : List Byte) : (s.answered h op idx sub st payload).evOver = s.evOver := by simp [answered]
@[simp] theorem answered_jobs (s : State) (h : Requester) (op idx sub : Nat) (st : Status) (payload : List Byte) : (s.answered h op idx sub st payload).jobs = s.jobs := by simp [answered]
@[simp] theorem answered_logs (s : State) (h : Requester) (op idx sub : Nat) (st : Status) (payload : List Byte) : (s.answered h op idx sub st payload).logs = s.logs := by simp [answered]
@[simp] theorem answered_merges (s : State) (h : Requester) (op idx sub : Nat) (st : Status) (payload : List Byte) : (s.answered h op idx sub st payload).merges = s.merges := by simp [answered]
@[simp] theorem answered_journal (s : State) (h : Requester) (op idx sub : Nat) (st : Status) (payload : List Byte) : (s.answered h op idx sub st payload).journal = s.journal := by simp [answered]
@[simp] theorem answered_store (s : State) (h : Requester) (op idx sub : Nat) (st : Status) (payload : List Byte) : (s.answered h op idx sub st payload).store = s.store := by simp [answered]
@[simp] theorem answered_nvm (s : State) (h : Requester) (op idx sub : Nat) (st : Status) (payload : List Byte) : (s.answered h op idx sub st payload).nvm = s.nvm := by simp [answered]
@[simp] theorem answered_scratch (s : State) (h : Requester) (op idx sub : Nat) (st : Status) (payload : List Byte) : (s.answered h op idx sub st payload).scratch = s.scratch := by simp [answered]
@[simp] theorem answered_bus (s : State) (h : Requester) (op idx sub : Nat) (st : Status) (payload : List Byte) : (s.answered h op idx sub st payload).bus = s.bus := by simp [answered]
@[simp] theorem answered_stream (s : State) (h : Requester) (op idx sub : Nat) (st : Status) (payload : List Byte) : (s.answered h op idx sub st payload).stream = s.stream := by simp [answered]
@[simp] theorem answered_tab (s : State) (h : Requester) (op idx sub : Nat) (st : Status) (payload : List Byte) : (s.answered h op idx sub st payload).tab = s.tab := by simp [answered]
@[simp] theorem answered_tabLast (s : State) (h : Requester) (op idx sub : Nat) (st : Status) (payload : List Byte) : (s.answered h op idx sub st payload).tabLast = s.tabLast := by simp [answered]
@[simp] theorem answered_heldBatches (s : State) (h : Requester) (op idx sub : Nat) (st : Status) (payload : List Byte) : (s.answered h op idx sub st payload).heldBatches = s.heldBatches := by simp [answered]
@[simp] theorem answered_cal (s : State) (h : Requester) (op idx sub : Nat) (st : Status) (payload : List Byte) : (s.answered h op idx sub st payload).cal = s.cal := by simp [answered]
@[simp] theorem answered_plateUse (s : State) (h : Requester) (op idx sub : Nat) (st : Status) (payload : List Byte) : (s.answered h op idx sub st payload).plateUse = s.plateUse := by simp [answered]
@[simp] theorem answered_sealedRef (s : State) (h : Requester) (op idx sub : Nat) (st : Status) (payload : List Byte) : (s.answered h op idx sub st payload).sealedRef = s.sealedRef := by simp [answered]
@[simp] theorem answered_convs (s : State) (h : Requester) (op idx sub : Nat) (st : Status) (payload : List Byte) : (s.answered h op idx sub st payload).convs = s.convs := by simp [answered]
@[simp] theorem answered_couples (s : State) (h : Requester) (op idx sub : Nat) (st : Status) (payload : List Byte) : (s.answered h op idx sub st payload).couples = s.couples := by simp [answered]
@[simp] theorem answered_inputAt (s : State) (h : Requester) (op idx sub : Nat) (st : Status) (payload : List Byte) : (s.answered h op idx sub st payload).inputAt = s.inputAt := by simp [answered]
@[simp] theorem answered_auxRun (s : State) (h : Requester) (op idx sub : Nat) (st : Status) (payload : List Byte) : (s.answered h op idx sub st payload).auxRun = s.auxRun := by simp [answered]
@[simp] theorem answered_banks (s : State) (h : Requester) (op idx sub : Nat) (st : Status) (payload : List Byte) : (s.answered h op idx sub st payload).banks = s.banks := by simp [answered]
@[simp] theorem answered_march (s : State) (h : Requester) (op idx sub : Nat) (st : Status) (payload : List Byte) : (s.answered h op idx sub st payload).march = s.march := by simp [answered]
@[simp] theorem answered_bankSub (s : State) (h : Requester) (op idx sub : Nat) (st : Status) (payload : List Byte) : (s.answered h op idx sub st payload).bankSub = s.bankSub := by simp [answered]
@[simp] theorem answered_sram (s : State) (h : Requester) (op idx sub : Nat) (st : Status) (payload : List Byte) : (s.answered h op idx sub st payload).sram = s.sram := by simp [answered]
@[simp] theorem answered_sweepAt (s : State) (h : Requester) (op idx sub : Nat) (st : Status) (payload : List Byte) : (s.answered h op idx sub st payload).sweepAt = s.sweepAt := by simp [answered]
@[simp] theorem answered_stringReads (s : State) (h : Requester) (op idx sub : Nat) (st : Status) (payload : List Byte) : (s.answered h op idx sub st payload).stringReads = s.stringReads := by simp [answered]
@[simp] theorem answered_sessions (s : State) (h : Requester) (op idx sub : Nat) (st : Status) (payload : List Byte) : (s.answered h op idx sub st payload).sessions = s.sessions := by simp [answered]
@[simp] theorem answered_sign (s : State) (h : Requester) (op idx sub : Nat) (st : Status) (payload : List Byte) : (s.answered h op idx sub st payload).sign = s.sign := by simp [answered]
@[simp] theorem answered_disp (s : State) (h : Requester) (op idx sub : Nat) (st : Status) (payload : List Byte) : (s.answered h op idx sub st payload).disp = s.disp := by simp [answered]
@[simp] theorem answered_tamper (s : State) (h : Requester) (op idx sub : Nat) (st : Status) (payload : List Byte) : (s.answered h op idx sub st payload).tamper = s.tamper := by simp [answered]
@[simp] theorem answered_thb (s : State) (h : Requester) (op idx sub : Nat) (st : Status) (payload : List Byte) : (s.answered h op idx sub st payload).thb = s.thb := by simp [answered]
@[simp] theorem answered_svc (s : State) (h : Requester) (op idx sub : Nat) (st : Status) (payload : List Byte) : (s.answered h op idx sub st payload).svc = s.svc := by simp [answered]

/-! ### withLinksOf -/

@[simp] theorem withLinksOf_nums (s : State) (u : State) : (s.withLinksOf u).nums = s.nums := rfl
@[simp] theorem withLinksOf_blobs (s : State) (u : State) : (s.withLinksOf u).blobs = s.blobs := rfl
@[simp] theorem withLinksOf_pending (s : State) (u : State) : (s.withLinksOf u).pending = s.pending := rfl
@[simp] theorem withLinksOf_free (s : State) (u : State) : (s.withLinksOf u).free = s.free := rfl
@[simp] theorem withLinksOf_mode (s : State) (u : State) : (s.withLinksOf u).mode = s.mode := rfl
@[simp] theorem withLinksOf_attended (s : State) (u : State) : (s.withLinksOf u).attended = s.attended := rfl
@[simp] theorem withLinksOf_modeNext (s : State) (u : State) : (s.withLinksOf u).modeNext = s.modeNext := rfl
@[simp] theorem withLinksOf_modeHist (s : State) (u : State) : (s.withLinksOf u).modeHist = s.modeHist := rfl
@[simp] theorem withLinksOf_rtc (s : State) (u : State) : (s.withLinksOf u).rtc = s.rtc := rfl
@[simp] theorem withLinksOf_index (s : State) (u : State) : (s.withLinksOf u).index = s.index := rfl
@[simp] theorem withLinksOf_timeStepNext (s : State) (u : State) : (s.withLinksOf u).timeStepNext = s.timeStepNext := rfl
@[simp] theorem withLinksOf_startup (s : State) (u : State) : (s.withLinksOf u).startup = s.startup := rfl
@[simp] theorem withLinksOf_twins (s : State) (u : State) : (s.withLinksOf u).twins = s.twins := rfl
@[simp] theorem withLinksOf_lockLatch (s : State) (u : State) : (s.withLinksOf u).lockLatch = s.lockLatch := rfl
@[simp] theorem withLinksOf_lockNvm (s : State) (u : State) : (s.withLinksOf u).lockNvm = s.lockNvm := rfl
@[simp] theorem withLinksOf_integrityFlag (s : State) (u : State) : (s.withLinksOf u).integrityFlag = s.integrityFlag := rfl
@[simp] theorem withLinksOf_lanes (s : State) (u : State) : (s.withLinksOf u).lanes = s.lanes := rfl
@[simp] theorem withLinksOf_laneSub (s : State) (u : State) : (s.withLinksOf u).laneSub = s.laneSub := rfl
@[simp] theorem withLinksOf_ports (s : State) (u : State) : (s.withLinksOf u).ports = s.ports := rfl
@[simp] theorem withLinksOf_spares (s : State) (u : State) : (s.withLinksOf u).spares = s.spares := rfl
@[simp] theorem withLinksOf_mclk (s : State) (u : State) : (s.withLinksOf u).mclk = s.mclk := rfl
@[simp] theorem withLinksOf_blockNo (s : State) (u : State) : (s.withLinksOf u).blockNo = s.blockNo := rfl
@[simp] theorem withLinksOf_portNoSpare (s : State) (u : State) : (s.withLinksOf u).portNoSpare = s.portNoSpare := rfl
@[simp] theorem withLinksOf_learned (s : State) (u : State) : (s.withLinksOf u).learned = s.learned := rfl
@[simp] theorem withLinksOf_points (s : State) (u : State) : (s.withLinksOf u).points = s.points := rfl
@[simp] theorem withLinksOf_pulses (s : State) (u : State) : (s.withLinksOf u).pulses = s.pulses := rfl
@[simp] theorem withLinksOf_demand (s : State) (u : State) : (s.withLinksOf u).demand = s.demand := rfl
@[simp] theorem withLinksOf_evq (s : State) (u : State) : (s.withLinksOf u).evq = s.evq := rfl
@[simp] theorem withLinksOf_evOver (s : State) (u : State) : (s.withLinksOf u).evOver = s.evOver := rfl
@[simp] theorem withLinksOf_jobs (s : State) (u : State) : (s.withLinksOf u).jobs = s.jobs := rfl
@[simp] theorem withLinksOf_logs (s : State) (u : State) : (s.withLinksOf u).logs = s.logs := rfl
@[simp] theorem withLinksOf_merges (s : State) (u : State) : (s.withLinksOf u).merges = s.merges := rfl
@[simp] theorem withLinksOf_journal (s : State) (u : State) : (s.withLinksOf u).journal = s.journal := rfl
@[simp] theorem withLinksOf_store (s : State) (u : State) : (s.withLinksOf u).store = s.store := rfl
@[simp] theorem withLinksOf_nvm (s : State) (u : State) : (s.withLinksOf u).nvm = s.nvm := rfl
@[simp] theorem withLinksOf_scratch (s : State) (u : State) : (s.withLinksOf u).scratch = s.scratch := rfl
@[simp] theorem withLinksOf_bus (s : State) (u : State) : (s.withLinksOf u).bus = s.bus := rfl
@[simp] theorem withLinksOf_stream (s : State) (u : State) : (s.withLinksOf u).stream = s.stream := rfl
@[simp] theorem withLinksOf_tab (s : State) (u : State) : (s.withLinksOf u).tab = s.tab := rfl
@[simp] theorem withLinksOf_tabLast (s : State) (u : State) : (s.withLinksOf u).tabLast = s.tabLast := rfl
@[simp] theorem withLinksOf_heldBatches (s : State) (u : State) : (s.withLinksOf u).heldBatches = s.heldBatches := rfl
@[simp] theorem withLinksOf_cal (s : State) (u : State) : (s.withLinksOf u).cal = s.cal := rfl
@[simp] theorem withLinksOf_plateUse (s : State) (u : State) : (s.withLinksOf u).plateUse = s.plateUse := rfl
@[simp] theorem withLinksOf_sealedRef (s : State) (u : State) : (s.withLinksOf u).sealedRef = s.sealedRef := rfl
@[simp] theorem withLinksOf_convs (s : State) (u : State) : (s.withLinksOf u).convs = s.convs := rfl
@[simp] theorem withLinksOf_couples (s : State) (u : State) : (s.withLinksOf u).couples = s.couples := rfl
@[simp] theorem withLinksOf_inputAt (s : State) (u : State) : (s.withLinksOf u).inputAt = s.inputAt := rfl
@[simp] theorem withLinksOf_auxRun (s : State) (u : State) : (s.withLinksOf u).auxRun = s.auxRun := rfl
@[simp] theorem withLinksOf_banks (s : State) (u : State) : (s.withLinksOf u).banks = s.banks := rfl
@[simp] theorem withLinksOf_march (s : State) (u : State) : (s.withLinksOf u).march = s.march := rfl
@[simp] theorem withLinksOf_bankSub (s : State) (u : State) : (s.withLinksOf u).bankSub = s.bankSub := rfl
@[simp] theorem withLinksOf_sram (s : State) (u : State) : (s.withLinksOf u).sram = s.sram := rfl
@[simp] theorem withLinksOf_sweepAt (s : State) (u : State) : (s.withLinksOf u).sweepAt = s.sweepAt := rfl
@[simp] theorem withLinksOf_stringReads (s : State) (u : State) : (s.withLinksOf u).stringReads = s.stringReads := rfl
@[simp] theorem withLinksOf_sessions (s : State) (u : State) : (s.withLinksOf u).sessions = s.sessions := rfl
@[simp] theorem withLinksOf_sign (s : State) (u : State) : (s.withLinksOf u).sign = s.sign := rfl
@[simp] theorem withLinksOf_disp (s : State) (u : State) : (s.withLinksOf u).disp = s.disp := rfl
@[simp] theorem withLinksOf_tamper (s : State) (u : State) : (s.withLinksOf u).tamper = s.tamper := rfl
@[simp] theorem withLinksOf_thb (s : State) (u : State) : (s.withLinksOf u).thb = s.thb := rfl
@[simp] theorem withLinksOf_svc (s : State) (u : State) : (s.withLinksOf u).svc = s.svc := rfl

@[simp] theorem queueUnit_journal (s : State) (u : JUnit) :
    (s.queueUnit u).journal = { s.journal with waiting := s.journal.waiting ++ [u] } := rfl
@[simp] theorem updPoint_points (s : State) (p : Fin 8) (f : Point → Point) : (s.updPoint p f).points = s.points.set p (f s.points[p]) := rfl
@[simp] theorem updPort_ports (s : State) (m : Fin 60) (f : Port → Port) : (s.updPort m f).ports = s.ports.set m (f s.ports[m]) := rfl
@[simp] theorem updLane_lanes (s : State) (l : Fin 5) (f : Lane → Lane) : (s.updLane l f).lanes = s.lanes.set l (f s.lanes[l]) := rfl
@[simp] theorem updSpare_spares (s : State) (i : Fin 4) (f : Spare → Spare) : (s.updSpare i f).spares = s.spares.set i (f s.spares[i]) := rfl
@[simp] theorem updPulse_pulses (s : State) (m : Fin 8) (f : Pulse → Pulse) : (s.updPulse m f).pulses = s.pulses.set m (f s.pulses[m]) := rfl
@[simp] theorem atTime_rtc (s : State) (ns : Nat) : (s.at' ns).rtc = max s.rtc ns := rfl
@[simp] theorem withLinksOf_spi (s u : State) : (s.withLinksOf u).spi = u.spi := rfl
@[simp] theorem withLinksOf_can (s u : State) : (s.withLinksOf u).can = u.can := rfl

end Sys2Proof.Machine.State
end

