-- ==== Sys2Proof/Laws/Entries.lean ====
section
/-! SUPPORT. Entries of the object dictionary as the state holds them: an entry reads as it was last set, and setting one entry leaves every
other as it was. -/

namespace Sys2Proof.Machine

open Sys2Proof

/-! ### Sparse maps -/

@[simp] theorem lookupL_insertL_same {α : Type} (k : Nat) (v : α) (l : List (Nat × α)) : lookupL (insertL k v l) k = some v := by
  induction l with
  | nil => simp [insertL, lookupL]
  | cons x r ih =>
    obtain ⟨a, w⟩ := x
    unfold insertL
    split
    · simp [lookupL]
    · split
      · simp [lookupL]
      · rename_i h
        rw [lookupL, if_neg fun e => h e.symm, ih]

@[simp] theorem lookupL_insertL_other {α : Type} {k j : Nat} (h : j ≠ k) (v : α) (l : List (Nat × α)) :
    lookupL (insertL k v l) j = lookupL l j := by
  induction l with
  | nil => simp [insertL, lookupL, Ne.symm h]
  | cons x r ih =>
    obtain ⟨a, w⟩ := x
    unfold insertL
    split
    · simp [lookupL, Ne.symm h]
    · split
      · rename_i e
        subst e
        simp [lookupL, Ne.symm h]
      · simp only [lookupL, ih]

@[simp] theorem lookupL_eraseL_same {α : Type} (k : Nat) (l : List (Nat × α)) : lookupL (eraseL k l) k = none := by
  induction l with
  | nil => rfl
  | cons x r ih =>
    obtain ⟨a, w⟩ := x
    unfold eraseL
    split
    · exact ih
    · simp only [lookupL, ih]
      rename_i h
      simp [h]

@[simp] theorem lookupL_eraseL_other {α : Type} {k j : Nat} (h : j ≠ k) (l : List (Nat × α)) : lookupL (eraseL k l) j = lookupL l j := by
  induction l with
  | nil => rfl
  | cons x r ih =>
    obtain ⟨a, w⟩ := x
    unfold eraseL
    split
    · rename_i e
      subst e
      simp [lookupL, Ne.symm h, ih]
    · simp only [lookupL, ih]

theorem lookupL_putL_same {α : Type} [DecidableEq α] (d : α) (k : Nat) (v : α) (l : List (Nat × α)) : (lookupL (putL d k v l) k).getD d = v := by
  unfold putL
  split
  · simp [*]
  · simp

theorem lookupL_putL_other {α : Type} [DecidableEq α] (d : α) {k j : Nat} (h : j ≠ k) (v : α) (l : List (Nat × α)) :
    lookupL (putL d k v l) j = lookupL l j := by
  unfold putL
  split <;> simp [h]

namespace State

/-! ### Entries -/

@[simp] theorem getN_setN_same (s : State) (k : Nat) (v : Int) : (s.setN k v).getN k = v := lookupL_putL_same ..

theorem getN_setN_other (s : State) {k j : Nat} (h : j ≠ k) (v : Int) : (s.setN k v).getN j = s.getN j := by
  unfold getN setN
  rw [lookupL_putL_other _ h]

@[simp] theorem getN_setN (s : State) (k j : Nat) (v : Int) : (s.setN k v).getN j = if j = k then v else s.getN j := by
  split
  · subst j; simp
  · exact getN_setN_other s ‹_› v

@[simp] theorem getB_setB (s : State) (k j : Nat) (v : List Byte) : (s.setB k v).getB j = if j = k then v else s.getB j := by
  unfold getB setB
  split
  · subst j; exact lookupL_putL_same ..
  · dsimp only; rw [lookupL_putL_other _ ‹_›]

/-- An entry's number depends on the list of numbers alone. -/
theorem getN_congr {s t : State} (h : t.nums = s.nums) (k : Nat) : t.getN k = s.getN k := by unfold getN; rw [h]

/-- An entry's bytes depend on the list of byte strings alone. -/
theorem getB_congr {s t : State} (h : t.blobs = s.blobs) (k : Nat) : t.getB k = s.getB k := by unfold getB; rw [h]

@[simp] theorem getN_cow (s : State) (n k j : Nat) : (s.cow n k).getN j = s.getN j := getN_congr (by simp) j

@[simp] theorem getN_setQ (s : State) (n k j : Nat) (v : Int) : (s.setQ n k v).getN j = if j = k then v else s.getN j := by simp [setQ]

@[simp] theorem getN_put (s : State) (k j : Nat) (v : Int) : (s.put k v).getN j = if j = k then v else s.getN j := by simp [put]

@[simp] theorem getN_setB (s : State) (k j : Nat) (v : List Byte) : (s.setB k v).getN j = s.getN j := rfl

@[simp] theorem getB_setN (s : State) (k j : Nat) (v : Int) : (s.setN k v).getB j = s.getB j := rfl

@[simp] theorem getN_queueUnit (s : State) (u : JUnit) (j : Nat) : (s.queueUnit u).getN j = s.getN j := rfl

@[simp] theorem getN_queueRecord (s : State) (r : RecJob) (j : Nat) : (s.queueRecord r).getN j = s.getN j := getN_congr (by simp) j

@[simp] theorem getN_health (s : State) (c r d j : Nat) : (s.health c r d).getN j = s.getN j := getN_congr (by simp) j

@[simp] theorem getN_setLink (s : State) (l : Link) (x : LinkSt) (j : Nat) : (s.setLink l x).getN j = s.getN j := getN_congr (by simp) j

@[simp] theorem getN_reply (s : State) (h : Requester) (op idx sub : Nat) (st : Status) (p : List Byte) (j : Nat) :
    (s.reply h op idx sub st p).getN j = s.getN j := getN_congr (by simp) j

@[simp] theorem getN_taken (s : State) (h : Requester) (op idx sub : Nat) (p : List Byte) (j : Nat) :
    (s.taken h op idx sub p).getN j = s.getN j := getN_congr (by simp) j

@[simp] theorem getN_withLinksOf (s u : State) (j : Nat) : (s.withLinksOf u).getN j = s.getN j := rfl

@[simp] theorem getN_updPoint (s : State) (p : Fin 8) (f : Point → Point) (j : Nat) : (s.updPoint p f).getN j = s.getN j := rfl

@[simp] theorem getN_updPulse (s : State) (m : Fin 8) (f : Pulse → Pulse) (j : Nat) : (s.updPulse m f).getN j = s.getN j := rfl

@[simp] theorem getN_updLane (s : State) (l : Fin 5) (f : Lane → Lane) (j : Nat) : (s.updLane l f).getN j = s.getN j := rfl

@[simp] theorem getN_atTime (s : State) (ns j : Nat) : (s.at' ns).getN j = s.getN j := rfl

/-- A saturating counter after an addition. -/
theorem getN_addSat (s : State) (w k d j : Nat) : (s.addSat w k d).getN j = if j = k then ((satAdd w (s.getU k) d : Nat) : Int) else s.getN j := by
  simp [addSat, addSatQ]

/-- A wrapping counter after an addition. -/
theorem getN_addWrap (s : State) (w k d j : Nat) : (s.addWrap w k d).getN j = if j = k then ((wrapAdd w (s.getU k) d : Nat) : Int) else s.getN j := by
  simp [addWrap, addWrapQ]

end State

end Sys2Proof.Machine
end

