-- ==== Sys2Proof/Laws/Memory.lean ====
section
/-! SUPPORT. The scratch memory and the words of the banks: their canonical form is kept by every write, and a byte or word reads as it was last
written. -/

namespace Sys2Proof.Machine.Memory

open Sys2Proof
set_option Elab.async false

theorem wfFrom_mono {lo lo' : Nat} {m : List Host.Cell} (h : wfFrom lo m = true) (l : lo' ≤ lo) : wfFrom lo' m = true := by
  cases m with
  | nil => rfl
  | cons c r =>
    simp only [wfFrom, Bool.and_eq_true, decide_eq_true_eq] at h ⊢
    exact ⟨⟨by omega, h.1.2⟩, h.2⟩

theorem wfFrom_write {lo k : Nat} (v : Byte) {m : List Host.Cell} (h : wfFrom lo m = true) (l : lo ≤ k) :
    wfFrom lo (write k v m) = true := by
  induction m generalizing lo with
  | nil =>
    unfold write
    split
    · rfl
    · simp_all [wfFrom]
  | cons c r ih =>
    obtain ⟨a, b⟩ := c
    simp only [wfFrom, Bool.and_eq_true, decide_eq_true_eq] at h
    unfold write
    split
    · split
      · simp only [wfFrom, Bool.and_eq_true, decide_eq_true_eq]; exact h
      · simp only [wfFrom, Bool.and_eq_true, decide_eq_true_eq]
        exact ⟨⟨l, by assumption⟩, ⟨by omega, h.1.2⟩, h.2⟩
    · split
      · split
        · exact wfFrom_mono h.2 (by omega)
        · simp only [wfFrom, Bool.and_eq_true, decide_eq_true_eq]
          exact ⟨⟨l, by assumption⟩, wfFrom_mono h.2 (by omega)⟩
      · simp only [wfFrom, Bool.and_eq_true, decide_eq_true_eq]
        exact ⟨h.1, ih h.2 (by omega)⟩

theorem wf_write (k : Nat) (v : Byte) {m : List Host.Cell} (h : wf m = true) : wf (write k v m) = true := wfFrom_write v h (Nat.zero_le k)

theorem wf_writes (k : Nat) (l : List Byte) {m : List Host.Cell} (h : wf m = true) : wf (writes k l m) = true := by
  induction l generalizing k m with
  | nil => exact h
  | cons b bs ih => exact ih (k + 1) (wf_write k b h)

/-- Below the bound of a well-formed memory nothing is listed. -/
theorem read_below {lo k : Nat} {m : List Host.Cell} (h : wfFrom lo m = true) (l : k < lo) : read m k = 0 := by
  induction m generalizing lo with
  | nil => rfl
  | cons c r ih =>
    obtain ⟨a, b⟩ := c
    simp only [wfFrom, Bool.and_eq_true, decide_eq_true_eq] at h
    have : a ≠ k := by omega
    simp only [read, this, if_false]
    exact ih h.2 (by omega)

theorem read_write_other {k j : Nat} (v : Byte) (m : List Host.Cell) (h : j ≠ k) : read (write k v m) j = read m j := by
  induction m with
  | nil => unfold write; split <;> simp [read, Ne.symm h]
  | cons c r ih =>
    obtain ⟨a, b⟩ := c
    unfold write
    split
    · split
      · rfl
      · simp [read, Ne.symm h]
    · split
      · next h2 =>
        subst h2
        split <;> simp [read, Ne.symm h]
      · simp only [read, ih]

theorem read_write_same (k : Nat) (v : Byte) {lo : Nat} {m : List Host.Cell} (h : wfFrom lo m = true) : read (write k v m) k = v := by
  induction m generalizing lo with
  | nil => unfold write; split <;> simp_all [read]
  | cons c r ih =>
    obtain ⟨a, b⟩ := c
    simp only [wfFrom, Bool.and_eq_true, decide_eq_true_eq] at h
    unfold write
    split
    · split
      · next hk hv =>
        have : a ≠ k := by omega
        simp only [read, this, if_false, hv]
        exact read_below h.2 (by omega)
      · simp [read]
    · split
      · next h2 =>
        subst h2
        split
        · next hv => rw [hv]; exact read_below h.2 (by omega)
        · simp [read]
      · next h2 =>
        have : a ≠ k := fun e => h2 e.symm
        simp only [read, this, if_false]
        exact ih h.2

theorem read_writes_outside {k j : Nat} (l : List Byte) (m : List Host.Cell) (h : j < k ∨ k + l.length ≤ j) :
    read (writes k l m) j = read m j := by
  induction l generalizing k m with
  | nil => rfl
  | cons b bs ih =>
    simp only [List.length_cons] at h
    unfold writes
    rw [ih _ (by omega), read_write_other b m (by omega)]

theorem read_writes_inside {k i : Nat} (l : List Byte) {m : List Host.Cell} (w : wf m = true) (h : i < l.length) :
    read (writes k l m) (k + i) = l[i] := by
  induction l generalizing k i m with
  | nil => simp at h
  | cons b bs ih =>
    unfold writes
    cases i with
    | zero =>
      exact (read_writes_outside _ _ (Or.inl (Nat.lt_succ_self k))).trans (read_write_same k b w)
    | succ n =>
      have e : k + (n + 1) = (k + 1) + n := by omega
      rw [e, ih (wf_write k b w) (by simpa using h)]
      rfl

/-- After reset the memory is canonical. -/
theorem wf_reset : wf State.reset.scratch = true := rfl

end Sys2Proof.Machine.Memory

namespace Sys2Proof.Machine.State

open Sys2Proof

/-! ### The words of the banks (R207) -/

theorem wordsFrom_mono {lo lo' : Nat} {l : List (Nat × Nat)} (h : wordsFrom lo l = true) (le : lo' ≤ lo) : wordsFrom lo' l = true := by
  cases l with
  | nil => rfl
  | cons x r =>
    simp only [wordsFrom, Bool.and_eq_true, decide_eq_true_eq] at h ⊢
    exact ⟨⟨le.trans h.1.1, h.1.2⟩, h.2⟩

theorem wordsFrom_insertL {lo k v : Nat} {l : List (Nat × Nat)} (h : wordsFrom lo l = true) (le : lo ≤ k) (nz : v ≠ 0) :
    wordsFrom lo (insertL k v l) = true := by
  induction l generalizing lo with
  | nil => simp [insertL, wordsFrom, le, nz]
  | cons x r ih =>
    obtain ⟨a, w⟩ := x
    simp only [wordsFrom, Bool.and_eq_true, decide_eq_true_eq] at h
    unfold insertL
    split
    · simp [wordsFrom, h, le, nz, Nat.succ_le_of_lt ‹k < a›]
    · split
      · subst k; simp [wordsFrom, h, nz]
      · simp [wordsFrom, h, ih h.2 (by omega)]

theorem wordsFrom_eraseL {lo k : Nat} {l : List (Nat × Nat)} (h : wordsFrom lo l = true) : wordsFrom lo (eraseL k l) = true := by
  induction l generalizing lo with
  | nil => rfl
  | cons x r ih =>
    obtain ⟨a, w⟩ := x
    simp only [wordsFrom, Bool.and_eq_true, decide_eq_true_eq] at h
    unfold eraseL
    split
    · exact wordsFrom_mono (ih h.2) (by omega)
    · simp [wordsFrom, h, ih h.2]

/-- A write of a word keeps the canonical form of the words. -/
theorem wordsFrom_setWord {s : State} (a w : Nat) (h : wordsFrom 0 s.sram = true) : wordsFrom 0 (s.setWord a w).sram = true := by
  unfold setWord putL
  split
  · exact wordsFrom_eraseL h
  · exact wordsFrom_insertL h (Nat.zero_le a) ‹_›

/-- A word reads as it was last written, and a write leaves every other word as it was. -/
@[simp] theorem wordAt_setWord (s : State) (a b w : Nat) : (s.setWord a w).wordAt b = if b = a then w else s.wordAt b := by
  unfold wordAt setWord
  split
  · subst b; exact lookupL_putL_same ..
  · dsimp only; rw [lookupL_putL_other _ ‹_›]

/-- After reset the words are in canonical form. -/
theorem wordsFrom_reset : wordsFrom 0 State.reset.sram = true := rfl

end Sys2Proof.Machine.State
end

