-- ==== Sys2Proof/Laws/Touches.lean ====
section
/-! SUPPORT. What each operation may change: `Touches m s t` says that `t` differs from `s` only in the fields of the state whose number, counted
from 0 in the order of their declaration, is a bit set in `m`. One lemma per operation that answers a state (`_touches`), with its mask. -/

namespace Sys2Proof.Machine

open Sys2Proof
set_option Elab.async false
set_option linter.unusedSimpArgs false

/-- Every field whose bit is clear in `m` is the same. -/
structure Touches (m : Nat) (s t : State) : Prop where
  nums : Nat.land m 1 ≠ 1 → t.nums = s.nums
  blobs : Nat.land m 2 ≠ 2 → t.blobs = s.blobs
  pending : Nat.land m 4 ≠ 4 → t.pending = s.pending
  free : Nat.land m 8 ≠ 8 → t.free = s.free
  mode : Nat.land m 16 ≠ 16 → t.mode = s.mode
  attended : Nat.land m 32 ≠ 32 → t.attended = s.attended
  modeNext : Nat.land m 64 ≠ 64 → t.modeNext = s.modeNext
  modeHist : Nat.land m 128 ≠ 128 → t.modeHist = s.modeHist
  rtc : Nat.land m 256 ≠ 256 → t.rtc = s.rtc
  index : Nat.land m 512 ≠ 512 → t.index = s.index
  timeStepNext : Nat.land m 1024 ≠ 1024 → t.timeStepNext = s.timeStepNext
  startup : Nat.land m 2048 ≠ 2048 → t.startup = s.startup
  twins : Nat.land m 4096 ≠ 4096 → t.twins = s.twins
  lockLatch : Nat.land m 8192 ≠ 8192 → t.lockLatch = s.lockLatch
  lockNvm : Nat.land m 16384 ≠ 16384 → t.lockNvm = s.lockNvm
  integrityFlag : Nat.land m 32768 ≠ 32768 → t.integrityFlag = s.integrityFlag
  lanes : Nat.land m 65536 ≠ 65536 → t.lanes = s.lanes
  laneSub : Nat.land m 131072 ≠ 131072 → t.laneSub = s.laneSub
  ports : Nat.land m 262144 ≠ 262144 → t.ports = s.ports
  spares : Nat.land m 524288 ≠ 524288 → t.spares = s.spares
  mclk : Nat.land m 1048576 ≠ 1048576 → t.mclk = s.mclk
  blockNo : Nat.land m 2097152 ≠ 2097152 → t.blockNo = s.blockNo
  portNoSpare : Nat.land m 4194304 ≠ 4194304 → t.portNoSpare = s.portNoSpare
  learned : Nat.land m 8388608 ≠ 8388608 → t.learned = s.learned
  points : Nat.land m 16777216 ≠ 16777216 → t.points = s.points
  pulses : Nat.land m 33554432 ≠ 33554432 → t.pulses = s.pulses
  demand : Nat.land m 67108864 ≠ 67108864 → t.demand = s.demand
  evq : Nat.land m 134217728 ≠ 134217728 → t.evq = s.evq
  evOver : Nat.land m 268435456 ≠ 268435456 → t.evOver = s.evOver
  jobs : Nat.land m 536870912 ≠ 536870912 → t.jobs = s.jobs
  logs : Nat.land m 1073741824 ≠ 1073741824 → t.logs = s.logs
  merges : Nat.land m 2147483648 ≠ 2147483648 → t.merges = s.merges
  journal : Nat.land m 4294967296 ≠ 4294967296 → t.journal = s.journal
  store : Nat.land m 8589934592 ≠ 8589934592 → t.store = s.store
  nvm : Nat.land m 17179869184 ≠ 17179869184 → t.nvm = s.nvm
  scratch : Nat.land m 34359738368 ≠ 34359738368 → t.scratch = s.scratch
  spi : Nat.land m 68719476736 ≠ 68719476736 → t.spi = s.spi
  can : Nat.land m 137438953472 ≠ 137438953472 → t.can = s.can
  bus : Nat.land m 274877906944 ≠ 274877906944 → t.bus = s.bus
  stream : Nat.land m 549755813888 ≠ 549755813888 → t.stream = s.stream
  tab : Nat.land m 1099511627776 ≠ 1099511627776 → t.tab = s.tab
  tabLast : Nat.land m 2199023255552 ≠ 2199023255552 → t.tabLast = s.tabLast
  heldBatches : Nat.land m 4398046511104 ≠ 4398046511104 → t.heldBatches = s.heldBatches
  cal : Nat.land m 8796093022208 ≠ 8796093022208 → t.cal = s.cal
  plateUse : Nat.land m 17592186044416 ≠ 17592186044416 → t.plateUse = s.plateUse
  sealedRef : Nat.land m 35184372088832 ≠ 35184372088832 → t.sealedRef = s.sealedRef
  convs : Nat.land m 70368744177664 ≠ 70368744177664 → t.convs = s.convs
  couples : Nat.land m 140737488355328 ≠ 140737488355328 → t.couples = s.couples
  inputAt : Nat.land m 281474976710656 ≠ 281474976710656 → t.inputAt = s.inputAt
  auxRun : Nat.land m 562949953421312 ≠ 562949953421312 → t.auxRun = s.auxRun
  banks : Nat.land m 1125899906842624 ≠ 1125899906842624 → t.banks = s.banks
  march : Nat.land m 2251799813685248 ≠ 2251799813685248 → t.march = s.march
  bankSub : Nat.land m 4503599627370496 ≠ 4503599627370496 → t.bankSub = s.bankSub
  sram : Nat.land m 9007199254740992 ≠ 9007199254740992 → t.sram = s.sram
  sweepAt : Nat.land m 18014398509481984 ≠ 18014398509481984 → t.sweepAt = s.sweepAt
  stringReads : Nat.land m 36028797018963968 ≠ 36028797018963968 → t.stringReads = s.stringReads
  sessions : Nat.land m 72057594037927936 ≠ 72057594037927936 → t.sessions = s.sessions
  sign : Nat.land m 144115188075855872 ≠ 144115188075855872 → t.sign = s.sign
  disp : Nat.land m 288230376151711744 ≠ 288230376151711744 → t.disp = s.disp
  tamper : Nat.land m 576460752303423488 ≠ 576460752303423488 → t.tamper = s.tamper
  thb : Nat.land m 1152921504606846976 ≠ 1152921504606846976 → t.thb = s.thb
  svc : Nat.land m 2305843009213693952 ≠ 2305843009213693952 → t.svc = s.svc

theorem Touches.refl {m : Nat} (s : State) : Touches m s s := by constructor <;> exact fun _ => rfl

theorem Touches.trans {m : Nat} {s t u : State} (h : Touches m s t) (g : Touches m t u) : Touches m s u where
  nums b := (g.nums b).trans (h.nums b)
  blobs b := (g.blobs b).trans (h.blobs b)
  pending b := (g.pending b).trans (h.pending b)
  free b := (g.free b).trans (h.free b)
  mode b := (g.mode b).trans (h.mode b)
  attended b := (g.attended b).trans (h.attended b)
  modeNext b := (g.modeNext b).trans (h.modeNext b)
  modeHist b := (g.modeHist b).trans (h.modeHist b)
  rtc b := (g.rtc b).trans (h.rtc b)
  index b := (g.index b).trans (h.index b)
  timeStepNext b := (g.timeStepNext b).trans (h.timeStepNext b)
  startup b := (g.startup b).trans (h.startup b)
  twins b := (g.twins b).trans (h.twins b)
  lockLatch b := (g.lockLatch b).trans (h.lockLatch b)
  lockNvm b := (g.lockNvm b).trans (h.lockNvm b)
  integrityFlag b := (g.integrityFlag b).trans (h.integrityFlag b)
  lanes b := (g.lanes b).trans (h.lanes b)
  laneSub b := (g.laneSub b).trans (h.laneSub b)
  ports b := (g.ports b).trans (h.ports b)
  spares b := (g.spares b).trans (h.spares b)
  mclk b := (g.mclk b).trans (h.mclk b)
  blockNo b := (g.blockNo b).trans (h.blockNo b)
  portNoSpare b := (g.portNoSpare b).trans (h.portNoSpare b)
  learned b := (g.learned b).trans (h.learned b)
  points b := (g.points b).trans (h.points b)
  pulses b := (g.pulses b).trans (h.pulses b)
  demand b := (g.demand b).trans (h.demand b)
  evq b := (g.evq b).trans (h.evq b)
  evOver b := (g.evOver b).trans (h.evOver b)
  jobs b := (g.jobs b).trans (h.jobs b)
  logs b := (g.logs b).trans (h.logs b)
  merges b := (g.merges b).trans (h.merges b)
  journal b := (g.journal b).trans (h.journal b)
  store b := (g.store b).trans (h.store b)
  nvm b := (g.nvm b).trans (h.nvm b)
  scratch b := (g.scratch b).trans (h.scratch b)
  spi b := (g.spi b).trans (h.spi b)
  can b := (g.can b).trans (h.can b)
  bus b := (g.bus b).trans (h.bus b)
  stream b := (g.stream b).trans (h.stream b)
  tab b := (g.tab b).trans (h.tab b)
  tabLast b := (g.tabLast b).trans (h.tabLast b)
  heldBatches b := (g.heldBatches b).trans (h.heldBatches b)
  cal b := (g.cal b).trans (h.cal b)
  plateUse b := (g.plateUse b).trans (h.plateUse b)
  sealedRef b := (g.sealedRef b).trans (h.sealedRef b)
  convs b := (g.convs b).trans (h.convs b)
  couples b := (g.couples b).trans (h.couples b)
  inputAt b := (g.inputAt b).trans (h.inputAt b)
  auxRun b := (g.auxRun b).trans (h.auxRun b)
  banks b := (g.banks b).trans (h.banks b)
  march b := (g.march b).trans (h.march b)
  bankSub b := (g.bankSub b).trans (h.bankSub b)
  sram b := (g.sram b).trans (h.sram b)
  sweepAt b := (g.sweepAt b).trans (h.sweepAt b)
  stringReads b := (g.stringReads b).trans (h.stringReads b)
  sessions b := (g.sessions b).trans (h.sessions b)
  sign b := (g.sign b).trans (h.sign b)
  disp b := (g.disp b).trans (h.disp b)
  tamper b := (g.tamper b).trans (h.tamper b)
  thb b := (g.thb b).trans (h.thb b)
  svc b := (g.svc b).trans (h.svc b)

theorem Touches.mono {m n : Nat} {s t : State} (h : Touches m s t) (b : Nat.lor m n = n) : Touches n s t := by
  have k : ∀ i, Nat.land n i ≠ i → Nat.land m i ≠ i := fun i e g => e (by
    have g : m &&& i = i := g
    show n &&& i = i
    rw [← show m ||| n = n from b]
    apply Nat.eq_of_testBit_eq
    intro j
    have := congrArg (fun x => Nat.testBit x j) g
    simp only [Nat.testBit_and, Nat.testBit_or] at this ⊢
    revert this
    cases m.testBit j <;> cases n.testBit j <;> cases i.testBit j <;> decide)
  exact ⟨fun b => h.nums (k _ b), fun b => h.blobs (k _ b), fun b => h.pending (k _ b), fun b => h.free (k _ b), fun b => h.mode (k _ b),
    fun b => h.attended (k _ b), fun b => h.modeNext (k _ b), fun b => h.modeHist (k _ b), fun b => h.rtc (k _ b), fun b => h.index (k _ b),
    fun b => h.timeStepNext (k _ b), fun b => h.startup (k _ b), fun b => h.twins (k _ b), fun b => h.lockLatch (k _ b),
    fun b => h.lockNvm (k _ b), fun b => h.integrityFlag (k _ b), fun b => h.lanes (k _ b), fun b => h.laneSub (k _ b), fun b => h.ports (k _ b),
    fun b => h.spares (k _ b), fun b => h.mclk (k _ b), fun b => h.blockNo (k _ b), fun b => h.portNoSpare (k _ b), fun b => h.learned (k _ b),
    fun b => h.points (k _ b), fun b => h.pulses (k _ b), fun b => h.demand (k _ b), fun b => h.evq (k _ b), fun b => h.evOver (k _ b),
    fun b => h.jobs (k _ b), fun b => h.logs (k _ b), fun b => h.merges (k _ b), fun b => h.journal (k _ b), fun b => h.store (k _ b),
    fun b => h.nvm (k _ b), fun b => h.scratch (k _ b), fun b => h.spi (k _ b), fun b => h.can (k _ b), fun b => h.bus (k _ b),
    fun b => h.stream (k _ b), fun b => h.tab (k _ b), fun b => h.tabLast (k _ b), fun b => h.heldBatches (k _ b), fun b => h.cal (k _ b),
    fun b => h.plateUse (k _ b), fun b => h.sealedRef (k _ b), fun b => h.convs (k _ b), fun b => h.couples (k _ b), fun b => h.inputAt (k _ b),
    fun b => h.auxRun (k _ b), fun b => h.banks (k _ b), fun b => h.march (k _ b), fun b => h.bankSub (k _ b), fun b => h.sram (k _ b),
    fun b => h.sweepAt (k _ b), fun b => h.stringReads (k _ b), fun b => h.sessions (k _ b), fun b => h.sign (k _ b), fun b => h.disp (k _ b),
    fun b => h.tamper (k _ b), fun b => h.thb (k _ b), fun b => h.svc (k _ b)⟩

theorem lor_within {k own m : Nat} (a : Nat.lor k own = own) (b : Nat.lor own m = m) : Nat.lor k m = m := by
  have a : k ||| own = own := a
  have b : own ||| m = m := b
  show k ||| m = m
  rw [← b, ← Nat.lor_assoc, a]

theorem Touches.after {m : Nat} {s t u : State} (g : Touches m t u) (h : Touches m s t) : Touches m s u := h.trans g

theorem Touches.ite {m : Nat} {c : Prop} [Decidable c] {s a b : State} (ha : Touches m s a) (hb : Touches m s b) : Touches m s (if c then a else b) := by
  split <;> assumption

/-- A change that may not happen, after what the state was before it. -/
theorem Touches.iteR {m : Nat} {c : Prop} [Decidable c] {s x a : State} (h : Touches m s x) (ha : Touches m x a) : Touches m s (if c then a else x) :=
  .ite (h.trans ha) h

theorem Touches.iteL {m : Nat} {c : Prop} [Decidable c] {s x a : State} (h : Touches m s x) (ha : Touches m x a) : Touches m s (if c then x else a) :=
  .ite h (h.trans ha)

theorem Touches.iteFst {m : Nat} {α : Type} {c : Prop} [Decidable c] {s : State} {a b : State × α} (ha : Touches m s a.1) (hb : Touches m s b.1) :
    Touches m s (if c then a else b).1 := by
  split <;> assumption

theorem Touches.iteSnd {m : Nat} {α : Type} {c : Prop} [Decidable c] {s : State} {a b : α × State} (ha : Touches m s a.2) (hb : Touches m s b.2) :
    Touches m s (if c then a else b).2 := by
  split <;> assumption

theorem Touches.foldl {m : Nat} {α : Type} {f : State → α → State} {l : List α} {s x : State} (hf : ∀ u a, Touches m u (f u a)) (h : Touches m s x) :
    Touches m s (l.foldl f x) := by
  induction l generalizing x with
  | nil => exact h
  | cons a r ih => exact ih (h.trans (hf x a))

theorem Touches.foldlFst {m : Nat} {α β : Type} {f : State × β → α → State × β} {l : List α} {s : State} {x : State × β}
    (hf : ∀ u a, Touches m u.1 (f u a).1) (h : Touches m s x.1) : Touches m s (l.foldl f x).1 := by
  induction l generalizing x with
  | nil => exact h
  | cons a r ih => exact ih (h.trans (hf x a))

theorem Touches.foldlSnd {m : Nat} {α β : Type} {f : β × State → α → β × State} {l : List α} {s : State} {x : β × State}
    (hf : ∀ u a, Touches m u.2 (f u a).2) (h : Touches m s x.2) : Touches m s (l.foldl f x).2 := by
  induction l generalizing x with
  | nil => exact h
  | cons a r ih => exact ih (h.trans (hf x a))

theorem Touches.foldlThd {m : Nat} {α β γ : Type} {f : β × γ × State → α → β × γ × State} {l : List α} {s : State} {x : β × γ × State}
    (hf : ∀ u a, Touches m u.2.2 (f u a).2.2) (h : Touches m s x.2.2) : Touches m s (l.foldl f x).2.2 := by
  induction l generalizing x with
  | nil => exact h
  | cons a r ih => exact ih (h.trans (hf x a))

/-- Some fields set. -/
theorem Touches.upd {m : Nat} {s X : State}
    {nums' : List (Nat × Int)} {blobs' : List (Nat × List Byte)} {pending' : List Instr} {free' : Nat} {mode' : Mode} {attended' : Bool}
    {modeNext' : Option Mode} {modeHist' : List (Nat × Mode)} {rtc' : Nat} {index' : Nat} {timeStepNext' : Int} {startup' : RecallSt}
    {twins' : List TwinKind} {lockLatch' : Bool} {lockNvm' : Bool} {integrityFlag' : Bool} {lanes' : Vector Lane 5} {laneSub' : Option LaneSub}
    {ports' : Vector Port 60} {spares' : Vector Spare 4} {mclk' : Vector Bool 15} {blockNo' : Nat} {portNoSpare' : Bool}
    {learned' : Vector Bool 15} {points' : Vector Point 8} {pulses' : Vector Pulse 8} {demand' : Demand} {evq' : List EventEntry}
    {evOver' : List EventEntry} {jobs' : List RecJob} {logs' : Vector LogSt 5} {merges' : List HealthMerge} {journal' : Journal} {store' : Store}
    {nvm' : Nvm} {scratch' : List Host.Cell} {spi' : LinkSt} {can' : LinkSt} {bus' : CanSt} {stream' : Stream} {tab' : Option Tableau}
    {tabLast' : Nat} {heldBatches' : List (Requester × List Byte)} {cal' : Option CalRun} {plateUse' : Vector PlateUse 8}
    {sealedRef' : Vector (Vector Plate 4) 8} {convs' : Vector Conv 8} {couples' : Vector Couple 3} {inputAt' : Vector Nat 32}
    {auxRun' : Option AuxRun} {banks' : Vector Bank 5} {march' : March} {bankSub' : Option BankSub} {sram' : List (Nat × Nat)} {sweepAt' : Nat}
    {stringReads' : Vector Nat 8} {sessions' : Vector Session 8} {sign' : SignSt} {disp' : Display} {tamper' : TamperSt} {thb' : Thiber}
    {svc' : ModeSt}
    (h : Touches m s X)
    (k0 : Nat.land m 1 ≠ 1 → nums' = X.nums := by first | with_unfolding_all exact fun h => (h rfl).elim | exact fun _ => rfl)
    (k1 : Nat.land m 2 ≠ 2 → blobs' = X.blobs := by first | with_unfolding_all exact fun h => (h rfl).elim | exact fun _ => rfl)
    (k2 : Nat.land m 4 ≠ 4 → pending' = X.pending := by first | with_unfolding_all exact fun h => (h rfl).elim | exact fun _ => rfl)
    (k3 : Nat.land m 8 ≠ 8 → free' = X.free := by first | with_unfolding_all exact fun h => (h rfl).elim | exact fun _ => rfl)
    (k4 : Nat.land m 16 ≠ 16 → mode' = X.mode := by first | with_unfolding_all exact fun h => (h rfl).elim | exact fun _ => rfl)
    (k5 : Nat.land m 32 ≠ 32 → attended' = X.attended := by first | with_unfolding_all exact fun h => (h rfl).elim | exact fun _ => rfl)
    (k6 : Nat.land m 64 ≠ 64 → modeNext' = X.modeNext := by first | with_unfolding_all exact fun h => (h rfl).elim | exact fun _ => rfl)
    (k7 : Nat.land m 128 ≠ 128 → modeHist' = X.modeHist := by first | with_unfolding_all exact fun h => (h rfl).elim | exact fun _ => rfl)
    (k8 : Nat.land m 256 ≠ 256 → rtc' = X.rtc := by first | with_unfolding_all exact fun h => (h rfl).elim | exact fun _ => rfl)
    (k9 : Nat.land m 512 ≠ 512 → index' = X.index := by first | with_unfolding_all exact fun h => (h rfl).elim | exact fun _ => rfl)
    (k10 : Nat.land m 1024 ≠ 1024 → timeStepNext' = X.timeStepNext := by first | with_unfolding_all exact fun h => (h rfl).elim | exact fun _ => rfl)
    (k11 : Nat.land m 2048 ≠ 2048 → startup' = X.startup := by first | with_unfolding_all exact fun h => (h rfl).elim | exact fun _ => rfl)
    (k12 : Nat.land m 4096 ≠ 4096 → twins' = X.twins := by first | with_unfolding_all exact fun h => (h rfl).elim | exact fun _ => rfl)
    (k13 : Nat.land m 8192 ≠ 8192 → lockLatch' = X.lockLatch := by first | with_unfolding_all exact fun h => (h rfl).elim | exact fun _ => rfl)
    (k14 : Nat.land m 16384 ≠ 16384 → lockNvm' = X.lockNvm := by first | with_unfolding_all exact fun h => (h rfl).elim | exact fun _ => rfl)
    (k15 : Nat.land m 32768 ≠ 32768 → integrityFlag' = X.integrityFlag := by first | with_unfolding_all exact fun h => (h rfl).elim | exact fun _ => rfl)
    (k16 : Nat.land m 65536 ≠ 65536 → lanes' = X.lanes := by first | with_unfolding_all exact fun h => (h rfl).elim | exact fun _ => rfl)
    (k17 : Nat.land m 131072 ≠ 131072 → laneSub' = X.laneSub := by first | with_unfolding_all exact fun h => (h rfl).elim | exact fun _ => rfl)
    (k18 : Nat.land m 262144 ≠ 262144 → ports' = X.ports := by first | with_unfolding_all exact fun h => (h rfl).elim | exact fun _ => rfl)
    (k19 : Nat.land m 524288 ≠ 524288 → spares' = X.spares := by first | with_unfolding_all exact fun h => (h rfl).elim | exact fun _ => rfl)
    (k20 : Nat.land m 1048576 ≠ 1048576 → mclk' = X.mclk := by first | with_unfolding_all exact fun h => (h rfl).elim | exact fun _ => rfl)
    (k21 : Nat.land m 2097152 ≠ 2097152 → blockNo' = X.blockNo := by first | with_unfolding_all exact fun h => (h rfl).elim | exact fun _ => rfl)
    (k22 : Nat.land m 4194304 ≠ 4194304 → portNoSpare' = X.portNoSpare := by first | with_unfolding_all exact fun h => (h rfl).elim | exact fun _ => rfl)
    (k23 : Nat.land m 8388608 ≠ 8388608 → learned' = X.learned := by first | with_unfolding_all exact fun h => (h rfl).elim | exact fun _ => rfl)
    (k24 : Nat.land m 16777216 ≠ 16777216 → points' = X.points := by first | with_unfolding_all exact fun h => (h rfl).elim | exact fun _ => rfl)
    (k25 : Nat.land m 33554432 ≠ 33554432 → pulses' = X.pulses := by first | with_unfolding_all exact fun h => (h rfl).elim | exact fun _ => rfl)
    (k26 : Nat.land m 67108864 ≠ 67108864 → demand' = X.demand := by first | with_unfolding_all exact fun h => (h rfl).elim | exact fun _ => rfl)
    (k27 : Nat.land m 134217728 ≠ 134217728 → evq' = X.evq := by first | with_unfolding_all exact fun h => (h rfl).elim | exact fun _ => rfl)
    (k28 : Nat.land m 268435456 ≠ 268435456 → evOver' = X.evOver := by first | with_unfolding_all exact fun h => (h rfl).elim | exact fun _ => rfl)
    (k29 : Nat.land m 536870912 ≠ 536870912 → jobs' = X.jobs := by first | with_unfolding_all exact fun h => (h rfl).elim | exact fun _ => rfl)
    (k30 : Nat.land m 1073741824 ≠ 1073741824 → logs' = X.logs := by first | with_unfolding_all exact fun h => (h rfl).elim | exact fun _ => rfl)
    (k31 : Nat.land m 2147483648 ≠ 2147483648 → merges' = X.merges := by first | with_unfolding_all exact fun h => (h rfl).elim | exact fun _ => rfl)
    (k32 : Nat.land m 4294967296 ≠ 4294967296 → journal' = X.journal := by first | with_unfolding_all exact fun h => (h rfl).elim | exact fun _ => rfl)
    (k33 : Nat.land m 8589934592 ≠ 8589934592 → store' = X.store := by first | with_unfolding_all exact fun h => (h rfl).elim | exact fun _ => rfl)
    (k34 : Nat.land m 17179869184 ≠ 17179869184 → nvm' = X.nvm := by first | with_unfolding_all exact fun h => (h rfl).elim | exact fun _ => rfl)
    (k35 : Nat.land m 34359738368 ≠ 34359738368 → scratch' = X.scratch := by first | with_unfolding_all exact fun h => (h rfl).elim | exact fun _ => rfl)
    (k36 : Nat.land m 68719476736 ≠ 68719476736 → spi' = X.spi := by first | with_unfolding_all exact fun h => (h rfl).elim | exact fun _ => rfl)
    (k37 : Nat.land m 137438953472 ≠ 137438953472 → can' = X.can := by first | with_unfolding_all exact fun h => (h rfl).elim | exact fun _ => rfl)
    (k38 : Nat.land m 274877906944 ≠ 274877906944 → bus' = X.bus := by first | with_unfolding_all exact fun h => (h rfl).elim | exact fun _ => rfl)
    (k39 : Nat.land m 549755813888 ≠ 549755813888 → stream' = X.stream := by first | with_unfolding_all exact fun h => (h rfl).elim | exact fun _ => rfl)
    (k40 : Nat.land m 1099511627776 ≠ 1099511627776 → tab' = X.tab := by first | with_unfolding_all exact fun h => (h rfl).elim | exact fun _ => rfl)
    (k41 : Nat.land m 2199023255552 ≠ 2199023255552 → tabLast' = X.tabLast := by first | with_unfolding_all exact fun h => (h rfl).elim | exact fun _ => rfl)
    (k42 : Nat.land m 4398046511104 ≠ 4398046511104 → heldBatches' = X.heldBatches := by first | with_unfolding_all exact fun h => (h rfl).elim | exact fun _ => rfl)
    (k43 : Nat.land m 8796093022208 ≠ 8796093022208 → cal' = X.cal := by first | with_unfolding_all exact fun h => (h rfl).elim | exact fun _ => rfl)
    (k44 : Nat.land m 17592186044416 ≠ 17592186044416 → plateUse' = X.plateUse := by first | with_unfolding_all exact fun h => (h rfl).elim | exact fun _ => rfl)
    (k45 : Nat.land m 35184372088832 ≠ 35184372088832 → sealedRef' = X.sealedRef := by first | with_unfolding_all exact fun h => (h rfl).elim | exact fun _ => rfl)
    (k46 : Nat.land m 70368744177664 ≠ 70368744177664 → convs' = X.convs := by first | with_unfolding_all exact fun h => (h rfl).elim | exact fun _ => rfl)
    (k47 : Nat.land m 140737488355328 ≠ 140737488355328 → couples' = X.couples := by first | with_unfolding_all exact fun h => (h rfl).elim | exact fun _ => rfl)
    (k48 : Nat.land m 281474976710656 ≠ 281474976710656 → inputAt' = X.inputAt := by first | with_unfolding_all exact fun h => (h rfl).elim | exact fun _ => rfl)
    (k49 : Nat.land m 562949953421312 ≠ 562949953421312 → auxRun' = X.auxRun := by first | with_unfolding_all exact fun h => (h rfl).elim | exact fun _ => rfl)
    (k50 : Nat.land m 1125899906842624 ≠ 1125899906842624 → banks' = X.banks := by first | with_unfolding_all exact fun h => (h rfl).elim | exact fun _ => rfl)
    (k51 : Nat.land m 2251799813685248 ≠ 2251799813685248 → march' = X.march := by first | with_unfolding_all exact fun h => (h rfl).elim | exact fun _ => rfl)
    (k52 : Nat.land m 4503599627370496 ≠ 4503599627370496 → bankSub' = X.bankSub := by first | with_unfolding_all exact fun h => (h rfl).elim | exact fun _ => rfl)
    (k53 : Nat.land m 9007199254740992 ≠ 9007199254740992 → sram' = X.sram := by first | with_unfolding_all exact fun h => (h rfl).elim | exact fun _ => rfl)
    (k54 : Nat.land m 18014398509481984 ≠ 18014398509481984 → sweepAt' = X.sweepAt := by first | with_unfolding_all exact fun h => (h rfl).elim | exact fun _ => rfl)
    (k55 : Nat.land m 36028797018963968 ≠ 36028797018963968 → stringReads' = X.stringReads := by first | with_unfolding_all exact fun h => (h rfl).elim | exact fun _ => rfl)
    (k56 : Nat.land m 72057594037927936 ≠ 72057594037927936 → sessions' = X.sessions := by first | with_unfolding_all exact fun h => (h rfl).elim | exact fun _ => rfl)
    (k57 : Nat.land m 144115188075855872 ≠ 144115188075855872 → sign' = X.sign := by first | with_unfolding_all exact fun h => (h rfl).elim | exact fun _ => rfl)
    (k58 : Nat.land m 288230376151711744 ≠ 288230376151711744 → disp' = X.disp := by first | with_unfolding_all exact fun h => (h rfl).elim | exact fun _ => rfl)
    (k59 : Nat.land m 576460752303423488 ≠ 576460752303423488 → tamper' = X.tamper := by first | with_unfolding_all exact fun h => (h rfl).elim | exact fun _ => rfl)
    (k60 : Nat.land m 1152921504606846976 ≠ 1152921504606846976 → thb' = X.thb := by first | with_unfolding_all exact fun h => (h rfl).elim | exact fun _ => rfl)
    (k61 : Nat.land m 2305843009213693952 ≠ 2305843009213693952 → svc' = X.svc := by first | with_unfolding_all exact fun h => (h rfl).elim | exact fun _ => rfl) :
    Touches m s (State.mk
      nums' blobs' pending' free' mode' attended' modeNext' modeHist' rtc' index' timeStepNext' startup' twins' lockLatch' lockNvm'
      integrityFlag' lanes' laneSub' ports' spares' mclk' blockNo' portNoSpare' learned' points' pulses' demand' evq' evOver' jobs' logs' merges'
      journal' store' nvm' scratch' spi' can' bus' stream' tab' tabLast' heldBatches' cal' plateUse' sealedRef' convs' couples' inputAt' auxRun'
      banks' march' bankSub' sram' sweepAt' stringReads' sessions' sign' disp' tamper' thb' svc') :=
  ⟨fun b => (k0 b).trans (h.nums b), fun b => (k1 b).trans (h.blobs b), fun b => (k2 b).trans (h.pending b), fun b => (k3 b).trans (h.free b),
    fun b => (k4 b).trans (h.mode b), fun b => (k5 b).trans (h.attended b), fun b => (k6 b).trans (h.modeNext b),
    fun b => (k7 b).trans (h.modeHist b), fun b => (k8 b).trans (h.rtc b), fun b => (k9 b).trans (h.index b),
    fun b => (k10 b).trans (h.timeStepNext b), fun b => (k11 b).trans (h.startup b), fun b => (k12 b).trans (h.twins b),
    fun b => (k13 b).trans (h.lockLatch b), fun b => (k14 b).trans (h.lockNvm b), fun b => (k15 b).trans (h.integrityFlag b),
    fun b => (k16 b).trans (h.lanes b), fun b => (k17 b).trans (h.laneSub b), fun b => (k18 b).trans (h.ports b),
    fun b => (k19 b).trans (h.spares b), fun b => (k20 b).trans (h.mclk b), fun b => (k21 b).trans (h.blockNo b),
    fun b => (k22 b).trans (h.portNoSpare b), fun b => (k23 b).trans (h.learned b), fun b => (k24 b).trans (h.points b),
    fun b => (k25 b).trans (h.pulses b), fun b => (k26 b).trans (h.demand b), fun b => (k27 b).trans (h.evq b),
    fun b => (k28 b).trans (h.evOver b), fun b => (k29 b).trans (h.jobs b), fun b => (k30 b).trans (h.logs b),
    fun b => (k31 b).trans (h.merges b), fun b => (k32 b).trans (h.journal b), fun b => (k33 b).trans (h.store b),
    fun b => (k34 b).trans (h.nvm b), fun b => (k35 b).trans (h.scratch b), fun b => (k36 b).trans (h.spi b), fun b => (k37 b).trans (h.can b),
    fun b => (k38 b).trans (h.bus b), fun b => (k39 b).trans (h.stream b), fun b => (k40 b).trans (h.tab b),
    fun b => (k41 b).trans (h.tabLast b), fun b => (k42 b).trans (h.heldBatches b), fun b => (k43 b).trans (h.cal b),
    fun b => (k44 b).trans (h.plateUse b), fun b => (k45 b).trans (h.sealedRef b), fun b => (k46 b).trans (h.convs b),
    fun b => (k47 b).trans (h.couples b), fun b => (k48 b).trans (h.inputAt b), fun b => (k49 b).trans (h.auxRun b),
    fun b => (k50 b).trans (h.banks b), fun b => (k51 b).trans (h.march b), fun b => (k52 b).trans (h.bankSub b),
    fun b => (k53 b).trans (h.sram b), fun b => (k54 b).trans (h.sweepAt b), fun b => (k55 b).trans (h.stringReads b),
    fun b => (k56 b).trans (h.sessions b), fun b => (k57 b).trans (h.sign b), fun b => (k58 b).trans (h.disp b),
    fun b => (k59 b).trans (h.tamper b), fun b => (k60 b).trans (h.thb b), fun b => (k61 b).trans (h.svc b)⟩

theorem State.setN_touches (s : State) (k : Nat) (v : Int) : Touches 1 s (State.setN s k v) := by
  unfold State.setN
  with_reducible exact .upd (.refl _)

theorem forEach_touches {m : Nat} {α : Type} (l : List α) (f : α → State → State) (s : State) (hf : ∀ a0 u, Touches m u (f a0 u)) : Touches
  m s (forEach l f s) := by
  unfold forEach
  with_reducible refine .foldl (hf := ?_) ?_
  intro _
  intro _
  refine .trans ?_ (hf ..)
  exact .refl _
  exact .refl _

theorem State.setLink_touches (s : State) (l : Link) (x : LinkSt) : Touches 206158430208 s (State.setLink s l x) := by
  unfold State.setLink
  split
  with_reducible refine .upd ?_
  exact .refl _
  with_reducible refine .upd ?_
  exact .refl _

theorem State.reply_touches (s : State) (h : Requester) (op : Nat) (idx : Nat) (sub : Nat) (st : Status) (payload : List Byte) : Touches
  206158430208 s (State.reply s h op idx sub st payload) := by
  unfold State.reply
  with_reducible exact .iteL (.refl _) (.after ((State.setLink_touches ..).mono rfl) (.refl _))

theorem State.replyWrite_touches (s : State) (h : Requester) (idx : Nat) (sub : Nat) (st : Status) : Touches 206158430208 s
  (State.replyWrite s h idx sub st) := by
  unfold State.replyWrite
  with_reducible exact .after ((State.reply_touches ..).mono rfl) (.refl _)

theorem State.abortSeal_touches (s : State) (reason : Nat) : Touches 2305843219667095585 s (State.abortSeal s reason) := by
  unfold State.abortSeal
  with_reducible refine .iteL ?_ ?_
  exact .refl _
  with_reducible refine .trans ?_ (forEach_touches (hf := ?_) ..)
  with_reducible refine .upd ?_
  with_reducible refine .trans ?_ ((State.setN_touches ..).mono rfl)
  exact .refl _
  intro _
  intro _
  split
  with_reducible refine .trans ?_ ((State.replyWrite_touches ..).mono rfl)
  exact .refl _
  exact .refl _

theorem State.updSession_touches (s : State) (p : Fin 8) (f : Session → Session) : Touches 72057594037927936 s (State.updSession s p f) := by
  unfold State.updSession
  with_reducible exact .upd (.refl _)

theorem State.cow_touches (s : State) (n : Nat) (k : Nat) : Touches 1099511627776 s (State.cow s n k) := by
  unfold State.cow
  split
  with_reducible refine .iteR ?_ ?_
  exact .refl _
  with_reducible refine .upd ?_
  exact .refl _
  exact .refl _

theorem State.setQ_touches (s : State) (n : Nat) (k : Nat) (v : Int) : Touches 1099511627777 s (State.setQ s n k v) := by
  unfold State.setQ
  with_reducible exact .after ((State.setN_touches ..).mono rfl) (.after ((State.cow_touches ..).mono rfl) (.refl _))

theorem State.put_touches (s : State) (k : Nat) (v : Int) : Touches 1099511627777 s (State.put s k v) := by
  unfold State.put
  with_reducible exact .after ((State.setQ_touches ..).mono rfl) (.refl _)

theorem State.acceptClose_touches (s : State) (p : Fin 8) {r : State} (hr : State.acceptClose s p = some r) : Touches 72058693549555713 s r := by
  unfold State.acceptClose at hr
  simp only [Option.some.injEq, reduceCtorEq] at hr
  split at hr
  simp only [Option.some.injEq, reduceCtorEq] at hr
  subst hr
  with_reducible refine .trans ?_ ((State.updSession_touches ..).mono rfl)
  with_reducible refine .trans ?_ ((State.put_touches ..).mono rfl)
  exact .refl _
  split at hr
  split at hr
  simp only [Option.some.injEq, reduceCtorEq] at hr
  split at hr
  simp only [Option.some.injEq, reduceCtorEq] at hr
  subst hr
  with_reducible refine .trans ?_ ((State.updSession_touches ..).mono rfl)
  exact .refl _
  simp only [Option.some.injEq, reduceCtorEq] at hr
  subst hr
  with_reducible refine .trans ?_ ((State.updSession_touches ..).mono rfl)
  with_reducible refine .trans ?_ ((State.put_touches ..).mono rfl)
  exact .refl _
  simp only [Option.some.injEq, reduceCtorEq] at hr

theorem State.acceptOpen_touches (s : State) (p : Fin 8) : Touches 72058693549555713 s (State.acceptOpen s p) := by
  unfold State.acceptOpen
  with_reducible exact .after ((State.updSession_touches ..).mono rfl) (.after ((State.put_touches ..).mono rfl) (.refl _))

theorem State.updPoint_touches (s : State) (p : Fin 8) (f : Point → Point) : Touches 16777216 s (State.updPoint s p f) := by
  unfold State.updPoint
  with_reducible exact .upd (.refl _)

theorem State.addWrapQ_touches (s : State) (n : Nat) (w : Nat) (k : Nat) (d : Nat) : Touches 1099511627777 s (State.addWrapQ s n w k d) := by
  unfold State.addWrapQ
  with_reducible exact .after ((State.setQ_touches ..).mono rfl) (.refl _)

theorem State.addSatQ_touches (s : State) (n : Nat) (w : Nat) (k : Nat) (d : Nat) : Touches 1099511627777 s (State.addSatQ s n w k d) := by
  unfold State.addSatQ
  with_reducible exact .after ((State.setQ_touches ..).mono rfl) (.refl _)

theorem State.queuePulses_touches (s : State) (n : Nat) (m : Fin 8) (k : Nat) : Touches 1099511627777 s (State.queuePulses s n m k) := by
  unfold State.queuePulses
  with_reducible exact .iteL (.refl _) (.iteR (.after ((State.setQ_touches ..).mono rfl) (.after ((State.addWrapQ_touches ..).mono rfl)
    (.refl _))) (.after ((State.addSatQ_touches ..).mono rfl) (.refl _)))

theorem State.addPulse_touches (s : State) (n : Nat) (m : Fin 8) (d : Int) : Touches 1099511627777 s (State.addPulse s n m d) := by
  unfold State.addPulse
  with_reducible exact .ite (.after ((State.setQ_touches ..).mono rfl) (.refl _)) (.after ((State.queuePulses_touches ..).mono rfl) (.after
    ((State.setQ_touches ..).mono rfl) (.refl _)))

theorem State.updPulse_touches (s : State) (m : Fin 8) (f : Pulse → Pulse) : Touches 33554432 s (State.updPulse s m f) := by
  unfold State.updPulse
  with_reducible exact .upd (.refl _)

theorem State.streamPulses_touches (s : State) (p : Fin 8) (n : Nat) (e : Int) (ec : Int) : Touches 1099545182209 s (State.streamPulses s p
  n e ec) := by
  unfold State.streamPulses
  with_reducible exact .after (forEach_touches (hf := fun _ _ => .iteR (.refl _) (.after ((State.addPulse_touches ..).mono rfl) (.after
    ((State.updPulse_touches ..).mono rfl) (.refl _)))) ..) (.refl _)

theorem State.accumulate_touches (s : State) (p : Fin 8) (n : Nat) : Touches 1099561959425 s (State.accumulate s p n) := by
  unfold State.accumulate
  with_reducible exact .after ((State.streamPulses_touches ..).mono rfl) (.after ((State.updPoint_touches ..).mono rfl) (.refl _))

theorem State.updConv_touches (s : State) (a : Fin 8) (f : Conv → Conv) : Touches 70368744177664 s (State.updConv s a f) := by
  unfold State.updConv
  with_reducible exact .upd (.refl _)

theorem State.acquire_touches (s : State) (a : Fin 8) (input : Nat) (wait : List (Fin 8)) : Touches 70368744177664 s (State.acquire s a
  input wait) := by
  unfold State.acquire
  with_reducible exact .after ((State.updConv_touches ..).mono rfl) (.refl _)

theorem State.addFlags_touches (s : State) (n : Nat) (p : Fin 8) (w : Nat) : Touches 1099511627777 s (State.addFlags s n p w) := by
  unfold State.addFlags
  with_reducible exact .after ((State.setQ_touches ..).mono rfl) (.refl _)

theorem State.addSat_touches (s : State) (w : Nat) (k : Nat) (d : Nat) : Touches 1099511627777 s (State.addSat s w k d) := by
  unfold State.addSat
  with_reducible exact .after ((State.addSatQ_touches ..).mono rfl) (.refl _)

theorem State.addTags_touches (s : State) (n : Nat) (p : Fin 8) (w : Nat) : Touches 1099511627777 s (State.addTags s n p w) := by
  unfold State.addTags
  with_reducible exact .after ((State.setQ_touches ..).mono rfl) (.refl _)

theorem State.addWrap_touches (s : State) (w : Nat) (k : Nat) (d : Nat) : Touches 1099511627777 s (State.addWrap s w k d) := by
  unfold State.addWrap
  with_reducible exact .after ((State.addWrapQ_touches ..).mono rfl) (.refl _)

theorem State.answerNow_touches (s : State) (l : Link) (m : Message) : Touches 206158430208 s (State.answerNow s l m) := by
  unfold State.answerNow
  with_reducible exact .after ((State.setLink_touches ..).mono rfl) (.refl _)

theorem State.fresh_touches (s : State) : Touches 8 s (State.fresh s).2 := by
  unfold State.fresh
  dsimp only
  with_reducible refine .upd ?_
  exact .refl _

theorem State.recallLeft_touches (s : State) : Touches 8 s (State.recallLeft s).2 := by
  unfold State.recallLeft
  dsimp only
  with_reducible refine .trans ?_ ((State.fresh_touches ..).mono rfl)
  with_reducible refine .trans ?_ ((State.fresh_touches ..).mono rfl)
  exact .refl _

theorem State.admitted_touches (s : State) (l : Link) (m : Message) : Touches 206158430216 s (State.admitted s l m).2 := by
  unfold State.admitted
  with_reducible refine .iteSnd ?_ ?_
  dsimp only
  exact .refl _
  with_reducible refine .iteSnd ?_ ?_
  dsimp only
  with_reducible refine .trans ?_ ((State.answerNow_touches ..).mono rfl)
  exact .refl _
  with_reducible refine .iteSnd ?_ ?_
  dsimp only
  with_reducible refine .trans ?_ ((State.answerNow_touches ..).mono rfl)
  with_reducible refine .trans ?_ ((State.recallLeft_touches ..).mono rfl)
  exact .refl _
  dsimp only
  exact .refl _

theorem State.storeDisp_touches (s : State) (r : StoreRec) : Touches 288230376151711744 s (State.storeDisp s r) := by
  unfold State.storeDisp
  with_reducible exact .upd (.refl _)

theorem State.storeStart_touches (s : State) : Touches 288230376151711744 s (State.storeStart s) := by
  unfold State.storeStart
  with_reducible exact .after ((State.storeDisp_touches ..).mono rfl) (.refl _)

theorem State.startClear_touches (s : State) (band : Nat) : Touches 288230376151711744 s (State.startClear s band) := by
  unfold State.startClear
  with_reducible exact .after ((State.storeStart_touches ..).mono rfl) (.upd (.refl _))

theorem State.setShown_touches (s : State) (img : Nat) : Touches 288230376151711745 s (State.setShown s img) := by
  unfold State.setShown
  with_reducible exact .after ((State.setN_touches ..).mono rfl) (.upd (.refl _))

theorem State.setRegion_touches (s : State) (h : Bool) (r : Region) : Touches 288230376151711744 s (State.setRegion s h r) := by
  unfold State.setRegion
  with_reducible exact .ite (.upd (.refl _)) (.upd (.refl _))

theorem State.pumpOn_touches (s : State) : Touches 288230376151711744 s (State.pumpOn s) := by
  unfold State.pumpOn
  with_reducible exact .iteL (.refl _) (.upd (.refl _))

theorem State.setTarget_touches (s : State) (h : Bool) (img : Nat) : Touches 288231475663339521 s (State.setTarget s h img) := by
  unfold State.setTarget
  with_reducible exact .iteL (.refl _) (.ite (.after ((State.setRegion_touches ..).mono rfl) (.iteR (.refl _) (.after
    ((State.addSat_touches ..).mono rfl) (.refl _)))) (.after ((State.pumpOn_touches ..).mono rfl) (.after
    ((State.setRegion_touches ..).mono rfl) (.refl _))))

theorem State.compose_touches (s : State) : Touches 288231475663339521 s (State.compose s) := by
  unfold State.compose
  with_reducible exact .iteR (.refl _) (.after ((State.setTarget_touches ..).mono rfl) (.refl _))

theorem State.takeBand_touches (s : State) : Touches 288231475663339521 s (State.takeBand s).2 := by
  unfold State.takeBand
  split
  dsimp only
  with_reducible refine .upd ?_
  exact .refl _
  dsimp only
  with_reducible refine .upd ?_
  with_reducible refine .trans ?_ ((State.addSat_touches ..).mono rfl)
  exact .refl _

theorem State.startDrive_touches (s : State) (h : Bool) (kind : DriveKind) : Touches 288231475663339521 s (State.startDrive s h kind) := by
  unfold State.startDrive
  with_reducible exact .after ((State.storeStart_touches ..).mono rfl) (.after ((State.setRegion_touches ..).mono rfl) (.after
    ((State.pumpOn_touches ..).mono rfl) (.after ((State.takeBand_touches ..).mono rfl) (.refl _))))

theorem State.setLog_touches (s : State) (k : LogKind) (l : LogSt) : Touches 1073741824 s (State.setLog s k l) := by
  unfold State.setLog
  with_reducible exact .upd (.refl _)

theorem State.startJob_touches (s : State) : Touches 1610612736 s (State.startJob s) := by
  unfold State.startJob
  split
  split
  with_reducible refine .upd ?_
  with_reducible refine .trans ?_ ((State.setLog_touches ..).mono rfl)
  exact .refl _
  exact .refl _
  exact .refl _

theorem State.queueRecord_touches (s : State) (j : RecJob) : Touches 1610612736 s (State.queueRecord s j) := by
  unfold State.queueRecord
  with_reducible exact .after ((State.startJob_touches ..).mono rfl) (.upd (.refl _))

theorem State.health_touches (s : State) (code : Nat) (resource : Nat) (detail : Nat) : Touches 3758096384 s (State.health s code resource
  detail) := by
  unfold State.health
  dsimp only
  split
  with_reducible refine .ite ?_ ?_
  with_reducible refine .upd ?_
  exact .refl _
  with_reducible refine .trans ?_ ((State.queueRecord_touches ..).mono rfl)
  with_reducible refine .upd ?_
  exact .refl _
  with_reducible refine .trans ?_ ((State.queueRecord_touches ..).mono rfl)
  with_reducible refine .upd ?_
  exact .refl _

theorem State.endClear_touches (s : State) : Touches 288231479421435905 s (State.endClear s) := by
  unfold State.endClear
  with_reducible exact .after ((State.setTarget_touches ..).mono rfl) (.after ((State.compose_touches ..).mono rfl) (.after
    ((State.storeDisp_touches ..).mono rfl) (.after ((State.setN_touches ..).mono rfl) (.after ((State.addWrap_touches ..).mono rfl)
    (.after ((State.addWrap_touches ..).mono rfl) (.upd (.after (forEach_touches (hf := fun _ _ => .after ((State.health_touches ..).mono rfl)
    (.after ((State.addSat_touches ..).mono rfl) (.refl _))) ..) (.after ((State.setShown_touches ..).mono rfl) (.refl _)))))))))

theorem State.advanceClear_touches (s : State) : Touches 288231479421435905 s (State.advanceClear s) := by
  unfold State.advanceClear
  split
  with_reducible refine .iteR ?_ ?_
  exact .refl _
  with_reducible refine .ite ?_ ?_
  with_reducible refine .trans ?_ ((State.startClear_touches ..).mono rfl)
  with_reducible refine .trans ?_ ((State.setN_touches ..).mono rfl)
  exact .refl _
  with_reducible refine .upd ?_
  with_reducible refine .trans ?_ ((State.setN_touches ..).mono rfl)
  exact .refl _
  with_reducible refine .ite ?_ ?_
  with_reducible refine .upd ?_
  exact .refl _
  with_reducible refine .trans ?_ ((State.startClear_touches ..).mono rfl)
  exact .refl _
  with_reducible refine .ite ?_ ?_
  with_reducible refine .upd ?_
  exact .refl _
  with_reducible refine .trans ?_ ((State.endClear_touches ..).mono rfl)
  exact .refl _
  exact .refl _

theorem State.endDrive_touches (s : State) (h : Bool) (d : Drive) : Touches 288231479421435905 s (State.endDrive s h d) := by
  unfold State.endDrive
  with_reducible refine .ite ?_ ?_
  dsimp only
  split
  with_reducible refine .trans ?_ ((State.startDrive_touches ..).mono rfl)
  with_reducible refine .trans ?_ ((State.setRegion_touches ..).mono rfl)
  with_reducible refine .trans ?_ ((State.setRegion_touches ..).mono rfl)
  with_reducible refine .trans ?_ ((State.storeDisp_touches ..).mono rfl)
  with_reducible refine .trans ?_ ((State.addWrap_touches ..).mono rfl)
  with_reducible refine .trans ?_ ((State.setShown_touches ..).mono rfl)
  exact .refl _
  with_reducible refine .trans ?_ ((State.setRegion_touches ..).mono rfl)
  with_reducible refine .trans ?_ ((State.storeDisp_touches ..).mono rfl)
  with_reducible refine .trans ?_ ((State.addWrap_touches ..).mono rfl)
  with_reducible refine .trans ?_ ((State.setShown_touches ..).mono rfl)
  exact .refl _
  with_reducible refine .trans ?_ ((State.setRegion_touches ..).mono rfl)
  with_reducible refine .trans ?_ (forEach_touches (hf := ?_) ..)
  with_reducible refine .trans ?_ ((State.setRegion_touches ..).mono rfl)
  with_reducible refine .trans ?_ ((State.storeDisp_touches ..).mono rfl)
  with_reducible refine .trans ?_ ((State.addWrap_touches ..).mono rfl)
  with_reducible refine .trans ?_ ((State.setShown_touches ..).mono rfl)
  exact .refl _
  intro _
  intro _
  with_reducible refine .trans ?_ ((State.health_touches ..).mono rfl)
  with_reducible refine .trans ?_ ((State.addSat_touches ..).mono rfl)
  exact .refl _

theorem State.advanceRegion_touches (s : State) (h : Bool) : Touches 288231479421435905 s (State.advanceRegion s h) := by
  unfold State.advanceRegion
  dsimp only
  split
  with_reducible refine .ite ?_ ?_
  with_reducible refine .trans ?_ ((State.setRegion_touches ..).mono rfl)
  exact .refl _
  with_reducible refine .trans ?_ ((State.endDrive_touches ..).mono rfl)
  exact .refl _
  with_reducible refine .ite ?_ ?_
  with_reducible refine .trans ?_ ((State.setRegion_touches ..).mono rfl)
  exact .refl _
  with_reducible refine .trans ?_ ((State.startDrive_touches ..).mono rfl)
  with_reducible refine .trans ?_ ((State.setRegion_touches ..).mono rfl)
  exact .refl _
  exact .refl _

theorem State.updSrc_touches (s : State) (n : Fin 16) (f : TamperSrc → TamperSrc) : Touches 576460752303423488 s (State.updSrc s n f) := by
  unfold State.updSrc
  with_reducible exact .upd (.refl _)

theorem State.dormantAlarm_touches (s : State) (n : Fin 16) (t : Nat) (late : Bool) : Touches 576460752303423488 s (State.dormantAlarm s n
  t late) := by
  unfold State.dormantAlarm
  with_reducible exact .after ((State.updSrc_touches ..).mono rfl) (.upd (.refl _))

theorem State.queueUnit_touches (s : State) (u : JUnit) : Touches 4294967296 s (State.queueUnit s u) := by
  unfold State.queueUnit
  with_reducible exact .upd (.refl _)

theorem State.keepMarks_touches (s : State) : Touches 576460756598390784 s (State.keepMarks s) := by
  unfold State.keepMarks
  with_reducible exact .after ((State.queueUnit_touches ..).mono rfl) (.upd (.refl _))

theorem State.setSticky_touches (s : State) (n : Fin 16) : Touches 576461856110018561 s (State.setSticky s n) := by
  unfold State.setSticky
  with_reducible exact .iteL (.iteR (.after ((State.put_touches ..).mono rfl) (.refl _)) (.after ((State.updSrc_touches ..).mono rfl)
    (.after ((State.addSat_touches ..).mono rfl) (.refl _)))) (.after ((State.keepMarks_touches ..).mono rfl) (.refl _))

theorem State.alarm_touches (s : State) (n : Fin 16) (point : Nat) (value : Nat) : Touches 576461856110018561 s (State.alarm s n point
  value) := by
  unfold State.alarm
  with_reducible exact .ite (.after ((State.dormantAlarm_touches ..).mono rfl) (.refl _)) (.after ((State.updSrc_touches ..).mono rfl)
    (.after ((State.put_touches ..).mono rfl) (.after ((State.addSat_touches ..).mono rfl) (.after ((State.setSticky_touches ..).mono rfl)
    (.refl _)))))

theorem State.alarmRecord_touches (s : State) (a : Alarmed) (c : Nat) (flags : Nat) (time : Nat) (idx : Nat) (num : Nat) : Touches
  576460752303423488 s (State.alarmRecord s a c flags time idx num).1 := by
  unfold State.alarmRecord
  with_reducible refine .iteFst ?_ ?_
  dsimp only
  with_reducible refine .trans ?_ ((State.updSrc_touches ..).mono rfl)
  exact .refl _
  dsimp only
  with_reducible refine .trans ?_ ((State.updSrc_touches ..).mono rfl)
  exact .refl _

theorem State.alarmRecords_touches (s : State) (set : List Alarmed) (c : Nat) (flags : Nat) (time : Nat) (idx : Nat) (num : Nat) : Touches
  576460752303423488 s (State.alarmRecords s set c flags time idx num).1 := by
  unfold State.alarmRecords
  with_reducible refine .foldlFst (hf := ?_) ?_
  intro _
  intro _
  dsimp only
  with_reducible refine .trans ?_ ((State.alarmRecord_touches ..).mono rfl)
  exact .refl _
  dsimp only
  exact .refl _

theorem State.answerError_touches (s : State) (h : Requester) (st : Status) : Touches 206158430208 s (State.answerError s h st) := by
  unfold State.answerError
  split
  with_reducible refine .trans ?_ ((State.reply_touches ..).mono rfl)
  exact .refl _
  exact .refl _

theorem State.answerAny_touches (s : State) (h : Option Requester) (st : Status) : Touches 206158430208 s (State.answerAny s h st) := by
  unfold State.answerAny
  split
  with_reducible refine .trans ?_ ((State.answerError_touches ..).mono rfl)
  exact .refl _
  exact .refl _

theorem State.answerBuffer_touches (s : State) (l : Link) (st : Status) : Touches 206158430208 s (State.answerBuffer s l st) := by
  unfold State.answerBuffer
  split
  with_reducible refine .trans ?_ ((State.reply_touches ..).mono rfl)
  exact .refl _
  exact .refl _

theorem State.nominalFreq_touches (s : State) (p : Fin 8) (n : Nat) (cfg : Nat) : Touches 1099511627777 s (State.nominalFreq s p n cfg) := by
  unfold State.nominalFreq
  with_reducible exact .after ((State.setQ_touches ..).mono rfl) (.after ((State.setQ_touches ..).mono rfl) (.refl _))

theorem State.clearQuantities_touches (s : State) (p : Fin 8) (n : Nat) : Touches 1099511627777 s (State.clearQuantities s p n) := by
  unfold State.clearQuantities
  with_reducible exact .after (forEach_touches (hf := fun _ _ => .after ((State.setQ_touches ..).mono rfl) (.refl _)) ..) (.refl _)

theorem State.pushEvent_touches (s : State) (e : EventEntry) : Touches 402653184 s (State.pushEvent s e) := by
  unfold State.pushEvent
  with_reducible exact .ite (.upd (.refl _)) (.ite (.upd (.refl _)) (.upd (.refl _)))

theorem State.endEvent_touches (s : State) (n : Nat) (p : Fin 8) (b : Fin 17) (idx : Nat) : Touches 1099931058177 s (State.endEvent s n p b
  idx) := by
  unfold State.endEvent
  with_reducible exact .iteR (.refl _) (.after ((State.pushEvent_touches ..).mono rfl) (.after ((State.setQ_touches ..).mono rfl) (.after
    ((State.updPoint_touches ..).mono rfl) (.refl _))))

theorem State.endAllEvents_touches (s : State) (p : Fin 8) (idx : Nat) : Touches 1099931058177 s (State.endAllEvents s p idx) := by
  unfold State.endAllEvents
  with_reducible exact .after ((State.updPoint_touches ..).mono rfl) (.after (forEach_touches (hf := fun _ _ => .after
    ((State.endEvent_touches ..).mono rfl) (.refl _)) ..) (.refl _))

theorem State.applyKind_touches (s : State) (p : Fin 8) (n : Nat) (cfg : Nat) : Touches 1099931058177 s (State.applyKind s p n cfg) := by
  unfold State.applyKind
  with_reducible exact .after ((State.setQ_touches ..).mono rfl) (.after ((State.updPoint_touches ..).mono rfl) (.after
    ((State.nominalFreq_touches ..).mono rfl) (.after ((State.clearQuantities_touches ..).mono rfl) (.after
    ((State.endAllEvents_touches ..).mono rfl) (.refl _)))))

theorem State.updPort_touches (s : State) (m : Fin 60) (f : Port → Port) : Touches 262144 s (State.updPort s m f) := by
  unfold State.updPort
  with_reducible exact .upd (.refl _)

theorem State.clearFilter_touches (s : State) (m : Fin 60) : Touches 262144 s (State.clearFilter s m) := by
  unfold State.clearFilter
  with_reducible exact .after ((State.updPort_touches ..).mono rfl) (.refl _)

theorem State.applyOsr_touches (s : State) (p : Fin 8) (n : Nat) (osr : Bool) : Touches 1099931320321 s (State.applyOsr s p n osr) := by
  unfold State.applyOsr
  with_reducible refine .iteR ?_ ?_
  with_reducible refine .trans ?_ (forEach_touches (hf := ?_) ..)
  with_reducible refine .trans ?_ ((State.updPoint_touches ..).mono rfl)
  with_reducible refine .trans ?_ ((State.endAllEvents_touches ..).mono rfl)
  exact .refl _
  intro _
  intro _
  dsimp only
  split
  with_reducible refine .trans ?_ ((State.clearFilter_touches ..).mono rfl)
  with_reducible refine .trans ?_ ((State.clearFilter_touches ..).mono rfl)
  with_reducible refine .trans ?_ ((State.clearFilter_touches ..).mono rfl)
  exact .refl _
  with_reducible refine .trans ?_ ((State.clearFilter_touches ..).mono rfl)
  with_reducible refine .trans ?_ ((State.clearFilter_touches ..).mono rfl)
  exact .refl _
  with_reducible refine .trans ?_ ((State.setQ_touches ..).mono rfl)
  exact .refl _

theorem State.linkStart_touches (s : State) (m : Fin 60) : Touches 262144 s (State.linkStart s m) := by
  unfold State.linkStart
  with_reducible exact .after ((State.updPort_touches ..).mono rfl) (.refl _)

theorem State.applyLane_touches (s : State) (p : Fin 8) : Touches 16908288 s (State.applyLane s p) := by
  unfold State.applyLane
  with_reducible refine .iteL ?_ ?_
  exact .refl _
  dsimp only
  split
  with_reducible refine .iteR ?_ ?_
  with_reducible refine .trans ?_ ((State.updPoint_touches ..).mono rfl)
  exact .refl _
  with_reducible refine .upd ?_
  exact .refl _
  with_reducible refine .trans ?_ ((State.updPoint_touches ..).mono rfl)
  exact .refl _

theorem State.applyConfig_touches (s : State) (p : Fin 8) (n : Nat) : Touches 1099931451393 s (State.applyConfig s p n) := by
  unfold State.applyConfig
  with_reducible exact .after ((State.applyLane_touches ..).mono rfl) (.after (forEach_touches (hf := fun _ _ => .iteR (.refl _) (.after
    ((State.linkStart_touches ..).mono rfl) (.refl _))) ..) (.after ((State.updPoint_touches ..).mono rfl) (.iteR (.iteR (.refl _) (.after
    ((State.applyKind_touches ..).mono rfl) (.refl _))) (.after ((State.applyOsr_touches ..).mono rfl) (.refl _)))))

theorem State.destroyKeys_touches (s : State) : Touches 144115188075855873 s (State.destroyKeys s) := by
  unfold State.destroyKeys
  with_reducible exact .upd (.after ((State.setN_touches ..).mono rfl) (.refl _))

theorem State.toLockdown_touches (s : State) (att : Bool) : Touches 4294975584 s (State.toLockdown s att) := by
  unfold State.toLockdown
  with_reducible exact .ite (.upd (.refl _)) (.after ((State.queueUnit_touches ..).mono rfl) (.upd (.refl _)))

theorem State.syncSrc_touches (s : State) (n : Fin 16) : Touches 1099511627777 s (State.syncSrc s n) := by
  unfold State.syncSrc
  with_reducible exact .after ((State.put_touches ..).mono rfl) (.refl _)

theorem State.respond_touches (s : State) (c : Nat) (mask : Nat) : Touches 720577044185882721 s (State.respond s c mask) := by
  unfold State.respond
  with_reducible exact .iteR (.iteR (.iteR (.refl _) (.after ((State.destroyKeys_touches ..).mono rfl) (.refl _))) (.after
    ((State.toLockdown_touches ..).mono rfl) (.refl _))) (.after (forEach_touches (hf := fun _ _ => .after ((State.syncSrc_touches ..).mono
    rfl) (.refl _)) ..) (.after ((State.keepMarks_touches ..).mono rfl) (.after ((State.put_touches ..).mono rfl) (.refl _))))

theorem State.applyDecision_touches (s : State) (d : Decision) (second : Nat) : Touches 720577044185882721 s (State.applyDecision s d
  second).1 := by
  unfold State.applyDecision
  dsimp only
  with_reducible refine .trans ?_ ((State.alarmRecords_touches ..).mono rfl)
  with_reducible refine .trans ?_ ((State.addWrap_touches ..).mono rfl)
  with_reducible refine .trans ?_ ((State.respond_touches ..).mono rfl)
  with_reducible refine .iteR ?_ ?_
  exact .refl _
  with_reducible refine .trans ?_ ((State.addSat_touches ..).mono rfl)
  with_reducible refine .trans ?_ ((State.put_touches ..).mono rfl)
  with_reducible refine .trans ?_ ((State.setSticky_touches ..).mono rfl)
  exact .refl _

theorem State.updLane_touches (s : State) (l : Fin 5) (f : Lane → Lane) : Touches 65536 s (State.updLane s l f) := by
  unfold State.updLane
  with_reducible exact .upd (.refl _)

theorem State.updBank_touches (s : State) (b : Fin 5) (f : Bank → Bank) : Touches 1125899906842624 s (State.updBank s b f) := by
  unfold State.updBank
  with_reducible exact .upd (.refl _)

theorem State.setB_touches (s : State) (k : Nat) (v : List Byte) : Touches 2 s (State.setB s k v) := by
  unfold State.setB
  with_reducible exact .upd (.refl _)

theorem State.applyDeviceState_touches (s : State) (w : EntryWrite) : Touches 577586652210348035 s (State.applyDeviceState s w) := by
  unfold State.applyDeviceState
  split
  with_reducible refine .ite ?_ ?_
  with_reducible refine .upd ?_
  exact .refl _
  with_reducible refine .ite ?_ ?_
  with_reducible refine .trans ?_ ((State.updLane_touches ..).mono rfl)
  exact .refl _
  with_reducible refine .ite ?_ ?_
  with_reducible refine .trans ?_ ((State.updBank_touches ..).mono rfl)
  exact .refl _
  with_reducible refine .ite ?_ ?_
  with_reducible refine .upd ?_
  exact .refl _
  with_reducible refine .ite ?_ ?_
  with_reducible refine .upd ?_
  exact .refl _
  with_reducible refine .trans ?_ ((State.setN_touches ..).mono rfl)
  exact .refl _
  with_reducible refine .trans ?_ ((State.setB_touches ..).mono rfl)
  exact .refl _

theorem State.updChan_touches (s : State) (p : Fin 8) (c : Fin 7) (f : Chan → Chan) : Touches 16777216 s (State.updChan s p c f) := by
  unfold State.updChan
  with_reducible exact .after ((State.updPoint_touches ..).mono rfl) (.refl _)

theorem State.applyFault_touches (s : State) (m : Fin 60) : Touches 1099528667137 s (State.applyFault s m) := by
  unfold State.applyFault
  with_reducible refine .iteR ?_ ?_
  exact .refl _
  dsimp only
  split
  with_reducible refine .trans ?_ ((State.updChan_touches ..).mono rfl)
  with_reducible refine .trans ?_ ((State.addSatQ_touches ..).mono rfl)
  with_reducible refine .trans ?_ ((State.updPort_touches ..).mono rfl)
  exact .refl _
  with_reducible refine .trans ?_ ((State.updPort_touches ..).mono rfl)
  exact .refl _

theorem State.restoreAbort_touches (s : State) : Touches 2305843009230667776 s (State.restoreAbort s) := by
  unfold State.restoreAbort
  dsimp only
  split
  with_reducible refine .iteR ?_ ?_
  split
  with_reducible refine .upd ?_
  with_reducible refine .trans ?_ ((State.updLane_touches ..).mono rfl)
  exact .refl _
  exact .refl _
  with_reducible refine .upd ?_
  with_reducible refine .trans ?_ ((State.updLane_touches ..).mono rfl)
  with_reducible refine .trans ?_ (forEach_touches (hf := ?_) ..)
  exact .refl _
  intro _
  intro _
  with_reducible refine .iteR ?_ ?_
  exact .refl _
  with_reducible refine .trans ?_ ((State.updPoint_touches ..).mono rfl)
  exact .refl _
  split
  with_reducible refine .upd ?_
  with_reducible refine .trans ?_ ((State.updLane_touches ..).mono rfl)
  exact .refl _
  exact .refl _

theorem State.auxAbort_touches (s : State) : Touches 564053760016385 s (State.auxAbort s) := by
  unfold State.auxAbort
  split
  with_reducible refine .trans ?_ ((State.put_touches ..).mono rfl)
  with_reducible refine .trans ?_ ((State.put_touches ..).mono rfl)
  with_reducible refine .trans ?_ ((State.put_touches ..).mono rfl)
  with_reducible refine .upd ?_
  exact .refl _
  exact .refl _

theorem State.calAbort_touches (s : State) : Touches 9899899621377 s (State.calAbort s) := by
  unfold State.calAbort
  split
  with_reducible refine .iteL ?_ ?_
  exact .refl _
  with_reducible refine .trans ?_ ((State.put_touches ..).mono rfl)
  with_reducible refine .trans ?_ ((State.put_touches ..).mono rfl)
  with_reducible refine .trans ?_ ((State.put_touches ..).mono rfl)
  with_reducible refine .trans ?_ ((State.put_touches ..).mono rfl)
  with_reducible refine .trans ?_ ((State.put_touches ..).mono rfl)
  with_reducible refine .trans ?_ (forEach_touches (hf := ?_) ..)
  with_reducible refine .upd ?_
  exact .refl _
  intro _
  intro _
  with_reducible refine .trans ?_ ((State.put_touches ..).mono rfl)
  with_reducible refine .trans ?_ ((State.put_touches ..).mono rfl)
  with_reducible refine .trans ?_ ((State.put_touches ..).mono rfl)
  exact .refl _
  exact .refl _

theorem State.slackAll_touches (s : State) : Touches 3758096385 s (State.slackAll s) := by
  unfold State.slackAll
  with_reducible exact .iteL (.refl _) (.after ((State.setN_touches ..).mono rfl) (.after ((State.setN_touches ..).mono rfl) (.after
    ((State.health_touches ..).mono rfl) (.after (forEach_touches (hf := fun _ _ => .after ((State.setN_touches ..).mono rfl)
    (.refl _)) ..) (.refl _)))))

theorem State.endService_touches (s : State) : Touches 2306415862841806849 s (State.endService s) := by
  unfold State.endService
  with_reducible exact .after ((State.restoreAbort_touches ..).mono rfl) (.after ((State.auxAbort_touches ..).mono rfl) (.after
    ((State.calAbort_touches ..).mono rfl) (.after ((State.slackAll_touches ..).mono rfl) (.refl _))))

theorem State.applyMode_touches (s : State) : Touches 2594646445151949041 s (State.applyMode s) := by
  unfold State.applyMode
  split
  exact .refl _
  with_reducible refine .iteL ?_ ?_
  exact .refl _
  with_reducible refine .trans ?_ ((State.compose_touches ..).mono rfl)
  with_reducible refine .iteR ?_ ?_
  with_reducible refine .iteR ?_ ?_
  with_reducible refine .trans ?_ ((State.setN_touches ..).mono rfl)
  with_reducible refine .trans ?_ ((State.setN_touches ..).mono rfl)
  with_reducible refine .upd ?_
  exact .refl _
  with_reducible refine .trans ?_ ((State.endService_touches ..).mono rfl)
  exact .refl _
  with_reducible refine .trans ?_ ((State.abortSeal_touches ..).mono rfl)
  exact .refl _

theorem State.reformHistory_touches (s : State) (p : Fin 8) : Touches 16777216 s (State.reformHistory s p) := by
  unfold State.reformHistory
  with_reducible exact .after ((State.updPoint_touches ..).mono rfl) (.refl _)

theorem State.formActive_touches (s : State) (p : Fin 8) (n : Nat) : Touches 1099511627777 s (State.formActive s p n) := by
  unfold State.formActive
  with_reducible exact .after ((State.setQ_touches ..).mono rfl) (.after (forEach_touches (hf := fun _ _ => .after
    ((State.setQ_touches ..).mono rfl) (.after ((State.setQ_touches ..).mono rfl) (.after ((State.setQ_touches ..).mono rfl)
    (.refl _)))) ..) (.refl _))

theorem State.applyPlates_touches (s : State) (p : Fin 8) (n : Nat) : Touches 27489418084353 s (State.applyPlates s p n) := by
  unfold State.applyPlates
  with_reducible refine .iteL ?_ ?_
  exact .refl _
  dsimp only
  split
  with_reducible refine .iteR ?_ ?_
  with_reducible refine .trans ?_ ((State.addWrapQ_touches ..).mono rfl)
  with_reducible refine .trans ?_ ((State.setQ_touches ..).mono rfl)
  with_reducible refine .trans ?_ ((State.setQ_touches ..).mono rfl)
  with_reducible refine .trans ?_ ((State.reformHistory_touches ..).mono rfl)
  with_reducible refine .trans ?_ ((State.formActive_touches ..).mono rfl)
  with_reducible refine .upd ?_
  exact .refl _
  with_reducible refine .upd ?_
  with_reducible refine .trans ?_ ((State.put_touches ..).mono rfl)
  with_reducible refine .trans ?_ ((State.put_touches ..).mono rfl)
  with_reducible refine .trans ?_ ((State.put_touches ..).mono rfl)
  with_reducible refine .trans ?_ ((State.queueRecord_touches ..).mono rfl)
  exact .refl _
  with_reducible refine .trans ?_ ((State.addWrapQ_touches ..).mono rfl)
  with_reducible refine .trans ?_ ((State.setQ_touches ..).mono rfl)
  with_reducible refine .trans ?_ ((State.setQ_touches ..).mono rfl)
  with_reducible refine .trans ?_ ((State.reformHistory_touches ..).mono rfl)
  with_reducible refine .trans ?_ ((State.formActive_touches ..).mono rfl)
  with_reducible refine .upd ?_
  exact .refl _

theorem State.applyPulse_touches (s : State) (n : Nat) (m : Fin 8) : Touches 1099545182209 s (State.applyPulse s n m) := by
  unfold State.applyPulse
  with_reducible exact .iteL (.refl _) (.after ((State.updPulse_touches ..).mono rfl) (.iteL (.after ((State.setQ_touches ..).mono rfl)
    (.refl _)) (.after ((State.addSatQ_touches ..).mono rfl) (.after ((State.setQ_touches ..).mono rfl) (.refl _)))))

theorem State.applyPulses_touches (s : State) (p : Fin 8) (n : Nat) : Touches 1099545182209 s (State.applyPulses s p n) := by
  unfold State.applyPulses
  with_reducible exact .after (forEach_touches (hf := fun _ _ => .iteR (.refl _) (.after ((State.applyPulse_touches ..).mono rfl)
    (.refl _))) ..) (.refl _)

theorem State.updSpare_touches (s : State) (i : Fin 4) (f : Spare → Spare) : Touches 524288 s (State.updSpare s i f) := by
  unfold State.updSpare
  with_reducible exact .upd (.refl _)

theorem State.recordDevice_touches (s : State) (old : List EntryWrite) (new : List EntryWrite) : Touches 4294967296 s (State.recordDevice s
  old new) := by
  unfold State.recordDevice
  with_reducible exact .after ((State.queueUnit_touches ..).mono rfl) (.refl _)

theorem State.applySpare_touches (s : State) (i : Fin 4) : Touches 1107565215745 s (State.applySpare s i) := by
  unfold State.applySpare
  dsimp only
  split
  split
  with_reducible refine .iteL ?_ ?_
  with_reducible refine .trans ?_ ((State.updSpare_touches ..).mono rfl)
  with_reducible refine .trans ?_ ((State.setQ_touches ..).mono rfl)
  exact .refl _
  with_reducible refine .trans ?_ ((State.recordDevice_touches ..).mono rfl)
  with_reducible refine .trans ?_ ((State.health_touches ..).mono rfl)
  with_reducible refine .trans ?_ ((State.setN_touches ..).mono rfl)
  exact .refl _
  exact .refl _
  exact .refl _

theorem State.sessionTimeStep_touches (s : State) : Touches 1099511627777 s (State.sessionTimeStep s) := by
  unfold State.sessionTimeStep
  with_reducible exact .after (forEach_touches (hf := fun _ _ => .iteR (.refl _) (.after ((State.addFlags_touches ..).mono rfl)
    (.refl _))) ..) (.refl _)

theorem State.demandFlag_touches (s : State) (b : Nat) : Touches 1099528404993 s (State.demandFlag s b) := by
  unfold State.demandFlag
  with_reducible exact .after (forEach_touches (hf := fun _ _ => .ite (.after ((State.updPoint_touches ..).mono rfl) (.refl _)) (.after
    ((State.put_touches ..).mono rfl) (.refl _))) ..) (.refl _)

theorem State.applyTimeStep_touches (s : State) : Touches 1103823373569 s (State.applyTimeStep s) := by
  unfold State.applyTimeStep
  with_reducible exact .iteL (.refl _) (.after ((State.recordDevice_touches ..).mono rfl) (.after ((State.sessionTimeStep_touches ..).mono
    rfl) (.after ((State.demandFlag_touches ..).mono rfl) (.after ((State.put_touches ..).mono rfl) (.upd (.refl _))))))

theorem State.applyWrite_touches (s : State) (o : Owner) (w : EntryWrite) : Touches 577587751721975811 s (State.applyWrite s o w) := by
  unfold State.applyWrite
  split
  with_reducible refine .iteR ?_ ?_
  exact .refl _
  with_reducible refine .trans ?_ ((State.applyDeviceState_touches ..).mono rfl)
  exact .refl _
  with_reducible refine .trans ?_ ((State.put_touches ..).mono rfl)
  exact .refl _
  with_reducible refine .trans ?_ ((State.setB_touches ..).mono rfl)
  exact .refl _

theorem State.at'_touches (s : State) (ns : Nat) : Touches 256 s (State.at' s ns) := by
  unfold State.at'
  with_reducible exact .upd (.refl _)

theorem State.source_touches (s : State) (n : Fin 16) (v : Nat) : Touches 576461856110018561 s (State.source s n v) := by
  unfold State.source
  with_reducible exact .iteL (.refl _) (.iteL (.refl _) (.ite (.after ((State.syncSrc_touches ..).mono rfl) (.after
    ((State.alarm_touches ..).mono rfl) (.after ((State.updSrc_touches ..).mono rfl) (.refl _)))) (.after ((State.syncSrc_touches ..).mono
    rfl) (.after ((State.updSrc_touches ..).mono rfl) (.refl _)))))

theorem State.serviceEnd_touches (s : State) : Touches 2306415862841806945 s (State.serviceEnd s) := by
  unfold State.serviceEnd
  with_reducible refine .iteL ?_ ?_
  exact .refl _
  with_reducible refine .ite ?_ ?_
  with_reducible refine .upd ?_
  exact .refl _
  split
  with_reducible refine .upd ?_
  exact .refl _
  with_reducible refine .trans ?_ ((State.endService_touches ..).mono rfl)
  with_reducible refine .upd ?_
  exact .refl _

theorem State.serviceExit_touches (s : State) : Touches 2306415862841806945 s (State.serviceExit s).2 := by
  unfold State.serviceExit
  with_reducible refine .iteSnd ?_ ?_
  dsimp only
  exact .refl _
  dsimp only
  with_reducible refine .trans ?_ ((State.serviceEnd_touches ..).mono rfl)
  exact .refl _

theorem State.modeCommand_touches (s : State) (h : Requester) (v : Nat) : Touches 2306415862841806945 s (State.modeCommand s h v).2 := by
  unfold State.modeCommand
  split
  dsimp only
  with_reducible refine .trans ?_ ((State.serviceExit_touches ..).mono rfl)
  exact .refl _
  dsimp only
  with_reducible refine .upd ?_
  exact .refl _
  with_reducible refine .iteSnd ?_ ?_
  dsimp only
  exact .refl _
  dsimp only
  with_reducible refine .upd ?_
  exact .refl _
  dsimp only
  exact .refl _

theorem State.clearRecord_touches (s : State) (source : Nat) (kind : Nat) (value : Nat) : Touches 1610612736 s (State.clearRecord s source
  kind value) := by
  unfold State.clearRecord
  with_reducible exact .after ((State.queueRecord_touches ..).mono rfl) (.refl _)

theorem State.clearMarks_touches (s : State) : Touches 576461857720631297 s (State.clearMarks s) := by
  unfold State.clearMarks
  with_reducible exact .after ((State.clearRecord_touches ..).mono rfl) (.after (forEach_touches (hf := fun _ _ => .after
    ((State.syncSrc_touches ..).mono rfl) (.refl _)) ..) (.after ((State.keepMarks_touches ..).mono rfl) (.after
    ((State.put_touches ..).mono rfl) (.refl _))))

theorem State.blowFuse_touches (s : State) (n : Fin 16) : Touches 576461857720631297 s (State.blowFuse s n) := by
  unfold State.blowFuse
  with_reducible exact .after ((State.clearRecord_touches ..).mono rfl) (.after ((State.syncSrc_touches ..).mono rfl) (.after
    ((State.keepMarks_touches ..).mono rfl) (.after ((State.updSrc_touches ..).mono rfl) (.after ((State.put_touches ..).mono rfl) (.after
    ((State.setN_touches ..).mono rfl) (.after ((State.put_touches ..).mono rfl) (.refl _)))))))

theorem State.blowCommand_touches (s : State) (n : Fin 16) : Touches 576461857720631297 s (State.blowCommand s n).2 := by
  unfold State.blowCommand
  with_reducible refine .iteSnd ?_ ?_
  dsimp only
  exact .refl _
  with_reducible refine .iteSnd ?_ ?_
  dsimp only
  exact .refl _
  dsimp only
  with_reducible refine .trans ?_ ((State.blowFuse_touches ..).mono rfl)
  exact .refl _

theorem State.tamperCommand_touches (s : State) (h : Requester) (v : Nat) : Touches 576461857720635393 s (State.tamperCommand s h v).2 := by
  unfold State.tamperCommand
  with_reducible refine .iteSnd ?_ ?_
  dsimp only
  exact .refl _
  split
  with_reducible refine .iteSnd ?_ ?_
  dsimp only
  with_reducible refine .trans ?_ ((State.clearMarks_touches ..).mono rfl)
  exact .refl _
  dsimp only
  exact .refl _
  with_reducible refine .iteSnd ?_ ?_
  dsimp only
  with_reducible refine .upd ?_
  exact .refl _
  dsimp only
  exact .refl _
  dsimp only
  with_reducible refine .trans ?_ ((State.blowCommand_touches ..).mono rfl)
  exact .refl _
  dsimp only
  exact .refl _

theorem State.authCommand_touches (s : State) (h : Requester) (cmd : List Byte) : Touches 2882876615145230433 s (State.authCommand s h
  cmd).2 := by
  unfold State.authCommand
  with_reducible refine .iteSnd ?_ ?_
  dsimp only
  with_reducible refine .iteR ?_ ?_
  exact .refl _
  with_reducible refine .upd ?_
  exact .refl _
  with_reducible refine .iteSnd ?_ ?_
  dsimp only
  with_reducible refine .iteR ?_ ?_
  exact .refl _
  with_reducible refine .upd ?_
  exact .refl _
  with_reducible refine .iteSnd ?_ ?_
  dsimp only
  with_reducible refine .trans ?_ ((State.source_touches ..).mono rfl)
  with_reducible refine .trans ?_ ((State.addSat_touches ..).mono rfl)
  with_reducible refine .iteR ?_ ?_
  exact .refl _
  with_reducible refine .upd ?_
  exact .refl _
  with_reducible refine .iteSnd ?_ ?_
  dsimp only
  with_reducible refine .iteR ?_ ?_
  exact .refl _
  with_reducible refine .upd ?_
  exact .refl _
  with_reducible refine .iteSnd ?_ ?_
  with_reducible refine .trans ?_ ((State.modeCommand_touches ..).mono rfl)
  with_reducible refine .iteR ?_ ?_
  exact .refl _
  with_reducible refine .upd ?_
  exact .refl _
  with_reducible refine .trans ?_ ((State.tamperCommand_touches ..).mono rfl)
  with_reducible refine .iteR ?_ ?_
  exact .refl _
  with_reducible refine .upd ?_
  exact .refl _

theorem State.auxReason_touches (s : State) (r : Nat) : Touches 564049465049089 s (State.auxReason s r) := by
  unfold State.auxReason
  with_reducible exact .upd (.after ((State.put_touches ..).mono rfl) (.after ((State.put_touches ..).mono rfl) (.refl _)))

theorem State.runBurst_touches (s : State) (r : AuxRun) (codes : List Int) : Touches 634418209226753 s (State.runBurst s r codes) := by
  unfold State.runBurst
  split
  exact .refl _
  with_reducible refine .ite ?_ ?_
  with_reducible refine .upd ?_
  with_reducible refine .trans ?_ ((State.updConv_touches ..).mono rfl)
  exact .refl _
  with_reducible refine .ite ?_ ?_
  with_reducible refine .trans ?_ ((State.auxReason_touches ..).mono rfl)
  with_reducible refine .trans ?_ ((State.put_touches ..).mono rfl)
  with_reducible refine .trans ?_ ((State.put_touches ..).mono rfl)
  with_reducible refine .trans ?_ ((State.put_touches ..).mono rfl)
  with_reducible refine .upd ?_
  with_reducible refine .trans ?_ ((State.updConv_touches ..).mono rfl)
  exact .refl _
  with_reducible refine .trans ?_ ((State.auxReason_touches ..).mono rfl)
  with_reducible refine .trans ?_ ((State.put_touches ..).mono rfl)
  with_reducible refine .upd ?_
  with_reducible refine .trans ?_ ((State.put_touches ..).mono rfl)
  with_reducible refine .trans ?_ ((State.put_touches ..).mono rfl)
  with_reducible refine .trans ?_ ((State.put_touches ..).mono rfl)
  with_reducible refine .upd ?_
  with_reducible refine .trans ?_ ((State.updConv_touches ..).mono rfl)
  exact .refl _

theorem State.raise_touches (s : State) (k : Nat) (v : Nat) : Touches 1099511627777 s (State.raise s k v) := by
  unfold State.raise
  with_reducible exact .iteR (.refl _) (.after ((State.put_touches ..).mono rfl) (.refl _))

theorem State.setCouple_touches (s : State) (c : Fin 4) (logical : Nat) (st : Nat) (noSpare : Bool) : Touches 1 s (State.setCouple s c
  logical st noSpare) := by
  unfold State.setCouple
  with_reducible exact .after ((State.setN_touches ..).mono rfl) (.refl _)

theorem State.noSpareLeft_touches (s : State) : Touches 1 s (State.noSpareLeft s) := by
  unfold State.noSpareLeft
  with_reducible exact .after (forEach_touches (hf := fun _ _ => .iteR (.refl _) (.after ((State.setCouple_touches ..).mono rfl)
    (.refl _))) ..) (.refl _)

theorem State.coupleWorn_touches (s : State) (a : Fin 8) : Touches 3758096385 s (State.coupleWorn s a) := by
  unfold State.coupleWorn
  dsimp only
  split
  with_reducible refine .trans ?_ ((State.health_touches ..).mono rfl)
  with_reducible refine .trans ?_ ((State.noSpareLeft_touches ..).mono rfl)
  with_reducible refine .trans ?_ ((State.setCouple_touches ..).mono rfl)
  exact .refl _
  with_reducible refine .trans ?_ ((State.health_touches ..).mono rfl)
  with_reducible refine .trans ?_ ((State.setCouple_touches ..).mono rfl)
  exact .refl _
  exact .refl _

theorem State.checkConv_touches (s : State) (a : Fin 8) : Touches 71472013901825 s (State.checkConv s a) := by
  unfold State.checkConv
  split
  exact .refl _
  with_reducible refine .iteR ?_ ?_
  with_reducible refine .trans ?_ ((State.updConv_touches ..).mono rfl)
  with_reducible refine .trans ?_ ((State.raise_touches ..).mono rfl)
  exact .refl _
  with_reducible refine .iteR ?_ ?_
  with_reducible refine .trans ?_ ((State.addSat_touches ..).mono rfl)
  exact .refl _
  with_reducible refine .trans ?_ ((State.coupleWorn_touches ..).mono rfl)
  exact .refl _

theorem State.checkCouple_touches (s : State) (c : Fin 4) : Touches 71472013901825 s (State.checkCouple s c) := by
  unfold State.checkCouple
  with_reducible exact .iteL (.refl _) (.after ((State.checkConv_touches ..).mono rfl) (.after ((State.checkConv_touches ..).mono rfl)
    (.refl _)))

theorem State.serveCouple_touches (s : State) (l : Fin 3) : Touches 634421967323137 s (State.serveCouple s l) := by
  unfold State.serveCouple
  with_reducible refine .iteL ?_ ?_
  exact .refl _
  with_reducible refine .iteL ?_ ?_
  split
  with_reducible refine .iteL ?_ ?_
  exact .refl _
  with_reducible refine .trans ?_ (forEach_touches (hf := ?_) ..)
  exact .refl _
  intro _
  intro _
  split
  with_reducible refine .trans ?_ ((State.runBurst_touches ..).mono rfl)
  exact .refl _
  exact .refl _
  exact .refl _
  with_reducible refine .trans ?_ ((State.checkCouple_touches ..).mono rfl)
  exact .refl _

theorem State.startConvs_touches (s : State) (st : List (Fin 8 × Nat)) (both : Bool) : Touches 70368744177664 s (State.startConvs s st
  both) := by
  unfold State.startConvs
  with_reducible refine .ite ?_ ?_
  with_reducible refine .trans ?_ (forEach_touches (hf := ?_) ..)
  exact .refl _
  intro _
  intro _
  with_reducible refine .trans ?_ ((State.updConv_touches ..).mono rfl)
  exact .refl _
  with_reducible refine .trans ?_ (forEach_touches (hf := ?_) ..)
  exact .refl _
  intro _
  intro _
  with_reducible refine .trans ?_ ((State.acquire_touches ..).mono rfl)
  exact .refl _

theorem State.updCouple_touches (s : State) (l : Fin 3) (f : Couple → Couple) : Touches 140737488355328 s (State.updCouple s l f) := by
  unfold State.updCouple
  with_reducible exact .upd (.refl _)

theorem State.injectStart_touches (s : State) (l : Fin 3) : Touches 212205744160769 s (State.injectStart s l) := by
  unfold State.injectStart
  with_reducible exact .iteL (.refl _) (.iteL (.after ((State.startConvs_touches ..).mono rfl) (.refl _)) (.after
    ((State.put_touches ..).mono rfl) (.after ((State.updCouple_touches ..).mono rfl) (.refl _))))

theorem State.coupleHandover_touches (s : State) (l : Fin 3) : Touches 562958006484993 s (State.coupleHandover s l) := by
  unfold State.coupleHandover
  with_reducible exact .iteR (.refl _) (.after ((State.recordDevice_touches ..).mono rfl) (.upd (.after
    ((State.noSpareLeft_touches ..).mono rfl) (.after ((State.health_touches ..).mono rfl) (.after ((State.setN_touches ..).mono rfl)
    (.after ((State.setCouple_touches ..).mono rfl) (.after ((State.setCouple_touches ..).mono rfl) (.refl _))))))))

theorem State.tableStart_touches (s : State) (l : Fin 3) : Touches 774064239017985 s (State.tableStart s l) := by
  unfold State.tableStart
  with_reducible exact .iteL (.refl _) (.iteL (.refl _) (.iteL (.after ((State.startConvs_touches ..).mono rfl) (.iteR (.refl _) (.after
    ((State.coupleHandover_touches ..).mono rfl) (.refl _)))) (.after ((State.updCouple_touches ..).mono rfl) (.refl _))))

theorem State.kick_touches (s : State) (l : Fin 3) : Touches 775163750645761 s (State.kick s l) := by
  unfold State.kick
  with_reducible refine .ite ?_ ?_
  with_reducible refine .trans ?_ ((State.injectStart_touches ..).mono rfl)
  with_reducible refine .trans ?_ ((State.serveCouple_touches ..).mono rfl)
  exact .refl _
  with_reducible refine .iteL ?_ ?_
  with_reducible refine .trans ?_ ((State.serveCouple_touches ..).mono rfl)
  exact .refl _
  with_reducible refine .trans ?_ ((State.tableStart_touches ..).mono rfl)
  exact .refl _

theorem State.auxBurst_touches (s : State) (codes : List Int) : Touches 775163750645761 s (State.auxBurst s codes) := by
  unfold State.auxBurst
  split
  with_reducible refine .iteR ?_ ?_
  exact .refl _
  with_reducible refine .trans ?_ ((State.kick_touches ..).mono rfl)
  with_reducible refine .upd ?_
  exact .refl _
  exact .refl _

theorem State.auxCommand_touches (s : State) (w : Nat) : Touches 564053760016385 s (State.auxCommand s w).1 := by
  unfold State.auxCommand
  with_reducible refine .iteFst ?_ ?_
  dsimp only
  exact .refl _
  split
  with_reducible refine .iteFst ?_ ?_
  dsimp only
  with_reducible refine .trans ?_ ((State.put_touches ..).mono rfl)
  exact .refl _
  dsimp only
  with_reducible refine .trans ?_ ((State.put_touches ..).mono rfl)
  with_reducible refine .trans ?_ ((State.put_touches ..).mono rfl)
  with_reducible refine .trans ?_ ((State.put_touches ..).mono rfl)
  with_reducible refine .upd ?_
  exact .refl _
  dsimp only
  with_reducible refine .trans ?_ ((State.auxAbort_touches ..).mono rfl)
  exact .refl _
  with_reducible refine .iteFst ?_ ?_
  dsimp only
  exact .refl _
  dsimp only
  with_reducible refine .trans ?_ ((State.put_touches ..).mono rfl)
  with_reducible refine .upd ?_
  exact .refl _
  with_reducible refine .iteFst ?_ ?_
  dsimp only
  exact .refl _
  with_reducible refine .iteFst ?_ ?_
  dsimp only
  with_reducible refine .trans ?_ ((State.auxReason_touches ..).mono rfl)
  exact .refl _
  dsimp only
  with_reducible refine .trans ?_ ((State.put_touches ..).mono rfl)
  with_reducible refine .upd ?_
  exact .refl _
  with_reducible refine .iteFst ?_ ?_
  dsimp only
  exact .refl _
  split
  dsimp only
  with_reducible refine .trans ?_ ((State.auxReason_touches ..).mono rfl)
  exact .refl _
  with_reducible refine .iteFst ?_ ?_
  dsimp only
  with_reducible refine .trans ?_ ((State.auxReason_touches ..).mono rfl)
  exact .refl _
  dsimp only
  with_reducible refine .trans ?_ ((State.queueUnit_touches ..).mono rfl)
  with_reducible refine .upd ?_
  exact .refl _
  dsimp only
  exact .refl _

theorem State.auxCommitted_touches (s : State) : Touches 564049465049089 s (State.auxCommitted s) := by
  unfold State.auxCommitted
  with_reducible exact .after ((State.put_touches ..).mono rfl) (.after ((State.put_touches ..).mono rfl) (.after
    ((State.put_touches ..).mono rfl) (.upd (.refl _))))

theorem State.beginResult_touches (s : State) (l : Fin 3) : Touches 775163750645761 s (State.beginResult s l) := by
  unfold State.beginResult
  with_reducible exact .after ((State.kick_touches ..).mono rfl) (.after ((State.updCouple_touches ..).mono rfl) (.refl _))

theorem State.nextResult_touches (s : State) (l : Fin 3) (fuel : Nat) (delayed : Bool) : Touches 775163750645761 s (State.nextResult s l
  fuel delayed) := by
  induction fuel generalizing s delayed with
  | zero => exact (State.updCouple_touches ..).mono rfl
  | succ f ih =>
    unfold State.nextResult
    with_reducible exact .ite ((State.updCouple_touches ..).mono rfl) (.ite (.after (ih ..) ((State.updCouple_touches ..).mono rfl))
      (.ite ((State.updCouple_touches ..).mono rfl) (State.beginResult_touches ..)))

theorem State.passStart_touches (s : State) (l : Fin 3) : Touches 775163750645761 s (State.passStart s l) := by
  unfold State.passStart
  with_reducible refine .iteR ?_ ?_
  with_reducible refine .trans ?_ ((State.nextResult_touches ..).mono rfl)
  with_reducible refine .trans ?_ ((State.updCouple_touches ..).mono rfl)
  exact .refl _
  with_reducible refine .iteR ?_ ?_
  with_reducible refine .trans ?_ ((State.updCouple_touches ..).mono rfl)
  exact .refl _
  with_reducible refine .trans ?_ ((State.put_touches ..).mono rfl)
  exact .refl _

theorem State.passEnd_touches (s : State) (l : Fin 3) : Touches 775163750645761 s (State.passEnd s l) := by
  unfold State.passEnd
  with_reducible refine .iteL ?_ ?_
  with_reducible refine .trans ?_ ((State.updCouple_touches ..).mono rfl)
  exact .refl _
  split
  with_reducible refine .trans ?_ ((State.passStart_touches ..).mono rfl)
  exact .refl _
  with_reducible refine .iteR ?_ ?_
  exact .refl _
  with_reducible refine .trans ?_ ((State.passStart_touches ..).mono rfl)
  exact .refl _
  with_reducible refine .ite ?_ ?_
  with_reducible refine .trans ?_ ((State.passStart_touches ..).mono rfl)
  with_reducible refine .trans ?_ ((State.updCouple_touches ..).mono rfl)
  exact .refl _
  with_reducible refine .trans ?_ ((State.put_touches ..).mono rfl)
  exact .refl _
  exact .refl _

theorem State.auxDelayEnd_touches (s : State) (l : Fin 3) : Touches 775163750645761 s (State.auxDelayEnd s l) := by
  unfold State.auxDelayEnd
  with_reducible exact .iteR (.refl _) (.ite (.after ((State.updCouple_touches ..).mono rfl) (.refl _)) (.iteR (.after
    ((State.nextResult_touches ..).mono rfl) (.refl _)) (.after ((State.passEnd_touches ..).mono rfl) (.refl _))))

theorem State.auxLook_touches (s : State) : Touches 775163750645761 s (State.auxLook s) := by
  unfold State.auxLook
  with_reducible exact .after (forEach_touches (hf := fun _ _ => .iteR (.refl _) (.after ((State.passStart_touches ..).mono rfl)
    (.refl _))) ..) (.refl _)

theorem State.auxPassStart_touches (s : State) (l : Fin 3) : Touches 775163750645761 s (State.auxPassStart s l) := by
  unfold State.auxPassStart
  with_reducible exact .iteL (.refl _) (.ite (.after ((State.passStart_touches ..).mono rfl) (.refl _)) (.iteL (.refl _) (.after
    ((State.addSat_touches ..).mono rfl) (.after ((State.updCouple_touches ..).mono rfl) (.refl _)))))

theorem State.auxPowerFail_touches (s : State) : Touches 775163750645761 s (State.auxPowerFail s) := by
  unfold State.auxPowerFail
  with_reducible exact .after (forEach_touches (hf := fun _ _ => .after ((State.kick_touches ..).mono rfl) (.refl _)) ..) (.after
    (forEach_touches (hf := fun _ _ => .iteR (.refl _) (.after ((State.put_touches ..).mono rfl) (.refl _))) ..) (.after (forEach_touches
    (hf := fun _ _ => .after ((State.updConv_touches ..).mono rfl) (.refl _)) ..) (.after ((State.auxAbort_touches ..).mono rfl)
    (.refl _))))

theorem State.auxRecall_touches (s : State) : Touches 775163750645761 s (State.auxRecall s) := by
  unfold State.auxRecall
  with_reducible refine .trans ?_ (forEach_touches (hf := ?_) ..)
  exact .refl _
  intro _
  intro _
  dsimp only
  split
  with_reducible refine .trans ?_ ((State.updCouple_touches ..).mono rfl)
  exact .refl _
  with_reducible refine .trans ?_ ((State.setN_touches ..).mono rfl)
  with_reducible refine .trans ?_ ((State.updCouple_touches ..).mono rfl)
  exact .refl _
  with_reducible refine .trans ?_ ((State.passStart_touches ..).mono rfl)
  with_reducible refine .trans ?_ ((State.updCouple_touches ..).mono rfl)
  exact .refl _

theorem State.auxWrite_touches (s : State) (v : Nat) (ok : Bool) : Touches 564053760016385 s (State.auxWrite s v ok).2 := by
  unfold State.auxWrite
  with_reducible refine .iteSnd ?_ ?_
  dsimp only
  exact .refl _
  with_reducible refine .iteSnd ?_ ?_
  dsimp only
  with_reducible refine .trans ?_ ((State.auxCommand_touches ..).mono rfl)
  exact .refl _
  with_reducible refine .iteSnd ?_ ?_
  dsimp only
  with_reducible refine .trans ?_ ((State.auxCommand_touches ..).mono rfl)
  exact .refl _
  dsimp only
  exact .refl _

theorem State.clearBand_touches (s : State) : Touches 288230376151711744 s (State.clearBand s) := by
  unfold State.clearBand
  with_reducible refine .iteR ?_ ?_
  exact .refl _
  split
  with_reducible refine .trans ?_ ((State.pumpOn_touches ..).mono rfl)
  with_reducible refine .upd ?_
  exact .refl _
  exact .refl _

theorem State.writeInput_touches (s : State) (at' : Nat) (input : Nat) (x : AuxSum) (avg : Nat) (shift : Nat) (degraded : Bool) : Touches
  282574488338433 s (State.writeInput s at' input x avg shift degraded) := by
  unfold State.writeInput
  with_reducible refine .trans ?_ ((State.setQ_touches ..).mono rfl)
  with_reducible refine .trans ?_ ((State.setQ_touches ..).mono rfl)
  split
  with_reducible refine .upd ?_
  with_reducible refine .trans ?_ ((State.setQ_touches ..).mono rfl)
  with_reducible refine .trans ?_ ((State.setQ_touches ..).mono rfl)
  exact .refl _
  with_reducible refine .trans ?_ ((State.setQ_touches ..).mono rfl)
  with_reducible refine .trans ?_ ((State.setQ_touches ..).mono rfl)
  exact .refl _

theorem State.writeInjection_touches (s : State) (l : Fin 3) : Touches 423311976693761 s (State.writeInjection s l) := by
  unfold State.writeInjection
  with_reducible exact .iteL (.refl _) (.after ((State.updCouple_touches ..).mono rfl) (.after ((State.writeInput_touches ..).mono rfl)
    (.after ((State.setQ_touches ..).mono rfl) (.after ((State.setQ_touches ..).mono rfl) (.after ((State.setQ_touches ..).mono rfl)
    (.refl _))))))

theorem State.writeResult_touches (s : State) (l : Fin 3) : Touches 1056638727356417 s (State.writeResult s l) := by
  unfold State.writeResult
  split
  exact .refl _
  with_reducible refine .iteR ?_ ?_
  with_reducible refine .trans ?_ ((State.updCouple_touches ..).mono rfl)
  with_reducible refine .iteR ?_ ?_
  with_reducible refine .trans ?_ ((State.writeInput_touches ..).mono rfl)
  with_reducible refine .trans ?_ ((State.setQ_touches ..).mono rfl)
  with_reducible refine .iteR ?_ ?_
  with_reducible refine .trans ?_ ((State.setQ_touches ..).mono rfl)
  exact .refl _
  with_reducible refine .trans ?_ ((State.setQ_touches ..).mono rfl)
  exact .refl _
  with_reducible refine .trans ?_ ((State.writeInput_touches ..).mono rfl)
  exact .refl _
  with_reducible refine .trans ?_ ((State.passEnd_touches ..).mono rfl)
  exact .refl _

theorem State.auxWritten_touches (s : State) (l : Fin 3) (injection : Bool) : Touches 289287014879068161 s (State.auxWritten s l injection) := by
  unfold State.auxWritten
  with_reducible exact .after ((State.clearBand_touches ..).mono rfl) (.ite (.after ((State.writeInjection_touches ..).mono rfl) (.refl _))
    (.after ((State.writeResult_touches ..).mono rfl) (.refl _)))

theorem State.background_touches (s : State) (b : Fin 5) : Touches 1125899906842624 s (State.background s b) := by
  unfold State.background
  with_reducible exact .after ((State.updBank_touches ..).mono rfl) (.refl _)

theorem State.backupReset_touches (s : State) : Touches 2882303761517125889 s (State.backupReset s) := by
  unfold State.backupReset
  split
  with_reducible refine .trans ?_ (forEach_touches (hf := ?_) ..)
  with_reducible refine .trans ?_ ((State.setN_touches ..).mono rfl)
  with_reducible refine .upd ?_
  exact .refl _
  intro _
  intro _
  with_reducible refine .trans ?_ ((State.updSrc_touches ..).mono rfl)
  exact .refl _
  exact .refl _

theorem State.bandTimeout_touches (s : State) : Touches 288231475663339521 s (State.bandTimeout s) := by
  unfold State.bandTimeout
  with_reducible exact .iteR (.refl _) (.after ((State.pumpOn_touches ..).mono rfl) (.upd (.after ((State.addSat_touches ..).mono rfl)
    (.refl _))))

theorem State.lastError_touches (s : State) (b : Fin 5) (kind : Nat) (sym : Nat) (master : Nat) (region : Nat) (word : Nat) : Touches 1 s
  (State.lastError s b kind sym master region word) := by
  unfold State.lastError
  with_reducible exact .after ((State.setN_touches ..).mono rfl) (.after ((State.setN_touches ..).mono rfl) (.refl _))

theorem State.setWord_touches (s : State) (a : Nat) (w : Nat) : Touches 9007199254740992 s (State.setWord s a w) := by
  unfold State.setWord
  with_reducible exact .upd (.refl _)

theorem State.copyRegion_touches (s : State) (b : Nat) (r : Fin 16) (b' : Nat) (r' : Fin 16) : Touches 9007199254740992 s (State.copyRegion
  s b r b' r') := by
  unfold State.copyRegion
  with_reducible exact .after (forEach_touches (hf := fun _ _ => .after ((State.setWord_touches ..).mono rfl) (.refl _)) ..) (.refl _)

theorem State.startBankSub_touches (s : State) (b : Fin 5) : Touches 16888498602639360 s (State.startBankSub s b) := by
  unfold State.startBankSub
  with_reducible exact .upd (.ite (.upd (.after ((State.updBank_touches ..).mono rfl) (.after ((State.updBank_touches ..).mono rfl) (.iteR
    (.refl _) (.after ((State.copyRegion_touches ..).mono rfl) (.refl _)))))) (.upd (.after ((State.updBank_touches ..).mono rfl) (.after
    ((State.updBank_touches ..).mono rfl) (.iteR (.refl _) (.after ((State.copyRegion_touches ..).mono rfl) (.refl _)))))))

theorem State.bankWorn_touches (s : State) (b : Fin 5) : Touches 16888502360735745 s (State.bankWorn s b) := by
  unfold State.bankWorn
  dsimp only
  split
  with_reducible refine .ite ?_ ?_
  with_reducible refine .trans ?_ ((State.health_touches ..).mono rfl)
  with_reducible refine .trans ?_ ((State.startBankSub_touches ..).mono rfl)
  exact .refl _
  with_reducible refine .trans ?_ ((State.health_touches ..).mono rfl)
  with_reducible refine .trans ?_ ((State.updBank_touches ..).mono rfl)
  exact .refl _
  with_reducible refine .trans ?_ ((State.health_touches ..).mono rfl)
  with_reducible refine .trans ?_ ((State.setN_touches ..).mono rfl)
  with_reducible refine .trans ?_ ((State.updBank_touches ..).mono rfl)
  split
  with_reducible refine .upd ?_
  split
  with_reducible refine .trans ?_ ((State.updBank_touches ..).mono rfl)
  exact .refl _
  exact .refl _
  with_reducible refine .upd ?_
  split
  with_reducible refine .trans ?_ ((State.updBank_touches ..).mono rfl)
  exact .refl _
  exact .refl _
  with_reducible refine .upd ?_
  split
  with_reducible refine .trans ?_ ((State.updBank_touches ..).mono rfl)
  exact .refl _
  exact .refl _
  with_reducible refine .trans ?_ ((State.health_touches ..).mono rfl)
  with_reducible refine .trans ?_ ((State.setN_touches ..).mono rfl)
  with_reducible refine .trans ?_ ((State.updBank_touches ..).mono rfl)
  split
  with_reducible refine .upd ?_
  split
  with_reducible refine .trans ?_ ((State.updBank_touches ..).mono rfl)
  exact .refl _
  exact .refl _
  with_reducible refine .upd ?_
  split
  with_reducible refine .trans ?_ ((State.updBank_touches ..).mono rfl)
  exact .refl _
  exact .refl _
  with_reducible refine .upd ?_
  split
  with_reducible refine .trans ?_ ((State.updBank_touches ..).mono rfl)
  exact .refl _
  exact .refl _
  exact .refl _

theorem State.symCorrection_touches (s : State) (b : Fin 5) (addr : Nat) (sym : Nat) : Touches 16888502360735745 s (State.symCorrection s b
  addr sym) := by
  unfold State.symCorrection
  with_reducible exact .iteR (.after ((State.updBank_touches ..).mono rfl) (.refl _)) (.after ((State.bankWorn_touches ..).mono rfl)
    (.refl _))

theorem State.symOne_touches (s : State) (b : Fin 5) (r : Nat) (w : Nat) (sym : Nat) (master : Nat) (injected : Bool) : Touches
  16889601872363521 s (State.symOne s b r w sym master injected) := by
  unfold State.symOne
  with_reducible exact .iteL (.after ((State.updBank_touches ..).mono rfl) (.after ((State.lastError_touches ..).mono rfl) (.after
    ((State.addSat_touches ..).mono rfl) (.refl _)))) (.after ((State.symCorrection_touches ..).mono rfl) (.refl _))

theorem State.banksWorn_touches (s : State) (bs : List (Fin 5)) : Touches 16888502360735745 s (State.banksWorn s bs) := by
  unfold State.banksWorn
  with_reducible exact .after (forEach_touches (hf := fun _ _ => .after ((State.bankWorn_touches ..).mono rfl) (.refl _)) ..) (.refl _)

theorem State.integrity_touches (s : State) (cause : Nat) (detail : Nat) (idx : Nat) : Touches 1107564732513 s (State.integrity s cause
  detail idx) := by
  unfold State.integrity
  with_reducible exact .after ((State.toLockdown_touches ..).mono rfl) (.upd (.after ((State.health_touches ..).mono rfl) (.after
    ((State.addSat_touches ..).mono rfl) (.after ((State.setN_touches ..).mono rfl) (.after ((State.setN_touches ..).mono rfl) (.after
    ((State.setN_touches ..).mono rfl) (.refl _)))))))

theorem State.loseWindow_touches (s : State) (p : Fin 8) (c : Fin 7) : Touches 16777216 s (State.loseWindow s p c) := by
  unfold State.loseWindow
  with_reducible exact .after ((State.updPoint_touches ..).mono rfl) (.refl _)

theorem State.updThb_touches (s : State) (k : Fin 4) (f : ThbPort → ThbPort) : Touches 1152921504606846976 s (State.updThb s k f) := by
  unfold State.updThb
  with_reducible exact .upd (.refl _)

theorem State.lockLost_touches (s : State) : Touches 1099511627777 s (State.lockLost s) := by
  unfold State.lockLost
  with_reducible exact .iteR (.refl _) (.after ((State.addSat_touches ..).mono rfl) (.refl _))

theorem State.refreshMembers_touches (s : State) : Touches 1 s (State.refreshMembers s) := by
  unfold State.refreshMembers
  with_reducible exact .ite (.after ((State.setN_touches ..).mono rfl) (.after ((State.setN_touches ..).mono rfl) (.after
    ((State.setN_touches ..).mono rfl) (.after ((State.setN_touches ..).mono rfl) (.refl _))))) (.after ((State.setN_touches ..).mono rfl)
    (.after ((State.setN_touches ..).mono rfl) (.after ((State.setN_touches ..).mono rfl) (.after ((State.setN_touches ..).mono rfl)
    (.refl _)))))

theorem State.upstreamLost_touches (s : State) : Touches 1152922604118474753 s (State.upstreamLost s) := by
  unfold State.upstreamLost
  with_reducible exact .iteL (.refl _) (.after ((State.refreshMembers_touches ..).mono rfl) (.upd (.after ((State.setN_touches ..).mono
    rfl) (.after ((State.setN_touches ..).mono rfl) (.after ((State.setN_touches ..).mono rfl) (.after ((State.lockLost_touches ..).mono
    rfl) (.refl _)))))))

theorem State.sendRaw_touches (s : State) (k : Fin 4) (type : Nat) (payload : List Byte) : Touches 1152921504606846976 s (State.sendRaw s k
  type payload) := by
  unfold State.sendRaw
  with_reducible exact .after ((State.updThb_touches ..).mono rfl) (.refl _)

theorem State.sendFrame_touches (s : State) (k : Fin 4) (type : Nat) (payload : List Byte) : Touches 1152921504606846976 s (State.sendFrame
  s k type payload) := by
  unfold State.sendFrame
  with_reducible exact .iteL (.refl _) (.after ((State.sendRaw_touches ..).mono rfl) (.refl _))

theorem State.sendCensus_touches (s : State) : Touches 1152921504606846976 s (State.sendCensus s) := by
  unfold State.sendCensus
  with_reducible exact .after ((State.sendFrame_touches ..).mono rfl) (.refl _)

theorem State.resendCensus_touches (s : State) : Touches 1152921504606846976 s (State.resendCensus s) := by
  unfold State.resendCensus
  with_reducible exact .iteR (.refl _) (.after ((State.sendCensus_touches ..).mono rfl) (.refl _))

theorem State.childLost_touches (s : State) (k : Fin 4) : Touches 1152921504606846977 s (State.childLost s k) := by
  unfold State.childLost
  with_reducible exact .iteR (.refl _) (.after ((State.resendCensus_touches ..).mono rfl) (.after ((State.refreshMembers_touches ..).mono
    rfl) (.after ((State.updThb_touches ..).mono rfl) (.refl _))))

theorem State.linkDown_touches (s : State) (k : Fin 4) (reason : Nat) : Touches 1152922604118474753 s (State.linkDown s k reason) := by
  unfold State.linkDown
  with_reducible exact .iteL (.refl _) (.ite (.after ((State.upstreamLost_touches ..).mono rfl) (.after ((State.updThb_touches ..).mono
    rfl) (.iteR (.refl _) (.after ((State.addSat_touches ..).mono rfl) (.refl _))))) (.after ((State.childLost_touches ..).mono rfl)
    (.after ((State.updThb_touches ..).mono rfl) (.iteR (.refl _) (.after ((State.addSat_touches ..).mono rfl) (.refl _))))))

theorem State.discard_touches (s : State) (k : Fin 4) : Touches 1152922604118474753 s (State.discard s k) := by
  unfold State.discard
  with_reducible exact .iteR (.after ((State.updThb_touches ..).mono rfl) (.refl _)) (.after ((State.linkDown_touches ..).mono rfl)
    (.refl _))

theorem State.corruptedFrame_touches (s : State) (k : Fin 4) : Touches 1152922604118474753 s (State.corruptedFrame s k) := by
  unfold State.corruptedFrame
  with_reducible exact .iteL (.refl _) (.after ((State.discard_touches ..).mono rfl) (.after ((State.addSat_touches ..).mono rfl)
    (.refl _)))

theorem State.wordLost_touches (s : State) (cls : WordClass) : Touches 1152922814051778561 s (State.wordLost s cls) := by
  unfold State.wordLost
  split
  exact .refl _
  exact .refl _
  with_reducible refine .trans ?_ ((State.loseWindow_touches ..).mono rfl)
  exact .refl _
  with_reducible refine .trans ?_ ((State.loseWindow_touches ..).mono rfl)
  exact .refl _
  exact .refl _
  with_reducible refine .trans ?_ ((State.answerBuffer_touches ..).mono rfl)
  exact .refl _
  with_reducible refine .trans ?_ ((State.corruptedFrame_touches ..).mono rfl)
  exact .refl _
  split
  with_reducible refine .trans ?_ ((State.health_touches ..).mono rfl)
  exact .refl _
  exact .refl _

theorem State.uncorrectable_touches (s : State) (la : Nat) (b : Fin 5) (r : Fin 16) (w : Fin 512) (master : Nat) (injected : Bool) (twin :
  SymErr) : Touches 1169811316949426273 s (State.uncorrectable s la b r w master injected twin) := by
  unfold State.uncorrectable
  with_reducible refine .ite ?_ ?_
  dsimp only
  split
  with_reducible refine .trans ?_ ((State.banksWorn_touches ..).mono rfl)
  with_reducible refine .trans ?_ ((State.integrity_touches ..).mono rfl)
  with_reducible refine .trans ?_ ((State.lastError_touches ..).mono rfl)
  with_reducible refine .trans ?_ ((State.addSat_touches ..).mono rfl)
  with_reducible refine .trans ?_ ((State.lastError_touches ..).mono rfl)
  with_reducible refine .trans ?_ ((State.addSat_touches ..).mono rfl)
  exact .refl _
  with_reducible refine .trans ?_ ((State.banksWorn_touches ..).mono rfl)
  with_reducible refine .trans ?_ ((State.setWord_touches ..).mono rfl)
  with_reducible refine .trans ?_ ((State.lastError_touches ..).mono rfl)
  split
  with_reducible refine .trans ?_ ((State.symOne_touches ..).mono rfl)
  with_reducible refine .trans ?_ ((State.addSat_touches ..).mono rfl)
  exact .refl _
  with_reducible refine .trans ?_ ((State.addSat_touches ..).mono rfl)
  exact .refl _
  with_reducible refine .trans ?_ ((State.banksWorn_touches ..).mono rfl)
  with_reducible refine .trans ?_ ((State.wordLost_touches ..).mono rfl)
  with_reducible refine .trans ?_ ((State.lastError_touches ..).mono rfl)
  with_reducible refine .trans ?_ ((State.addSat_touches ..).mono rfl)
  exact .refl _

theorem State.decodeWord_touches (s : State) (la : Nat) (b : Fin 5) (r : Fin 16) (w : Fin 512) (master : Nat) (inj : Nat) (err : SymErr)
  (twin : SymErr) : Touches 1169811316949426273 s (State.decodeWord s la b r w master inj err twin) := by
  unfold State.decodeWord
  split
  with_reducible refine .iteL ?_ ?_
  exact .refl _
  with_reducible refine .ite ?_ ?_
  with_reducible refine .trans ?_ ((State.symOne_touches ..).mono rfl)
  exact .refl _
  with_reducible refine .trans ?_ ((State.uncorrectable_touches ..).mono rfl)
  exact .refl _
  with_reducible refine .ite ?_ ?_
  with_reducible refine .trans ?_ ((State.symOne_touches ..).mono rfl)
  exact .refl _
  with_reducible refine .trans ?_ ((State.uncorrectable_touches ..).mono rfl)
  exact .refl _
  with_reducible refine .trans ?_ ((State.uncorrectable_touches ..).mono rfl)
  exact .refl _

theorem State.copyErrors_touches (s : State) (l : Fin 4) (lr : Fin 16) (b : Fin 5) (r : Fin 16) (errs : List CopyErr) : Touches
  1169811316949426273 s (State.copyErrors s l lr b r errs) := by
  unfold State.copyErrors
  with_reducible exact .after (forEach_touches (hf := fun _ _ => .after ((State.decodeWord_touches ..).mono rfl) (.refl _)) ..) (.refl _)

theorem State.finishBankSub_touches (s : State) (sub : BankSub) : Touches 5629507587276801 s (State.finishBankSub s sub) := by
  unfold State.finishBankSub
  with_reducible exact .after ((State.recordDevice_touches ..).mono rfl) (.after ((State.health_touches ..).mono rfl) (.after
    ((State.setN_touches ..).mono rfl) (.after ((State.setN_touches ..).mono rfl) (.after ((State.setN_touches ..).mono rfl) (.after
    ((State.setN_touches ..).mono rfl) (.after ((State.setN_touches ..).mono rfl) (.upd (.after ((State.updBank_touches ..).mono rfl)
    (.after ((State.updBank_touches ..).mono rfl) (.refl _))))))))))

theorem State.bankRegionDone_touches (s : State) (r : Fin 16) (errs : List CopyErr) : Touches 1169811316949426273 s (State.bankRegionDone s
  r errs) := by
  unfold State.bankRegionDone
  split
  with_reducible refine .iteL ?_ ?_
  exact .refl _
  dsimp only
  split
  with_reducible refine .ite ?_ ?_
  with_reducible refine .upd ?_
  with_reducible refine .trans ?_ ((State.copyRegion_touches ..).mono rfl)
  with_reducible refine .trans ?_ ((State.copyErrors_touches ..).mono rfl)
  with_reducible refine .trans ?_ ((State.background_touches ..).mono rfl)
  with_reducible refine .trans ?_ ((State.background_touches ..).mono rfl)
  exact .refl _
  with_reducible refine .trans ?_ ((State.finishBankSub_touches ..).mono rfl)
  with_reducible refine .trans ?_ ((State.copyRegion_touches ..).mono rfl)
  with_reducible refine .trans ?_ ((State.copyErrors_touches ..).mono rfl)
  with_reducible refine .trans ?_ ((State.background_touches ..).mono rfl)
  with_reducible refine .trans ?_ ((State.background_touches ..).mono rfl)
  exact .refl _
  with_reducible refine .trans ?_ ((State.copyErrors_touches ..).mono rfl)
  with_reducible refine .trans ?_ ((State.background_touches ..).mono rfl)
  with_reducible refine .trans ?_ ((State.background_touches ..).mono rfl)
  exact .refl _
  exact .refl _

theorem State.banksInterval_touches (s : State) : Touches 1125899906842624 s (State.banksInterval s) := by
  unfold State.banksInterval
  with_reducible exact .after (forEach_touches (hf := fun _ _ => .after ((State.updBank_touches ..).mono rfl) (.refl _)) ..) (.refl _)

theorem State.banksRecall_touches (s : State) : Touches 34902905165185025 s (State.banksRecall s) := by
  unfold State.banksRecall
  with_reducible refine .trans ?_ ((State.setN_touches ..).mono rfl)
  with_reducible refine .upd ?_
  with_reducible refine .upd ?_
  with_reducible refine .trans ?_ (forEach_touches (hf := ?_) ..)
  with_reducible refine .upd ?_
  split
  with_reducible refine .iteR ?_ ?_
  exact .refl _
  with_reducible refine .trans ?_ ((State.finishBankSub_touches ..).mono rfl)
  exact .refl _
  exact .refl _
  intro _
  intro _
  with_reducible refine .trans ?_ ((State.updBank_touches ..).mono rfl)
  exact .refl _

theorem State.takeSet_touches (s : State) (set : List Alarmed) : Touches 576460752303423488 s (State.takeSet s set) := by
  unfold State.takeSet
  with_reducible exact .after (forEach_touches (hf := fun _ _ => .after ((State.updSrc_touches ..).mono rfl) (.refl _)) ..) (.refl _)

theorem State.beginDecision_touches (s : State) : Touches 576460752303427584 s (State.beginDecision s) := by
  unfold State.beginDecision
  with_reducible exact .iteL (.refl _) (.upd (.after ((State.takeSet_touches ..).mono rfl) (.refl _)))

theorem State.linkStringHits_touches (s : State) (m : Fin 60) : Touches 1099511627777 s (State.linkStringHits s m) := by
  unfold State.linkStringHits
  with_reducible exact .after (forEach_touches (hf := fun _ _ => .iteR (.refl _) (.after ((State.addSat_touches ..).mono rfl)
    (.refl _))) ..) (.refl _)

theorem State.returnMonitor_touches (s : State) (m : Fin 60) (o : BlockObs) : Touches 1099511627777 s (State.returnMonitor s m o) := by
  unfold State.returnMonitor
  with_reducible exact .iteR (.refl _) (.ite (.after ((State.raise_touches ..).mono rfl) (.refl _)) (.after ((State.setN_touches ..).mono
    rfl) (.refl _)))

theorem State.setPortFlag_touches (s : State) (n : Nat) (p : Fin 8) (c : Fin 7) (mask : Nat) : Touches 1099528404993 s (State.setPortFlag s
  n p c mask) := by
  unfold State.setPortFlag
  with_reducible exact .iteL (.after ((State.setQ_touches ..).mono rfl) (.refl _)) (.after ((State.updChan_touches ..).mono rfl) (.after
    ((State.addSatQ_touches ..).mono rfl) (.refl _)))

theorem State.eyeMonitor_touches (s : State) (m : Fin 60) (mask : Nat) : Touches 1099528404993 s (State.eyeMonitor s m mask) := by
  unfold State.eyeMonitor
  split
  exact .refl _
  with_reducible refine .iteR ?_ ?_
  with_reducible refine .trans ?_ ((State.put_touches ..).mono rfl)
  exact .refl _
  with_reducible refine .trans ?_ ((State.setPortFlag_touches ..).mono rfl)
  exact .refl _

theorem State.channelFault_touches (s : State) (p : Fin 8) (m : Fin 60) : Touches 576461856110280705 s (State.channelFault s p m) := by
  unfold State.channelFault
  split
  with_reducible refine .iteL ?_ ?_
  exact .refl _
  with_reducible refine .trans ?_ ((State.source_touches ..).mono rfl)
  with_reducible refine .trans ?_ ((State.updPort_touches ..).mono rfl)
  exact .refl _
  with_reducible refine .trans ?_ ((State.updPort_touches ..).mono rfl)
  exact .refl _

theorem State.homeFails_touches (s : State) (p : Fin 8) (m : Fin 60) (forced : Bool) : Touches 576461856114999297 s (State.homeFails s p m
  forced) := by
  unfold State.homeFails
  split
  with_reducible refine .ite ?_ ?_
  with_reducible refine .trans ?_ ((State.updSpare_touches ..).mono rfl)
  exact .refl _
  with_reducible refine .trans ?_ ((State.channelFault_touches ..).mono rfl)
  exact .refl _
  with_reducible refine .iteR ?_ ?_
  with_reducible refine .trans ?_ ((State.channelFault_touches ..).mono rfl)
  exact .refl _
  with_reducible refine .upd ?_
  exact .refl _

theorem State.cancelSpare_touches (s : State) (i : Fin 4) : Touches 576461856110804993 s (State.cancelSpare s i) := by
  unfold State.cancelSpare
  dsimp only
  split
  with_reducible refine .trans ?_ ((State.channelFault_touches ..).mono rfl)
  with_reducible refine .trans ?_ ((State.updSpare_touches ..).mono rfl)
  exact .refl _
  with_reducible refine .trans ?_ ((State.updSpare_touches ..).mono rfl)
  exact .refl _

theorem State.spareFaulty_touches (s : State) (i : Fin 4) : Touches 3758620672 s (State.spareFaulty s i) := by
  unfold State.spareFaulty
  with_reducible exact .after ((State.health_touches ..).mono rfl) (.after ((State.updSpare_touches ..).mono rfl) (.refl _))

theorem State.checkFails_touches (s : State) (m : Fin 60) (flag : Nat) (forced : Bool) : Touches 576461859889872897 s (State.checkFails s m
  flag forced) := by
  unfold State.checkFails
  with_reducible refine .iteL ?_ ?_
  exact .refl _
  dsimp only
  split
  with_reducible refine .ite ?_ ?_
  with_reducible refine .trans ?_ ((State.homeFails_touches ..).mono rfl)
  with_reducible refine .trans ?_ ((State.setPortFlag_touches ..).mono rfl)
  with_reducible refine .trans ?_ ((State.updPort_touches ..).mono rfl)
  exact .refl _
  with_reducible refine .trans ?_ ((State.channelFault_touches ..).mono rfl)
  with_reducible refine .trans ?_ ((State.setPortFlag_touches ..).mono rfl)
  with_reducible refine .trans ?_ ((State.updPort_touches ..).mono rfl)
  exact .refl _
  split
  with_reducible refine .ite ?_ ?_
  with_reducible refine .trans ?_ ((State.cancelSpare_touches ..).mono rfl)
  with_reducible refine .trans ?_ ((State.updPort_touches ..).mono rfl)
  exact .refl _
  with_reducible refine .trans ?_ ((State.spareFaulty_touches ..).mono rfl)
  with_reducible refine .trans ?_ ((State.updPort_touches ..).mono rfl)
  exact .refl _
  with_reducible refine .trans ?_ ((State.updPort_touches ..).mono rfl)
  exact .refl _

theorem State.blockChecks_touches (s : State) (o : BlockObs) : Touches 576461859889872897 s (State.blockChecks s o) := by
  unfold State.blockChecks
  with_reducible exact .iteL (.refl _) (.ite (.after ((State.checkFails_touches ..).mono rfl) (.iteR (.iteR (.after
    ((State.returnMonitor_touches ..).mono rfl) (.after ((State.eyeMonitor_touches ..).mono rfl) (.after
    ((State.linkStringHits_touches ..).mono rfl) (.refl _)))) (.after ((State.checkFails_touches ..).mono rfl) (.refl _))) (.after
    ((State.checkFails_touches ..).mono rfl) (.refl _)))) (.iteR (.iteR (.iteR (.after ((State.returnMonitor_touches ..).mono rfl) (.after
    ((State.eyeMonitor_touches ..).mono rfl) (.after ((State.linkStringHits_touches ..).mono rfl) (.refl _)))) (.after
    ((State.checkFails_touches ..).mono rfl) (.refl _))) (.after ((State.checkFails_touches ..).mono rfl) (.refl _))) (.after
    ((State.checkFails_touches ..).mono rfl) (.refl _))))

theorem State.countBlock_touches (s : State) (m : Fin 60) : Touches 17039360 s (State.countBlock s m) := by
  unfold State.countBlock
  with_reducible refine .ite ?_ ?_
  with_reducible refine .trans ?_ ((State.updPort_touches ..).mono rfl)
  exact .refl _
  with_reducible refine .iteL ?_ ?_
  exact .refl _
  with_reducible refine .ite ?_ ?_
  with_reducible refine .trans ?_ ((State.updPort_touches ..).mono rfl)
  exact .refl _
  dsimp only
  split
  with_reducible refine .trans ?_ ((State.updChan_touches ..).mono rfl)
  with_reducible refine .trans ?_ ((State.updPort_touches ..).mono rfl)
  exact .refl _
  with_reducible refine .trans ?_ ((State.updPort_touches ..).mono rfl)
  exact .refl _

theorem State.blockCounts_touches (s : State) (o : BlockObs) : Touches 17039360 s (State.blockCounts s o) := by
  unfold State.blockCounts
  with_reducible exact .iteL (.refl _) (.ite (.after ((State.updPort_touches ..).mono rfl) (.refl _)) (.ite (.after
    ((State.updPort_touches ..).mono rfl) (.refl _)) (.ite (.after ((State.updPort_touches ..).mono rfl) (.refl _)) (.after
    ((State.countBlock_touches ..).mono rfl) (.refl _)))))

theorem State.blocksEnd_touches (s : State) (obs : List BlockObs) : Touches 576461859889872897 s (State.blocksEnd s obs) := by
  unfold State.blocksEnd
  with_reducible exact .after (forEach_touches (hf := fun _ _ => .after ((State.blockCounts_touches ..).mono rfl) (.refl _)) ..) (.after
    (forEach_touches (hf := fun _ _ => .after ((State.blockChecks_touches ..).mono rfl) (.refl _)) ..) (.after (forEach_touches (hf := fun
    _ _ => .after ((State.blockChecks_touches ..).mono rfl) (.refl _)) ..) (.refl _)))

theorem State.learnGroups_touches (s : State) (obs : List BlockObs) : Touches 8388608 s (State.learnGroups s obs) := by
  unfold State.learnGroups
  with_reducible exact .after (forEach_touches (hf := fun _ _ => .iteR (.refl _) (.upd (.refl _))) ..) (.refl _)

theorem State.blockEnds_touches (s : State) (obs : List BlockObs) : Touches 576461859900358657 s (State.blockEnds s obs) := by
  unfold State.blockEnds
  with_reducible exact .iteL (.refl _) (.upd (.after ((State.learnGroups_touches ..).mono rfl) (.after ((State.blocksEnd_touches ..).mono
    rfl) (.refl _))))

theorem State.disputedBounds_touches (s : State) (p : Fin 8) (n : Nat) (start : Nat) (disputed : Bool) : Touches 1099511627777 s
  (State.disputedBounds s p n start disputed) := by
  unfold State.disputedBounds
  with_reducible exact .ite (.after ((State.setQ_touches ..).mono rfl) (.after ((State.setQ_touches ..).mono rfl) (.refl _))) (.iteR
    (.refl _) (.after ((State.setQ_touches ..).mono rfl) (.refl _)))

theorem State.bookReg_touches (s : State) (n : Nat) (p : Fin 8) (disputed : Bool) (reg : Nat) (x : Nat) : Touches 1099511627777 s
  (State.bookReg s n p disputed reg x) := by
  unfold State.bookReg
  with_reducible exact .after ((State.setQ_touches ..).mono rfl) (.after ((State.setQ_touches ..).mono rfl) (.refl _))

theorem State.finishDemand_touches (s : State) (p : Fin 8) (n : Nat) : Touches 1099528404993 s (State.finishDemand s p n) := by
  unfold State.finishDemand
  with_reducible exact .after ((State.setQ_touches ..).mono rfl) (.after ((State.updPoint_touches ..).mono rfl) (.after
    ((State.setQ_touches ..).mono rfl) (.after ((State.setQ_touches ..).mono rfl) (.after ((State.setQ_touches ..).mono rfl) (.iteL (.after
    ((State.setQ_touches ..).mono rfl) (.after ((State.setQ_touches ..).mono rfl) (.after ((State.setQ_touches ..).mono rfl) (.after
    ((State.setQ_touches ..).mono rfl) (.after ((State.setQ_touches ..).mono rfl) (.refl _)))))) (.iteR (.iteR (.refl _) (.after
    ((State.setQ_touches ..).mono rfl) (.after ((State.setQ_touches ..).mono rfl) (.refl _)))) (.after ((State.setQ_touches ..).mono rfl)
    (.after ((State.setQ_touches ..).mono rfl) (.refl _)))))))))

theorem State.demandDue_touches (s : State) (p : Fin 8) (n : Nat) : Touches 1099528404993 s (State.demandDue s p n) := by
  unfold State.demandDue
  split
  with_reducible refine .iteR ?_ ?_
  exact .refl _
  with_reducible refine .trans ?_ ((State.finishDemand_touches ..).mono rfl)
  exact .refl _
  exact .refl _

theorem State.bookDemand_touches (s : State) (p : Fin 8) (r : StepResult) : Touches 1099528404993 s (State.bookDemand s p r) := by
  unfold State.bookDemand
  with_reducible exact .after ((State.setQ_touches ..).mono rfl) (.after ((State.updPoint_touches ..).mono rfl) (.after
    ((State.setQ_touches ..).mono rfl) (.after ((State.updPoint_touches ..).mono rfl) (.after ((State.setQ_touches ..).mono rfl) (.after
    ((State.demandDue_touches ..).mono rfl) (.refl _))))))

theorem State.keepPulses_touches (s : State) (p : Fin 8) : Touches 33554432 s (State.keepPulses s p) := by
  unfold State.keepPulses
  with_reducible exact .after (forEach_touches (hf := fun _ _ => .iteR (.refl _) (.after ((State.updPulse_touches ..).mono rfl)
    (.refl _))) ..) (.refl _)

theorem State.correctPulses_touches (s : State) (p : Fin 8) (n : Nat) (net : Int) (comp : Int) : Touches 1099545182209 s
  (State.correctPulses s p n net comp) := by
  unfold State.correctPulses
  with_reducible exact .after (forEach_touches (hf := fun _ _ => .ite (.after ((State.addPulse_touches ..).mono rfl) (.after
    ((State.updPulse_touches ..).mono rfl) (.refl _))) (.after ((State.updPulse_touches ..).mono rfl) (.refl _))) ..) (.refl _)

theorem State.bookStep_touches (s : State) (p : Fin 8) (cl : Closing) (qt : Int) : Touches 1099561959425 s (State.bookStep s p cl qt).1 := by
  unfold State.bookStep
  dsimp only
  with_reducible refine .trans ?_ ((State.keepPulses_touches ..).mono rfl)
  with_reducible refine .trans ?_ ((State.correctPulses_touches ..).mono rfl)
  with_reducible refine .trans ?_ ((State.addWrapQ_touches ..).mono rfl)
  with_reducible refine .trans ?_ ((State.bookDemand_touches ..).mono rfl)
  with_reducible refine .iteL ?_ ?_
  with_reducible refine .trans ?_ ((State.setQ_touches ..).mono rfl)
  with_reducible refine .trans ?_ ((State.setQ_touches ..).mono rfl)
  with_reducible refine .trans ?_ ((State.setQ_touches ..).mono rfl)
  with_reducible refine .iteR ?_ ?_
  with_reducible refine .iteR ?_ ?_
  with_reducible refine .trans ?_ ((State.bookReg_touches ..).mono rfl)
  with_reducible refine .ite ?_ ?_
  with_reducible refine .trans ?_ ((State.bookReg_touches ..).mono rfl)
  with_reducible refine .trans ?_ ((State.bookReg_touches ..).mono rfl)
  with_reducible refine .trans ?_ ((State.disputedBounds_touches ..).mono rfl)
  exact .refl _
  with_reducible refine .trans ?_ ((State.bookReg_touches ..).mono rfl)
  with_reducible refine .trans ?_ ((State.bookReg_touches ..).mono rfl)
  with_reducible refine .trans ?_ ((State.disputedBounds_touches ..).mono rfl)
  exact .refl _
  with_reducible refine .ite ?_ ?_
  with_reducible refine .trans ?_ ((State.bookReg_touches ..).mono rfl)
  with_reducible refine .iteR ?_ ?_
  exact .refl _
  with_reducible refine .trans ?_ ((State.addSatQ_touches ..).mono rfl)
  exact .refl _
  with_reducible refine .trans ?_ ((State.bookReg_touches ..).mono rfl)
  with_reducible refine .iteR ?_ ?_
  exact .refl _
  with_reducible refine .trans ?_ ((State.addSatQ_touches ..).mono rfl)
  exact .refl _
  with_reducible refine .iteR ?_ ?_
  with_reducible refine .trans ?_ ((State.setQ_touches ..).mono rfl)
  with_reducible refine .trans ?_ ((State.setQ_touches ..).mono rfl)
  exact .refl _
  with_reducible refine .trans ?_ ((State.addSatQ_touches ..).mono rfl)
  exact .refl _
  with_reducible refine .trans ?_ ((State.setQ_touches ..).mono rfl)
  with_reducible refine .iteR ?_ ?_
  exact .refl _
  with_reducible refine .trans ?_ ((State.setQ_touches ..).mono rfl)
  exact .refl _

theorem State.updGrown_touches (s : State) (p : Fin 8) (f : Grown → Grown) : Touches 72057594037927936 s (State.updGrown s p f) := by
  unfold State.updGrown
  with_reducible exact .after ((State.updSession_touches ..).mono rfl) (.refl _)

theorem State.sessionStep_touches (s : State) (p : Fin 8) (r : StepResult) : Touches 72058693549555713 s (State.sessionStep s p r) := by
  unfold State.sessionStep
  split
  with_reducible refine .iteR ?_ ?_
  exact .refl _
  with_reducible refine .trans ?_ (forEach_touches (hf := ?_) ..)
  with_reducible refine .trans ?_ ((State.addFlags_touches ..).mono rfl)
  with_reducible refine .trans ?_ ((State.addTags_touches ..).mono rfl)
  with_reducible refine .trans ?_ ((State.updGrown_touches ..).mono rfl)
  exact .refl _
  intro _
  intro _
  with_reducible refine .trans ?_ ((State.setQ_touches ..).mono rfl)
  exact .refl _
  exact .refl _

theorem State.sessionEvent_touches (s : State) (p : Fin 8) (b : Fin 17) (idx : Nat) : Touches 72057594037927936 s (State.sessionEvent s p b
  idx) := by
  unfold State.sessionEvent
  split
  with_reducible refine .iteR ?_ ?_
  exact .refl _
  with_reducible refine .trans ?_ ((State.updGrown_touches ..).mono rfl)
  exact .refl _
  exact .refl _

theorem State.setEvStatus_touches (s : State) (n : Nat) (p : Fin 8) (b : Fin 17) : Touches 1099528404993 s (State.setEvStatus s n p b) := by
  unfold State.setEvStatus
  with_reducible exact .iteR (.after ((State.setQ_touches ..).mono rfl) (.refl _)) (.after ((State.updPoint_touches ..).mono rfl) (.after
    ((State.addSatQ_touches ..).mono rfl) (.refl _)))

theorem State.startEvent_touches (s : State) (n : Nat) (p : Fin 8) (b : Fin 17) (idx : Nat) (value : Nat) (whereMask : Nat) : Touches
  72058693968986113 s (State.startEvent s n p b idx value whereMask) := by
  unfold State.startEvent
  with_reducible exact .after ((State.pushEvent_touches ..).mono rfl) (.after ((State.setEvStatus_touches ..).mono rfl) (.after
    ((State.sessionEvent_touches ..).mono rfl) (.after ((State.addSatQ_touches ..).mono rfl) (.after ((State.setQ_touches ..).mono rfl)
    (.after ((State.updPoint_touches ..).mono rfl) (.refl _))))))

theorem State.reversePower_touches (s : State) (p : Fin 8) (r : StepResult) : Touches 72058693968986113 s (State.reversePower s p r) := by
  unfold State.reversePower
  with_reducible exact .iteL (.refl _) (.ite (.after ((State.endEvent_touches ..).mono rfl) (.after ((State.updPoint_touches ..).mono rfl)
    (.refl _))) (.ite (.ite (.ite (.after ((State.endEvent_touches ..).mono rfl) (.after ((State.updPoint_touches ..).mono rfl) (.after
    ((State.updPoint_touches ..).mono rfl) (.refl _)))) (.after ((State.updPoint_touches ..).mono rfl) (.after
    ((State.updPoint_touches ..).mono rfl) (.refl _)))) (.after ((State.updPoint_touches ..).mono rfl) (.after
    ((State.updPoint_touches ..).mono rfl) (.refl _)))) (.ite (.ite (.after ((State.startEvent_touches ..).mono rfl) (.after
    ((State.updPoint_touches ..).mono rfl) (.refl _))) (.after ((State.updPoint_touches ..).mono rfl) (.refl _))) (.after
    ((State.updPoint_touches ..).mono rfl) (.refl _)))))

theorem State.levelEvent_touches (s : State) (n : Nat) (p : Fin 8) (b : Fin 17) (from' : Nat) (cond : Bool) (clear : Bool) (value : Nat)
  (lowest : Bool) (whereMask : Nat) : Touches 72058693968986113 s (State.levelEvent s n p b from' cond clear value lowest whereMask) := by
  unfold State.levelEvent
  with_reducible refine .ite ?_ ?_
  with_reducible refine .ite ?_ ?_
  with_reducible refine .trans ?_ ((State.endEvent_touches ..).mono rfl)
  exact .refl _
  with_reducible refine .trans ?_ ((State.updPoint_touches ..).mono rfl)
  exact .refl _
  with_reducible refine .ite ?_ ?_
  with_reducible refine .ite ?_ ?_
  with_reducible refine .iteR ?_ ?_
  with_reducible refine .trans ?_ ((State.updPoint_touches ..).mono rfl)
  exact .refl _
  with_reducible refine .trans ?_ ((State.endEvent_touches ..).mono rfl)
  exact .refl _
  with_reducible refine .trans ?_ ((State.updPoint_touches ..).mono rfl)
  exact .refl _
  with_reducible refine .ite ?_ ?_
  with_reducible refine .ite ?_ ?_
  with_reducible refine .trans ?_ ((State.startEvent_touches ..).mono rfl)
  exact .refl _
  with_reducible refine .trans ?_ ((State.updPoint_touches ..).mono rfl)
  exact .refl _
  with_reducible refine .trans ?_ ((State.updPoint_touches ..).mono rfl)
  exact .refl _

theorem State.plainEvent_touches (s : State) (n : Nat) (p : Fin 8) (b : Fin 17) (cond : Bool) (clear : Bool) (value : Nat) (whereMask :
  Nat) : Touches 72058693968986113 s (State.plainEvent s n p b cond clear value whereMask) := by
  unfold State.plainEvent
  with_reducible exact .ite (.iteR (.refl _) (.after ((State.endEvent_touches ..).mono rfl) (.refl _))) (.ite (.ite (.after
    ((State.endEvent_touches ..).mono rfl) (.refl _)) (.after ((State.updPoint_touches ..).mono rfl) (.refl _))) (.iteR (.refl _) (.after
    ((State.startEvent_touches ..).mono rfl) (.refl _))))

theorem State.lostReference_touches (s : State) (p : Fin 8) (n : Nat) : Touches 72058693968986113 s (State.lostReference s p n) := by
  unfold State.lostReference
  with_reducible exact .iteR (.refl _) (.after ((State.plainEvent_touches ..).mono rfl) (.refl _))

theorem State.cycleEvents_touches (s : State) (p : Fin 8) (cl : Closing) : Touches 72058693968986113 s (State.cycleEvents s p cl) := by
  unfold State.cycleEvents
  with_reducible exact .iteL (.after ((State.lostReference_touches ..).mono rfl) (.after ((State.levelEvent_touches ..).mono rfl) (.after
    ((State.levelEvent_touches ..).mono rfl) (.after ((State.levelEvent_touches ..).mono rfl) (.after ((State.levelEvent_touches ..).mono
    rfl) (.refl _)))))) (.after ((State.levelEvent_touches ..).mono rfl) (.after ((State.levelEvent_touches ..).mono rfl) (.refl _)))

theorem State.cycleQuantities_touches (s : State) (p : Fin 8) (cl : Closing) : Touches 1099511627777 s (State.cycleQuantities s p cl) := by
  unfold State.cycleQuantities
  with_reducible exact .iteR (.after ((State.setQ_touches ..).mono rfl) (.after (forEach_touches (hf := fun _ _ => .after
    ((State.setQ_touches ..).mono rfl) (.refl _)) ..) (.after (forEach_touches (hf := fun _ _ => .after ((State.setQ_touches ..).mono rfl)
    (.after ((State.setQ_touches ..).mono rfl) (.refl _))) ..) (.refl _)))) (.after ((State.setQ_touches ..).mono rfl) (.refl _))

theorem State.bookClosing_touches (s : State) (p : Fin 8) (cl : Closing) : Touches 72058694002540545 s (State.bookClosing s p cl) := by
  unfold State.bookClosing
  with_reducible exact .ite (.after ((State.demandDue_touches ..).mono rfl) (.after ((State.updPoint_touches ..).mono rfl) (.after
    ((State.reversePower_touches ..).mono rfl) (.after ((State.cycleEvents_touches ..).mono rfl) (.after
    ((State.cycleQuantities_touches ..).mono rfl) (.after ((State.sessionStep_touches ..).mono rfl) (.after
    ((State.updPoint_touches ..).mono rfl) (.after ((State.bookStep_touches ..).mono rfl) (.refl _))))))))) (.after
    ((State.demandDue_touches ..).mono rfl) (.after ((State.updPoint_touches ..).mono rfl) (.after ((State.lostReference_touches ..).mono
    rfl) (.after ((State.correctPulses_touches ..).mono rfl) (.refl _)))))

theorem State.boundaryEntries_touches (s : State) (p : Fin 8) (n : Nat) (frac : Nat) (track : Nat) : Touches 1099511627777 s
  (State.boundaryEntries s p n frac track) := by
  unfold State.boundaryEntries
  with_reducible exact .after ((State.setQ_touches ..).mono rfl) (.after ((State.addWrapQ_touches ..).mono rfl) (.after
    ((State.setQ_touches ..).mono rfl) (.after ((State.setQ_touches ..).mono rfl) (.refl _))))

theorem State.queueClose_touches (s : State) (ps : List (Fin 8)) : Touches 72057599406637056 s (State.queueClose s ps) := by
  unfold State.queueClose
  with_reducible exact .iteL (.refl _) (.after ((State.queueUnit_touches ..).mono rfl) (.after (forEach_touches (hf := fun _ _ => .after
    ((State.updSession_touches ..).mono rfl) (.after ((State.setLog_touches ..).mono rfl) (.refl _))) ..) (.refl _)))

theorem State.closeLaunch_touches (s : State) : Touches 72057599406637056 s (State.closeLaunch s) := by
  unfold State.closeLaunch
  with_reducible exact .after (forEach_touches (hf := fun _ _ => .iteL (.refl _) (.iteL (.refl _) (.after
    ((State.queueClose_touches ..).mono rfl) (.refl _)))) ..) (.refl _)

theorem State.updStep_touches (s : State) (f : CalStep → CalStep) : Touches 8796093022208 s (State.updStep s f) := by
  unfold State.updStep
  with_reducible exact .upd (.refl _)

theorem State.calBoundary_touches (s : State) (p : Fin 8) (cl : Closing) : Touches 9895604649985 s (State.calBoundary s p cl) := by
  unfold State.calBoundary
  split
  split
  with_reducible refine .iteL ?_ ?_
  exact .refl _
  with_reducible refine .ite ?_ ?_
  with_reducible refine .trans ?_ ((State.updStep_touches ..).mono rfl)
  exact .refl _
  with_reducible refine .ite ?_ ?_
  with_reducible refine .trans ?_ ((State.updStep_touches ..).mono rfl)
  exact .refl _
  with_reducible refine .trans ?_ ((State.put_touches ..).mono rfl)
  with_reducible refine .trans ?_ ((State.updStep_touches ..).mono rfl)
  exact .refl _
  exact .refl _
  exact .refl _

theorem State.stepConstants_touches (s : State) (p : Fin 8) (n : Nat) : Touches 16777216 s (State.stepConstants s p n) := by
  unfold State.stepConstants
  with_reducible exact .ite (.after ((State.updPoint_touches ..).mono rfl) (.refl _)) (.after ((State.updPoint_touches ..).mono rfl)
    (.refl _))

theorem State.closePulses_touches (s : State) (p : Fin 8) : Touches 33554432 s (State.closePulses s p) := by
  unfold State.closePulses
  with_reducible exact .after (forEach_touches (hf := fun _ _ => .iteR (.refl _) (.after ((State.updPulse_touches ..).mono rfl)
    (.refl _))) ..) (.refl _)

theorem State.boundaryFound_touches (s : State) (p : Fin 8) : Touches 72067495061618689 s (State.boundaryFound s p) := by
  unfold State.boundaryFound
  split
  with_reducible refine .trans ?_ ((State.closeLaunch_touches ..).mono rfl)
  with_reducible refine .trans ?_ ((State.calBoundary_touches ..).mono rfl)
  with_reducible refine .trans ?_ ((State.stepConstants_touches ..).mono rfl)
  with_reducible refine .trans ?_ ((State.closePulses_touches ..).mono rfl)
  exact .refl _
  with_reducible refine .trans ?_ ((State.closeLaunch_touches ..).mono rfl)
  exact .refl _

theorem State.calBegin_touches (s : State) (p : Fin 8) (q : Fin 4) : Touches 9895604649985 s (State.calBegin s p q) := by
  unfold State.calBegin
  with_reducible exact .after ((State.put_touches ..).mono rfl) (.after ((State.put_touches ..).mono rfl) (.after
    ((State.put_touches ..).mono rfl) (.after ((State.put_touches ..).mono rfl) (.after ((State.put_touches ..).mono rfl) (.after
    ((State.put_touches ..).mono rfl) (.after ((State.put_touches ..).mono rfl) (.after ((State.put_touches ..).mono rfl) (.upd (.after
    (forEach_touches (hf := fun _ _ => .after ((State.put_touches ..).mono rfl) (.after ((State.put_touches ..).mono rfl) (.after
    ((State.put_touches ..).mono rfl) (.refl _)))) ..) (.refl _))))))))))

theorem State.calReason_touches (s : State) (reason : Nat) (chs : Nat) : Touches 9895604649985 s (State.calReason s reason chs) := by
  unfold State.calReason
  with_reducible exact .upd (.after ((State.put_touches ..).mono rfl) (.after ((State.put_touches ..).mono rfl) (.after
    ((State.put_touches ..).mono rfl) (.refl _))))

theorem State.calStep_touches (s : State) (r : CalRun) (op : Nat) (mask : Nat) : Touches 9895604649985 s (State.calStep s r op mask) := by
  unfold State.calStep
  with_reducible exact .ite (.after ((State.calReason_touches ..).mono rfl) (.refl _)) (.ite (.after ((State.calReason_touches ..).mono
    rfl) (.refl _)) (.after ((State.put_touches ..).mono rfl) (.after ((State.put_touches ..).mono rfl) (.upd (.refl _)))))

theorem State.calCommit_touches (s : State) (r : CalRun) : Touches 9895604654081 s (State.calCommit s r) := by
  unfold State.calCommit
  with_reducible exact .ite (.after ((State.calReason_touches ..).mono rfl) (.refl _)) (.ite (.after ((State.calReason_touches ..).mono
    rfl) (.refl _)) (.ite (.after ((State.calReason_touches ..).mono rfl) (.refl _)) (.upd (.after ((State.put_touches ..).mono rfl)
    (.refl _)))))

theorem State.calCommand_touches (s : State) (w : Nat) {r : State} (hr : State.calCommand s w = some r) : Touches 9899899621377 s r := by
  unfold State.calCommand at hr
  simp only [Option.some.injEq, reduceCtorEq] at hr
  split at hr
  simp only [Option.some.injEq, reduceCtorEq] at hr
  split at hr
  split at hr
  simp only [Option.some.injEq, reduceCtorEq] at hr
  simp only [Option.some.injEq, reduceCtorEq] at hr
  subst hr
  with_reducible refine .trans ?_ ((State.calBegin_touches ..).mono rfl)
  exact .refl _
  split at hr
  simp only [Option.some.injEq, reduceCtorEq] at hr
  split at hr
  simp only [Option.some.injEq, reduceCtorEq] at hr
  simp only [Option.some.injEq, reduceCtorEq] at hr
  subst hr
  with_reducible refine .trans ?_ ((State.calAbort_touches ..).mono rfl)
  exact .refl _
  split at hr
  simp only [Option.some.injEq, reduceCtorEq] at hr
  subst hr
  with_reducible refine .trans ?_ ((State.calStep_touches ..).mono rfl)
  exact .refl _
  simp only [Option.some.injEq, reduceCtorEq] at hr
  split at hr
  simp only [Option.some.injEq, reduceCtorEq] at hr
  subst hr
  with_reducible refine .trans ?_ ((State.calStep_touches ..).mono rfl)
  exact .refl _
  simp only [Option.some.injEq, reduceCtorEq] at hr
  split at hr
  simp only [Option.some.injEq, reduceCtorEq] at hr
  subst hr
  with_reducible refine .trans ?_ ((State.calStep_touches ..).mono rfl)
  exact .refl _
  simp only [Option.some.injEq, reduceCtorEq] at hr
  split at hr
  simp only [Option.some.injEq, reduceCtorEq] at hr
  subst hr
  with_reducible refine .upd ?_
  exact .refl _
  simp only [Option.some.injEq, reduceCtorEq] at hr
  split at hr
  simp only [Option.some.injEq, reduceCtorEq] at hr
  subst hr
  with_reducible refine .trans ?_ ((State.calCommit_touches ..).mono rfl)
  exact .refl _
  simp only [Option.some.injEq, reduceCtorEq] at hr
  simp only [Option.some.injEq, reduceCtorEq] at hr

theorem State.calSample_touches (s : State) (p : Fin 8) : Touches 9895604649985 s (State.calSample s p) := by
  unfold State.calSample
  split
  split
  with_reducible refine .iteR ?_ ?_
  exact .refl _
  with_reducible refine .ite ?_ ?_
  with_reducible refine .trans ?_ ((State.calReason_touches ..).mono rfl)
  exact .refl _
  with_reducible refine .trans ?_ ((State.updStep_touches ..).mono rfl)
  exact .refl _
  exact .refl _
  exact .refl _

theorem State.queuePlates_touches (s : State) (r : CalRun) : Touches 8800387989504 s (State.queuePlates s r) := by
  unfold State.queuePlates
  with_reducible exact .after ((State.queueUnit_touches ..).mono rfl) (.upd (.refl _))

theorem State.calSecond_touches (s : State) (first : Nat) (chs : Nat) (fault : Bool) : Touches 576470652203040769 s (State.calSecond s
  first chs fault) := by
  unfold State.calSecond
  split
  with_reducible refine .ite ?_ ?_
  with_reducible refine .trans ?_ ((State.source_touches ..).mono rfl)
  with_reducible refine .trans ?_ ((State.calReason_touches ..).mono rfl)
  exact .refl _
  with_reducible refine .ite ?_ ?_
  with_reducible refine .trans ?_ ((State.calReason_touches ..).mono rfl)
  exact .refl _
  with_reducible refine .trans ?_ ((State.queuePlates_touches ..).mono rfl)
  with_reducible refine .trans ?_ ((State.put_touches ..).mono rfl)
  with_reducible refine .trans ?_ ((State.put_touches ..).mono rfl)
  exact .refl _
  exact .refl _

theorem State.reportFigures_touches (s : State) (r : CalRun) (st : CalStep) : Touches 1099511627777 s (State.reportFigures s r st) := by
  unfold State.reportFigures
  with_reducible exact .after (forEach_touches (hf := fun _ _ => .after ((State.put_touches ..).mono rfl) (.after
    ((State.put_touches ..).mono rfl) (.after ((State.put_touches ..).mono rfl) (.refl _)))) ..) (.refl _)

theorem State.reformDraft_touches (s : State) (r : CalRun) (p : Fin 8) (c : Fin 7) : Touches 1099511627777 s (State.reformDraft s r p c) := by
  unfold State.reformDraft
  with_reducible exact .after ((State.put_touches ..).mono rfl) (.after ((State.put_touches ..).mono rfl) (.refl _))

theorem State.calStepEnd_touches (s : State) : Touches 9895604649985 s (State.calStepEnd s) := by
  unfold State.calStepEnd
  split
  split
  with_reducible refine .iteL ?_ ?_
  exact .refl _
  with_reducible refine .ite ?_ ?_
  with_reducible refine .trans ?_ ((State.calReason_touches ..).mono rfl)
  with_reducible refine .trans ?_ ((State.reportFigures_touches ..).mono rfl)
  exact .refl _
  with_reducible refine .ite ?_ ?_
  with_reducible refine .trans ?_ ((State.calReason_touches ..).mono rfl)
  with_reducible refine .trans ?_ ((State.reportFigures_touches ..).mono rfl)
  exact .refl _
  with_reducible refine .ite ?_ ?_
  with_reducible refine .trans ?_ ((State.calReason_touches ..).mono rfl)
  with_reducible refine .trans ?_ ((State.reportFigures_touches ..).mono rfl)
  exact .refl _
  with_reducible refine .ite ?_ ?_
  with_reducible refine .trans ?_ ((State.calReason_touches ..).mono rfl)
  with_reducible refine .trans ?_ ((State.reportFigures_touches ..).mono rfl)
  exact .refl _
  with_reducible refine .ite ?_ ?_
  with_reducible refine .trans ?_ ((State.calReason_touches ..).mono rfl)
  with_reducible refine .trans ?_ ((State.reportFigures_touches ..).mono rfl)
  exact .refl _
  with_reducible refine .ite ?_ ?_
  with_reducible refine .trans ?_ ((State.calReason_touches ..).mono rfl)
  with_reducible refine .trans ?_ ((State.reportFigures_touches ..).mono rfl)
  exact .refl _
  with_reducible refine .trans ?_ ((State.calReason_touches ..).mono rfl)
  with_reducible refine .upd ?_
  with_reducible refine .iteL ?_ ?_
  with_reducible refine .trans ?_ ((State.put_touches ..).mono rfl)
  with_reducible refine .ite ?_ ?_
  with_reducible refine .trans ?_ (forEach_touches (hf := ?_) ..)
  with_reducible refine .trans ?_ ((State.reportFigures_touches ..).mono rfl)
  exact .refl _
  intro _
  intro _
  with_reducible refine .trans ?_ ((State.put_touches ..).mono rfl)
  exact .refl _
  with_reducible refine .trans ?_ (forEach_touches (hf := ?_) ..)
  with_reducible refine .trans ?_ ((State.reportFigures_touches ..).mono rfl)
  exact .refl _
  intro _
  intro _
  with_reducible refine .trans ?_ ((State.reformDraft_touches ..).mono rfl)
  exact .refl _
  with_reducible refine .trans ?_ ((State.put_touches ..).mono rfl)
  with_reducible refine .trans ?_ ((State.put_touches ..).mono rfl)
  exact .refl _
  exact .refl _
  exact .refl _

theorem State.calWrite_touches (s : State) (v : Nat) (ok : Bool) : Touches 9899899621377 s (State.calWrite s v ok).2 := by
  unfold State.calWrite
  with_reducible refine .iteSnd ?_ ?_
  dsimp only
  exact .refl _
  split
  dsimp only
  exact .refl _
  with_reducible refine .iteSnd ?_ ?_
  dsimp only
  refine .trans ?_ ((State.calCommand_touches (hr := by assumption) ..).mono rfl)
  exact .refl _
  dsimp only
  exact .refl _

theorem State.enqueue_touches (s : State) (l : Link) (m : Message) : Touches 1305670057985 s (State.enqueue s l m) := by
  unfold State.enqueue
  with_reducible exact .ite (.after ((State.answerNow_touches ..).mono rfl) (.after ((State.addSat_touches ..).mono rfl) (.refl _))) (.ite
    (.after ((State.answerNow_touches ..).mono rfl) (.refl _)) (.after ((State.setLink_touches ..).mono rfl) (.refl _)))

theorem State.receiveRequest_touches (s : State) (l : Link) (m : Message) : Touches 1305670057993 s (State.receiveRequest s l m) := by
  unfold State.receiveRequest
  with_reducible exact .iteR (.after ((State.admitted_touches ..).mono rfl) (.refl _)) (.after ((State.enqueue_touches ..).mono rfl)
    (.refl _))

theorem State.canBroken_touches (s : State) (op : Nat) (tag : Nat) (b : List Byte) : Touches 1305670057993 s (State.canBroken s op tag b) := by
  unfold State.canBroken
  with_reducible exact .after ((State.receiveRequest_touches ..).mono rfl) (.after ((State.addSat_touches ..).mono rfl) (.refl _))

theorem State.updBus_touches (s : State) (f : CanSt → CanSt) : Touches 274877906944 s (State.updBus s f) := by
  unfold State.updBus
  with_reducible exact .upd (.refl _)

theorem State.canAbandon_touches (s : State) : Touches 1580547964937 s (State.canAbandon s) := by
  unfold State.canAbandon
  with_reducible exact .after ((State.canBroken_touches ..).mono rfl) (.after ((State.updBus_touches ..).mono rfl) (.refl _))

theorem State.canError_touches (s : State) (transmitter : Bool) (weight : Nat) : Touches 1374389534721 s (State.canError s transmitter
  weight) := by
  unfold State.canError
  with_reducible exact .iteL (.refl _) (.ite (.after ((State.updBus_touches ..).mono rfl) (.refl _)) (.iteR (.after
    ((State.updBus_touches ..).mono rfl) (.refl _)) (.after ((State.addSat_touches ..).mono rfl) (.after ((State.updBus_touches ..).mono
    rfl) (.refl _)))))

theorem State.canMessage_touches (s : State) (op : Nat) (tag : Nat) (b : List Byte) : Touches 1305670057993 s (State.canMessage s op tag b) := by
  unfold State.canMessage
  with_reducible exact .ite (.after ((State.canBroken_touches ..).mono rfl) (.refl _)) (.after ((State.receiveRequest_touches ..).mono rfl)
    (.refl _))

theorem State.canFirst_touches (s : State) (op : Nat) (tag : Nat) (b : List Byte) : Touches 1580547964937 s (State.canFirst s op tag b) := by
  unfold State.canFirst
  with_reducible exact .ite (.after ((State.canMessage_touches ..).mono rfl) (.refl _)) (.after ((State.updBus_touches ..).mono rfl)
    (.refl _))

theorem State.canReceived_touches (s : State) : Touches 274877906952 s (State.canReceived s) := by
  unfold State.canReceived
  with_reducible exact .ite (.after ((State.updBus_touches ..).mono rfl) (.after ((State.fresh_touches ..).mono rfl) (.refl _))) (.after
    ((State.updBus_touches ..).mono rfl) (.refl _))

theorem State.canLast_touches (s : State) : Touches 1580547964937 s (State.canLast s) := by
  unfold State.canLast
  with_reducible exact .ite (.after ((State.canAbandon_touches ..).mono rfl) (.refl _)) (.after ((State.canMessage_touches ..).mono rfl)
    (.after ((State.updBus_touches ..).mono rfl) (.refl _)))

theorem State.canSegment_touches (s : State) (op : Nat) (tag : Nat) (data : List Byte) : Touches 1580547964937 s (State.canSegment s op tag
  data) := by
  unfold State.canSegment
  split
  exact .refl _
  with_reducible refine .ite ?_ ?_
  with_reducible refine .ite ?_ ?_
  with_reducible refine .trans ?_ ((State.canBroken_touches ..).mono rfl)
  with_reducible refine .iteR ?_ ?_
  exact .refl _
  with_reducible refine .trans ?_ ((State.canAbandon_touches ..).mono rfl)
  exact .refl _
  with_reducible refine .ite ?_ ?_
  with_reducible refine .trans ?_ ((State.canMessage_touches ..).mono rfl)
  with_reducible refine .iteR ?_ ?_
  exact .refl _
  with_reducible refine .trans ?_ ((State.canAbandon_touches ..).mono rfl)
  exact .refl _
  with_reducible refine .trans ?_ ((State.canFirst_touches ..).mono rfl)
  with_reducible refine .iteR ?_ ?_
  exact .refl _
  with_reducible refine .trans ?_ ((State.canAbandon_touches ..).mono rfl)
  exact .refl _
  with_reducible refine .iteL ?_ ?_
  exact .refl _
  with_reducible refine .ite ?_ ?_
  with_reducible refine .trans ?_ ((State.canAbandon_touches ..).mono rfl)
  exact .refl _
  with_reducible refine .iteR ?_ ?_
  with_reducible refine .trans ?_ ((State.updBus_touches ..).mono rfl)
  exact .refl _
  with_reducible refine .trans ?_ ((State.canLast_touches ..).mono rfl)
  exact .refl _

theorem State.canFrame_touches (s : State) (kind : CanKind) (id : Nat) (data : List Byte) : Touches 1580547964937 s (State.canFrame s kind
  id data) := by
  unfold State.canFrame
  with_reducible refine .iteL ?_ ?_
  exact .refl _
  dsimp only
  split
  with_reducible refine .trans ?_ ((State.canReceived_touches ..).mono rfl)
  exact .refl _
  with_reducible refine .iteR ?_ ?_
  with_reducible refine .trans ?_ ((State.canReceived_touches ..).mono rfl)
  exact .refl _
  with_reducible refine .trans ?_ ((State.addSat_touches ..).mono rfl)
  exact .refl _
  with_reducible refine .iteR ?_ ?_
  with_reducible refine .trans ?_ ((State.canReceived_touches ..).mono rfl)
  exact .refl _
  with_reducible refine .trans ?_ ((State.canSegment_touches ..).mono rfl)
  exact .refl _

theorem State.canRecover_touches (s : State) : Touches 274877906944 s (State.canRecover s) := by
  unfold State.canRecover
  with_reducible exact .iteR (.refl _) (.after ((State.updBus_touches ..).mono rfl) (.refl _))

theorem State.canSettings_touches (s : State) : Touches 274877906944 s (State.canSettings s) := by
  unfold State.canSettings
  with_reducible exact .upd (.refl _)

theorem State.canTimeout_touches (s : State) : Touches 1580547964937 s (State.canTimeout s) := by
  unfold State.canTimeout
  with_reducible exact .iteR (.refl _) (.after ((State.canAbandon_touches ..).mono rfl) (.refl _))

theorem State.canTransmit_touches (s : State) : Touches 412316860416 s (State.canTransmit s) := by
  unfold State.canTransmit
  with_reducible refine .iteL ?_ ?_
  exact .refl _
  split
  exact .refl _
  with_reducible refine .trans ?_ ((State.updBus_touches ..).mono rfl)
  with_reducible refine .upd ?_
  exact .refl _

theorem State.refuseChild_touches (s : State) (k : Fin 4) : Touches 1152921504606846976 s (State.refuseChild s k) := by
  unfold State.refuseChild
  with_reducible exact .after ((State.updThb_touches ..).mono rfl) (.refl _)

theorem State.numberChild_touches (s : State) (k : Fin 4) (first : Nat) (depth : Nat) : Touches 1152921504606846976 s (State.numberChild s
  k first depth) := by
  unfold State.numberChild
  with_reducible exact .after ((State.sendFrame_touches ..).mono rfl) (.after ((State.updThb_touches ..).mono rfl) (.refl _))

theorem State.grantAt_touches (s : State) (k : Fin 4) (serial : List Byte) (members : Nat) (prevFirst : Nat) (direct : Bool) : Touches
  1152922604118474753 s (State.grantAt s k serial members prevFirst direct) := by
  unfold State.grantAt
  dsimp only
  split
  with_reducible refine .ite ?_ ?_
  with_reducible refine .trans ?_ ((State.refreshMembers_touches ..).mono rfl)
  with_reducible refine .trans ?_ ((State.numberChild_touches ..).mono rfl)
  with_reducible refine .iteL ?_ ?_
  with_reducible refine .trans ?_ ((State.addSat_touches ..).mono rfl)
  exact .refl _
  with_reducible refine .upd ?_
  exact .refl _
  with_reducible refine .trans ?_ ((State.sendFrame_touches ..).mono rfl)
  with_reducible refine .iteL ?_ ?_
  with_reducible refine .trans ?_ ((State.addSat_touches ..).mono rfl)
  exact .refl _
  with_reducible refine .upd ?_
  exact .refl _
  with_reducible refine .iteR ?_ ?_
  with_reducible refine .trans ?_ ((State.sendFrame_touches ..).mono rfl)
  with_reducible refine .trans ?_ ((State.addSat_touches ..).mono rfl)
  exact .refl _
  with_reducible refine .trans ?_ ((State.refreshMembers_touches ..).mono rfl)
  with_reducible refine .trans ?_ ((State.updThb_touches ..).mono rfl)
  exact .refl _

theorem State.startJoin_touches (s : State) (k : Fin 4) : Touches 1152922604118474753 s (State.startJoin s k) := by
  unfold State.startJoin
  with_reducible exact .ite (.after ((State.refreshMembers_touches ..).mono rfl) (.after ((State.refuseChild_touches ..).mono rfl) (.iteR
    (.after ((State.sendFrame_touches ..).mono rfl) (.refl _)) (.after ((State.addSat_touches ..).mono rfl) (.refl _))))) (.ite (.after
    ((State.grantAt_touches ..).mono rfl) (.refl _)) (.after ((State.sendFrame_touches ..).mono rfl) (.upd (.refl _))))

theorem State.numberChildren_touches (s : State) (first : Nat) (depth : Nat) : Touches 1152921504606846977 s (State.numberChildren s first
  depth) := by
  unfold State.numberChildren
  with_reducible refine .trans ?_ ((State.refreshMembers_touches ..).mono rfl)
  with_reducible refine .foldlFst (hf := ?_) ?_
  intro _
  intro _
  with_reducible refine .iteFst ?_ ?_
  with_reducible refine .iteFst ?_ ?_
  dsimp only
  with_reducible refine .trans ?_ ((State.refuseChild_touches ..).mono rfl)
  exact .refl _
  dsimp only
  with_reducible refine .upd ?_
  with_reducible refine .trans ?_ ((State.numberChild_touches ..).mono rfl)
  exact .refl _
  exact .refl _
  dsimp only
  with_reducible refine .upd ?_
  exact .refl _

theorem State.censusCheck_touches (s : State) : Touches 1152921504606846977 s (State.censusCheck s) := by
  unfold State.censusCheck
  with_reducible exact .iteR (.refl _) (.after ((State.numberChildren_touches ..).mono rfl) (.after ((State.setN_touches ..).mono rfl)
    (.after ((State.setN_touches ..).mono rfl) (.after ((State.setN_touches ..).mono rfl) (.upd (.refl _))))))

theorem State.census_touches (s : State) (k : Fin 4) (f : CensusFrame) : Touches 1152922604118474753 s (State.census s k f) := by
  unfold State.census
  with_reducible exact .ite (.after ((State.resendCensus_touches ..).mono rfl) (.after ((State.startJoin_touches ..).mono rfl) (.after
    ((State.refreshMembers_touches ..).mono rfl) (.after ((State.updThb_touches ..).mono rfl) (.refl _))))) (.ite (.iteL (.after
    ((State.refreshMembers_touches ..).mono rfl) (.after ((State.updThb_touches ..).mono rfl) (.refl _))) (.after
    ((State.resendCensus_touches ..).mono rfl) (.refl _))) (.after ((State.censusCheck_touches ..).mono rfl) (.after
    ((State.refreshMembers_touches ..).mono rfl) (.after ((State.updThb_touches ..).mono rfl) (.refl _)))))

theorem State.censusSend_touches (s : State) : Touches 1152921504606846977 s (State.censusSend s) := by
  unfold State.censusSend
  with_reducible exact .iteR (.refl _) (.upd (.after ((State.sendCensus_touches ..).mono rfl) (.after
    ((State.refreshMembers_touches ..).mono rfl) (.iteL (.refl _) (.after ((State.setN_touches ..).mono rfl) (.refl _))))))

theorem State.censusTimeout_touches (s : State) (k : Fin 4) (trained : Bool) : Touches 1152921504606846977 s (State.censusTimeout s k
  trained) := by
  unfold State.censusTimeout
  with_reducible exact .iteL (.refl _) (.after ((State.censusCheck_touches ..).mono rfl) (.after ((State.updThb_touches ..).mono rfl)
    (.refl _)))

theorem State.challengeOver_touches (s : State) : Touches 2305843009213693952 s (State.challengeOver s) := by
  unfold State.challengeOver
  with_reducible exact .upd (.refl _)

theorem State.setActive_touches (s : State) (n : Fin 16) (on : Bool) : Touches 576461851815051265 s (State.setActive s n on) := by
  unfold State.setActive
  with_reducible exact .after ((State.syncSrc_touches ..).mono rfl) (.after ((State.updSrc_touches ..).mono rfl) (.refl _))

theorem State.checkRun_touches (s : State) (n : Fin 16) (k : Nat) (bad : Bool) : Touches 576461856110018561 s (State.checkRun s n k bad) := by
  unfold State.checkRun
  with_reducible exact .ite (.iteR (.after ((State.updSrc_touches ..).mono rfl) (.refl _)) (.after ((State.source_touches ..).mono rfl)
    (.after ((State.setActive_touches ..).mono rfl) (.refl _)))) (.after ((State.setActive_touches ..).mono rfl) (.after
    ((State.updSrc_touches ..).mono rfl) (.refl _)))

theorem State.sealOver_touches (s : State) : Touches 2306415862841806945 s (State.sealOver s) := by
  unfold State.sealOver
  with_reducible exact .ite (.after ((State.serviceEnd_touches ..).mono rfl) (.upd (.refl _))) (.upd (.refl _))

theorem State.plateHistory_touches (s : State) (p : Fin 8) (kind : Nat) (slots : Nat) (time : Nat) : Touches 1610612736 s
  (State.plateHistory s p kind slots time) := by
  unfold State.plateHistory
  with_reducible exact .after ((State.queueRecord_touches ..).mono rfl) (.refl _)

theorem State.sealHistory_touches (s : State) (p : Fin 8) : Touches 1610612736 s (State.sealHistory s p) := by
  unfold State.sealHistory
  with_reducible exact .after ((State.plateHistory_touches ..).mono rfl) (.refl _)

theorem State.sealDone_touches (s : State) : Touches 2306415862841806945 s (State.sealDone s) := by
  unfold State.sealDone
  with_reducible exact .iteR (.refl _) (.after ((State.sealOver_touches ..).mono rfl) (.after (forEach_touches (hf := fun _ _ => .after
    ((State.sealHistory_touches ..).mono rfl) (.refl _)) ..) (.after ((State.setN_touches ..).mono rfl) (.after
    ((State.setN_touches ..).mono rfl) (.refl _)))))

theorem State.tallyStored_touches (s : State) : Touches 8589934592 s (State.tallyStored s) := by
  unfold State.tallyStored
  with_reducible exact .upd (.refl _)

theorem State.rangeWrote_touches (s : State) (a : Nat) (n : Nat) : Touches 17179869184 s (State.rangeWrote s a n) := by
  unfold State.rangeWrote
  with_reducible exact .upd (.refl _)

theorem State.ckptStored_touches (s : State) : Touches 1125281431553 s (State.ckptStored s) := by
  unfold State.ckptStored
  split
  exact .refl _
  with_reducible refine .trans ?_ ((State.raise_touches ..).mono rfl)
  with_reducible refine .trans ?_ ((State.setN_touches ..).mono rfl)
  with_reducible refine .trans ?_ ((State.setN_touches ..).mono rfl)
  with_reducible refine .trans ?_ ((State.setN_touches ..).mono rfl)
  with_reducible refine .trans ?_ ((State.rangeWrote_touches ..).mono rfl)
  with_reducible refine .upd ?_
  exact .refl _

theorem State.ckptWritten_touches (s : State) : Touches 1125281431553 s (State.ckptWritten s) := by
  unfold State.ckptWritten
  with_reducible exact .iteR (.refl _) (.after ((State.tallyStored_touches ..).mono rfl) (.after ((State.ckptStored_touches ..).mono rfl)
    (.refl _)))

theorem State.checkpointWritten_touches (s : State) : Touches 2306415888611610721 s (State.checkpointWritten s) := by
  unfold State.checkpointWritten
  with_reducible exact .iteR (.refl _) (.after ((State.sealDone_touches ..).mono rfl) (.after ((State.ckptWritten_touches ..).mono rfl)
    (.refl _)))

theorem State.ckptBegin_touches (s : State) : Touches 8589934592 s (State.ckptBegin s) := by
  unfold State.ckptBegin
  with_reducible exact .upd (.refl _)

theorem State.ckptDue_touches (s : State) : Touches 8589934592 s (State.ckptDue s) := by
  unfold State.ckptDue
  with_reducible exact .iteL (.refl _) (.after ((State.ckptBegin_touches ..).mono rfl) (.refl _))

theorem State.clearAccepted_touches (s : State) : Touches 5905621088 s (State.clearAccepted s) := by
  unfold State.clearAccepted
  with_reducible exact .after ((State.clearRecord_touches ..).mono rfl) (.after ((State.queueUnit_touches ..).mono rfl) (.upd (.refl _)))

theorem State.clearCounters_touches (s : State) : Touches 1 s (State.clearCounters s) := by
  unfold State.clearCounters
  with_reducible exact .after (forEach_touches (hf := fun _ _ => .after ((State.setN_touches ..).mono rfl) (.after
    ((State.setN_touches ..).mono rfl) (.after ((State.setN_touches ..).mono rfl) (.refl _)))) ..) (.refl _)

theorem State.clearDrvFault_touches (s : State) (w : Nat) : Touches 288230376151711744 s (State.clearDrvFault s w) := by
  unfold State.clearDrvFault
  with_reducible exact .upd (.refl _)

theorem State.clearEvStatus_touches (s : State) (p : Fin 8) (w : Nat) : Touches 1099528404993 s (State.clearEvStatus s p w) := by
  unfold State.clearEvStatus
  with_reducible exact .after ((State.updPoint_touches ..).mono rfl) (.after ((State.put_touches ..).mono rfl) (.refl _))

theorem State.clearPortFlags_touches (s : State) (p : Fin 8) (c : Fin 7) (w : Nat) : Touches 1099528404993 s (State.clearPortFlags s p c w) := by
  unfold State.clearPortFlags
  with_reducible exact .after ((State.updChan_touches ..).mono rfl) (.after ((State.put_touches ..).mono rfl) (.refl _))

theorem State.clearSticky_touches (s : State) (w : Nat) : Touches 576461856110018561 s (State.clearSticky s w) := by
  unfold State.clearSticky
  with_reducible exact .iteL (.refl _) (.after ((State.keepMarks_touches ..).mono rfl) (.after (forEach_touches (hf := fun _ _ => .after
    ((State.updSrc_touches ..).mono rfl) (.refl _)) ..) (.after ((State.put_touches ..).mono rfl) (.refl _))))

theorem State.clearStrings_touches (s : State) : Touches 288231479421435905 s (State.clearStrings s) := by
  unfold State.clearStrings
  with_reducible exact .iteR (.refl _) (.after ((State.compose_touches ..).mono rfl) (.after ((State.slackAll_touches ..).mono rfl)
    (.refl _)))

theorem State.clearTwin_touches (s : State) (h : Requester) (first : Bool) (fault : Bool) : Touches 576462063879102561 s (State.clearTwin s
  h first fault) := by
  unfold State.clearTwin
  with_reducible exact .ite (.after ((State.replyWrite_touches ..).mono rfl) (.after ((State.source_touches ..).mono rfl) (.refl _))) (.ite
    (.after ((State.replyWrite_touches ..).mono rfl) (.refl _)) (.after ((State.replyWrite_touches ..).mono rfl) (.after
    ((State.clearAccepted_touches ..).mono rfl) (.refl _))))

theorem State.clockGroups_touches (s : State) : Touches 1048576 s (State.clockGroups s) := by
  unfold State.clockGroups
  with_reducible exact .after (forEach_touches (hf := fun _ _ => .iteL (.refl _) (.upd (.refl _))) ..) (.refl _)

theorem State.closeCommitted_touches (s : State) (ps : List (Fin 8)) : Touches 216172782113783808 s (State.closeCommitted s ps) := by
  unfold State.closeCommitted
  with_reducible exact .upd (.after (forEach_touches (hf := fun _ _ => .after ((State.updSession_touches ..).mono rfl) (.refl _)) ..)
    (.refl _))

theorem State.closeTableau_touches (s : State) : Touches 1305670057984 s (State.closeTableau s) := by
  unfold State.closeTableau
  split
  with_reducible refine .trans ?_ (forEach_touches (hf := ?_) ..)
  with_reducible refine .upd ?_
  exact .refl _
  intro _
  intro _
  with_reducible refine .trans ?_ ((State.reply_touches ..).mono rfl)
  exact .refl _
  exact .refl _

theorem State.closeLocal_touches (s : State) : Touches 1305670057984 s (State.closeLocal s) := by
  unfold State.closeLocal
  split
  with_reducible refine .iteL ?_ ?_
  exact .refl _
  with_reducible refine .trans ?_ ((State.closeTableau_touches ..).mono rfl)
  exact .refl _
  exact .refl _

theorem State.coefDue_touches (s : State) (p : Fin 8) : Touches 17592186044416 s (State.coefDue s p) := by
  unfold State.coefDue
  with_reducible exact .upd (.refl _)

theorem State.modeWrite_touches (s : State) (v : Nat) : Touches 2306415862841806945 s (State.modeWrite s v).2 := by
  unfold State.modeWrite
  with_reducible refine .iteSnd ?_ ?_
  dsimp only
  exact .refl _
  with_reducible refine .iteSnd ?_ ?_
  dsimp only
  with_reducible refine .trans ?_ ((State.serviceExit_touches ..).mono rfl)
  exact .refl _
  dsimp only
  exact .refl _

theorem State.timeStep_touches (s : State) (v : Int) : Touches 1099511628801 s (State.timeStep s v).2 := by
  unfold State.timeStep
  with_reducible refine .iteSnd ?_ ?_
  dsimp only
  exact .refl _
  with_reducible refine .iteSnd ?_ ?_
  dsimp only
  exact .refl _
  dsimp only
  with_reducible refine .upd ?_
  with_reducible refine .trans ?_ ((State.setN_touches ..).mono rfl)
  with_reducible refine .trans ?_ ((State.setN_touches ..).mono rfl)
  with_reducible refine .trans ?_ ((State.addSat_touches ..).mono rfl)
  exact .refl _

theorem State.inject_touches (s : State) (l : Fin 3) (w : Nat) : Touches 775163750645761 s (State.inject s l w) := by
  unfold State.inject
  with_reducible exact .after ((State.kick_touches ..).mono rfl) (.after ((State.updCouple_touches ..).mono rfl) (.after
    ((State.put_touches ..).mono rfl) (.refl _)))

theorem State.injectWrite_touches (s : State) (v : Nat) (ok : Bool) : Touches 775163750645761 s (State.injectWrite s v ok).2 := by
  unfold State.injectWrite
  with_reducible refine .iteSnd ?_ ?_
  dsimp only
  exact .refl _
  with_reducible refine .iteSnd ?_ ?_
  dsimp only
  exact .refl _
  with_reducible refine .iteSnd ?_ ?_
  dsimp only
  with_reducible refine .trans ?_ ((State.inject_touches ..).mono rfl)
  exact .refl _
  dsimp only
  exact .refl _

theorem State.sendDown_touches (s : State) (type : Nat) (payload : List Byte) : Touches 1152921504606846976 s (State.sendDown s type
  payload) := by
  unfold State.sendDown
  with_reducible exact .after (forEach_touches (hf := fun _ _ => .after ((State.sendFrame_touches ..).mono rfl) (.refl _)) ..) (.refl _)

theorem State.siteDown_touches (s : State) (op : Nat) (id : Nat) (f : Nat) (limit : Nat) : Touches 1152921504606846976 s (State.siteDown s
  op id f limit) := by
  unfold State.siteDown
  with_reducible exact .after ((State.sendDown_touches ..).mono rfl) (.refl _)

theorem State.openTableau_touches (s : State) (id : Nat) (f : Nat) (site : Bool) : Touches 1099511627777 s (State.openTableau s id f site) := by
  unfold State.openTableau
  with_reducible exact .after ((State.setN_touches ..).mono rfl) (.after ((State.setN_touches ..).mono rfl) (.upd (.refl _)))

theorem State.siteBegin_touches (s : State) (id : Nat) (f : Nat) (limit : Nat) (own : Option Nat) : Touches 1152922810276904961 s
  (State.siteBegin s id f limit own) := by
  unfold State.siteBegin
  with_reducible exact .upd (.after (forEach_touches (hf := fun _ _ => .after ((State.updThb_touches ..).mono rfl) (.refl _)) ..) (.after
    ((State.setN_touches ..).mono rfl) (.after ((State.setN_touches ..).mono rfl) (.after ((State.setN_touches ..).mono rfl) (.after
    ((State.setN_touches ..).mono rfl) (.after ((State.setN_touches ..).mono rfl) (.after ((State.setN_touches ..).mono rfl) (.iteR (.after
    ((State.closeTableau_touches ..).mono rfl) (.refl _)) (.after ((State.openTableau_touches ..).mono rfl) (.refl _))))))))))

theorem State.siteOpenCmd_touches (s : State) {r : State} (hr : State.siteOpenCmd s = some r) : Touches 1152922810276904961 s r := by
  unfold State.siteOpenCmd at hr
  simp only [Option.some.injEq, reduceCtorEq] at hr
  split at hr
  simp only [Option.some.injEq, reduceCtorEq] at hr
  subst hr
  with_reducible refine .trans ?_ ((State.siteDown_touches ..).mono rfl)
  with_reducible refine .trans ?_ ((State.siteBegin_touches ..).mono rfl)
  exact .refl _
  simp only [Option.some.injEq, reduceCtorEq] at hr

theorem State.siteEnd_touches (s : State) : Touches 1152922810276904961 s (State.siteEnd s) := by
  unfold State.siteEnd
  with_reducible refine .trans ?_ ((State.setN_touches ..).mono rfl)
  with_reducible refine .upd ?_
  split
  with_reducible refine .iteR ?_ ?_
  exact .refl _
  with_reducible refine .trans ?_ ((State.closeTableau_touches ..).mono rfl)
  exact .refl _
  exact .refl _

theorem State.siteCloseCmd_touches (s : State) {r : State} (hr : State.siteCloseCmd s = some r) : Touches 1152922810276904961 s r := by
  unfold State.siteCloseCmd at hr
  split at hr
  split at hr
  simp only [Option.some.injEq, reduceCtorEq] at hr
  subst hr
  with_reducible refine .trans ?_ ((State.siteDown_touches ..).mono rfl)
  with_reducible refine .trans ?_ ((State.siteEnd_touches ..).mono rfl)
  exact .refl _
  simp only [Option.some.injEq, reduceCtorEq] at hr
  simp only [Option.some.injEq, reduceCtorEq] at hr

theorem State.siteWrite_touches (s : State) (v : Nat) : Touches 1152922810276904961 s (State.siteWrite s v).2 := by
  unfold State.siteWrite
  split
  with_reducible refine .iteSnd ?_ ?_
  dsimp only
  exact .refl _
  split
  dsimp only
  refine .trans ?_ ((State.siteOpenCmd_touches (hr := by assumption) ..).mono rfl)
  exact .refl _
  dsimp only
  exact .refl _
  with_reducible refine .iteSnd ?_ ?_
  dsimp only
  exact .refl _
  split
  dsimp only
  refine .trans ?_ ((State.siteCloseCmd_touches (hr := by assumption) ..).mono rfl)
  exact .refl _
  dsimp only
  exact .refl _

theorem State.sessionCommand_touches (s : State) (h : Requester) (p : Fin 8) (v : Nat) : Touches 72058693549555713 s (State.sessionCommand
  s h p v).2 := by
  unfold State.sessionCommand
  with_reducible refine .iteSnd ?_ ?_
  with_reducible refine .iteSnd ?_ ?_
  dsimp only
  with_reducible refine .trans ?_ ((State.updSession_touches ..).mono rfl)
  exact .refl _
  with_reducible refine .iteSnd ?_ ?_
  dsimp only
  with_reducible refine .trans ?_ ((State.acceptOpen_touches ..).mono rfl)
  exact .refl _
  dsimp only
  exact .refl _
  with_reducible refine .iteSnd ?_ ?_
  split
  dsimp only
  refine .trans ?_ ((State.acceptClose_touches (hr := by assumption) ..).mono rfl)
  exact .refl _
  dsimp only
  exact .refl _
  dsimp only
  exact .refl _

theorem State.finishSub_touches (s : State) (sub : LaneSub) (n : Nat) : Touches 8053260289 s (State.finishSub s sub n) := by
  unfold State.finishSub
  with_reducible exact .after ((State.recordDevice_touches ..).mono rfl) (.ite (.after ((State.health_touches ..).mono rfl) (.upd (.after
    ((State.updLane_touches ..).mono rfl) (.after ((State.updLane_touches ..).mono rfl) (.refl _))))) (.after
    ((State.health_touches ..).mono rfl) (.after ((State.setN_touches ..).mono rfl) (.after ((State.setN_touches ..).mono rfl) (.after
    ((State.setN_touches ..).mono rfl) (.after ((State.setN_touches ..).mono rfl) (.upd (.after ((State.updLane_touches ..).mono rfl)
    (.after ((State.updLane_touches ..).mono rfl) (.refl _))))))))))

theorem State.handOver_touches (s : State) (p : Fin 8) (n : Nat) : Touches 8070037505 s (State.handOver s p n) := by
  unfold State.handOver
  split
  exact .refl _
  with_reducible refine .iteR ?_ ?_
  exact .refl _
  with_reducible refine .ite ?_ ?_
  with_reducible refine .trans ?_ ((State.finishSub_touches ..).mono rfl)
  with_reducible refine .trans ?_ ((State.updPoint_touches ..).mono rfl)
  exact .refl _
  with_reducible refine .upd ?_
  with_reducible refine .trans ?_ ((State.updPoint_touches ..).mono rfl)
  exact .refl _

theorem State.handOverOff_touches (s : State) (n : Nat) : Touches 8070037505 s (State.handOverOff s n) := by
  unfold State.handOverOff
  split
  exact .refl _
  with_reducible refine .trans ?_ (forEach_touches (hf := ?_) ..)
  exact .refl _
  intro _
  intro _
  with_reducible refine .trans ?_ ((State.handOver_touches ..).mono rfl)
  exact .refl _

theorem State.startShadow_touches (s : State) (leaving : Fin 5) (shadow : Fin 5) (restore : Bool) : Touches 8070037505 s (State.startShadow
  s leaving shadow restore) := by
  unfold State.startShadow
  with_reducible exact .ite (.after ((State.finishSub_touches ..).mono rfl) (.after ((State.updLane_touches ..).mono rfl) (.after
    (forEach_touches (hf := fun _ _ => .after ((State.updPoint_touches ..).mono rfl) (.refl _)) ..) (.refl _)))) (.after
    ((State.handOverOff_touches ..).mono rfl) (.upd (.after ((State.updLane_touches ..).mono rfl) (.after (forEach_touches (hf := fun _ _
    => .after ((State.updPoint_touches ..).mono rfl) (.refl _)) ..) (.refl _)))))

theorem State.endShadow_touches (s : State) (sub : LaneSub) : Touches 196608 s (State.endShadow s sub) := by
  unfold State.endShadow
  with_reducible exact .upd (.after ((State.updLane_touches ..).mono rfl) (.ite (.after ((State.updLane_touches ..).mono rfl) (.refl _))
    (.after ((State.updLane_touches ..).mono rfl) (.refl _))))

theorem State.declareWorn_touches (s : State) (l : Fin 5) (p : Nat) : Touches 8070037505 s (State.declareWorn s l p) := by
  unfold State.declareWorn
  dsimp only
  split
  with_reducible refine .ite ?_ ?_
  with_reducible refine .trans ?_ ((State.startShadow_touches ..).mono rfl)
  with_reducible refine .trans ?_ ((State.health_touches ..).mono rfl)
  with_reducible refine .trans ?_ ((State.updLane_touches ..).mono rfl)
  exact .refl _
  with_reducible refine .trans ?_ ((State.updLane_touches ..).mono rfl)
  with_reducible refine .trans ?_ ((State.health_touches ..).mono rfl)
  with_reducible refine .trans ?_ ((State.updLane_touches ..).mono rfl)
  exact .refl _
  split
  with_reducible refine .trans ?_ ((State.endShadow_touches ..).mono rfl)
  with_reducible refine .trans ?_ ((State.health_touches ..).mono rfl)
  exact .refl _
  exact .refl _
  exact .refl _

theorem State.substituteLane_touches (s : State) (l : Fin 4) : Touches 8070037505 s (State.substituteLane s l).2 := by
  unfold State.substituteLane
  with_reducible refine .iteSnd ?_ ?_
  dsimp only
  with_reducible refine .trans ?_ ((State.declareWorn_touches ..).mono rfl)
  exact .refl _
  dsimp only
  exact .refl _

theorem State.restoreLane_touches (s : State) (l : Fin 4) : Touches 2305843009213759488 s (State.restoreLane s l).2 := by
  unfold State.restoreLane
  with_reducible refine .iteSnd ?_ ?_
  dsimp only
  with_reducible refine .upd ?_
  with_reducible refine .trans ?_ ((State.updLane_touches ..).mono rfl)
  exact .refl _
  dsimp only
  exact .refl _

theorem State.laneWrite_touches (s : State) (v : Nat) : Touches 2305843017283731457 s (State.laneWrite s v).2 := by
  unfold State.laneWrite
  with_reducible refine .iteSnd ?_ ?_
  dsimp only
  exact .refl _
  with_reducible refine .iteSnd ?_ ?_
  dsimp only
  with_reducible refine .trans ?_ ((State.substituteLane_touches ..).mono rfl)
  exact .refl _
  with_reducible refine .iteSnd ?_ ?_
  dsimp only
  with_reducible refine .trans ?_ ((State.restoreLane_touches ..).mono rfl)
  exact .refl _
  dsimp only
  exact .refl _

theorem State.mdReset_touches (s : State) (p : Fin 8) : Touches 1099511627777 s (State.mdReset s p) := by
  unfold State.mdReset
  with_reducible exact .after ((State.put_touches ..).mono rfl) (.after ((State.put_touches ..).mono rfl) (.after
    ((State.put_touches ..).mono rfl) (.after ((State.put_touches ..).mono rfl) (.refl _))))

theorem State.latClear_touches (s : State) : Touches 1 s (State.latClear s) := by
  unfold State.latClear
  with_reducible exact .after (forEach_touches (hf := fun _ _ => .after ((State.setN_touches ..).mono rfl) (.after
    ((State.setN_touches ..).mono rfl) (.after ((State.setN_touches ..).mono rfl) (.refl _)))) ..) (.refl _)

theorem State.command_touches (s : State) (h : Requester) (d : Desc) (idx : Nat) (sub : Nat) (data : List Byte) : Touches
  4396297402332681313 s (State.command s h d idx sub data).2 := by
  unfold State.command
  with_reducible refine .iteSnd ?_ ?_
  dsimp only
  exact .refl _
  with_reducible refine .iteSnd ?_ ?_
  dsimp only
  exact .refl _
  with_reducible refine .iteSnd ?_ ?_
  dsimp only
  exact .refl _
  with_reducible refine .iteSnd ?_ ?_
  dsimp only
  exact .refl _
  with_reducible refine .iteSnd ?_ ?_
  dsimp only
  exact .refl _
  with_reducible refine .iteSnd ?_ ?_
  with_reducible refine .trans ?_ ((State.modeWrite_touches ..).mono rfl)
  exact .refl _
  with_reducible refine .iteSnd ?_ ?_
  with_reducible refine .trans ?_ ((State.authCommand_touches ..).mono rfl)
  exact .refl _
  with_reducible refine .iteSnd ?_ ?_
  dsimp only
  with_reducible refine .trans ?_ ((State.timeStep_touches ..).mono rfl)
  exact .refl _
  with_reducible refine .iteSnd ?_ ?_
  with_reducible refine .trans ?_ ((State.calWrite_touches ..).mono rfl)
  exact .refl _
  with_reducible refine .iteSnd ?_ ?_
  with_reducible refine .trans ?_ ((State.injectWrite_touches ..).mono rfl)
  exact .refl _
  with_reducible refine .iteSnd ?_ ?_
  with_reducible refine .trans ?_ ((State.auxWrite_touches ..).mono rfl)
  exact .refl _
  with_reducible refine .iteSnd ?_ ?_
  with_reducible refine .trans ?_ ((State.siteWrite_touches ..).mono rfl)
  exact .refl _
  with_reducible refine .iteSnd ?_ ?_
  with_reducible refine .trans ?_ ((State.sessionCommand_touches ..).mono rfl)
  exact .refl _
  with_reducible refine .iteSnd ?_ ?_
  with_reducible refine .trans ?_ ((State.laneWrite_touches ..).mono rfl)
  exact .refl _
  with_reducible refine .iteSnd ?_ ?_
  dsimp only
  exact .refl _
  with_reducible refine .iteSnd ?_ ?_
  dsimp only
  with_reducible refine .trans ?_ ((State.mdReset_touches ..).mono rfl)
  exact .refl _
  with_reducible refine .iteSnd ?_ ?_
  dsimp only
  with_reducible refine .trans ?_ ((State.clearStrings_touches ..).mono rfl)
  exact .refl _
  with_reducible refine .iteSnd ?_ ?_
  dsimp only
  with_reducible refine .trans ?_ ((State.latClear_touches ..).mono rfl)
  exact .refl _
  dsimp only
  with_reducible refine .trans ?_ ((State.clearCounters_touches ..).mono rfl)
  exact .refl _

theorem State.comparePairs_touches (s : State) (bits : List Nat) : Touches 1103287025665 s (State.comparePairs s bits) := by
  unfold State.comparePairs
  with_reducible refine .trans ?_ (forEach_touches (hf := ?_) ..)
  exact .refl _
  intro _
  intro _
  dsimp only
  split
  with_reducible refine .iteR ?_ ?_
  with_reducible refine .iteR ?_ ?_
  exact .refl _
  with_reducible refine .trans ?_ ((State.updSpare_touches ..).mono rfl)
  exact .refl _
  with_reducible refine .iteR ?_ ?_
  with_reducible refine .trans ?_ ((State.updSpare_touches ..).mono rfl)
  split
  split
  with_reducible refine .trans ?_ ((State.setPortFlag_touches ..).mono rfl)
  exact .refl _
  exact .refl _
  split
  with_reducible refine .trans ?_ ((State.setPortFlag_touches ..).mono rfl)
  exact .refl _
  exact .refl _
  with_reducible refine .trans ?_ ((State.spareFaulty_touches ..).mono rfl)
  exact .refl _
  with_reducible refine .iteR ?_ ?_
  exact .refl _
  with_reducible refine .trans ?_ ((State.updSpare_touches ..).mono rfl)
  exact .refl _

theorem State.compensationEnd_touches (s : State) (seg : Fin 192) : Touches 288230376151711744 s (State.compensationEnd s seg) := by
  unfold State.compensationEnd
  with_reducible exact .iteL (.refl _) (.upd (.refl _))

theorem State.conflict_touches (s : State) (m : Fin 11) (o : Fin 11) : Touches 1099511627777 s (State.conflict s m o) := by
  unfold State.conflict
  with_reducible exact .iteL (.refl _) (.after ((State.addSat_touches ..).mono rfl) (.after ((State.addSat_touches ..).mono rfl)
    (.refl _)))

theorem State.nvmError_touches (s : State) (kind : Nat) (byte : Nat) (group : Nat) : Touches 1 s (State.nvmError s kind byte group) := by
  unfold State.nvmError
  with_reducible exact .after ((State.setN_touches ..).mono rfl) (.after ((State.setN_touches ..).mono rfl) (.refl _))

theorem State.consistency_touches (s : State) (group : Nat) (value : Nat) : Touches 576461856110018561 s (State.consistency s group value) := by
  unfold State.consistency
  with_reducible exact .after ((State.source_touches ..).mono rfl) (.after ((State.nvmError_touches ..).mono rfl) (.after
    ((State.addSat_touches ..).mono rfl) (.refl _)))

theorem State.scratchLost_touches (s : State) (g : Nat) : Touches 34359738376 s (State.scratchLost s g) := by
  unfold State.scratchLost
  with_reducible refine .upd ?_
  with_reducible refine .foldlSnd (hf := ?_) ?_
  intro _
  intro _
  dsimp only
  with_reducible refine .trans ?_ ((State.fresh_touches ..).mono rfl)
  exact .refl _
  dsimp only
  exact .refl _

theorem State.loseTally_touches (s : State) (k : Nat) : Touches 576461865773694977 s (State.loseTally s k) := by
  unfold State.loseTally
  with_reducible refine .trans ?_ ((State.consistency_touches ..).mono rfl)
  with_reducible refine .upd ?_
  with_reducible refine .trans ?_ ((State.setN_touches ..).mono rfl)
  split
  with_reducible refine .trans ?_ ((State.setLog_touches ..).mono rfl)
  exact .refl _
  exact .refl _

theorem State.loseSlot_touches (s : State) (k : LogKind) (slot : Nat) : Touches 1073741824 s (State.loseSlot s k slot) := by
  unfold State.loseSlot
  dsimp only
  split
  with_reducible refine .trans ?_ ((State.setLog_touches ..).mono rfl)
  exact .refl _
  exact .refl _

theorem State.structureLost_touches (s : State) (o : NvmObs) : Touches 1008807690383695977 s (State.structureLost s o) := by
  unfold State.structureLost
  with_reducible refine .iteL ?_ ?_
  exact .refl _
  with_reducible refine .ite ?_ ?_
  with_reducible refine .iteR ?_ ?_
  exact .refl _
  with_reducible refine .trans ?_ ((State.destroyKeys_touches ..).mono rfl)
  exact .refl _
  with_reducible refine .ite ?_ ?_
  with_reducible refine .iteR ?_ ?_
  exact .refl _
  with_reducible refine .trans ?_ ((State.integrity_touches ..).mono rfl)
  exact .refl _
  with_reducible refine .ite ?_ ?_
  with_reducible refine .upd ?_
  exact .refl _
  with_reducible refine .ite ?_ ?_
  with_reducible refine .upd ?_
  exact .refl _
  with_reducible refine .ite ?_ ?_
  with_reducible refine .iteR ?_ ?_
  exact .refl _
  with_reducible refine .trans ?_ ((State.integrity_touches ..).mono rfl)
  exact .refl _
  with_reducible refine .ite ?_ ?_
  with_reducible refine .upd ?_
  exact .refl _
  with_reducible refine .ite ?_ ?_
  with_reducible refine .trans ?_ ((State.health_touches ..).mono rfl)
  with_reducible refine .trans ?_ ((State.setN_touches ..).mono rfl)
  exact .refl _
  with_reducible refine .ite ?_ ?_
  with_reducible refine .iteR ?_ ?_
  exact .refl _
  with_reducible refine .trans ?_ ((State.loseTally_touches ..).mono rfl)
  exact .refl _
  split
  with_reducible refine .trans ?_ ((State.answerAny_touches ..).mono rfl)
  with_reducible refine .trans ?_ ((State.loseSlot_touches ..).mono rfl)
  exact .refl _
  with_reducible refine .ite ?_ ?_
  with_reducible refine .upd ?_
  exact .refl _
  with_reducible refine .ite ?_ ?_
  with_reducible refine .trans ?_ ((State.setN_touches ..).mono rfl)
  exact .refl _
  with_reducible refine .trans ?_ ((State.answerAny_touches ..).mono rfl)
  with_reducible refine .iteL ?_ ?_
  exact .refl _
  with_reducible refine .trans ?_ ((State.scratchLost_touches ..).mono rfl)
  exact .refl _

theorem State.contentWrong_touches (s : State) (o : NvmObs) : Touches 1008807690383695977 s (State.contentWrong s o) := by
  unfold State.contentWrong
  with_reducible refine .ite ?_ ?_
  with_reducible refine .iteR ?_ ?_
  exact .refl _
  with_reducible refine .trans ?_ ((State.setN_touches ..).mono rfl)
  with_reducible refine .trans ?_ ((State.fresh_touches ..).mono rfl)
  exact .refl _
  with_reducible refine .ite ?_ ?_
  with_reducible refine .trans ?_ ((State.scratchLost_touches ..).mono rfl)
  exact .refl _
  with_reducible refine .iteL ?_ ?_
  exact .refl _
  with_reducible refine .trans ?_ ((State.structureLost_touches ..).mono rfl)
  exact .refl _

theorem State.convPowerDown_touches (s : State) (a : Fin 8) : Touches 70368744177664 s (State.convPowerDown s a) := by
  unfold State.convPowerDown
  with_reducible exact .iteL (.refl _) (.after ((State.updConv_touches ..).mono rfl) (.refl _))

theorem State.sumConversion_touches (s : State) (l : Fin 3) (lead : Bool) (put : AuxSum → AuxSum) (edge : Nat) : Touches 775163750645761 s
  (State.sumConversion s l lead put edge) := by
  unfold State.sumConversion
  with_reducible exact .ite (.iteR (.after ((State.updCouple_touches ..).mono rfl) (.refl _)) (.after ((State.updCouple_touches ..).mono
    rfl) (.refl _))) (.iteR (.refl _) (.iteR (.after ((State.updCouple_touches ..).mono rfl) (.refl _)) (.ite (.after
    ((State.updCouple_touches ..).mono rfl) (.after ((State.updCouple_touches ..).mono rfl) (.refl _))) (.after
    ((State.nextResult_touches ..).mono rfl) (.after ((State.updCouple_touches ..).mono rfl) (.refl _))))))

theorem State.conversionEnd_touches (s : State) (a : Fin 8) (code : Int) (edge : Nat) (waits : Nat) : Touches 775163750645761 s
  (State.conversionEnd s a code edge waits) := by
  unfold State.conversionEnd
  with_reducible refine .iteL ?_ ?_
  exact .refl _
  dsimp only
  split
  with_reducible refine .trans ?_ ((State.updConv_touches ..).mono rfl)
  with_reducible refine .trans ?_ (forEach_touches (hf := ?_) ..)
  with_reducible refine .trans ?_ ((State.addSat_touches ..).mono rfl)
  exact .refl _
  intro _
  intro _
  with_reducible refine .trans ?_ ((State.updConv_touches ..).mono rfl)
  exact .refl _
  with_reducible refine .trans ?_ ((State.kick_touches ..).mono rfl)
  with_reducible refine .trans ?_ ((State.sumConversion_touches ..).mono rfl)
  with_reducible refine .trans ?_ ((State.updConv_touches ..).mono rfl)
  with_reducible refine .trans ?_ (forEach_touches (hf := ?_) ..)
  with_reducible refine .trans ?_ ((State.addSat_touches ..).mono rfl)
  exact .refl _
  intro _
  intro _
  with_reducible refine .trans ?_ ((State.updConv_touches ..).mono rfl)
  exact .refl _

theorem State.copyBackEnd_touches (s : State) : Touches 6756498952683521 s (State.copyBackEnd s) := by
  unfold State.copyBackEnd
  dsimp only
  split
  with_reducible refine .upd ?_
  exact .refl _
  with_reducible refine .ite ?_ ?_
  with_reducible refine .upd ?_
  exact .refl _
  with_reducible refine .ite ?_ ?_
  with_reducible refine .upd ?_
  exact .refl _
  with_reducible refine .iteR ?_ ?_
  with_reducible refine .trans ?_ ((State.setN_touches ..).mono rfl)
  with_reducible refine .upd ?_
  exact .refl _
  with_reducible refine .trans ?_ ((State.addWrap_touches ..).mono rfl)
  exact .refl _

theorem State.putCopy_touches (s : State) (k : LogKind) (q : Nat) (copy : Nat) (bytes : List Byte) : Touches 18253611008 s (State.putCopy s
  k q copy bytes) := by
  unfold State.putCopy
  dsimp only
  split
  with_reducible refine .trans ?_ ((State.rangeWrote_touches ..).mono rfl)
  with_reducible refine .trans ?_ ((State.setLog_touches ..).mono rfl)
  exact .refl _
  with_reducible refine .trans ?_ ((State.setLog_touches ..).mono rfl)
  exact .refl _

theorem State.copyWritten_touches (s : State) : Touches 18790481920 s (State.copyWritten s).1 := by
  unfold State.copyWritten
  split
  dsimp only
  exact .refl _
  split
  dsimp only
  with_reducible refine .trans ?_ ((State.startJob_touches ..).mono rfl)
  exact .refl _
  with_reducible refine .iteFst ?_ ?_
  dsimp only
  with_reducible refine .upd ?_
  with_reducible refine .trans ?_ ((State.putCopy_touches ..).mono rfl)
  exact .refl _
  dsimp only
  with_reducible refine .trans ?_ ((State.startJob_touches ..).mono rfl)
  with_reducible refine .upd ?_
  with_reducible refine .trans ?_ ((State.putCopy_touches ..).mono rfl)
  exact .refl _

theorem State.correct_touches (s : State) (p : Fin 8) (c : Fin 7) (w : Word20) : Touches 1099528404993 s (State.correct s p c w) := by
  unfold State.correct
  with_reducible exact .after ((State.setQ_touches ..).mono rfl) (.after ((State.updChan_touches ..).mono rfl) (.refl _))

theorem State.coupleConfig_touches (s : State) (l : Fin 3) : Touches 775163750645761 s (State.coupleConfig s l) := by
  unfold State.coupleConfig
  dsimp only
  split
  with_reducible refine .trans ?_ ((State.updCouple_touches ..).mono rfl)
  with_reducible refine .trans ?_ ((State.updCouple_touches ..).mono rfl)
  exact .refl _
  with_reducible refine .ite ?_ ?_
  with_reducible refine .trans ?_ ((State.passStart_touches ..).mono rfl)
  with_reducible refine .trans ?_ ((State.updCouple_touches ..).mono rfl)
  exact .refl _
  with_reducible refine .trans ?_ ((State.updCouple_touches ..).mono rfl)
  with_reducible refine .trans ?_ ((State.updCouple_touches ..).mono rfl)
  exact .refl _
  with_reducible refine .iteR ?_ ?_
  with_reducible refine .trans ?_ ((State.updCouple_touches ..).mono rfl)
  exact .refl _
  with_reducible refine .trans ?_ ((State.passStart_touches ..).mono rfl)
  exact .refl _

theorem State.cutJobs_touches (s : State) : Touches 1610612736 s (State.cutJobs s) := by
  unfold State.cutJobs
  split
  exact .refl _
  with_reducible refine .upd ?_
  split
  with_reducible refine .trans ?_ ((State.setLog_touches ..).mono rfl)
  exact .refl _
  exact .refl _

theorem State.cutTallies_touches (s : State) (done : Nat) (groups : Nat) : Touches 8589934592 s (State.cutTallies s done groups) := by
  unfold State.cutTallies
  with_reducible exact .upd (.refl _)

theorem State.deferredDecision_touches (s : State) (fault : Option Nat) : Touches 720577044185882721 s (State.deferredDecision s fault) := by
  unfold State.deferredDecision
  with_reducible refine .ite ?_ ?_
  with_reducible refine .upd ?_
  with_reducible refine .trans ?_ ((State.setN_touches ..).mono rfl)
  exact .refl _
  with_reducible refine .upd ?_
  with_reducible refine .ite ?_ ?_
  with_reducible refine .trans ?_ ((State.setN_touches ..).mono rfl)
  with_reducible refine .trans ?_ ((State.applyDecision_touches ..).mono rfl)
  with_reducible refine .trans ?_ (forEach_touches (hf := ?_) ..)
  with_reducible refine .trans ?_ ((State.takeSet_touches ..).mono rfl)
  exact .refl _
  intro _
  intro _
  dsimp only
  split
  with_reducible refine .iteL ?_ ?_
  with_reducible refine .trans ?_ ((State.addSat_touches ..).mono rfl)
  exact .refl _
  with_reducible refine .trans ?_ ((State.put_touches ..).mono rfl)
  exact .refl _
  with_reducible refine .trans ?_ ((State.addSat_touches ..).mono rfl)
  exact .refl _
  with_reducible refine .trans ?_ ((State.setN_touches ..).mono rfl)
  with_reducible refine .trans ?_ ((State.applyDecision_touches ..).mono rfl)
  with_reducible refine .trans ?_ (forEach_touches (hf := ?_) ..)
  with_reducible refine .trans ?_ ((State.takeSet_touches ..).mono rfl)
  exact .refl _
  intro _
  intro _
  dsimp only
  split
  with_reducible refine .iteL ?_ ?_
  with_reducible refine .trans ?_ ((State.addSat_touches ..).mono rfl)
  exact .refl _
  with_reducible refine .trans ?_ ((State.put_touches ..).mono rfl)
  exact .refl _
  with_reducible refine .trans ?_ ((State.addSat_touches ..).mono rfl)
  exact .refl _

theorem State.delayReqFrom_touches (s : State) (k : Fin 4) (t3 : Nat) (t4 : Nat) : Touches 1152921504606846976 s (State.delayReqFrom s k t3
  t4) := by
  unfold State.delayReqFrom
  with_reducible exact .after ((State.sendFrame_touches ..).mono rfl) (.refl _)

theorem State.updTime_touches (s : State) (f : ThbTime → ThbTime) : Touches 1152921504606846976 s (State.updTime s f) := by
  unfold State.updTime
  with_reducible exact .upd (.refl _)

theorem State.delayReqSend_touches (s : State) : Touches 1152921504606846976 s (State.delayReqSend s) := by
  unfold State.delayReqSend
  with_reducible exact .iteR (.refl _) (.after ((State.updTime_touches ..).mono rfl) (.after ((State.sendFrame_touches ..).mono rfl)
    (.refl _)))

theorem State.intrusion_touches (s : State) (kind : Nat) (k : Fin 4) : Touches 576461856110018561 s (State.intrusion s kind k) := by
  unfold State.intrusion
  with_reducible exact .after ((State.source_touches ..).mono rfl) (.after ((State.setN_touches ..).mono rfl) (.after
    ((State.setN_touches ..).mono rfl) (.after ((State.addSat_touches ..).mono rfl) (.refl _))))

theorem State.timeJump_touches (s : State) : Touches 1729383360716865537 s (State.timeJump s) := by
  unfold State.timeJump
  with_reducible exact .after ((State.updTime_touches ..).mono rfl) (.after ((State.intrusion_touches ..).mono rfl) (.after
    ((State.setN_touches ..).mono rfl) (.after ((State.lockLost_touches ..).mono rfl) (.refl _))))

theorem State.setPull_touches (s : State) (v : Int) : Touches 1 s (State.setPull s v) := by
  unfold State.setPull
  with_reducible exact .iteR (.after ((State.setN_touches ..).mono rfl) (.refl _)) (.after ((State.setN_touches ..).mono rfl) (.refl _))

theorem State.enterLocked_touches (s : State) : Touches 1152921504606847233 s (State.enterLocked s) := by
  unfold State.enterLocked
  with_reducible exact .after ((State.updTime_touches ..).mono rfl) (.ite (.after ((State.setN_touches ..).mono rfl) (.upd (.after
    ((State.setN_touches ..).mono rfl) (.after ((State.setN_touches ..).mono rfl) (.after ((State.setN_touches ..).mono rfl) (.refl _))))))
    (.upd (.after ((State.setN_touches ..).mono rfl) (.after ((State.setN_touches ..).mono rfl) (.after ((State.setN_touches ..).mono rfl)
    (.refl _))))))

theorem State.thbAcquire_touches (s : State) : Touches 1152922604118474753 s (State.thbAcquire s) := by
  unfold State.thbAcquire
  with_reducible exact .after ((State.updTime_touches ..).mono rfl) (.after ((State.setN_touches ..).mono rfl) (.after
    ((State.lockLost_touches ..).mono rfl) (.refl _)))

theorem State.steer_touches (s : State) (off : Int) : Touches 1152922604118475017 s (State.steer s off) := by
  unfold State.steer
  dsimp only
  split
  with_reducible refine .iteR ?_ ?_
  with_reducible refine .trans ?_ ((State.updTime_touches ..).mono rfl)
  with_reducible refine .trans ?_ ((State.updTime_touches ..).mono rfl)
  with_reducible refine .trans ?_ ((State.fresh_touches ..).mono rfl)
  exact .refl _
  with_reducible refine .trans ?_ ((State.updTime_touches ..).mono rfl)
  with_reducible refine .trans ?_ ((State.setPull_touches ..).mono rfl)
  exact .refl _
  with_reducible refine .iteR ?_ ?_
  with_reducible refine .trans ?_ ((State.setPull_touches ..).mono rfl)
  with_reducible refine .trans ?_ ((State.updTime_touches ..).mono rfl)
  with_reducible refine .trans ?_ ((State.fresh_touches ..).mono rfl)
  exact .refl _
  with_reducible refine .trans ?_ ((State.enterLocked_touches ..).mono rfl)
  exact .refl _
  with_reducible refine .ite ?_ ?_
  with_reducible refine .trans ?_ ((State.thbAcquire_touches ..).mono rfl)
  with_reducible refine .trans ?_ ((State.raise_touches ..).mono rfl)
  with_reducible refine .trans ?_ ((State.updTime_touches ..).mono rfl)
  with_reducible refine .trans ?_ ((State.fresh_touches ..).mono rfl)
  exact .refl _
  with_reducible refine .trans ?_ ((State.setPull_touches ..).mono rfl)
  with_reducible refine .iteR ?_ ?_
  with_reducible refine .trans ?_ ((State.raise_touches ..).mono rfl)
  with_reducible refine .trans ?_ ((State.updTime_touches ..).mono rfl)
  with_reducible refine .trans ?_ ((State.fresh_touches ..).mono rfl)
  exact .refl _
  with_reducible refine .trans ?_ ((State.updTime_touches ..).mono rfl)
  exact .refl _
  with_reducible refine .trans ?_ ((State.updTime_touches ..).mono rfl)
  with_reducible refine .trans ?_ ((State.fresh_touches ..).mono rfl)
  exact .refl _

theorem State.delayRespFrom_touches (s : State) (t3 : Nat) (t4 : Nat) : Touches 1729383360716865801 s (State.delayRespFrom s t3 t4) := by
  unfold State.delayRespFrom
  with_reducible exact .iteL (.refl _) (.ite (.after ((State.timeJump_touches ..).mono rfl) (.after ((State.updTime_touches ..).mono rfl)
    (.refl _))) (.after ((State.steer_touches ..).mono rfl) (.after ((State.updTime_touches ..).mono rfl) (.after
    ((State.setN_touches ..).mono rfl) (.after ((State.setN_touches ..).mono rfl) (.after ((State.updTime_touches ..).mono rfl)
    (.refl _)))))))

theorem State.demandEnd_touches (s : State) (n : Nat) (start : Nat) : Touches 1099595513857 s (State.demandEnd s n start) := by
  unfold State.demandEnd
  with_reducible exact .after (forEach_touches (hf := fun _ _ => .ite (.after ((State.finishDemand_touches ..).mono rfl) (.refl _)) (.after
    ((State.updPoint_touches ..).mono rfl) (.refl _))) ..) (.after ((State.setQ_touches ..).mono rfl) (.after ((State.setQ_touches ..).mono
    rfl) (.upd (.after (forEach_touches (hf := fun _ _ => .iteR (.refl _) (.after ((State.finishDemand_touches ..).mono rfl)
    (.refl _))) ..) (.refl _)))))

theorem State.demandIntervalEnd_touches (s : State) : Touches 1099595513857 s (State.demandIntervalEnd s) := by
  unfold State.demandIntervalEnd
  with_reducible exact .iteR (.refl _) (.after ((State.demandEnd_touches ..).mono rfl) (.refl _))

theorem State.demandRecall_touches (s : State) : Touches 1099595513857 s (State.demandRecall s) := by
  unfold State.demandRecall
  with_reducible exact .after (forEach_touches (hf := fun _ _ => .after ((State.put_touches ..).mono rfl) (.refl _)) ..) (.iteL (.iteL
    (.after (forEach_touches (hf := fun _ _ => .iteR (.refl _) (.after ((State.finishDemand_touches ..).mono rfl) (.refl _))) ..)
    (.refl _)) (.after (forEach_touches (hf := fun _ _ => .after ((State.finishDemand_touches ..).mono rfl) (.refl _)) ..) (.upd (.after
    (forEach_touches (hf := fun _ _ => .after ((State.put_touches ..).mono rfl) (.refl _)) ..) (.refl _))))) (.after
    ((State.setN_touches ..).mono rfl) (.after ((State.setN_touches ..).mono rfl) (.upd (.refl _)))))

theorem State.dieTempCheck_touches (s : State) (time : Nat) (t : Int) : Touches 576461856110018817 s (State.dieTempCheck s time t) := by
  unfold State.dieTempCheck
  with_reducible exact .after ((State.checkRun_touches ..).mono rfl) (.after ((State.put_touches ..).mono rfl) (.after
    ((State.at'_touches ..).mono rfl) (.refl _)))

theorem State.displayClamp_touches (s : State) (u : Nat) : Touches 288230376151711744 s (State.displayClamp s u) := by
  unfold State.displayClamp
  with_reducible exact .upd (.iteR (.refl _) (.upd (.refl _)))

theorem State.wantClearing_touches (s : State) : Touches 288230376151711744 s (State.wantClearing s) := by
  unfold State.wantClearing
  with_reducible exact .iteR (.refl _) (.upd (.refl _))

theorem State.displayRecall_touches (s : State) (s2 : Option (Nat × List Int)) (loss : Option Nat) : Touches 288231475663339521 s
  (State.displayRecall s s2 loss) := by
  unfold State.displayRecall
  with_reducible refine .trans ?_ ((State.wantClearing_touches ..).mono rfl)
  split
  with_reducible refine .trans ?_ ((State.setShown_touches ..).mono rfl)
  with_reducible refine .upd ?_
  exact .refl _
  dsimp only
  split
  with_reducible refine .trans ?_ ((State.setShown_touches ..).mono rfl)
  with_reducible refine .upd ?_
  with_reducible refine .trans ?_ ((State.addSat_touches ..).mono rfl)
  exact .refl _
  with_reducible refine .trans ?_ ((State.setShown_touches ..).mono rfl)
  with_reducible refine .upd ?_
  with_reducible refine .trans ?_ ((State.addSat_touches ..).mono rfl)
  exact .refl _
  with_reducible refine .trans ?_ ((State.setShown_touches ..).mono rfl)
  with_reducible refine .upd ?_
  with_reducible refine .trans ?_ ((State.addSat_touches ..).mono rfl)
  exact .refl _

theorem State.setDrvFault_touches (s : State) (mask : Nat) : Touches 288231475663339521 s (State.setDrvFault s mask) := by
  unfold State.setDrvFault
  with_reducible exact .upd (.iteL (.refl _) (.after ((State.addSat_touches ..).mono rfl) (.refl _)))

theorem State.readBack_touches (s : State) (codes : List Nat) : Touches 864692232261730305 s (State.readBack s codes) := by
  unfold State.readBack
  with_reducible refine .iteL (.refl _) ?_
  with_reducible refine .iteL ?_ ?_
  with_reducible refine .trans ?_ ((State.setN_touches ..).mono rfl)
  with_reducible refine .trans ?_ ((State.setN_touches ..).mono rfl)
  exact .refl _
  dsimp only
  split
  with_reducible refine .trans ?_ ((State.source_touches ..).mono rfl)
  with_reducible refine .trans ?_ ((State.addSat_touches ..).mono rfl)
  with_reducible refine .trans ?_ ((State.setDrvFault_touches ..).mono rfl)
  exact .refl _
  with_reducible refine .trans ?_ ((State.addSat_touches ..).mono rfl)
  with_reducible refine .trans ?_ ((State.setDrvFault_touches ..).mono rfl)
  exact .refl _

theorem State.displayWake_touches (s : State) (codes : List Nat) : Touches 864692232261730305 s (State.displayWake s codes) := by
  unfold State.displayWake
  with_reducible refine .iteL (.refl _) ?_
  with_reducible exact .after ((State.compose_touches ..).mono rfl) (.iteL (.refl _) (.after ((State.readBack_touches ..).mono rfl)
    (.refl _)))

theorem State.doneCommitted_touches (s : State) (p : Fin 8) : Touches 72058693549555713 s (State.doneCommitted s p) := by
  unfold State.doneCommitted
  with_reducible exact .after ((State.updSession_touches ..).mono rfl) (.after ((State.put_touches ..).mono rfl) (.refl _))

theorem State.turn_touches (s : State) (l : Link) (m : Message) : Touches 1305670057985 s (State.turn s l m).2 := by
  unfold State.turn
  dsimp only
  split
  dsimp only
  with_reducible refine .trans ?_ ((State.setLink_touches ..).mono rfl)
  exact .refl _
  with_reducible refine .iteSnd ?_ ?_
  dsimp only
  exact .refl _
  with_reducible refine .iteSnd ?_ ?_
  dsimp only
  exact .refl _
  dsimp only
  with_reducible refine .trans ?_ ((State.enqueue_touches ..).mono rfl)
  exact .refl _

theorem State.execute_touches {m : Nat} (s : State) (h : Requester) (op : Nat) (idx : Nat) (sub : Nat) (payload : List Byte) (f : State →
  State) (hm : Nat.lor 1305670057993 m = m) (hf : ∀ u, Touches m u (f u)) : Touches m s (State.execute s h op idx sub payload f) := by
  unfold State.execute
  with_reducible exact .iteL (.after ((State.admitted_touches ..).mono (lor_within rfl hm)) (.refl _)) (.iteR (.after
    ((State.turn_touches ..).mono (lor_within rfl hm)) (.refl _)) (.after (hf ..) (.refl _)))

theorem State.scratchWrite_touches (s : State) (a : Nat) (data : List Byte) (cut : Option Nat) : Touches 51539607552 s (State.scratchWrite
  s a data cut) := by
  unfold State.scratchWrite
  with_reducible exact .after ((State.rangeWrote_touches ..).mono rfl) (.upd (.refl _))

theorem State.scratchHost_touches (s : State) (page : Nat) (sub : Nat) (data : List Byte) (cut : Option Nat) : Touches 51539607552 s
  (State.scratchHost s page sub data cut).2 := by
  unfold State.scratchHost
  with_reducible refine .iteSnd ?_ ?_
  dsimp only
  exact .refl _
  with_reducible refine .iteSnd ?_ ?_
  dsimp only
  exact .refl _
  dsimp only
  with_reducible refine .trans ?_ ((State.scratchWrite_touches ..).mono rfl)
  exact .refl _

theorem State.sessionTaint_touches (s : State) : Touches 72058693549555713 s (State.sessionTaint s) := by
  unfold State.sessionTaint
  with_reducible refine .trans ?_ (forEach_touches (hf := ?_) ..)
  exact .refl _
  intro _
  intro _
  dsimp only
  split
  with_reducible refine .trans ?_ ((State.addTags_touches ..).mono rfl)
  exact .refl _
  with_reducible refine .trans ?_ ((State.updSession_touches ..).mono rfl)
  exact .refl _
  exact .refl _

theorem State.setString_touches (s : State) (i : Fin 8) (w : Nat) : Touches 396317870495105025 s (State.setString s i w) := by
  unfold State.setString
  with_reducible exact .ite (.after ((State.compose_touches ..).mono rfl) (.after ((State.setN_touches ..).mono rfl) (.after
    ((State.setN_touches ..).mono rfl) (.after ((State.health_touches ..).mono rfl) (.upd (.after ((State.setN_touches ..).mono rfl)
    (.after ((State.setN_touches ..).mono rfl) (.refl _)))))))) (.iteR (.after ((State.setN_touches ..).mono rfl) (.upd (.after
    ((State.setN_touches ..).mono rfl) (.after ((State.setN_touches ..).mono rfl) (.refl _))))) (.after ((State.compose_touches ..).mono
    rfl) (.after ((State.demandFlag_touches ..).mono rfl) (.after ((State.sessionTaint_touches ..).mono rfl) (.after
    ((State.setN_touches ..).mono rfl) (.after ((State.health_touches ..).mono rfl) (.refl _)))))))

theorem State.writeNow_touches (s : State) (idx : Nat) (sub : Nat) (v : Val) : Touches 972778627093495811 s (State.writeNow s idx sub v) := by
  unfold State.writeNow
  with_reducible exact .ite (.after ((State.clearPortFlags_touches ..).mono rfl) (.refl _)) (.ite (.after
    ((State.clearEvStatus_touches ..).mono rfl) (.refl _)) (.ite (.after ((State.clearSticky_touches ..).mono rfl) (.refl _)) (.ite (.after
    ((State.clearDrvFault_touches ..).mono rfl) (.refl _)) (.ite (.after ((State.setTarget_touches ..).mono rfl) (.after
    ((State.setB_touches ..).mono rfl) (.refl _))) (.iteR (.refl _) (.after ((State.setString_touches ..).mono rfl) (.refl _)))))))

theorem State.tempsCleared_touches (s : State) : Touches 1099511627777 s (State.tempsCleared s) := by
  unfold State.tempsCleared
  with_reducible exact .after (forEach_touches (hf := fun _ _ => .iteL (.refl _) (.iteL (.refl _) (.after ((State.put_touches ..).mono rfl)
    (.refl _)))) ..) (.refl _)

theorem State.setTi_touches (s : State) (n : Nat) (p : Fin 8) (t : Int) : Touches 18691697672193 s (State.setTi s n p t) := by
  unfold State.setTi
  with_reducible exact .iteL (.refl _) (.after ((State.coefDue_touches ..).mono rfl) (.after ((State.setQ_touches ..).mono rfl) (.refl _)))

theorem State.setTFlag_touches (s : State) (n : Nat) (p : Fin 8) (b : Nat) (v : Bool) : Touches 1099511627777 s (State.setTFlag s n p b v) := by
  unfold State.setTFlag
  with_reducible exact .after ((State.setQ_touches ..).mono rfl) (.refl _)

theorem State.tempConfig_touches (s : State) (p : Fin 8) (source : Bool) : Touches 18691697672193 s (State.tempConfig s p source) := by
  unfold State.tempConfig
  with_reducible exact .ite (.after ((State.setTi_touches ..).mono rfl) (.after ((State.setTFlag_touches ..).mono rfl) (.after
    ((State.setTFlag_touches ..).mono rfl) (.refl _)))) (.iteR (.refl _) (.upd (.refl _)))

theorem State.pairSpare_touches (s : State) (i : Fin 4) : Touches 786432 s (State.pairSpare s i) := by
  unfold State.pairSpare
  dsimp only
  split
  split
  with_reducible refine .trans ?_ ((State.linkStart_touches ..).mono rfl)
  with_reducible refine .trans ?_ ((State.updSpare_touches ..).mono rfl)
  exact .refl _
  with_reducible refine .trans ?_ ((State.updSpare_touches ..).mono rfl)
  exact .refl _
  split
  with_reducible refine .trans ?_ ((State.linkStart_touches ..).mono rfl)
  with_reducible refine .trans ?_ ((State.updSpare_touches ..).mono rfl)
  exact .refl _
  with_reducible refine .trans ?_ ((State.updSpare_touches ..).mono rfl)
  exact .refl _
  exact .refl _

theorem State.draftWritten_touches (s : State) (c : Fin 7) : Touches 9895604649985 s (State.draftWritten s c) := by
  unfold State.draftWritten
  with_reducible exact .upd (.after ((State.put_touches ..).mono rfl) (.after ((State.put_touches ..).mono rfl) (.refl _)))

theorem State.thbConfig_touches (s : State) : Touches 1152922604118474753 s (State.thbConfig s) := by
  unfold State.thbConfig
  with_reducible exact .ite (.iteL (.after (forEach_touches (hf := fun _ _ => .ite (.iteR (.refl _) (.after ((State.updThb_touches ..).mono
    rfl) (.refl _))) (.iteL (.refl _) (.after ((State.updThb_touches ..).mono rfl) (.ite (.after ((State.upstreamLost_touches ..).mono rfl)
    (.refl _)) (.after ((State.childLost_touches ..).mono rfl) (.refl _)))))) ..) (.refl _)) (.after
    ((State.refreshMembers_touches ..).mono rfl) (.after ((State.setN_touches ..).mono rfl) (.after ((State.setN_touches ..).mono rfl)
    (.after ((State.setN_touches ..).mono rfl) (.refl _)))))) (.iteR (.after (forEach_touches (hf := fun _ _ => .ite (.iteR (.refl _)
    (.after ((State.updThb_touches ..).mono rfl) (.refl _))) (.iteL (.refl _) (.after ((State.updThb_touches ..).mono rfl) (.ite (.after
    ((State.upstreamLost_touches ..).mono rfl) (.refl _)) (.after ((State.childLost_touches ..).mono rfl) (.refl _)))))) ..) (.refl _))
    (.after ((State.setN_touches ..).mono rfl) (.after ((State.setN_touches ..).mono rfl) (.refl _))))

theorem State.entryHook_touches (s : State) (k : Nat) : Touches 1441953432839389185 s (State.entryHook s k) := by
  unfold State.entryHook
  with_reducible exact .ite (.after ((State.coupleConfig_touches ..).mono rfl) (.refl _)) (.ite (.after
    ((State.tempsCleared_touches ..).mono rfl) (.refl _)) (.ite (.after ((State.auxLook_touches ..).mono rfl) (.refl _)) (.ite (.iteR
    (.refl _) (.after ((State.tempConfig_touches ..).mono rfl) (.refl _))) (.ite (.after ((State.pairSpare_touches ..).mono rfl) (.refl _))
    (.ite (.after ((State.compose_touches ..).mono rfl) (.refl _)) (.ite (.after ((State.compose_touches ..).mono rfl) (.iteL (.refl _)
    (.after ((State.demandFlag_touches ..).mono rfl) (.refl _)))) (.ite (.after ((State.demandFlag_touches ..).mono rfl) (.refl _)) (.ite
    (.after ((State.updPulse_touches ..).mono rfl) (.refl _)) (.ite (.after ((State.syncSrc_touches ..).mono rfl) (.refl _)) (.ite (.after
    ((State.draftWritten_touches ..).mono rfl) (.refl _)) (.ite (.after ((State.thbConfig_touches ..).mono rfl) (.refl _)) (.iteR (.refl _)
    (.after ((State.setN_touches ..).mono rfl) (.refl _))))))))))))))

theorem State.sameWritten_touches (s : State) (k : Nat) : Touches 1441953432839389185 s (State.sameWritten s k) := by
  unfold State.sameWritten
  with_reducible exact .iteR (.refl _) (.after ((State.entryHook_touches ..).mono rfl) (.refl _))

theorem State.writePath_touches (s : State) (h : Requester) (d : Desc) (idx : Nat) (sub : Nat) (data : List Byte) (cut : Option Nat) :
  Touches 2126500627739312131 s (State.writePath s h d idx sub data cut).2 := by
  unfold State.writePath
  with_reducible refine .iteSnd ?_ ?_
  with_reducible refine .trans ?_ ((State.scratchHost_touches ..).mono rfl)
  exact .refl _
  with_reducible refine .iteSnd ?_ ?_
  dsimp only
  with_reducible refine .trans ?_ ((State.writeNow_touches ..).mono rfl)
  exact .refl _
  with_reducible refine .iteSnd ?_ ?_
  dsimp only
  with_reducible refine .trans ?_ ((State.sameWritten_touches ..).mono rfl)
  exact .refl _
  dsimp only
  with_reducible refine .trans ?_ ((State.queueUnit_touches ..).mono rfl)
  exact .refl _

theorem State.runWrite_touches (s : State) (h : Requester) (idx : Nat) (sub : Nat) (data : List Byte) (cut : Option Nat) : Touches
  4432343843111638115 s (State.runWrite s h idx sub data cut).2 := by
  unfold State.runWrite
  split
  dsimp only
  exact .refl _
  with_reducible refine .iteSnd ?_ ?_
  with_reducible refine .trans ?_ ((State.command_touches ..).mono rfl)
  exact .refl _
  split
  with_reducible refine .trans ?_ ((State.writePath_touches ..).mono rfl)
  exact .refl _
  dsimp only
  exact .refl _

theorem State.writeAnswered_touches (s : State) (h : Requester) (idx : Nat) (sub : Nat) (data : List Byte) (cut : Option Nat) : Touches
  4432343843111638115 s (State.writeAnswered s h idx sub data cut) := by
  unfold State.writeAnswered
  dsimp only
  split
  with_reducible refine .trans ?_ ((State.replyWrite_touches ..).mono rfl)
  with_reducible refine .trans ?_ ((State.runWrite_touches ..).mono rfl)
  exact .refl _
  with_reducible refine .trans ?_ ((State.runWrite_touches ..).mono rfl)
  exact .refl _

theorem State.hostWrite_touches (s : State) (h : Requester) (idx : Nat) (sub : Nat) (data : List Byte) : Touches 4432343843111638123 s
  (State.hostWrite s h idx sub data) := by
  unfold State.hostWrite
  with_reducible refine .trans ?_ (State.execute_touches (hm := rfl) (hf := ?_) ..)
  exact .refl _
  intro _
  with_reducible refine .trans ?_ ((State.writeAnswered_touches ..).mono rfl)
  exact .refl _

theorem State.draftWrite_touches (s : State) (h : Requester) (kind : DraftKind) (c : Fin 7) (v : Int) : Touches 4432343843111638123 s
  (State.draftWrite s h kind c v) := by
  unfold State.draftWrite
  split
  with_reducible refine .trans ?_ ((State.hostWrite_touches ..).mono rfl)
  exact .refl _
  with_reducible refine .trans ?_ ((State.hostWrite_touches ..).mono rfl)
  exact .refl _
  with_reducible refine .trans ?_ ((State.hostWrite_touches ..).mono rfl)
  exact .refl _

theorem State.dropScrub_touches (s : State) (b : Fin 5) (r : Nat) (w : Nat) : Touches 1125899906842624 s (State.dropScrub s b r w) := by
  unfold State.dropScrub
  with_reducible exact .after ((State.updBank_touches ..).mono rfl) (.refl _)

theorem State.enterAccepted_touches (s : State) : Touches 2305844108725321825 s (State.enterAccepted s) := by
  unfold State.enterAccepted
  dsimp only
  split
  with_reducible refine .upd ?_
  with_reducible refine .trans ?_ ((State.addSat_touches ..).mono rfl)
  exact .refl _
  with_reducible refine .upd ?_
  with_reducible refine .trans ?_ ((State.addSat_touches ..).mono rfl)
  exact .refl _

theorem State.enterTwin_touches (s : State) (h : Requester) (first : Bool) (fault : Bool) : Touches 2882305071482142817 s (State.enterTwin
  s h first fault) := by
  unfold State.enterTwin
  with_reducible exact .ite (.after ((State.replyWrite_touches ..).mono rfl) (.after ((State.source_touches ..).mono rfl) (.refl _))) (.ite
    (.after ((State.replyWrite_touches ..).mono rfl) (.refl _)) (.after ((State.replyWrite_touches ..).mono rfl) (.after
    ((State.enterAccepted_touches ..).mono rfl) (.refl _))))

theorem State.filterAll_touches (s : State) (bits : List Nat) : Touches 262144 s (State.filterAll s bits) := by
  unfold State.filterAll
  with_reducible exact .after (forEach_touches (hf := fun _ _ => .iteR (.refl _) (.after ((State.updPort_touches ..).mono rfl)
    (.refl _))) ..) (.refl _)

theorem State.zeroRegisters_touches (s : State) : Touches 1099561959425 s (State.zeroRegisters s) := by
  unfold State.zeroRegisters
  with_reducible exact .after (forEach_touches (hf := fun _ _ => .after ((State.updPoint_touches ..).mono rfl) (.after
    ((State.updPulse_touches ..).mono rfl) (.after (forEach_touches (hf := fun _ _ => .after ((State.put_touches ..).mono rfl)
    (.refl _)) ..) (.after (forEach_touches (hf := fun _ _ => .after ((State.put_touches ..).mono rfl) (.after ((State.put_touches ..).mono
    rfl) (.after ((State.put_touches ..).mono rfl) (.after ((State.put_touches ..).mono rfl) (.refl _))))) ..) (.refl _))))) ..) (.refl _)

theorem State.finishSealing_touches (s : State) (b : Body) : Touches 1101172572161 s (State.finishSealing s b) := by
  unfold State.finishSealing
  with_reducible exact .iteL (.refl _) (.iteR (.iteL (.refl _) (.after ((State.zeroRegisters_touches ..).mono rfl) (.refl _))) (.after
    (forEach_touches (hf := fun _ _ => .after ((State.sealHistory_touches ..).mono rfl) (.refl _)) ..) (.after
    ((State.setN_touches ..).mono rfl) (.after ((State.setN_touches ..).mono rfl) (.refl _)))))

theorem State.trackDc_touches (s : State) (p : Fin 8) (n : Nat) : Touches 1099528404993 s (State.trackDc s p n) := by
  unfold State.trackDc
  with_reducible exact .iteR (.refl _) (.after ((State.boundaryEntries_touches ..).mono rfl) (.after ((State.updPoint_touches ..).mono rfl)
    (.refl _)))

theorem State.trackAc_touches (s : State) (p : Fin 8) (n : Nat) (prev : Chan) : Touches 1099528404993 s (State.trackAc s p n prev) := by
  unfold State.trackAc
  with_reducible exact .ite (.after ((State.boundaryEntries_touches ..).mono rfl) (.after ((State.updPoint_touches ..).mono rfl) (.ite
    (.after ((State.updPoint_touches ..).mono rfl) (.iteR (.refl _) (.after ((State.updPoint_touches ..).mono rfl) (.refl _)))) (.iteR
    (.iteR (.refl _) (.after ((State.updPoint_touches ..).mono rfl) (.refl _))) (.after ((State.updPoint_touches ..).mono rfl)
    (.refl _)))))) (.after ((State.updPoint_touches ..).mono rfl) (.ite (.after ((State.updPoint_touches ..).mono rfl) (.iteR (.refl _)
    (.after ((State.updPoint_touches ..).mono rfl) (.refl _)))) (.iteR (.iteR (.refl _) (.after ((State.updPoint_touches ..).mono rfl)
    (.refl _))) (.after ((State.updPoint_touches ..).mono rfl) (.refl _)))))

theorem State.track_touches (s : State) (p : Fin 8) (n : Nat) (prev : Chan) : Touches 1099528404993 s (State.track s p n prev) := by
  unfold State.track
  with_reducible exact .ite (.after ((State.trackDc_touches ..).mono rfl) (.refl _)) (.after ((State.trackAc_touches ..).mono rfl)
    (.refl _))

theorem State.takeOpen_touches (s : State) (p : Fin 8) (b : Nat) : Touches 72058697844523009 s (State.takeOpen s p b) := by
  unfold State.takeOpen
  with_reducible exact .after ((State.queueUnit_touches ..).mono rfl) (.after ((State.updSession_touches ..).mono rfl) (.after
    (forEach_touches (hf := fun _ _ => .after ((State.setQ_touches ..).mono rfl) (.refl _)) ..) (.after ((State.setQ_touches ..).mono rfl)
    (.after ((State.setQ_touches ..).mono rfl) (.after ((State.setQ_touches ..).mono rfl) (.after ((State.setQ_touches ..).mono rfl)
    (.refl _)))))))

theorem State.takeClose_touches (s : State) (p : Fin 8) (b : Nat) : Touches 72058693549555713 s (State.takeClose s p b) := by
  unfold State.takeClose
  split
  with_reducible refine .trans ?_ ((State.updSession_touches ..).mono rfl)
  with_reducible refine .trans ?_ ((State.setQ_touches ..).mono rfl)
  with_reducible refine .trans ?_ ((State.setQ_touches ..).mono rfl)
  exact .refl _
  exact .refl _

theorem State.sessionBoundary_touches (s : State) (p : Fin 8) (n : Nat) : Touches 72058698918264833 s (State.sessionBoundary s p n) := by
  unfold State.sessionBoundary
  with_reducible exact .after ((State.closeLaunch_touches ..).mono rfl) (.ite (.ite (.after ((State.updSession_touches ..).mono rfl) (.iteR
    (.refl _) (.ite (.after ((State.updSession_touches ..).mono rfl) (.refl _)) (.after ((State.takeOpen_touches ..).mono rfl)
    (.refl _))))) (.after ((State.takeClose_touches ..).mono rfl) (.iteR (.refl _) (.ite (.after ((State.updSession_touches ..).mono rfl)
    (.refl _)) (.after ((State.takeOpen_touches ..).mono rfl) (.refl _)))))) (.iteR (.iteR (.refl _) (.ite (.after
    ((State.updSession_touches ..).mono rfl) (.refl _)) (.after ((State.takeOpen_touches ..).mono rfl) (.refl _)))) (.after
    ((State.updSession_touches ..).mono rfl) (.refl _))))

theorem State.forcedReturn_touches (s : State) (p : Fin 8) : Touches 1099512152065 s (State.forcedReturn s p) := by
  unfold State.forcedReturn
  with_reducible refine .trans ?_ (forEach_touches (hf := ?_) ..)
  exact .refl _
  intro _
  intro _
  split
  with_reducible refine .iteR ?_ ?_
  exact .refl _
  split
  with_reducible refine .trans ?_ ((State.updSpare_touches ..).mono rfl)
  with_reducible refine .trans ?_ ((State.setQ_touches ..).mono rfl)
  exact .refl _
  exact .refl _
  exact .refl _

theorem State.takeHeld_touches (s : State) (p : Fin 8) : Touches 72057594037927936 s (State.takeHeld s p).2 := by
  unfold State.takeHeld
  dsimp only
  with_reducible refine .trans ?_ ((State.updSession_touches ..).mono rfl)
  exact .refl _

theorem State.releaseHeld_touches (s : State) (p : Fin 8) : Touches 72058899707985921 s (State.releaseHeld s p) := by
  unfold State.releaseHeld
  with_reducible exact .iteL (.refl _) (.after (forEach_touches (hf := fun _ _ => .ite (.after ((State.replyWrite_touches ..).mono rfl)
    (.after ((State.acceptOpen_touches ..).mono rfl) (.refl _))) (.after ((State.replyWrite_touches ..).mono rfl) (.refl _))) ..) (.after
    ((State.takeHeld_touches ..).mono rfl) (.refl _)))

theorem State.tempBoundary_touches (s : State) (p : Fin 8) (n : Nat) : Touches 18691697672193 s (State.tempBoundary s p n) := by
  unfold State.tempBoundary
  with_reducible refine .iteL ?_ ?_
  exact .refl _
  split
  with_reducible refine .iteR ?_ ?_
  with_reducible refine .trans ?_ ((State.setTFlag_touches ..).mono rfl)
  with_reducible refine .upd ?_
  exact .refl _
  with_reducible refine .trans ?_ ((State.setTi_touches ..).mono rfl)
  with_reducible refine .trans ?_ ((State.setTFlag_touches ..).mono rfl)
  exact .refl _
  with_reducible refine .iteR ?_ ?_
  exact .refl _
  with_reducible refine .trans ?_ ((State.setTFlag_touches ..).mono rfl)
  exact .refl _

theorem State.nettingStep_touches (s : State) (p : Fin 8) : Touches 72085296495132673 s (State.nettingStep s p) := by
  unfold State.nettingStep
  split
  exact .refl _
  with_reducible refine .iteL ?_ ?_
  with_reducible refine .trans ?_ ((State.sessionBoundary_touches ..).mono rfl)
  with_reducible refine .trans ?_ ((State.updPoint_touches ..).mono rfl)
  with_reducible refine .trans ?_ ((State.bookClosing_touches ..).mono rfl)
  exact .refl _
  with_reducible refine .trans ?_ ((State.releaseHeld_touches ..).mono rfl)
  with_reducible refine .trans ?_ ((State.tempBoundary_touches ..).mono rfl)
  with_reducible refine .trans ?_ ((State.stepConstants_touches ..).mono rfl)
  with_reducible refine .trans ?_ ((State.clockGroups_touches ..).mono rfl)
  with_reducible refine .trans ?_ ((State.applyPulses_touches ..).mono rfl)
  with_reducible refine .iteR ?_ ?_
  with_reducible refine .trans ?_ ((State.applyConfig_touches ..).mono rfl)
  with_reducible refine .trans ?_ ((State.applyPlates_touches ..).mono rfl)
  with_reducible refine .trans ?_ ((State.forcedReturn_touches ..).mono rfl)
  exact .refl _
  with_reducible refine .trans ?_ ((State.handOver_touches ..).mono rfl)
  exact .refl _

theorem State.stepAtOnce_touches (s : State) (p : Fin 8) : Touches 72085296495132673 s (State.stepAtOnce s p) := by
  unfold State.stepAtOnce
  with_reducible exact .iteR (.refl _) (.after ((State.nettingStep_touches ..).mono rfl) (.refl _))

theorem State.laneOfSubstitute_touches (s : State) (p : Fin 8) (n : Nat) : Touches 8070037505 s (State.laneOfSubstitute s p n) := by
  unfold State.laneOfSubstitute
  with_reducible exact .iteL (.refl _) (.iteR (.after ((State.applyLane_touches ..).mono rfl) (.refl _)) (.after
    ((State.handOver_touches ..).mono rfl) (.refl _)))

theorem State.sampleEvents_touches (s : State) (p : Fin 8) (n : Nat) : Touches 72058693968986113 s (State.sampleEvents s p n) := by
  unfold State.sampleEvents
  with_reducible exact .after ((State.plainEvent_touches ..).mono rfl) (.after ((State.plainEvent_touches ..).mono rfl) (.refl _))

theorem State.firstChannel_touches (s : State) (p : Fin 8) (n : Nat) (prev : Chan) : Touches 72085296495132673 s (State.firstChannel s p n
  prev) := by
  unfold State.firstChannel
  with_reducible exact .iteL (.ite (.after ((State.laneOfSubstitute_touches ..).mono rfl) (.after ((State.stepAtOnce_touches ..).mono rfl)
    (.after ((State.boundaryFound_touches ..).mono rfl) (.after ((State.track_touches ..).mono rfl) (.refl _))))) (.iteL (.after
    ((State.stepAtOnce_touches ..).mono rfl) (.after ((State.boundaryFound_touches ..).mono rfl) (.after ((State.track_touches ..).mono
    rfl) (.refl _)))) (.after ((State.demandDue_touches ..).mono rfl) (.refl _)))) (.after ((State.sampleEvents_touches ..).mono rfl)
    (.refl _))

theorem State.forcedStepPoint_touches (s : State) (p : Fin 8) : Touches 72085296495132673 s (State.forcedStepPoint s p) := by
  unfold State.forcedStepPoint
  with_reducible exact .iteL (.iteR (.refl _) (.after ((State.nettingStep_touches ..).mono rfl) (.refl _))) (.ite (.after
    ((State.endAllEvents_touches ..).mono rfl) (.after ((State.correctPulses_touches ..).mono rfl) (.after
    ((State.closePulses_touches ..).mono rfl) (.refl _)))) (.ite (.after ((State.endAllEvents_touches ..).mono rfl) (.after
    ((State.closePulses_touches ..).mono rfl) (.refl _))) (.after ((State.endAllEvents_touches ..).mono rfl) (.after
    ((State.reversePower_touches ..).mono rfl) (.after ((State.sessionStep_touches ..).mono rfl) (.after ((State.bookStep_touches ..).mono
    rfl) (.after ((State.closePulses_touches ..).mono rfl) (.refl _))))))))

theorem State.updSave_touches (s : State) (f : SaveArea → SaveArea) : Touches 8589934592 s (State.updSave s f) := by
  unfold State.updSave
  with_reducible exact .upd (.refl _)

theorem State.forcedStep_touches (s : State) : Touches 72085305085067265 s (State.forcedStep s) := by
  unfold State.forcedStep
  with_reducible exact .iteL (.refl _) (.after ((State.updSave_touches ..).mono rfl) (.after ((State.setN_touches ..).mono rfl) (.after
    (forEach_touches (hf := fun _ _ => .after ((State.forcedStepPoint_touches ..).mono rfl) (.refl _)) ..) (.refl _))))

theorem State.setV_touches (s : State) (k : Nat) (y2 : Val) : Touches 3 s (State.setV s k y2) := by
  unfold State.setV
  split
  with_reducible refine .trans ?_ ((State.setN_touches ..).mono rfl)
  exact .refl _
  with_reducible refine .trans ?_ ((State.setB_touches ..).mono rfl)
  exact .refl _

theorem State.foreseen_touches (s : State) (ws : List EntryWrite) : Touches 3 s (State.foreseen s ws) := by
  unfold State.foreseen
  with_reducible exact .after (forEach_touches (hf := fun _ _ => .after ((State.setV_touches ..).mono rfl) (.refl _)) ..) (.refl _)

theorem State.formVirtual_touches (s : State) (endIdx : Nat) : Touches 1 s (State.formVirtual s endIdx) := by
  unfold State.formVirtual
  with_reducible exact .iteL (.refl _) (.after (forEach_touches (hf := fun _ _ => .after ((State.setN_touches ..).mono rfl) (.after
    ((State.setN_touches ..).mono rfl) (.after ((State.setN_touches ..).mono rfl) (.after ((State.setN_touches ..).mono rfl) (.after
    ((State.setN_touches ..).mono rfl) (.refl _)))))) ..) (.refl _))

theorem State.startDue_touches (s : State) (h : Bool) : Touches 288231475663339521 s (State.startDue s h) := by
  unfold State.startDue
  with_reducible exact .iteR (.refl _) (.after ((State.startDrive_touches ..).mono rfl) (.refl _))

theorem State.pumpOff_touches (s : State) : Touches 288230376151711745 s (State.pumpOff s) := by
  unfold State.pumpOff
  with_reducible exact .after ((State.setN_touches ..).mono rfl) (.after ((State.setN_touches ..).mono rfl) (.upd (.refl _)))

theorem State.frameBoundary_touches (s : State) (lost : List (Nat × Int)) : Touches 288231479421435905 s (State.frameBoundary s lost) := by
  unfold State.frameBoundary
  with_reducible refine .iteL (.refl _) ?_
  with_reducible exact .iteR (.after ((State.startDue_touches ..).mono rfl) (.after ((State.startDue_touches ..).mono rfl) (.after
    ((State.advanceClear_touches ..).mono rfl) (.after ((State.advanceRegion_touches ..).mono rfl) (.after
    ((State.advanceRegion_touches ..).mono rfl) (.upd (.iteR (.iteR (.refl _) (.upd (.refl _))) (.upd (.refl _))))))))) (.after
    ((State.pumpOff_touches ..).mono rfl) (.refl _))

theorem State.freeBytes_touches (s : State) (n : Nat) : Touches 8 s (State.freeBytes s n).2 := by
  unfold State.freeBytes
  with_reducible refine .foldlSnd (hf := ?_) ?_
  intro _
  intro _
  dsimp only
  with_reducible refine .trans ?_ ((State.fresh_touches ..).mono rfl)
  exact .refl _
  dsimp only
  exact .refl _

theorem State.glitchAt_touches (s : State) (time : Nat) : Touches 576461856110018817 s (State.glitchAt s time) := by
  unfold State.glitchAt
  with_reducible exact .after ((State.source_touches ..).mono rfl) (.after ((State.at'_touches ..).mono rfl) (.refl _))

theorem State.grantFrom_touches (s : State) (serial : List Byte) (first : Nat) (reason : Nat) : Touches 1152921504606846977 s
  (State.grantFrom s serial first reason) := by
  unfold State.grantFrom
  with_reducible refine .ite ?_ ?_
  with_reducible refine .upd ?_
  exact .refl _
  split
  exact .refl _
  with_reducible refine .ite ?_ ?_
  with_reducible refine .ite ?_ ?_
  with_reducible refine .trans ?_ ((State.refreshMembers_touches ..).mono rfl)
  with_reducible refine .trans ?_ ((State.numberChild_touches ..).mono rfl)
  with_reducible refine .upd ?_
  exact .refl _
  with_reducible refine .trans ?_ ((State.resendCensus_touches ..).mono rfl)
  with_reducible refine .trans ?_ ((State.refreshMembers_touches ..).mono rfl)
  with_reducible refine .trans ?_ ((State.updThb_touches ..).mono rfl)
  with_reducible refine .trans ?_ ((State.sendFrame_touches ..).mono rfl)
  with_reducible refine .upd ?_
  exact .refl _
  with_reducible refine .trans ?_ ((State.sendFrame_touches ..).mono rfl)
  with_reducible refine .upd ?_
  exact .refl _

theorem State.groupWorn_touches (s : State) (g : Nat) : Touches 20937965568 s (State.groupWorn s g) := by
  unfold State.groupWorn
  with_reducible exact .iteL (.refl _) (.ite (.upd (.refl _)) (.iteL (.refl _) (.upd (.after ((State.health_touches ..).mono rfl)
    (.refl _)))))

theorem State.groupCorrected_touches (s : State) (g : Nat) (byte : Nat) (injected : Bool) : Touches 1120449593345 s (State.groupCorrected s
  g byte injected) := by
  unfold State.groupCorrected
  with_reducible exact .iteL (.iteR (.after ((State.nvmError_touches ..).mono rfl) (.after ((State.addSat_touches ..).mono rfl) (.refl _)))
    (.after ((State.addSat_touches ..).mono rfl) (.refl _))) (.ite (.after ((State.groupWorn_touches ..).mono rfl) (.upd (.refl _))) (.upd
    (.refl _)))

theorem State.groupFails_touches (s : State) (g : Fin 15) : Touches 576461859889872897 s (State.groupFails s g) := by
  unfold State.groupFails
  with_reducible exact .iteR (.refl _) (.after (forEach_touches (hf := fun _ _ => .after ((State.checkFails_touches ..).mono rfl)
    (.refl _)) ..) (.refl _))

theorem State.groupLost_touches (s : State) (g : Nat) (injected : Bool) : Touches 1120449593345 s (State.groupLost s g injected) := by
  unfold State.groupLost
  with_reducible exact .iteL (.after ((State.nvmError_touches ..).mono rfl) (.after ((State.addSat_touches ..).mono rfl) (.refl _))) (.iteL
    (.after ((State.groupWorn_touches ..).mono rfl) (.refl _)) (.upd (.refl _)))

theorem State.stringHit_touches (s : State) (i : Fin 8) : Touches 1099511627777 s (State.stringHit s i) := by
  unfold State.stringHit
  with_reducible exact .after ((State.addSat_touches ..).mono rfl) (.refl _)

theorem State.injectedBytes_touches (s : State) (g : Nat) : Touches 36029896530591745 s (State.injectedBytes s g).2 := by
  unfold State.injectedBytes
  with_reducible refine .iteSnd ?_ ?_
  dsimp only
  exact .refl _
  with_reducible refine .foldlSnd (hf := ?_) ?_
  intro _
  intro _
  dsimp only
  split
  with_reducible refine .iteSnd ?_ ?_
  with_reducible refine .iteSnd ?_ ?_
  dsimp only
  with_reducible refine .trans ?_ ((State.stringHit_touches ..).mono rfl)
  with_reducible refine .upd ?_
  exact .refl _
  dsimp only
  with_reducible refine .upd ?_
  exact .refl _
  exact .refl _
  exact .refl _
  dsimp only
  exact .refl _

theorem State.groupRead_touches (s : State) (o : NvmObs) : Touches 1044836487402659945 s (State.groupRead s o) := by
  unfold State.groupRead
  dsimp only
  split
  with_reducible refine .iteL ?_ ?_
  with_reducible refine .trans ?_ ((State.injectedBytes_touches ..).mono rfl)
  exact .refl _
  with_reducible refine .ite ?_ ?_
  with_reducible refine .trans ?_ ((State.groupCorrected_touches ..).mono rfl)
  exact .refl _
  with_reducible refine .trans ?_ ((State.answerAny_touches ..).mono rfl)
  with_reducible refine .trans ?_ ((State.groupLost_touches ..).mono rfl)
  exact .refl _
  with_reducible refine .ite ?_ ?_
  with_reducible refine .trans ?_ ((State.groupCorrected_touches ..).mono rfl)
  with_reducible refine .trans ?_ ((State.injectedBytes_touches ..).mono rfl)
  exact .refl _
  with_reducible refine .trans ?_ ((State.answerAny_touches ..).mono rfl)
  with_reducible refine .trans ?_ ((State.groupLost_touches ..).mono rfl)
  with_reducible refine .trans ?_ ((State.injectedBytes_touches ..).mono rfl)
  exact .refl _
  with_reducible refine .trans ?_ ((State.structureLost_touches ..).mono rfl)
  with_reducible refine .trans ?_ ((State.groupLost_touches ..).mono rfl)
  with_reducible refine .trans ?_ ((State.injectedBytes_touches ..).mono rfl)
  exact .refl _
  with_reducible refine .trans ?_ ((State.contentWrong_touches ..).mono rfl)
  with_reducible refine .trans ?_ ((State.injectedBytes_touches ..).mono rfl)
  exact .refl _
  with_reducible refine .trans ?_ ((State.contentWrong_touches ..).mono rfl)
  with_reducible refine .trans ?_ ((State.groupCorrected_touches ..).mono rfl)
  with_reducible refine .trans ?_ ((State.injectedBytes_touches ..).mono rfl)
  exact .refl _

theorem State.unitDropped_touches (s : State) (h : Requester) : Touches 4294967296 s (State.unitDropped s h) := by
  unfold State.unitDropped
  with_reducible exact .upd (.refl _)

theorem State.groupWrite_touches (s : State) (o : NvmObs) : Touches 1008807690383695977 s (State.groupWrite s o) := by
  unfold State.groupWrite
  with_reducible refine .ite ?_ ?_
  with_reducible refine .trans ?_ ((State.nvmError_touches ..).mono rfl)
  exact .refl _
  dsimp only
  split
  with_reducible refine .trans ?_ ((State.rangeWrote_touches ..).mono rfl)
  exact .refl _
  with_reducible refine .trans ?_ ((State.rangeWrote_touches ..).mono rfl)
  with_reducible refine .trans ?_ ((State.groupCorrected_touches ..).mono rfl)
  exact .refl _
  with_reducible refine .trans ?_ ((State.rangeWrote_touches ..).mono rfl)
  with_reducible refine .trans ?_ ((State.contentWrong_touches ..).mono rfl)
  with_reducible refine .trans ?_ ((State.groupCorrected_touches ..).mono rfl)
  exact .refl _
  with_reducible refine .trans ?_ ((State.rangeWrote_touches ..).mono rfl)
  with_reducible refine .trans ?_ ((State.contentWrong_touches ..).mono rfl)
  exact .refl _
  with_reducible refine .ite ?_ ?_
  split
  with_reducible refine .trans ?_ ((State.answerError_touches ..).mono rfl)
  with_reducible refine .trans ?_ ((State.unitDropped_touches ..).mono rfl)
  with_reducible refine .trans ?_ ((State.nvmError_touches ..).mono rfl)
  with_reducible refine .trans ?_ ((State.groupLost_touches ..).mono rfl)
  exact .refl _
  with_reducible refine .trans ?_ ((State.nvmError_touches ..).mono rfl)
  with_reducible refine .trans ?_ ((State.groupLost_touches ..).mono rfl)
  exact .refl _
  with_reducible refine .trans ?_ ((State.rangeWrote_touches ..).mono rfl)
  with_reducible refine .trans ?_ ((State.structureLost_touches ..).mono rfl)
  with_reducible refine .trans ?_ ((State.groupLost_touches ..).mono rfl)
  exact .refl _

theorem State.harmonicEntries_touches (s : State) (p : Fin 8) (c : Fin 7) (n : Nat) (f : Spectra) (ncyc : Nat) (fs : Nat) (have' : Bool) :
  Touches 1099511627777 s (State.harmonicEntries s p c n f ncyc fs have') := by
  unfold State.harmonicEntries
  with_reducible exact .after ((State.setQ_touches ..).mono rfl) (.after (forEach_touches (hf := fun _ _ => .after
    ((State.setQ_touches ..).mono rfl) (.after ((State.setQ_touches ..).mono rfl) (.refl _))) ..) (.refl _))

theorem State.holdoverExpiry_touches (s : State) : Touches 1152922604118474753 s (State.holdoverExpiry s) := by
  unfold State.holdoverExpiry
  with_reducible exact .iteR (.refl _) (.after ((State.thbAcquire_touches ..).mono rfl) (.refl _))

theorem State.newChallenge_touches (s : State) {r : List Byte × State} (hr : State.newChallenge s = some r) : Touches 2305843009213693960 s
  r.2 := by
  unfold State.newChallenge at hr
  simp only [Option.some.injEq, reduceCtorEq] at hr
  split at hr
  simp only [Option.some.injEq, reduceCtorEq] at hr
  simp only [Option.some.injEq, reduceCtorEq] at hr
  subst hr
  dsimp only
  with_reducible refine .upd ?_
  with_reducible refine .trans ?_ ((State.fresh_touches ..).mono rfl)
  exact .refl _

theorem State.readEntry_touches (s : State) (idx : Nat) (sub : Nat) : Touches 2305843009213693960 s (State.readEntry s idx sub).2.2 := by
  unfold State.readEntry
  split
  dsimp only
  exact .refl _
  split
  dsimp only
  exact .refl _
  split
  split
  dsimp only
  refine .trans ?_ ((State.newChallenge_touches (hr := by assumption) ..).mono rfl)
  exact .refl _
  dsimp only
  exact .refl _
  split
  dsimp only
  exact .refl _
  split
  dsimp only
  with_reducible refine .trans ?_ ((State.fresh_touches ..).mono rfl)
  exact .refl _
  split
  dsimp only
  exact .refl _
  dsimp only
  exact .refl _
  split
  dsimp only
  exact .refl _
  dsimp only
  exact .refl _

theorem State.readChecked_touches (s : State) (idx : Nat) (sub : Nat) (payload : List Byte) : Touches 2305843009213693960 s
  (State.readChecked s idx sub payload).2.2 := by
  unfold State.readChecked
  dsimp only
  split
  split
  with_reducible refine .trans ?_ ((State.readEntry_touches ..).mono rfl)
  exact .refl _
  dsimp only
  exact .refl _
  split
  with_reducible refine .trans ?_ ((State.readEntry_touches ..).mono rfl)
  exact .refl _
  dsimp only
  exact .refl _
  dsimp only
  exact .refl _

theorem State.runSub_touches (refused : Bool) (acc : List Byte × List EntryWrite × State) (ms : Message × Status) : Touches
  4432343585413398539 acc.2.2 (State.runSub refused acc ms).2.2 := by
  unfold State.runSub
  dsimp only
  split
  dsimp only
  with_reducible refine .trans ?_ ((State.readChecked_touches ..).mono rfl)
  exact .refl _
  split
  dsimp only
  exact .refl _
  split
  dsimp only
  exact .refl _
  split
  exact .refl _
  split
  dsimp only
  with_reducible refine .trans ?_ ((State.writeNow_touches ..).mono rfl)
  exact .refl _
  split
  dsimp only
  with_reducible refine .trans ?_ ((State.sameWritten_touches ..).mono rfl)
  exact .refl _
  dsimp only
  exact .refl _

theorem State.runBatch_touches (s : State) (h : Requester) (payload : List Byte) : Touches 4432348189618339851 s (State.runBatch s h
  payload) := by
  unfold State.runBatch
  split
  with_reducible refine .ite ?_ ?_
  with_reducible refine .upd ?_
  exact .refl _
  with_reducible refine .ite ?_ ?_
  with_reducible refine .trans ?_ ((State.reply_touches ..).mono rfl)
  with_reducible refine .foldlThd (hf := ?_) ?_
  intro _
  intro _
  with_reducible refine .trans ?_ ((State.runSub_touches ..).mono rfl)
  exact .refl _
  dsimp only
  exact .refl _
  with_reducible refine .trans ?_ ((State.queueUnit_touches ..).mono rfl)
  with_reducible refine .foldlThd (hf := ?_) ?_
  intro _
  intro _
  with_reducible refine .trans ?_ ((State.runSub_touches ..).mono rfl)
  exact .refl _
  dsimp only
  exact .refl _
  with_reducible refine .trans ?_ ((State.reply_touches ..).mono rfl)
  exact .refl _

theorem State.hostBatch_touches (s : State) (h : Requester) (payload : List Byte) : Touches 4432348189618339851 s (State.hostBatch s h
  payload) := by
  unfold State.hostBatch
  with_reducible refine .trans ?_ (State.execute_touches (hm := rfl) (hf := ?_) ..)
  exact .refl _
  intro _
  with_reducible refine .trans ?_ ((State.runBatch_touches ..).mono rfl)
  exact .refl _

theorem State.hostRead_touches (s : State) (h : Requester) (idx : Nat) (sub : Nat) : Touches 2305844314883751945 s (State.hostRead s h idx
  sub) := by
  unfold State.hostRead
  with_reducible refine .trans ?_ (State.execute_touches (hm := rfl) (hf := ?_) ..)
  exact .refl _
  intro _
  with_reducible refine .trans ?_ ((State.reply_touches ..).mono rfl)
  with_reducible refine .trans ?_ ((State.readChecked_touches ..).mono rfl)
  exact .refl _

theorem State.hostScratch_touches (s : State) (h : Requester) (page : Nat) (sub : Nat) (data : List Byte) (cut : Option Nat) : Touches
  4432343843111638123 s (State.hostScratch s h page sub data cut) := by
  unfold State.hostScratch
  with_reducible refine .trans ?_ (State.execute_touches (hm := rfl) (hf := ?_) ..)
  exact .refl _
  intro _
  with_reducible refine .trans ?_ ((State.writeAnswered_touches ..).mono rfl)
  exact .refl _

theorem State.rebase_touches (s : State) (d : Int) : Touches 1153221879067050633 s (State.rebase s d) := by
  unfold State.rebase
  with_reducible exact .iteL (.refl _) (.after ((State.demandFlag_touches ..).mono rfl) (.after ((State.sessionTimeStep_touches ..).mono
    rfl) (.after ((State.queueRecord_touches ..).mono rfl) (.after ((State.fresh_touches ..).mono rfl) (.after
    ((State.addWrap_touches ..).mono rfl) (.after ((State.put_touches ..).mono rfl) (.after ((State.addSat_touches ..).mono rfl) (.upd
    (.after ((State.setN_touches ..).mono rfl) (.upd (.after ((State.closeTableau_touches ..).mono rfl) (.refl _))))))))))))

theorem State.indexAdopt_touches (s : State) : Touches 1153221879067050633 s (State.indexAdopt s) := by
  unfold State.indexAdopt
  with_reducible exact .iteR (.refl _) (.after ((State.updTime_touches ..).mono rfl) (.after ((State.setN_touches ..).mono rfl) (.iteR
    (.after ((State.put_touches ..).mono rfl) (.refl _)) (.after ((State.rebase_touches ..).mono rfl) (.refl _)))))

theorem State.injectedSymbols_touches (s : State) (b : Fin 5) (m : Fin 11) : Touches 36029896530591745 s (State.injectedSymbols s b m).2 := by
  unfold State.injectedSymbols
  with_reducible refine .foldlSnd (hf := ?_) ?_
  intro _
  intro _
  dsimp only
  split
  with_reducible refine .iteSnd ?_ ?_
  with_reducible refine .iteSnd ?_ ?_
  dsimp only
  with_reducible refine .trans ?_ ((State.stringHit_touches ..).mono rfl)
  with_reducible refine .upd ?_
  exact .refl _
  dsimp only
  with_reducible refine .upd ?_
  exact .refl _
  exact .refl _
  exact .refl _
  dsimp only
  exact .refl _

theorem State.interrupt_touches (s : State) (p : Fin 8) (stateTime : Nat) (lossTime : Nat) (unrecorded : Nat) (sources : Nat) (ref : Nat) :
  Touches 72057594037927936 s (State.interrupt s p stateTime lossTime unrecorded sources ref) := by
  unfold State.interrupt
  split
  with_reducible refine .trans ?_ ((State.updSession_touches ..).mono rfl)
  with_reducible refine .trans ?_ ((State.updGrown_touches ..).mono rfl)
  exact .refl _
  exact .refl _

theorem State.interruptAll_touches (s : State) (stateTime : Nat) (lossTime : Nat) (sources : Nat) (ref : Nat) : Touches 72057594037927936 s
  (State.interruptAll s stateTime lossTime sources ref) := by
  unfold State.interruptAll
  with_reducible exact .after (forEach_touches (hf := fun _ _ => .after ((State.interrupt_touches ..).mono rfl) (.refl _)) ..) (.refl _)

theorem State.invertHits_touches (s : State) (b : Fin 5) (portS : Bool) (any : Bool) : Touches 1099511627777 s (State.invertHits s b portS
  any) := by
  unfold State.invertHits
  with_reducible refine .trans ?_ (forEach_touches (hf := ?_) ..)
  exact .refl _
  intro _
  intro _
  split
  with_reducible refine .iteR ?_ ?_
  exact .refl _
  with_reducible refine .trans ?_ ((State.stringHit_touches ..).mono rfl)
  exact .refl _
  exact .refl _

theorem State.joinFrom_touches (s : State) (k : Fin 4) (serial : List Byte) (members : Nat) (prevFirst : Nat) : Touches 1152922604118474753
  s (State.joinFrom s k serial members prevFirst) := by
  unfold State.joinFrom
  with_reducible exact .ite (.after ((State.grantAt_touches ..).mono rfl) (.refl _)) (.after ((State.sendFrame_touches ..).mono rfl) (.upd
    (.refl _)))

theorem State.joinRetry_touches (s : State) : Touches 1152921504606846976 s (State.joinRetry s) := by
  unfold State.joinRetry
  with_reducible exact .iteR (.refl _) (.after ((State.sendCensus_touches ..).mono rfl) (.refl _))

theorem State.plateRollback_touches (s : State) (u : JUnit) : Touches 1101122240513 s (State.plateRollback s u) := by
  unfold State.plateRollback
  split
  with_reducible refine .trans ?_ ((State.plateHistory_touches ..).mono rfl)
  with_reducible refine .trans ?_ ((State.addSat_touches ..).mono rfl)
  exact .refl _
  exact .refl _

theorem State.rolledBack_touches (s : State) (n : Nat) : Touches 1099511627777 s (State.rolledBack s n) := by
  unfold State.rolledBack
  with_reducible exact .after ((State.addSat_touches ..).mono rfl) (.after ((State.setN_touches ..).mono rfl) (.refl _))

theorem State.revertWrite_touches (s : State) (o : Owner) (w : EntryWrite) : Touches 577587751721975811 s (State.revertWrite s o w) := by
  unfold State.revertWrite
  split
  with_reducible refine .trans ?_ ((State.applyDeviceState_touches ..).mono rfl)
  exact .refl _
  with_reducible refine .trans ?_ ((State.applyWrite_touches ..).mono rfl)
  exact .refl _

theorem State.undoOwner_touches (s : State) (o : Owner) : Touches 72066390130966528 s (State.undoOwner s o) := by
  unfold State.undoOwner
  split
  with_reducible refine .upd ?_
  exact .refl _
  with_reducible refine .trans ?_ ((State.updSession_touches ..).mono rfl)
  exact .refl _
  with_reducible refine .trans ?_ (forEach_touches (hf := ?_) ..)
  exact .refl _
  intro _
  intro _
  with_reducible refine .trans ?_ ((State.updSession_touches ..).mono rfl)
  exact .refl _
  with_reducible refine .upd ?_
  exact .refl _
  exact .refl _

theorem State.journalRecall_touches (s : State) : Touches 649654164938375171 s (State.journalRecall s) := by
  unfold State.journalRecall
  dsimp only
  split
  with_reducible refine .trans ?_ (forEach_touches (hf := ?_) ..)
  with_reducible refine .trans ?_ ((State.rolledBack_touches ..).mono rfl)
  with_reducible refine .upd ?_
  exact .refl _
  intro _
  intro _
  with_reducible refine .trans ?_ ((State.plateRollback_touches ..).mono rfl)
  exact .refl _
  with_reducible refine .ite ?_ ?_
  with_reducible refine .trans ?_ ((State.plateRollback_touches ..).mono rfl)
  with_reducible refine .trans ?_ ((State.rolledBack_touches ..).mono rfl)
  with_reducible refine .trans ?_ (forEach_touches (hf := ?_) ..)
  with_reducible refine .trans ?_ ((State.rolledBack_touches ..).mono rfl)
  with_reducible refine .upd ?_
  exact .refl _
  intro _
  intro _
  with_reducible refine .trans ?_ ((State.plateRollback_touches ..).mono rfl)
  exact .refl _
  with_reducible refine .ite ?_ ?_
  with_reducible refine .trans ?_ ((State.consistency_touches ..).mono rfl)
  with_reducible refine .trans ?_ ((State.plateRollback_touches ..).mono rfl)
  with_reducible refine .trans ?_ ((State.rolledBack_touches ..).mono rfl)
  with_reducible refine .trans ?_ ((State.undoOwner_touches ..).mono rfl)
  with_reducible refine .trans ?_ (forEach_touches (hf := ?_) ..)
  with_reducible refine .trans ?_ (forEach_touches (hf := ?_) ..)
  with_reducible refine .trans ?_ ((State.rolledBack_touches ..).mono rfl)
  with_reducible refine .upd ?_
  exact .refl _
  intro _
  intro _
  with_reducible refine .trans ?_ ((State.plateRollback_touches ..).mono rfl)
  exact .refl _
  intro _
  intro _
  with_reducible refine .trans ?_ ((State.revertWrite_touches ..).mono rfl)
  exact .refl _
  with_reducible refine .trans ?_ ((State.setN_touches ..).mono rfl)
  with_reducible refine .trans ?_ (forEach_touches (hf := ?_) ..)
  with_reducible refine .trans ?_ ((State.rolledBack_touches ..).mono rfl)
  with_reducible refine .upd ?_
  exact .refl _
  intro _
  intro _
  with_reducible refine .trans ?_ ((State.plateRollback_touches ..).mono rfl)
  exact .refl _

theorem State.skipFresh_touches (s : State) (n : Nat) : Touches 8 s (State.skipFresh s n) := by
  unfold State.skipFresh
  with_reducible exact .upd (.refl _)

theorem State.queueStatute_touches (s : State) (pub : List Byte) : Touches 2305843013508661256 s (State.queueStatute s pub) := by
  unfold State.queueStatute
  with_reducible exact .after ((State.queueUnit_touches ..).mono rfl) (.upd (.after (forEach_touches (hf := fun _ _ => .after
    ((State.queueUnit_touches ..).mono rfl) (.refl _)) ..) (.after ((State.queueUnit_touches ..).mono rfl) (.after
    ((State.freeBytes_touches ..).mono rfl) (.refl _)))))

theorem State.keygenDone_touches (s : State) (failed : Nat) : Touches 2450531050917662825 s (State.keygenDone s failed) := by
  unfold State.keygenDone
  split
  with_reducible refine .ite ?_ ?_
  with_reducible refine .trans ?_ ((State.sealOver_touches ..).mono rfl)
  with_reducible refine .trans ?_ ((State.health_touches ..).mono rfl)
  with_reducible refine .upd ?_
  with_reducible refine .trans ?_ ((State.setN_touches ..).mono rfl)
  with_reducible refine .trans ?_ ((State.skipFresh_touches ..).mono rfl)
  exact .refl _
  with_reducible refine .trans ?_ ((State.queueStatute_touches ..).mono rfl)
  with_reducible refine .upd ?_
  with_reducible refine .trans ?_ ((State.fresh_touches ..).mono rfl)
  with_reducible refine .trans ?_ ((State.skipFresh_touches ..).mono rfl)
  exact .refl _
  exact .refl _

theorem State.laneOp_touches (s : State) (l : Fin 5) (p : Nat) (d : Nat) : Touches 1107581665281 s (State.laneOp s l p d) := by
  unfold State.laneOp
  with_reducible exact .iteL (.after ((State.updLane_touches ..).mono rfl) (.refl _)) (.iteR (.after ((State.addSat_touches ..).mono rfl)
    (.refl _)) (.after ((State.declareWorn_touches ..).mono rfl) (.refl _)))

theorem State.laneOps_touches (s : State) (l : Fin 5) (p : Nat) (ds : List Nat) : Touches 1107581665281 s (State.laneOps s l p ds) := by
  unfold State.laneOps
  with_reducible exact .after (forEach_touches (hf := fun _ _ => .after ((State.laneOp_touches ..).mono rfl) (.refl _)) ..) (.refl _)

theorem State.laneCheckVector_touches (s : State) (l : Fin 5) (corrections : List Nat) (uncorrectable : Bool) : Touches 1107581706337 s
  (State.laneCheckVector s l corrections uncorrectable) := by
  unfold State.laneCheckVector
  with_reducible refine .iteL ?_ ?_
  exact .refl _
  with_reducible refine .iteL ?_ ?_
  with_reducible refine .trans ?_ ((State.laneOps_touches ..).mono rfl)
  exact .refl _
  split
  split
  with_reducible refine .ite ?_ ?_
  with_reducible refine .trans ?_ ((State.endShadow_touches ..).mono rfl)
  exact .refl _
  with_reducible refine .trans ?_ ((State.integrity_touches ..).mono rfl)
  exact .refl _
  with_reducible refine .trans ?_ ((State.integrity_touches ..).mono rfl)
  exact .refl _
  with_reducible refine .trans ?_ ((State.integrity_touches ..).mono rfl)
  exact .refl _
  exact .refl _
  split
  with_reducible refine .ite ?_ ?_
  with_reducible refine .trans ?_ ((State.endShadow_touches ..).mono rfl)
  exact .refl _
  with_reducible refine .trans ?_ ((State.integrity_touches ..).mono rfl)
  exact .refl _
  with_reducible refine .trans ?_ ((State.integrity_touches ..).mono rfl)
  exact .refl _
  with_reducible refine .trans ?_ ((State.integrity_touches ..).mono rfl)
  exact .refl _
  exact .refl _

theorem State.laneHits_touches (s : State) (l : Fin 5) : Touches 1099511627785 s (State.laneHits s l) := by
  unfold State.laneHits
  with_reducible refine .trans ?_ (forEach_touches (hf := ?_) ..)
  exact .refl _
  intro _
  intro _
  split
  with_reducible refine .iteL ?_ ?_
  exact .refl _
  with_reducible refine .ite ?_ ?_
  with_reducible refine .trans ?_ ((State.stringHit_touches ..).mono rfl)
  exact .refl _
  with_reducible refine .iteR ?_ ?_
  exact .refl _
  with_reducible refine .iteR ?_ ?_
  with_reducible refine .trans ?_ ((State.fresh_touches ..).mono rfl)
  exact .refl _
  with_reducible refine .trans ?_ ((State.stringHit_touches ..).mono rfl)
  exact .refl _
  exact .refl _

theorem State.laneLatency_touches (s : State) (l : Fin 5) (lat : Nat) (ii : Nat) : Touches 1103269789697 s (State.laneLatency s l lat ii) := by
  unfold State.laneLatency
  with_reducible exact .iteL (.after ((State.updLane_touches ..).mono rfl) (.after ((State.raise_touches ..).mono rfl) (.after
    ((State.raise_touches ..).mono rfl) (.refl _)))) (.iteL (.after ((State.addSat_touches ..).mono rfl) (.refl _)) (.after
    ((State.health_touches ..).mono rfl) (.after ((State.updLane_touches ..).mono rfl) (.refl _))))

theorem State.shadowCount_touches (s : State) (p : Fin 8) (c : Fin 7) : Touches 16777216 s (State.shadowCount s p c) := by
  unfold State.shadowCount
  split
  with_reducible refine .iteR ?_ ?_
  exact .refl _
  with_reducible refine .trans ?_ ((State.updPoint_touches ..).mono rfl)
  exact .refl _
  exact .refl _

theorem State.shadowWord_touches (s : State) (p : Fin 8) (n : Nat) (o : LaneObs) : Touches 1107581706337 s (State.shadowWord s p n o) := by
  unfold State.shadowWord
  split
  exact .refl _
  with_reducible refine .iteR ?_ ?_
  exact .refl _
  with_reducible refine .ite ?_ ?_
  with_reducible refine .ite ?_ ?_
  with_reducible refine .trans ?_ ((State.endShadow_touches ..).mono rfl)
  exact .refl _
  with_reducible refine .trans ?_ ((State.integrity_touches ..).mono rfl)
  exact .refl _
  with_reducible refine .ite ?_ ?_
  with_reducible refine .trans ?_ ((State.endShadow_touches ..).mono rfl)
  with_reducible refine .trans ?_ ((State.health_touches ..).mono rfl)
  exact .refl _
  with_reducible refine .trans ?_ ((State.laneOps_touches ..).mono rfl)
  exact .refl _

theorem State.laneWord_touches (s : State) (p : Fin 8) (c : Fin 7) (n : Nat) (o : LaneObs) : Touches 1107581706337 s (State.laneWord s p c
  n o) := by
  unfold State.laneWord
  with_reducible exact .iteR (.after ((State.laneOps_touches ..).mono rfl) (.after ((State.laneLatency_touches ..).mono rfl) (.iteR
    (.refl _) (.after ((State.integrity_touches ..).mono rfl) (.refl _))))) (.after ((State.shadowCount_touches ..).mono rfl) (.after
    ((State.shadowWord_touches ..).mono rfl) (.refl _)))

theorem State.lastChannel_touches (s : State) (p : Fin 8) (n : Nat) : Touches 9895654981633 s (State.lastChannel s p n) := by
  unfold State.lastChannel
  with_reducible exact .iteR (.refl _) (.after ((State.calSample_touches ..).mono rfl) (.after ((State.accumulate_touches ..).mono rfl)
    (.refl _)))

theorem State.latencyInterval_touches (s : State) : Touches 1125899906908161 s (State.latencyInterval s) := by
  unfold State.latencyInterval
  with_reducible exact .after ((State.banksInterval_touches ..).mono rfl) (.after (forEach_touches (hf := fun _ _ => .after
    ((State.updLane_touches ..).mono rfl) (.after ((State.setN_touches ..).mono rfl) (.refl _))) ..) (.refl _))

theorem State.leaveRecall_touches (s : State) : Touches 288231475663341777 s (State.leaveRecall s) := by
  unfold State.leaveRecall
  with_reducible exact .after ((State.compose_touches ..).mono rfl) (.after ((State.setN_touches ..).mono rfl) (.upd (.refl _)))

theorem State.lightFall_touches (s : State) (time : Nat) : Touches 576461851815051521 s (State.lightFall s time) := by
  unfold State.lightFall
  with_reducible exact .after ((State.setActive_touches ..).mono rfl) (.after ((State.at'_touches ..).mono rfl) (.refl _))

theorem State.lightRise_touches (s : State) (time : Nat) : Touches 576461856110018817 s (State.lightRise s time) := by
  unfold State.lightRise
  with_reducible exact .iteL (.after ((State.at'_touches ..).mono rfl) (.refl _)) (.after ((State.source_touches ..).mono rfl) (.after
    ((State.setActive_touches ..).mono rfl) (.refl _)))

theorem State.linkCheckFail_touches (s : State) (m : Fin 60) (check : LinkCheck) : Touches 576461859889872897 s (State.linkCheckFail s m
  check) := by
  unfold State.linkCheckFail
  with_reducible refine .iteL ?_ ?_
  exact .refl _
  split
  with_reducible refine .trans ?_ ((State.checkFails_touches ..).mono rfl)
  exact .refl _
  with_reducible refine .iteR ?_ ?_
  exact .refl _
  with_reducible refine .trans ?_ ((State.groupFails_touches ..).mono rfl)
  exact .refl _
  with_reducible refine .iteR ?_ ?_
  exact .refl _
  with_reducible refine .trans ?_ ((State.groupFails_touches ..).mono rfl)
  exact .refl _

theorem State.loadWord_touches (s : State) (p : Fin 8) (c : Fin 7) (j : Nat) : Touches 1099528404993 s (State.loadWord s p c j) := by
  unfold State.loadWord
  with_reducible exact .ite (.after ((State.updChan_touches ..).mono rfl) (.refl _)) (.ite (.iteR (.after ((State.updChan_touches ..).mono
    rfl) (.refl _)) (.after ((State.addSatQ_touches ..).mono rfl) (.refl _))) (.ite (.after ((State.updChan_touches ..).mono rfl)
    (.refl _)) (.ite (.after ((State.updChan_touches ..).mono rfl) (.iteL (.after ((State.addSatQ_touches ..).mono rfl) (.after
    ((State.setPortFlag_touches ..).mono rfl) (.refl _))) (.after ((State.addSatQ_touches ..).mono rfl) (.refl _)))) (.ite (.after
    ((State.updChan_touches ..).mono rfl) (.refl _)) (.after ((State.updChan_touches ..).mono rfl) (.refl _))))))

theorem State.loadPoint_touches (s : State) (p : Fin 8) : Touches 1099528404993 s (State.loadPoint s p) := by
  unfold State.loadPoint
  with_reducible exact .iteL (.refl _) (.ite (.iteR (.refl _) (.after (forEach_touches (hf := fun _ _ => .after
    ((State.loadWord_touches ..).mono rfl) (.refl _)) ..) (.refl _))) (.iteR (.refl _) (.after (forEach_touches (hf := fun _ _ => .after
    ((State.loadWord_touches ..).mono rfl) (.refl _)) ..) (.refl _))))

theorem State.makeTestKey_touches (s : State) : Touches 144115188075855883 s (State.makeTestKey s) := by
  unfold State.makeTestKey
  with_reducible exact .iteL (.refl _) (.iteR (.after ((State.setN_touches ..).mono rfl) (.after ((State.setB_touches ..).mono rfl) (.upd
    (.after ((State.fresh_touches ..).mono rfl) (.refl _))))) (.after ((State.setN_touches ..).mono rfl) (.refl _)))

theorem State.marchAccess_touches (s : State) (l : Fin 4) (r : Fin 16) : Touches 2252899325313025 s (State.marchAccess s l r) := by
  unfold State.marchAccess
  with_reducible exact .iteR (.refl _) (.after ((State.addSat_touches ..).mono rfl) (.upd (.refl _)))

theorem State.marchFailed_touches (s : State) (b : Fin 5) (r : Fin 16) : Touches 16889601872363521 s (State.marchFailed s b r) := by
  unfold State.marchFailed
  with_reducible exact .after ((State.bankWorn_touches ..).mono rfl) (.after ((State.lastError_touches ..).mono rfl) (.after
    ((State.addSat_touches ..).mono rfl) (.refl _)))

theorem State.marchedRegion_touches (s : State) (b : Nat) (r : Fin 16) : Touches 9007199254740992 s (State.marchedRegion s b r) := by
  unfold State.marchedRegion
  with_reducible exact .after (forEach_touches (hf := fun _ _ => .after ((State.setWord_touches ..).mono rfl) (.refl _)) ..) (.refl _)

theorem State.marchPhaseEnd_touches (s : State) (failed : Bool) (errs : List CopyErr) : Touches 1169811316949426273 s (State.marchPhaseEnd
  s failed errs) := by
  unfold State.marchPhaseEnd
  with_reducible refine .iteL ?_ ?_
  exact .refl _
  dsimp only
  split
  with_reducible refine .ite ?_ ?_
  with_reducible refine .trans ?_ ((State.marchFailed_touches ..).mono rfl)
  with_reducible refine .trans ?_ ((State.background_touches ..).mono rfl)
  with_reducible refine .trans ?_ ((State.background_touches ..).mono rfl)
  exact .refl _
  with_reducible refine .upd ?_
  with_reducible refine .trans ?_ ((State.marchedRegion_touches ..).mono rfl)
  with_reducible refine .trans ?_ ((State.background_touches ..).mono rfl)
  with_reducible refine .trans ?_ ((State.background_touches ..).mono rfl)
  exact .refl _
  with_reducible refine .iteR ?_ ?_
  with_reducible refine .trans ?_ ((State.copyErrors_touches ..).mono rfl)
  with_reducible refine .trans ?_ ((State.background_touches ..).mono rfl)
  with_reducible refine .trans ?_ ((State.background_touches ..).mono rfl)
  exact .refl _
  with_reducible refine .upd ?_
  with_reducible refine .trans ?_ ((State.copyRegion_touches ..).mono rfl)
  exact .refl _
  with_reducible refine .ite ?_ ?_
  with_reducible refine .trans ?_ ((State.marchFailed_touches ..).mono rfl)
  with_reducible refine .trans ?_ ((State.background_touches ..).mono rfl)
  with_reducible refine .trans ?_ ((State.background_touches ..).mono rfl)
  exact .refl _
  with_reducible refine .upd ?_
  with_reducible refine .trans ?_ ((State.marchedRegion_touches ..).mono rfl)
  with_reducible refine .trans ?_ ((State.background_touches ..).mono rfl)
  with_reducible refine .trans ?_ ((State.background_touches ..).mono rfl)
  exact .refl _
  with_reducible refine .iteR ?_ ?_
  with_reducible refine .trans ?_ ((State.copyErrors_touches ..).mono rfl)
  with_reducible refine .trans ?_ ((State.background_touches ..).mono rfl)
  with_reducible refine .trans ?_ ((State.background_touches ..).mono rfl)
  exact .refl _
  with_reducible refine .trans ?_ ((State.copyBackEnd_touches ..).mono rfl)
  with_reducible refine .trans ?_ ((State.copyRegion_touches ..).mono rfl)
  exact .refl _
  with_reducible refine .trans ?_ ((State.background_touches ..).mono rfl)
  with_reducible refine .trans ?_ ((State.background_touches ..).mono rfl)
  exact .refl _

theorem State.marchRetry_touches (s : State) : Touches 2252899325313025 s (State.marchRetry s) := by
  unfold State.marchRetry
  with_reducible exact .iteR (.refl _) (.ite (.after ((State.addSat_touches ..).mono rfl) (.upd (.refl _))) (.upd (.refl _)))

theorem State.marchStart_touches (s : State) : Touches 2251799813685248 s (State.marchStart s) := by
  unfold State.marchStart
  with_reducible exact .iteR (.refl _) (.upd (.refl _))

theorem State.numbering_touches (s : State) (first : Nat) (size0 : Nat) (depth : Nat) : Touches 1152922604118474753 s (State.numbering s
  first size0 depth) := by
  unfold State.numbering
  with_reducible exact .iteL (.refl _) (.after ((State.thbAcquire_touches ..).mono rfl) (.after ((State.numberChildren_touches ..).mono
    rfl) (.upd (.after ((State.setN_touches ..).mono rfl) (.after ((State.setN_touches ..).mono rfl) (.after ((State.setN_touches ..).mono
    rfl) (.after ((State.setN_touches ..).mono rfl) (.refl _))))))))

theorem State.remapDone_touches (s : State) (r : Remap) : Touches 1120449593345 s (State.remapDone s r) := by
  unfold State.remapDone
  with_reducible exact .after ((State.nvmError_touches ..).mono rfl) (.after ((State.addSat_touches ..).mono rfl) (.after
    ((State.setN_touches ..).mono rfl) (.ite (.after ((State.health_touches ..).mono rfl) (.upd (.refl _))) (.upd (.refl _)))))

theorem State.remapCycle_touches (s : State) : Touches 1120449593345 s (State.remapCycle s) := by
  unfold State.remapCycle
  split
  with_reducible refine .ite ?_ ?_
  with_reducible refine .upd ?_
  exact .refl _
  with_reducible refine .trans ?_ ((State.remapDone_touches ..).mono rfl)
  with_reducible refine .upd ?_
  exact .refl _
  exact .refl _

theorem State.nvmCycle_touches (s : State) (o : NvmObs) : Touches 1044836487402659945 s (State.nvmCycle s o) := by
  unfold State.nvmCycle
  with_reducible exact .iteR (.refl _) (.ite (.after ((State.groupWrite_touches ..).mono rfl) (.iteL (.refl _) (.after
    ((State.remapCycle_touches ..).mono rfl) (.refl _)))) (.after ((State.groupRead_touches ..).mono rfl) (.iteL (.refl _) (.after
    ((State.remapCycle_touches ..).mono rfl) (.refl _)))))

theorem State.offPointApply_touches (s : State) (p : Fin 8) : Touches 72085296494608385 s (State.offPointApply s p) := by
  unfold State.offPointApply
  with_reducible exact .iteL (.refl _) (.after ((State.releaseHeld_touches ..).mono rfl) (.after ((State.stepConstants_touches ..).mono
    rfl) (.after ((State.handOverOff_touches ..).mono rfl) (.after ((State.clockGroups_touches ..).mono rfl) (.after
    ((State.applyPulses_touches ..).mono rfl) (.after ((State.applyConfig_touches ..).mono rfl) (.after
    ((State.applyPlates_touches ..).mono rfl) (.refl _))))))))

theorem State.openCommitted_touches (s : State) (p : Fin 8) : Touches 72058698918264833 s (State.openCommitted s p) := by
  unfold State.openCommitted
  split
  with_reducible refine .trans ?_ ((State.closeLaunch_touches ..).mono rfl)
  with_reducible refine .trans ?_ ((State.updSession_touches ..).mono rfl)
  with_reducible refine .trans ?_ ((State.put_touches ..).mono rfl)
  exact .refl _
  exact .refl _

theorem State.rollForward_touches (s : State) : Touches 8589934593 s (State.rollForward s) := by
  unfold State.rollForward
  split
  with_reducible refine .upd ?_
  with_reducible refine .trans ?_ ((State.setN_touches ..).mono rfl)
  exact .refl _
  exact .refl _

theorem State.resolvePosition_touches (s : State) (k : LogKind) (pos : Nat) : Touches 576461857183760385 s (State.resolvePosition s k pos) := by
  unfold State.resolvePosition
  with_reducible refine .iteR ?_ ?_
  with_reducible refine .iteL ?_ ?_
  with_reducible refine .trans ?_ ((State.setLog_touches ..).mono rfl)
  exact .refl _
  with_reducible refine .trans ?_ ((State.setN_touches ..).mono rfl)
  exact .refl _
  with_reducible refine .trans ?_ ((State.consistency_touches ..).mono rfl)
  exact .refl _

theorem State.resolveRecords_touches (s : State) : Touches 576461857183760385 s (State.resolveRecords s) := by
  unfold State.resolveRecords
  with_reducible exact .after (forEach_touches (hf := fun _ _ => .after (forEach_touches (hf := fun _ _ => .after
    ((State.resolvePosition_touches ..).mono rfl) (.refl _)) ..) (.refl _)) ..) (.refl _)

theorem State.unloggedSaved_touches (s : State) : Touches 1744830464 s (State.unloggedSaved s) := by
  unfold State.unloggedSaved
  with_reducible exact .iteR (.refl _) (.after (forEach_touches (hf := fun _ _ => .after ((State.queueRecord_touches ..).mono rfl)
    (.refl _)) ..) (.upd (.refl _)))

theorem State.queueFinal_touches (s : State) (p : Fin 8) (seq : Nat) (digest : List Byte) : Touches 4294967296 s (State.queueFinal s p seq
  digest) := by
  unfold State.queueFinal
  with_reducible exact .after ((State.queueUnit_touches ..).mono rfl) (.refl _)

theorem State.resume_touches (s : State) (p : Fin 8) : Touches 216172787482492929 s (State.resume s p) := by
  unfold State.resume
  split
  split
  with_reducible refine .trans ?_ ((State.queueFinal_touches ..).mono rfl)
  with_reducible refine .iteR (.refl _) ?_
  with_reducible refine .upd ?_
  with_reducible refine .trans ?_ ((State.setN_touches ..).mono rfl)
  exact .refl _
  with_reducible refine .upd ?_
  with_reducible refine .trans ?_ ((State.updSession_touches ..).mono rfl)
  with_reducible refine .trans ?_ ((State.setLog_touches ..).mono rfl)
  exact .refl _
  exact .refl _

theorem State.recallSessions_touches (s : State) : Touches 216172787482492929 s (State.recallSessions s) := by
  unfold State.recallSessions
  with_reducible exact .after ((State.queueClose_touches ..).mono rfl) (.after (forEach_touches (hf := fun _ _ => .after
    ((State.resume_touches ..).mono rfl) (.refl _)) ..) (.refl _))

theorem State.writeDeferred_touches (s : State) : Touches 576461853425664001 s (State.writeDeferred s) := by
  unfold State.writeDeferred
  with_reducible exact .upd (.after (forEach_touches (hf := fun _ _ => .after ((State.syncSrc_touches ..).mono rfl) (.after
    ((State.updSrc_touches ..).mono rfl) (.refl _))) ..) (.after (forEach_touches (hf := fun _ _ => .after
    ((State.queueRecord_touches ..).mono rfl) (.refl _)) ..) (.refl _)))

theorem State.ordinaryResolved_touches (s : State) : Touches 792634648558569473 s (State.ordinaryResolved s) := by
  unfold State.ordinaryResolved
  with_reducible exact .iteL (.refl _) (.upd (.after ((State.tallyStored_touches ..).mono rfl) (.after
    ((State.writeDeferred_touches ..).mono rfl) (.after ((State.recallSessions_touches ..).mono rfl) (.after
    ((State.unloggedSaved_touches ..).mono rfl) (.after ((State.resolveRecords_touches ..).mono rfl) (.after ((State.setN_touches ..).mono
    rfl) (.after ((State.rollForward_touches ..).mono rfl) (.refl _)))))))))

theorem State.platesCommitted_touches (s : State) (p : Fin 8) : Touches 26388279066624 s (State.platesCommitted s p) := by
  unfold State.platesCommitted
  with_reducible exact .after ((State.coefDue_touches ..).mono rfl) (.upd (.refl _))

theorem State.ownerEffect_touches (s : State) (o : Owner) : Touches 2522606440598749185 s (State.ownerEffect s o) := by
  unfold State.ownerEffect
  split
  with_reducible refine .trans ?_ ((State.replyWrite_touches ..).mono rfl)
  exact .refl _
  with_reducible refine .trans ?_ ((State.reply_touches ..).mono rfl)
  exact .refl _
  with_reducible refine .trans ?_ ((State.platesCommitted_touches ..).mono rfl)
  exact .refl _
  with_reducible refine .trans ?_ ((State.auxCommitted_touches ..).mono rfl)
  exact .refl _
  with_reducible refine .upd ?_
  exact .refl _
  exact .refl _
  with_reducible refine .trans ?_ ((State.openCommitted_touches ..).mono rfl)
  exact .refl _
  with_reducible refine .trans ?_ ((State.closeCommitted_touches ..).mono rfl)
  exact .refl _
  with_reducible refine .trans ?_ ((State.doneCommitted_touches ..).mono rfl)
  exact .refl _
  with_reducible refine .iteR ?_ ?_
  exact .refl _
  with_reducible refine .upd ?_
  exact .refl _

theorem State.patrolRead_touches (s : State) (err : GroupErr) (bothBad : Bool) (part : Nat) : Touches 1008807690383695977 s
  (State.patrolRead s err bothBad part) := by
  unfold State.patrolRead
  with_reducible refine .iteL ?_ ?_
  exact .refl _
  with_reducible refine .iteR ?_ ?_
  with_reducible refine .trans ?_ ((State.setN_touches ..).mono rfl)
  split
  with_reducible refine .trans ?_ ((State.remapCycle_touches ..).mono rfl)
  exact .refl _
  with_reducible refine .trans ?_ ((State.rangeWrote_touches ..).mono rfl)
  with_reducible refine .trans ?_ ((State.groupCorrected_touches ..).mono rfl)
  with_reducible refine .trans ?_ ((State.remapCycle_touches ..).mono rfl)
  exact .refl _
  with_reducible refine .trans ?_ ((State.structureLost_touches ..).mono rfl)
  with_reducible refine .trans ?_ ((State.groupLost_touches ..).mono rfl)
  with_reducible refine .trans ?_ ((State.remapCycle_touches ..).mono rfl)
  exact .refl _
  with_reducible refine .trans ?_ ((State.contentWrong_touches ..).mono rfl)
  with_reducible refine .trans ?_ ((State.remapCycle_touches ..).mono rfl)
  exact .refl _
  with_reducible refine .trans ?_ ((State.contentWrong_touches ..).mono rfl)
  with_reducible refine .trans ?_ ((State.rangeWrote_touches ..).mono rfl)
  with_reducible refine .trans ?_ ((State.groupCorrected_touches ..).mono rfl)
  with_reducible refine .trans ?_ ((State.remapCycle_touches ..).mono rfl)
  exact .refl _
  with_reducible refine .upd ?_
  with_reducible refine .trans ?_ ((State.addWrap_touches ..).mono rfl)
  exact .refl _

theorem State.pendingFrom_touches (s : State) (k : Fin 4) : Touches 1152921504606846976 s (State.pendingFrom s k) := by
  unfold State.pendingFrom
  with_reducible exact .iteL (.refl _) (.after ((State.updThb_touches ..).mono rfl) (.refl _))

theorem State.pendingSend_touches (s : State) : Touches 1152921504606846976 s (State.pendingSend s) := by
  unfold State.pendingSend
  with_reducible exact .iteR (.refl _) (.after ((State.sendFrame_touches ..).mono rfl) (.refl _))

theorem State.portPeriod_touches (s : State) (bits : List Nat) : Touches 1107582255105 s (State.portPeriod s bits) := by
  unfold State.portPeriod
  with_reducible exact .after (forEach_touches (hf := fun _ _ => .after ((State.loadPoint_touches ..).mono rfl) (.refl _)) ..) (.after
    ((State.comparePairs_touches ..).mono rfl) (.after ((State.filterAll_touches ..).mono rfl) (.after (forEach_touches (hf := fun _ _ =>
    .after ((State.applyFault_touches ..).mono rfl) (.refl _)) ..) (.after (forEach_touches (hf := fun _ _ => .after
    ((State.applySpare_touches ..).mono rfl) (.refl _)) ..) (.refl _)))))

theorem State.samplePeriod_touches (s : State) (bits : List Nat) : Touches 2594646445152737265 s (State.samplePeriod s bits) := by
  unfold State.samplePeriod
  with_reducible exact .iteL (.refl _) (.after ((State.portPeriod_touches ..).mono rfl) (.ite (.upd (.refl _)) (.after
    ((State.applyMode_touches ..).mono rfl) (.after ((State.applyTimeStep_touches ..).mono rfl) (.upd (.refl _))))))

theorem State.tstepSend_touches (s : State) (step : Int) : Touches 1152921504606846976 s (State.tstepSend s step) := by
  unfold State.tstepSend
  with_reducible exact .iteR (.refl _) (.after ((State.sendDown_touches ..).mono rfl) (.refl _))

theorem State.period_touches (s : State) (bits : List Nat) : Touches 3747567949759584241 s (State.period s bits) := by
  unfold State.period
  with_reducible exact .iteR (.after ((State.samplePeriod_touches ..).mono rfl) (.refl _)) (.after ((State.tstepSend_touches ..).mono rfl)
    (.refl _))

theorem State.phaseQuantities_touches (s : State) (p : Fin 8) (n : Nat) (w : Window) (f : Spectra) (k : Fin 3) : Touches 1099511627777 s
  (State.phaseQuantities s p n w f k) := by
  unfold State.phaseQuantities
  with_reducible exact .iteL (.after ((State.setQ_touches ..).mono rfl) (.after ((State.setQ_touches ..).mono rfl) (.after
    ((State.setQ_touches ..).mono rfl) (.after ((State.setQ_touches ..).mono rfl) (.after ((State.setQ_touches ..).mono rfl) (.after
    ((State.setQ_touches ..).mono rfl) (.refl _))))))) (.after ((State.setQ_touches ..).mono rfl) (.refl _))

theorem State.stampLoss_touches (s : State) : Touches 2305844108725321729 s (State.stampLoss s) := by
  unfold State.stampLoss
  with_reducible exact .upd (.after ((State.addSat_touches ..).mono rfl) (.after ((State.setN_touches ..).mono rfl) (.refl _)))

theorem State.sessionsLost_touches (s : State) : Touches 216172783187525632 s (State.sessionsLost s) := by
  unfold State.sessionsLost
  with_reducible exact .upd (.after (forEach_touches (hf := fun _ _ => .after ((State.updSession_touches ..).mono rfl) (.iteR (.refl _)
    (.after ((State.setLog_touches ..).mono rfl) (.refl _)))) ..) (.refl _))

theorem State.revertDevice_touches (s : State) (us : List JUnit) : Touches 577586652210348035 s (State.revertDevice s us) := by
  unfold State.revertDevice
  with_reducible refine .trans ?_ (forEach_touches (hf := ?_) ..)
  exact .refl _
  intro _
  intro _
  split
  with_reducible refine .trans ?_ (forEach_touches (hf := ?_) ..)
  exact .refl _
  intro _
  intro _
  with_reducible refine .trans ?_ ((State.applyDeviceState_touches ..).mono rfl)
  exact .refl _
  exact .refl _

theorem State.powerLost_touches (s : State) : Touches 4289342142839610611 s (State.powerLost s) := by
  unfold State.powerLost
  with_reducible exact .upd (.after ((State.revertDevice_touches ..).mono rfl) (.after ((State.sessionsLost_touches ..).mono rfl) (.after
    ((State.cutJobs_touches ..).mono rfl) (.refl _))))

theorem State.stopMain_touches (s : State) : Touches 576460752303423488 s (State.stopMain s) := by
  have keep : ∀ (n : Fin 16) (k t : Nat) (u : State), Touches 576460752303423488 u (if k = 0 then u else
      (u.dormantAlarm n t false).updSrc n fun x => { x with dormant := min (x.dormant + (k - 1)) 255 }) :=
    fun n k t u => .ite (.refl _) (((State.dormantAlarm_touches ..).mono rfl).trans ((State.updSrc_touches ..).mono rfl))
  have first : ∀ u : State, Touches 576460752303423488 u (forEach allSources (fun (n : Fin 16) s =>
      let s := if backupSource n then s else s.updSrc n fun x => { x with counting := false, count := 0, high := 0, low := 0, active := false }
      let x := s.src n
      let s := if x.waiting = 0 then s else
        (s.dormantAlarm n x.waitTime false).updSrc n fun y => { y with dormant := min (y.dormant + (x.waiting - 1)) 255 }
      s.updSrc n fun x => { x with waiting := 0 }) u) :=
    fun u => forEach_touches _ _ _ fun n v =>
      .trans (.trans (.ite (.refl _) ((State.updSrc_touches ..).mono rfl)) (keep n _ _ _)) ((State.updSrc_touches ..).mono rfl)
  unfold State.stopMain
  dsimp only
  split
  · refine .trans ?_ (first _)
    refine .upd ?_
    exact forEach_touches _ _ _ fun (e : Alarmed) v => keep e.source e.count e.time v
  · exact first s

theorem State.stopShadow_touches (s : State) : Touches 196608 s (State.stopShadow s) := by
  unfold State.stopShadow
  split
  with_reducible refine .upd ?_
  with_reducible refine .trans ?_ ((State.updLane_touches ..).mono rfl)
  exact .refl _
  exact .refl _

theorem State.pulsesOff_touches (s : State) : Touches 1099545182209 s (State.pulsesOff s) := by
  unfold State.pulsesOff
  with_reducible exact .after (forEach_touches (hf := fun _ _ => .after ((State.updPulse_touches ..).mono rfl) (.iteL (.refl _) (.after
    ((State.addSat_touches ..).mono rfl) (.after ((State.put_touches ..).mono rfl) (.refl _))))) ..) (.refl _)

theorem State.saveBegin_touches (s : State) : Touches 8589934592 s (State.saveBegin s) := by
  unfold State.saveBegin
  with_reducible exact .after ((State.updSave_touches ..).mono rfl) (.refl _)

theorem State.powerFail_touches (s : State) (time : Nat) (clampNs : Nat) : Touches 4577572519025008115 s (State.powerFail s time clampNs) := by
  unfold State.powerFail
  split
  exact .refl _
  exact .refl _
  with_reducible refine .ite ?_ ?_
  with_reducible refine .trans ?_ ((State.powerLost_touches ..).mono rfl)
  with_reducible refine .trans ?_ ((State.stopMain_touches ..).mono rfl)
  with_reducible refine .trans ?_ ((State.displayClamp_touches ..).mono rfl)
  with_reducible refine .trans ?_ ((State.stampLoss_touches ..).mono rfl)
  with_reducible refine .trans ?_ ((State.at'_touches ..).mono rfl)
  exact .refl _
  with_reducible refine .trans ?_ ((State.saveBegin_touches ..).mono rfl)
  with_reducible refine .upd ?_
  with_reducible refine .trans ?_ ((State.closeTableau_touches ..).mono rfl)
  with_reducible refine .trans ?_ ((State.stopMain_touches ..).mono rfl)
  with_reducible refine .trans ?_ ((State.abortSeal_touches ..).mono rfl)
  with_reducible refine .trans ?_ ((State.stopShadow_touches ..).mono rfl)
  with_reducible refine .trans ?_ ((State.auxPowerFail_touches ..).mono rfl)
  with_reducible refine .trans ?_ ((State.calAbort_touches ..).mono rfl)
  with_reducible refine .trans ?_ ((State.slackAll_touches ..).mono rfl)
  with_reducible refine .trans ?_ ((State.pulsesOff_touches ..).mono rfl)
  with_reducible refine .trans ?_ ((State.setN_touches ..).mono rfl)
  with_reducible refine .upd ?_
  with_reducible refine .trans ?_ ((State.displayClamp_touches ..).mono rfl)
  with_reducible refine .trans ?_ ((State.stampLoss_touches ..).mono rfl)
  with_reducible refine .trans ?_ ((State.at'_touches ..).mono rfl)
  exact .refl _

theorem State.powerGood_touches (s : State) (time : Nat) : Touches 2304 s (State.powerGood s time) := by
  unfold State.powerGood
  split
  with_reducible refine .upd ?_
  with_reducible refine .trans ?_ ((State.at'_touches ..).mono rfl)
  exact .refl _
  exact .refl _

theorem State.restoreMarks_touches (s : State) : Touches 576461851815051329 s (State.restoreMarks s) := by
  unfold State.restoreMarks
  with_reducible exact .iteR (.after (forEach_touches (hf := fun _ _ => .after ((State.syncSrc_touches ..).mono rfl) (.refl _)) ..) (.upd
    (.after ((State.put_touches ..).mono rfl) (.after ((State.put_touches ..).mono rfl) (.refl _))))) (.upd (.refl _))

theorem State.restore_touches (s : State) (b : Body) : Touches 72057594121814017 s (State.restore s b) := by
  unfold State.restore
  with_reducible exact .upd (.upd (.upd (.refl _)))

theorem State.restartRtc_touches (s : State) (loss : Nat) : Touches 576460752303425792 s (State.restartRtc s loss) := by
  unfold State.restartRtc
  with_reducible exact .upd (.refl _)

theorem State.restoreEnergy_touches (s : State) : Touches 648519454023527265 s (State.restoreEnergy s) := by
  unfold State.restoreEnergy
  with_reducible exact .upd (.ite (.after ((State.restartRtc_touches ..).mono rfl) (.upd (.after (forEach_touches (hf := fun _ _ => .after
    ((State.setN_touches ..).mono rfl) (.refl _)) ..) (.after ((State.setN_touches ..).mono rfl) (.after ((State.setN_touches ..).mono rfl)
    (.after ((State.finishSealing_touches ..).mono rfl) (.iteR (.after ((State.restore_touches ..).mono rfl) (.iteR (.refl _) (.after
    ((State.consistency_touches ..).mono rfl) (.refl _)))) (.after ((State.integrity_touches ..).mono rfl) (.refl _))))))))) (.upd (.upd
    (.after (forEach_touches (hf := fun _ _ => .after ((State.setN_touches ..).mono rfl) (.refl _)) ..) (.after
    ((State.setN_touches ..).mono rfl) (.after ((State.setN_touches ..).mono rfl) (.after ((State.finishSealing_touches ..).mono rfl)
    (.iteR (.after ((State.restore_touches ..).mono rfl) (.iteR (.refl _) (.after ((State.consistency_touches ..).mono rfl) (.refl _))))
    (.after ((State.integrity_touches ..).mono rfl) (.refl _))))))))))

theorem State.sessionRestore_touches (s : State) (p : Fin 8) : Touches 72057594037927937 s (State.sessionRestore s p) := by
  unfold State.sessionRestore
  dsimp only
  split
  with_reducible refine .iteL ?_ ?_
  with_reducible refine .trans ?_ ((State.setN_touches ..).mono rfl)
  with_reducible refine .trans ?_ ((State.setN_touches ..).mono rfl)
  with_reducible refine .trans ?_ ((State.setN_touches ..).mono rfl)
  exact .refl _
  with_reducible refine .trans ?_ ((State.updGrown_touches ..).mono rfl)
  with_reducible refine .trans ?_ ((State.setN_touches ..).mono rfl)
  with_reducible refine .trans ?_ ((State.setN_touches ..).mono rfl)
  exact .refl _
  with_reducible refine .trans ?_ ((State.setN_touches ..).mono rfl)
  with_reducible refine .trans ?_ ((State.setN_touches ..).mono rfl)
  with_reducible refine .trans ?_ ((State.setN_touches ..).mono rfl)
  exact .refl _

theorem State.recallCkpt_touches (s : State) : Touches 1125281433601 s (State.recallCkpt s) := by
  unfold State.recallCkpt
  with_reducible exact .upd (.after ((State.ckptStored_touches ..).mono rfl) (.after ((State.ckptBegin_touches ..).mono rfl) (.refl _)))

theorem State.recallLanes_touches (s : State) : Touches 196608 s (State.recallLanes s) := by
  unfold State.recallLanes
  with_reducible exact .after (forEach_touches (hf := fun _ _ => .after ((State.updLane_touches ..).mono rfl) (.refl _)) ..) (.upd
    (.refl _))

theorem State.tempRecall_touches (s : State) (p : Fin 8) : Touches 18691697672193 s (State.tempRecall s p) := by
  unfold State.tempRecall
  with_reducible exact .after ((State.formActive_touches ..).mono rfl) (.upd (.after ((State.setQ_touches ..).mono rfl) (.after
    ((State.setTFlag_touches ..).mono rfl) (.refl _))))

theorem State.recallPoint_touches (s : State) (p : Fin 8) : Touches 18691714449409 s (State.recallPoint s p) := by
  unfold State.recallPoint
  with_reducible exact .after ((State.stepConstants_touches ..).mono rfl) (.after ((State.tempRecall_touches ..).mono rfl) (.after
    ((State.setN_touches ..).mono rfl) (.after ((State.nominalFreq_touches ..).mono rfl) (.after ((State.updPoint_touches ..).mono rfl)
    (.refl _)))))

theorem State.recallPulses_touches (s : State) : Touches 1099545182209 s (State.recallPulses s) := by
  unfold State.recallPulses
  with_reducible exact .after (forEach_touches (hf := fun _ _ => .after ((State.applyPulse_touches ..).mono rfl) (.after
    ((State.updPulse_touches ..).mono rfl) (.refl _))) ..) (.refl _)

theorem State.recallSpare_touches (s : State) (i : Fin 4) : Touches 786433 s (State.recallSpare s i) := by
  unfold State.recallSpare
  dsimp only
  split
  split
  with_reducible refine .ite ?_ ?_
  with_reducible refine .trans ?_ ((State.pairSpare_touches ..).mono rfl)
  with_reducible refine .trans ?_ ((State.updSpare_touches ..).mono rfl)
  with_reducible refine .trans ?_ ((State.setN_touches ..).mono rfl)
  exact .refl _
  with_reducible refine .ite ?_ ?_
  with_reducible refine .trans ?_ ((State.updSpare_touches ..).mono rfl)
  exact .refl _
  with_reducible refine .trans ?_ ((State.pairSpare_touches ..).mono rfl)
  with_reducible refine .trans ?_ ((State.updSpare_touches ..).mono rfl)
  exact .refl _
  exact .refl _
  with_reducible refine .trans ?_ ((State.pairSpare_touches ..).mono rfl)
  with_reducible refine .trans ?_ ((State.updSpare_touches ..).mono rfl)
  exact .refl _

theorem State.recallPorts_touches (s : State) : Touches 12320769 s (State.recallPorts s) := by
  unfold State.recallPorts
  with_reducible exact .after ((State.clockGroups_touches ..).mono rfl) (.after (forEach_touches (hf := fun _ _ => .iteR (.refl _) (.after
    ((State.linkStart_touches ..).mono rfl) (.refl _))) ..) (.after (forEach_touches (hf := fun _ _ => .after
    ((State.recallSpare_touches ..).mono rfl) (.refl _)) ..) (.upd (.refl _))))

theorem State.privilegedResolved_touches (s : State) (time : Nat) (fault : Option Nat) : Touches 1116568385610574699 s
  (State.privilegedResolved s time fault) := by
  unfold State.privilegedResolved
  with_reducible refine .iteL ?_ ?_
  exact .refl _
  with_reducible refine .upd ?_
  with_reducible refine .trans ?_ ((State.compose_touches ..).mono rfl)
  with_reducible refine .trans ?_ ((State.makeTestKey_touches ..).mono rfl)
  with_reducible refine .trans ?_ ((State.clearBand_touches ..).mono rfl)
  with_reducible refine .trans ?_ ((State.displayRecall_touches ..).mono rfl)
  with_reducible refine .trans ?_ ((State.banksRecall_touches ..).mono rfl)
  with_reducible refine .trans ?_ ((State.auxRecall_touches ..).mono rfl)
  with_reducible refine .trans ?_ ((State.recallPulses_touches ..).mono rfl)
  with_reducible refine .trans ?_ ((State.recallPorts_touches ..).mono rfl)
  with_reducible refine .trans ?_ (forEach_touches (hf := ?_) ..)
  with_reducible refine .trans ?_ ((State.recallLanes_touches ..).mono rfl)
  with_reducible refine .trans ?_ ((State.recallCkpt_touches ..).mono rfl)
  with_reducible refine .trans ?_ ((State.demandRecall_touches ..).mono rfl)
  with_reducible refine .trans ?_ ((State.interruptAll_touches ..).mono rfl)
  with_reducible refine .trans ?_ (forEach_touches (hf := ?_) ..)
  with_reducible refine .trans ?_ ((State.restoreEnergy_touches ..).mono rfl)
  with_reducible refine .trans ?_ ((State.deferredDecision_touches ..).mono rfl)
  with_reducible refine .trans ?_ ((State.restoreMarks_touches ..).mono rfl)
  split
  with_reducible refine .iteR ?_ ?_
  with_reducible refine .trans ?_ ((State.journalRecall_touches ..).mono rfl)
  with_reducible refine .trans ?_ ((State.setN_touches ..).mono rfl)
  with_reducible refine .trans ?_ ((State.at'_touches ..).mono rfl)
  exact .refl _
  with_reducible refine .trans ?_ (forEach_touches (hf := ?_) ..)
  exact .refl _
  intro _
  intro _
  with_reducible refine .trans ?_ ((State.applyDeviceState_touches ..).mono rfl)
  exact .refl _
  with_reducible refine .trans ?_ ((State.journalRecall_touches ..).mono rfl)
  with_reducible refine .trans ?_ ((State.setN_touches ..).mono rfl)
  with_reducible refine .trans ?_ ((State.at'_touches ..).mono rfl)
  exact .refl _
  intro _
  intro _
  with_reducible refine .trans ?_ ((State.sessionRestore_touches ..).mono rfl)
  exact .refl _
  intro _
  intro _
  with_reducible refine .trans ?_ ((State.recallPoint_touches ..).mono rfl)
  exact .refl _

theorem State.thbRecall_touches (s : State) : Touches 1152922604118474753 s (State.thbRecall s) := by
  unfold State.thbRecall
  with_reducible exact .after ((State.thbConfig_touches ..).mono rfl) (.upd (.refl _))

theorem State.privilegedStep_touches (s : State) (time : Nat) (fault : Option Nat) : Touches 2269489890217421675 s (State.privilegedStep s
  time fault) := by
  unfold State.privilegedStep
  with_reducible exact .iteR (.after ((State.privilegedResolved_touches ..).mono rfl) (.refl _)) (.after ((State.thbRecall_touches ..).mono
    rfl) (.refl _))

theorem State.sessionQual_touches (s : State) (p : Fin 8) (c : Fin 7) (w : Nat) : Touches 72057594037927936 s (State.sessionQual s p c w) := by
  unfold State.sessionQual
  with_reducible exact .iteR (.refl _) (.after ((State.updGrown_touches ..).mono rfl) (.refl _))

theorem State.rippleEntries_touches (s : State) (p : Fin 8) (c : Fin 7) (n : Nat) (f : Spectra) (z : ChanSum) (m : Nat) (fs : Nat) (osr500
  : Bool) (have' : Bool) : Touches 1099511627777 s (State.rippleEntries s p c n f z m fs osr500 have') := by
  unfold State.rippleEntries
  with_reducible exact .after ((State.setQ_touches ..).mono rfl) (.after ((State.setQ_touches ..).mono rfl) (.after
    ((State.setQ_touches ..).mono rfl) (.after (forEach_touches (hf := fun _ _ => .after ((State.setQ_touches ..).mono rfl) (.refl _)) ..)
    (.refl _))))

theorem State.totalQuantities_touches (s : State) (p : Fin 8) (n : Nat) (w : Window) (f : Spectra) : Touches 1099511627777 s
  (State.totalQuantities s p n w f) := by
  unfold State.totalQuantities
  with_reducible exact .after ((State.setQ_touches ..).mono rfl) (.after ((State.setQ_touches ..).mono rfl) (.after
    ((State.setQ_touches ..).mono rfl) (.after ((State.setQ_touches ..).mono rfl) (.after ((State.setQ_touches ..).mono rfl) (.after
    ((State.setQ_touches ..).mono rfl) (.refl _))))))

theorem State.windowEvents_touches (s : State) (p : Fin 8) (n : Nat) (ew : EndedWindow) (f : Spectra) : Touches 72058693968986113 s
  (State.windowEvents s p n ew f) := by
  unfold State.windowEvents
  with_reducible refine .trans ?_ ((State.plainEvent_touches ..).mono rfl)
  with_reducible refine .iteR ?_ ?_
  with_reducible refine .iteR ?_ ?_
  with_reducible refine .iteR ?_ ?_
  with_reducible refine .iteR ?_ ?_
  exact .refl _
  dsimp only
  split
  with_reducible refine .trans ?_ ((State.plainEvent_touches ..).mono rfl)
  exact .refl _
  with_reducible refine .trans ?_ ((State.plainEvent_touches ..).mono rfl)
  exact .refl _
  with_reducible refine .trans ?_ ((State.plainEvent_touches ..).mono rfl)
  exact .refl _
  with_reducible refine .trans ?_ ((State.plainEvent_touches ..).mono rfl)
  exact .refl _
  with_reducible refine .trans ?_ ((State.plainEvent_touches ..).mono rfl)
  exact .refl _

theorem State.publish_touches (s : State) (p : Fin 8) : Touches 72058693968986113 s (State.publish s p) := by
  unfold State.publish
  split
  exact .refl _
  with_reducible refine .trans ?_ ((State.windowEvents_touches ..).mono rfl)
  with_reducible refine .trans ?_ ((State.setQ_touches ..).mono rfl)
  with_reducible refine .trans ?_ ((State.setQ_touches ..).mono rfl)
  with_reducible refine .trans ?_ ((State.setQ_touches ..).mono rfl)
  with_reducible refine .trans ?_ ((State.setQ_touches ..).mono rfl)
  with_reducible refine .trans ?_ ((State.setQ_touches ..).mono rfl)
  with_reducible refine .iteR ?_ ?_
  with_reducible refine .trans ?_ ((State.totalQuantities_touches ..).mono rfl)
  with_reducible refine .trans ?_ (forEach_touches (hf := ?_) ..)
  with_reducible refine .trans ?_ (forEach_touches (hf := ?_) ..)
  with_reducible refine .trans ?_ ((State.updPoint_touches ..).mono rfl)
  exact .refl _
  intro _
  intro _
  with_reducible refine .iteR ?_ ?_
  with_reducible refine .iteR ?_ ?_
  with_reducible refine .trans ?_ ((State.sessionQual_touches ..).mono rfl)
  with_reducible refine .trans ?_ ((State.setQ_touches ..).mono rfl)
  with_reducible refine .trans ?_ ((State.setQ_touches ..).mono rfl)
  with_reducible refine .trans ?_ ((State.setQ_touches ..).mono rfl)
  with_reducible refine .trans ?_ ((State.setQ_touches ..).mono rfl)
  exact .refl _
  with_reducible refine .trans ?_ ((State.harmonicEntries_touches ..).mono rfl)
  exact .refl _
  with_reducible refine .trans ?_ ((State.rippleEntries_touches ..).mono rfl)
  exact .refl _
  intro _
  intro _
  with_reducible refine .trans ?_ ((State.phaseQuantities_touches ..).mono rfl)
  exact .refl _
  with_reducible refine .trans ?_ ((State.setQ_touches ..).mono rfl)
  exact .refl _

theorem State.pulseFall_touches (s : State) (m : Fin 8) : Touches 33554432 s (State.pulseFall s m) := by
  unfold State.pulseFall
  split
  with_reducible refine .trans ?_ ((State.updPulse_touches ..).mono rfl)
  exact .refl _
  exact .refl _

theorem State.startPulse_touches (s : State) (m : Fin 8) : Touches 1099545182209 s (State.startPulse s m) := by
  unfold State.startPulse
  with_reducible exact .ite (.after ((State.updPulse_touches ..).mono rfl) (.refl _)) (.after ((State.updPulse_touches ..).mono rfl)
    (.after ((State.put_touches ..).mono rfl) (.refl _)))

theorem State.pulseGapEnd_touches (s : State) (m : Fin 8) : Touches 1099545182209 s (State.pulseGapEnd s m) := by
  unfold State.pulseGapEnd
  split
  with_reducible refine .trans ?_ ((State.startPulse_touches ..).mono rfl)
  exact .refl _
  exact .refl _

theorem State.pulseRise_touches (s : State) (m : Fin 8) : Touches 1099545182209 s (State.pulseRise s m) := by
  unfold State.pulseRise
  split
  with_reducible refine .trans ?_ ((State.startPulse_touches ..).mono rfl)
  exact .refl _
  exact .refl _

theorem State.pumpOver_touches (s : State) : Touches 1099511627777 s (State.pumpOver s) := by
  unfold State.pumpOver
  with_reducible exact .iteR (.refl _) (.after ((State.addSat_touches ..).mono rfl) (.refl _))

theorem State.pumpReady_touches (s : State) (pos : Nat) (neg : Nat) : Touches 288230376151711745 s (State.pumpReady s pos neg) := by
  unfold State.pumpReady
  with_reducible exact .iteL (.refl _) (.after ((State.setN_touches ..).mono rfl) (.after ((State.setN_touches ..).mono rfl) (.upd
    (.refl _))))

theorem State.putWord_touches (s : State) (r : SramReq) (b : Fin 5) (pr : Fin 16) (w : Nat) : Touches 10133099161583616 s (State.putWord s
  r b pr w) := by
  unfold State.putWord
  dsimp only
  split
  with_reducible refine .trans ?_ ((State.setWord_touches ..).mono rfl)
  with_reducible refine .trans ?_ ((State.dropScrub_touches ..).mono rfl)
  with_reducible refine .trans ?_ ((State.setWord_touches ..).mono rfl)
  exact .refl _
  with_reducible refine .trans ?_ ((State.dropScrub_touches ..).mono rfl)
  with_reducible refine .trans ?_ ((State.setWord_touches ..).mono rfl)
  exact .refl _

theorem State.remapRecall_touches (s : State) : Touches 1120449593345 s (State.remapRecall s) := by
  unfold State.remapRecall
  with_reducible exact .after (forEach_touches (hf := fun _ _ => .after ((State.remapDone_touches ..).mono rfl) (.refl _)) ..) (.upd
    (.refl _))

theorem State.senseFuses_touches (s : State) (first : Nat) (second : Nat) : Touches 576461856110018561 s (State.senseFuses s first second) := by
  unfold State.senseFuses
  with_reducible exact .after ((State.setN_touches ..).mono rfl) (.after ((State.setN_touches ..).mono rfl) (.iteL (.refl _) (.after
    ((State.source_touches ..).mono rfl) (.after ((State.addSat_touches ..).mono rfl) (.refl _)))))

theorem State.statuteCopy_touches (s : State) (first : Bool) (second : Bool) : Touches 576461856110018561 s (State.statuteCopy s first
  second).2 := by
  unfold State.statuteCopy
  dsimp only
  with_reducible refine .iteL ?_ ?_
  exact .refl _
  with_reducible refine .trans ?_ ((State.source_touches ..).mono rfl)
  exact .refl _

theorem State.verifyStatute_touches (s : State) (o : StatuteObs) : Touches 576461877048025185 s (State.verifyStatute s o) := by
  unfold State.verifyStatute
  with_reducible refine .iteL ?_ ?_
  exact .refl _
  dsimp only
  split
  with_reducible refine .upd ?_
  with_reducible refine .trans ?_ ((State.statuteCopy_touches ..).mono rfl)
  with_reducible refine .trans ?_ ((State.statuteCopy_touches ..).mono rfl)
  exact .refl _
  with_reducible refine .trans ?_ ((State.consistency_touches ..).mono rfl)
  with_reducible refine .upd ?_
  with_reducible refine .trans ?_ ((State.statuteCopy_touches ..).mono rfl)
  with_reducible refine .trans ?_ ((State.statuteCopy_touches ..).mono rfl)
  exact .refl _
  with_reducible refine .trans ?_ ((State.consistency_touches ..).mono rfl)
  with_reducible refine .upd ?_
  with_reducible refine .trans ?_ ((State.statuteCopy_touches ..).mono rfl)
  with_reducible refine .trans ?_ ((State.statuteCopy_touches ..).mono rfl)
  exact .refl _
  with_reducible refine .trans ?_ ((State.integrity_touches ..).mono rfl)
  with_reducible refine .upd ?_
  with_reducible refine .trans ?_ ((State.statuteCopy_touches ..).mono rfl)
  with_reducible refine .trans ?_ ((State.statuteCopy_touches ..).mono rfl)
  exact .refl _

theorem State.recallBegin_touches (s : State) (time : Nat) (addr : Nat) (ftm : Bool) (map : Nat) (again : Nat) (stat : StatuteObs) :
  Touches 4035226665746479603 s (State.recallBegin s time addr ftm map again stat) := by
  unfold State.recallBegin
  with_reducible exact .iteL (.refl _) (.after ((State.verifyStatute_touches ..).mono rfl) (.iteR (.after
    ((State.remapRecall_touches ..).mono rfl) (.after ((State.senseFuses_touches ..).mono rfl) (.after ((State.canSettings_touches ..).mono
    rfl) (.after ((State.setN_touches ..).mono rfl) (.after ((State.addSat_touches ..).mono rfl) (.upd (.after ((State.at'_touches ..).mono
    rfl) (.refl _)))))))) (.after ((State.source_touches ..).mono rfl) (.after ((State.addSat_touches ..).mono rfl) (.after
    ((State.setN_touches ..).mono rfl) (.refl _))))))

theorem State.recallEnd_touches (s : State) : Touches 288231475663341777 s (State.recallEnd s) := by
  unfold State.recallEnd
  with_reducible exact .iteR (.refl _) (.after ((State.leaveRecall_touches ..).mono rfl) (.refl _))

theorem State.recallSub_touches (s : State) (l : Fin 5) : Touches 3774939137 s (State.recallSub s l) := by
  unfold State.recallSub
  with_reducible exact .after ((State.health_touches ..).mono rfl) (.after ((State.setN_touches ..).mono rfl) (.after
    ((State.setN_touches ..).mono rfl) (.after ((State.setN_touches ..).mono rfl) (.after ((State.setN_touches ..).mono rfl) (.after
    (forEach_touches (hf := fun _ _ => .iteR (.refl _) (.after ((State.updPoint_touches ..).mono rfl) (.refl _))) ..) (.after
    ((State.updLane_touches ..).mono rfl) (.after ((State.updLane_touches ..).mono rfl) (.refl _))))))))

theorem State.recallTimeout_touches (s : State) : Touches 288231483716446449 s (State.recallTimeout s) := by
  unfold State.recallTimeout
  with_reducible exact .iteL (.refl _) (.after ((State.leaveRecall_touches ..).mono rfl) (.after ((State.integrity_touches ..).mono rfl)
    (.refl _)))

theorem State.takeSeq_touches (s : State) (k : Fin 4) (seq : Nat) : Touches 1152922604118474753 s (State.takeSeq s k seq).2 := by
  unfold State.takeSeq
  dsimp only
  split
  with_reducible refine .iteSnd ?_ ?_
  dsimp only
  with_reducible refine .trans ?_ ((State.discard_touches ..).mono rfl)
  exact .refl _
  dsimp only
  with_reducible refine .trans ?_ ((State.updThb_touches ..).mono rfl)
  with_reducible refine .iteL ?_ ?_
  exact .refl _
  with_reducible refine .trans ?_ ((State.addSat_touches ..).mono rfl)
  exact .refl _
  dsimp only
  with_reducible refine .trans ?_ ((State.updThb_touches ..).mono rfl)
  exact .refl _

theorem State.receive_touches {m : Nat} (s : State) (k : Fin 4) (seq : Nat) (up : Bool) (f : State → State) (hm : Nat.lor
  1729383360716865537 m = m) (hf : ∀ u, Touches m u (f u)) : Touches m s (State.receive s k seq up f) := by
  unfold State.receive
  with_reducible exact .iteL (.refl _) (.iteL (.after ((State.takeSeq_touches ..).mono (lor_within rfl hm)) (.refl _)) (.ite (.after
    ((State.discard_touches ..).mono (lor_within rfl hm)) (.after ((State.intrusion_touches ..).mono (lor_within rfl hm)) (.refl _)))
    (.after (hf ..) (.refl _))))

theorem State.ringOverwrite_touches (s : State) (q : Nat) : Touches 1099511627777 s (State.ringOverwrite s q) := by
  unfold State.ringOverwrite
  with_reducible exact .iteR (.refl _) (.after ((State.addSat_touches ..).mono rfl) (.refl _))

theorem State.recordStored_touches (s : State) (j : RecJob) : Touches 144115192370823169 s (State.recordStored s j) := by
  unfold State.recordStored
  split
  with_reducible refine .trans ?_ ((State.queueFinal_touches ..).mono rfl)
  with_reducible refine .upd ?_
  with_reducible refine .trans ?_ ((State.setN_touches ..).mono rfl)
  exact .refl _
  exact .refl _

theorem State.recordCopy_touches (s : State) : Touches 144116310672932865 s (State.recordCopy s) := by
  unfold State.recordCopy
  with_reducible refine .iteL ?_ ?_
  exact .refl _
  split
  dsimp only
  split
  split
  with_reducible refine .trans ?_ ((State.recordStored_touches ..).mono rfl)
  with_reducible refine .trans ?_ ((State.copyWritten_touches ..).mono rfl)
  split
  with_reducible refine .trans ?_ ((State.ringOverwrite_touches ..).mono rfl)
  exact .refl _
  exact .refl _
  with_reducible refine .trans ?_ ((State.copyWritten_touches ..).mono rfl)
  split
  with_reducible refine .trans ?_ ((State.ringOverwrite_touches ..).mono rfl)
  exact .refl _
  exact .refl _
  with_reducible refine .trans ?_ ((State.copyWritten_touches ..).mono rfl)
  split
  with_reducible refine .trans ?_ ((State.ringOverwrite_touches ..).mono rfl)
  exact .refl _
  exact .refl _
  exact .refl _

theorem State.recordEvent_touches (s : State) : Touches 2013265920 s (State.recordEvent s) := by
  unfold State.recordEvent
  split
  exact .refl _
  with_reducible refine .trans ?_ ((State.queueRecord_touches ..).mono rfl)
  split
  with_reducible refine .upd ?_
  exact .refl _
  with_reducible refine .upd ?_
  exact .refl _

theorem State.refClock_touches (s : State) (bad : Bool) : Touches 576461856110018561 s (State.refClock s bad) := by
  unfold State.refClock
  with_reducible exact .iteL (.refl _) (.ite (.after ((State.source_touches ..).mono rfl) (.after ((State.setActive_touches ..).mono rfl)
    (.refl _))) (.after ((State.setActive_touches ..).mono rfl) (.refl _)))

theorem State.retestDone_touches (s : State) (corrections : Nat) : Touches 2305844116795359233 s (State.retestDone s corrections) := by
  unfold State.retestDone
  split
  exact .refl _
  with_reducible refine .ite ?_ ?_
  with_reducible refine .trans ?_ ((State.startShadow_touches ..).mono rfl)
  with_reducible refine .trans ?_ ((State.updLane_touches ..).mono rfl)
  with_reducible refine .trans ?_ ((State.setN_touches ..).mono rfl)
  with_reducible refine .upd ?_
  exact .refl _
  with_reducible refine .trans ?_ ((State.addSat_touches ..).mono rfl)
  with_reducible refine .trans ?_ ((State.updLane_touches ..).mono rfl)
  with_reducible refine .trans ?_ ((State.setN_touches ..).mono rfl)
  with_reducible refine .upd ?_
  exact .refl _

theorem State.retestLane_touches (s : State) (r : Retest) : Touches 3774939137 s (State.retestLane s r) := by
  unfold State.retestLane
  dsimp only
  split
  with_reducible refine .ite ?_ ?_
  with_reducible refine .trans ?_ ((State.updLane_touches ..).mono rfl)
  with_reducible refine .trans ?_ ((State.setN_touches ..).mono rfl)
  exact .refl _
  with_reducible refine .iteR ?_ ?_
  with_reducible refine .trans ?_ ((State.setN_touches ..).mono rfl)
  exact .refl _
  with_reducible refine .trans ?_ ((State.recallSub_touches ..).mono rfl)
  exact .refl _
  with_reducible refine .trans ?_ ((State.setN_touches ..).mono rfl)
  exact .refl _
  exact .refl _

theorem State.rngFailure_touches (s : State) (test : Nat) : Touches 1103269724161 s (State.rngFailure s test) := by
  unfold State.rngFailure
  with_reducible exact .after ((State.health_touches ..).mono rfl) (.after ((State.addSat_touches ..).mono rfl) (.after
    ((State.setN_touches ..).mono rfl) (.refl _)))

theorem State.rngFailed_touches (s : State) (test : Nat) : Touches 1103269724161 s (State.rngFailed s test) := by
  unfold State.rngFailed
  with_reducible exact .iteL (.refl _) (.after ((State.rngFailure_touches ..).mono rfl) (.refl _))

theorem State.rngReady_touches (s : State) : Touches 1 s (State.rngReady s) := by
  unfold State.rngReady
  with_reducible exact .iteL (.refl _) (.after ((State.setN_touches ..).mono rfl) (.refl _))

theorem State.rtcClock_touches (s : State) (time : Nat) (bad : Bool) : Touches 576461856110018817 s (State.rtcClock s time bad) := by
  unfold State.rtcClock
  with_reducible exact .ite (.after ((State.source_touches ..).mono rfl) (.after ((State.setActive_touches ..).mono rfl) (.after
    ((State.at'_touches ..).mono rfl) (.refl _)))) (.after ((State.setActive_touches ..).mono rfl) (.after ((State.at'_touches ..).mono
    rfl) (.refl _)))

theorem State.runHeld_touches (s : State) : Touches 4432348189618339851 s (State.runHeld s) := by
  unfold State.runHeld
  with_reducible exact .after (forEach_touches (hf := fun _ _ => .after ((State.runBatch_touches ..).mono rfl) (.refl _)) ..) (.upd
    (.refl _))

theorem State.streamSample_touches (s : State) (p : Fin 8) (c : Fin 7) (n : Nat) (code : Int) (q : Nat) : Touches 549755813888 s
  (State.streamSample s p c n code q) := by
  unfold State.streamSample
  with_reducible exact .iteR (.refl _) (.upd (.refl _))

theorem State.sampleRelease_touches (s : State) (p : Fin 8) (c : Fin 7) (o : LaneObs) : Touches 72085846250987625 s (State.sampleRelease s
  p c o) := by
  unfold State.sampleRelease
  split
  exact .refl _
  with_reducible refine .trans ?_ ((State.streamSample_touches ..).mono rfl)
  with_reducible refine .iteR ?_ ?_
  with_reducible refine .iteR ?_ ?_
  with_reducible refine .ite ?_ ?_
  with_reducible refine .trans ?_ ((State.integrity_touches ..).mono rfl)
  with_reducible refine .trans ?_ ((State.laneHits_touches ..).mono rfl)
  with_reducible refine .iteR ?_ ?_
  with_reducible refine .trans ?_ ((State.correct_touches ..).mono rfl)
  with_reducible refine .trans ?_ ((State.setQ_touches ..).mono rfl)
  with_reducible refine .trans ?_ ((State.setQ_touches ..).mono rfl)
  with_reducible refine .iteSnd ?_ ?_
  with_reducible refine .trans ?_ ((State.fresh_touches ..).mono rfl)
  with_reducible refine .trans ?_ ((State.updChan_touches ..).mono rfl)
  with_reducible refine .iteR ?_ ?_
  exact .refl _
  with_reducible refine .trans ?_ ((State.nettingStep_touches ..).mono rfl)
  exact .refl _
  dsimp only
  with_reducible refine .trans ?_ ((State.updChan_touches ..).mono rfl)
  with_reducible refine .iteR ?_ ?_
  exact .refl _
  with_reducible refine .trans ?_ ((State.nettingStep_touches ..).mono rfl)
  exact .refl _
  with_reducible refine .trans ?_ ((State.firstChannel_touches ..).mono rfl)
  exact .refl _
  with_reducible refine .trans ?_ ((State.laneWord_touches ..).mono rfl)
  with_reducible refine .trans ?_ ((State.laneHits_touches ..).mono rfl)
  with_reducible refine .iteR ?_ ?_
  with_reducible refine .trans ?_ ((State.correct_touches ..).mono rfl)
  with_reducible refine .trans ?_ ((State.setQ_touches ..).mono rfl)
  with_reducible refine .trans ?_ ((State.setQ_touches ..).mono rfl)
  with_reducible refine .iteSnd ?_ ?_
  with_reducible refine .trans ?_ ((State.fresh_touches ..).mono rfl)
  with_reducible refine .trans ?_ ((State.updChan_touches ..).mono rfl)
  with_reducible refine .iteR ?_ ?_
  exact .refl _
  with_reducible refine .trans ?_ ((State.nettingStep_touches ..).mono rfl)
  exact .refl _
  dsimp only
  with_reducible refine .trans ?_ ((State.updChan_touches ..).mono rfl)
  with_reducible refine .iteR ?_ ?_
  exact .refl _
  with_reducible refine .trans ?_ ((State.nettingStep_touches ..).mono rfl)
  exact .refl _
  with_reducible refine .trans ?_ ((State.firstChannel_touches ..).mono rfl)
  exact .refl _
  with_reducible refine .trans ?_ ((State.updPoint_touches ..).mono rfl)
  exact .refl _
  with_reducible refine .trans ?_ ((State.lastChannel_touches ..).mono rfl)
  exact .refl _

theorem State.saveCounts_touches (s : State) : Touches 1 s (State.saveCounts s) := by
  unfold State.saveCounts
  with_reducible exact .iteR (.refl _) (.after ((State.setN_touches ..).mono rfl) (.after ((State.setN_touches ..).mono rfl) (.refl _)))

theorem State.saveComplete_touches (s : State) : Touches 4289342142839610611 s (State.saveComplete s) := by
  unfold State.saveComplete
  with_reducible exact .iteL (.refl _) (.after ((State.powerLost_touches ..).mono rfl) (.after ((State.saveCounts_touches ..).mono rfl)
    (.after ((State.setN_touches ..).mono rfl) (.after ((State.updSave_touches ..).mono rfl) (.after ((State.tallyStored_touches ..).mono
    rfl) (.refl _))))))

theorem State.scrub_touches (s : State) (b : Fin 5) : Touches 1126999418470401 s (State.scrub s b) := by
  unfold State.scrub
  split
  with_reducible refine .iteR ?_ ?_
  exact .refl _
  with_reducible refine .trans ?_ ((State.addSat_touches ..).mono rfl)
  with_reducible refine .trans ?_ ((State.updBank_touches ..).mono rfl)
  with_reducible refine .trans ?_ ((State.background_touches ..).mono rfl)
  exact .refl _
  exact .refl _

theorem State.sealFuse_touches (s : State) (o : StatuteObs) : Touches 2882340285432508515 s (State.sealFuse s o) := by
  unfold State.sealFuse
  split
  with_reducible refine .iteL ?_ ?_
  exact .refl _
  with_reducible refine .ite ?_ ?_
  with_reducible refine .trans ?_ ((State.abortSeal_touches ..).mono rfl)
  with_reducible refine .iteR ?_ ?_
  with_reducible refine .trans ?_ ((State.statuteCopy_touches ..).mono rfl)
  with_reducible refine .trans ?_ ((State.statuteCopy_touches ..).mono rfl)
  exact .refl _
  with_reducible refine .trans ?_ ((State.integrity_touches ..).mono rfl)
  exact .refl _
  with_reducible refine .trans ?_ ((State.ckptBegin_touches ..).mono rfl)
  with_reducible refine .upd ?_
  with_reducible refine .trans ?_ ((State.zeroRegisters_touches ..).mono rfl)
  with_reducible refine .upd ?_
  with_reducible refine .trans ?_ ((State.setN_touches ..).mono rfl)
  with_reducible refine .trans ?_ ((State.setN_touches ..).mono rfl)
  with_reducible refine .upd ?_
  with_reducible refine .trans ?_ ((State.setB_touches ..).mono rfl)
  exact .refl _
  exact .refl _

theorem State.sealRefused_touches (s : State) (h : Requester) (code : Nat) : Touches 2306416069000237153 s (State.sealRefused s h code) := by
  unfold State.sealRefused
  with_reducible exact .after ((State.replyWrite_touches ..).mono rfl) (.after ((State.sealOver_touches ..).mono rfl) (.after
    ((State.setN_touches ..).mono rfl) (.refl _)))

theorem State.sealTwin_touches (s : State) (h : Requester) (first : Nat) (fault : Bool) : Touches 2882876821303660641 s (State.sealTwin s h
  first fault) := by
  unfold State.sealTwin
  with_reducible refine .ite ?_ ?_
  with_reducible refine .trans ?_ ((State.sealRefused_touches ..).mono rfl)
  with_reducible refine .trans ?_ ((State.source_touches ..).mono rfl)
  exact .refl _
  with_reducible refine .ite ?_ ?_
  with_reducible refine .trans ?_ ((State.sealRefused_touches ..).mono rfl)
  exact .refl _
  with_reducible refine .trans ?_ ((State.replyWrite_touches ..).mono rfl)
  with_reducible refine .upd ?_
  with_reducible refine .trans ?_ ((State.setN_touches ..).mono rfl)
  exact .refl _

theorem State.selfCheck_touches (s : State) (dev : List Nat) : Touches 775163750645761 s (State.selfCheck s dev) := by
  unfold State.selfCheck
  with_reducible exact .iteL (.refl _) (.after (forEach_touches (hf := fun _ _ => .iteR (.refl _) (.after
    ((State.checkCouple_touches ..).mono rfl) (.refl _))) ..) (.after (forEach_touches (hf := fun _ _ => .after
    ((State.kick_touches ..).mono rfl) (.refl _)) ..) (.after (forEach_touches (hf := fun _ _ => .after ((State.updConv_touches ..).mono
    rfl) (.refl _)) ..) (.refl _))))

theorem State.selfTestsDone_touches (s : State) (retests : List Retest) (kat : Option Nat) : Touches 2305843012988635137 s
  (State.selfTestsDone s retests kat) := by
  unfold State.selfTestsDone
  with_reducible refine .iteL ?_ ?_
  exact .refl _
  dsimp only
  split
  with_reducible refine .upd ?_
  with_reducible refine .trans ?_ ((State.health_touches ..).mono rfl)
  with_reducible refine .iteR ?_ ?_
  with_reducible refine .trans ?_ (forEach_touches (hf := ?_) ..)
  exact .refl _
  intro _
  intro _
  with_reducible refine .trans ?_ ((State.retestLane_touches ..).mono rfl)
  exact .refl _
  with_reducible refine .trans ?_ ((State.setN_touches ..).mono rfl)
  exact .refl _
  with_reducible refine .upd ?_
  with_reducible refine .iteR ?_ ?_
  with_reducible refine .trans ?_ (forEach_touches (hf := ?_) ..)
  exact .refl _
  intro _
  intro _
  with_reducible refine .trans ?_ ((State.retestLane_touches ..).mono rfl)
  exact .refl _
  with_reducible refine .trans ?_ ((State.setN_touches ..).mono rfl)
  exact .refl _

theorem State.writeWord_touches (s : State) (o : SramObs) (r : SramReq) (d : Fin 256 × Nat) (pr : Fin 16) : Touches 10134404831641601 s
  (State.writeWord s o r d pr) := by
  unfold State.writeWord
  dsimp only
  split
  with_reducible refine .trans ?_ ((State.putWord_touches ..).mono rfl)
  exact .refl _
  with_reducible refine .iteR ?_ ?_
  with_reducible refine .ite ?_ ?_
  split
  with_reducible refine .trans ?_ ((State.answerBuffer_touches ..).mono rfl)
  with_reducible refine .trans ?_ ((State.invertHits_touches ..).mono rfl)
  with_reducible refine .trans ?_ ((State.addSat_touches ..).mono rfl)
  exact .refl _
  with_reducible refine .trans ?_ ((State.invertHits_touches ..).mono rfl)
  with_reducible refine .trans ?_ ((State.addSat_touches ..).mono rfl)
  exact .refl _
  with_reducible refine .trans ?_ ((State.invertHits_touches ..).mono rfl)
  with_reducible refine .trans ?_ ((State.addSat_touches ..).mono rfl)
  exact .refl _
  with_reducible refine .trans ?_ ((State.putWord_touches ..).mono rfl)
  exact .refl _

theorem State.setPort_touches (s : State) (b : Fin 5) (portS : Bool) (x : BankPort) : Touches 1125899906842624 s (State.setPort s b portS
  x) := by
  unfold State.setPort
  with_reducible exact .after ((State.updBank_touches ..).mono rfl) (.refl _)

theorem State.serveRequest_touches (s : State) (o : SramObs) (r : SramReq) : Touches 1205840113968390241 s (State.serveRequest s o r) := by
  unfold State.serveRequest
  with_reducible refine .trans ?_ ((State.setPort_touches ..).mono rfl)
  split
  dsimp only
  with_reducible refine .trans ?_ ((State.decodeWord_touches ..).mono rfl)
  with_reducible refine .trans ?_ ((State.injectedSymbols_touches ..).mono rfl)
  exact .refl _
  with_reducible refine .trans ?_ ((State.writeWord_touches ..).mono rfl)
  with_reducible refine .iteL ?_ ?_
  exact .refl _
  dsimp only
  with_reducible refine .trans ?_ ((State.decodeWord_touches ..).mono rfl)
  with_reducible refine .trans ?_ ((State.injectedSymbols_touches ..).mono rfl)
  exact .refl _

theorem State.sessionTamper_touches (s : State) (mask : Nat) (ref : Nat) : Touches 72058693549555713 s (State.sessionTamper s mask ref) := by
  unfold State.sessionTamper
  with_reducible exact .after (forEach_touches (hf := fun _ _ => .iteR (.refl _) (.after ((State.addFlags_touches ..).mono rfl) (.after
    ((State.updGrown_touches ..).mono rfl) (.refl _)))) ..) (.refl _)

theorem State.shadowWarm_touches (s : State) (p : Fin 8) : Touches 16777216 s (State.shadowWarm s p) := by
  unfold State.shadowWarm
  split
  with_reducible refine .iteR ?_ ?_
  exact .refl _
  with_reducible refine .trans ?_ ((State.updPoint_touches ..).mono rfl)
  exact .refl _
  exact .refl _

theorem State.signStart_touches (s : State) : Touches 144115188075859968 s (State.signStart s) := by
  unfold State.signStart
  split
  with_reducible refine .iteR ?_ ?_
  exact .refl _
  with_reducible refine .upd ?_
  exact .refl _
  exact .refl _

theorem State.storeHallmark_touches (s : State) (p : Fin 8) (seq : Nat) (body : List Byte) (sig : List Byte) : Touches 144115189686468608 s
  (State.storeHallmark s p seq body sig) := by
  unfold State.storeHallmark
  with_reducible exact .after ((State.queueRecord_touches ..).mono rfl) (.upd (.refl _))

theorem State.storeUnsigned_touches (s : State) (p : Fin 8) (state : Nat) : Touches 144116289198096385 s (State.storeUnsigned s p state) := by
  unfold State.storeUnsigned
  split
  with_reducible refine .trans ?_ ((State.storeHallmark_touches ..).mono rfl)
  with_reducible refine .trans ?_ ((State.addSat_touches ..).mono rfl)
  exact .refl _
  exact .refl _

theorem State.signTimeout_touches (s : State) (p : Fin 8) : Touches 144116289198096385 s (State.signTimeout s p) := by
  unfold State.signTimeout
  with_reducible exact .iteR (.refl _) (.after ((State.storeUnsigned_touches ..).mono rfl) (.refl _))

theorem State.signTwin_touches (s : State) (first : KeyChoice) (fault : Bool) : Touches 720577045796487169 s (State.signTwin s first fault) := by
  unfold State.signTwin
  split
  with_reducible refine .ite ?_ ?_
  with_reducible refine .trans ?_ ((State.storeUnsigned_touches ..).mono rfl)
  with_reducible refine .trans ?_ ((State.source_touches ..).mono rfl)
  exact .refl _
  split
  with_reducible refine .trans ?_ ((State.storeUnsigned_touches ..).mono rfl)
  exact .refl _
  with_reducible refine .upd ?_
  exact .refl _
  exact .refl _
  exact .refl _

theorem State.signatureDone_touches (s : State) : Touches 144116289198096393 s (State.signatureDone s) := by
  unfold State.signatureDone
  split
  split
  with_reducible refine .trans ?_ ((State.storeHallmark_touches ..).mono rfl)
  with_reducible refine .trans ?_ ((State.raise_touches ..).mono rfl)
  with_reducible refine .trans ?_ ((State.addWrap_touches ..).mono rfl)
  with_reducible refine .trans ?_ ((State.fresh_touches ..).mono rfl)
  exact .refl _
  exact .refl _
  exact .refl _

theorem State.siteAckSend_touches (s : State) : Touches 1152921504606846977 s (State.siteAckSend s) := by
  unfold State.siteAckSend
  split
  with_reducible refine .iteL ?_ ?_
  exact .refl _
  with_reducible refine .iteL ?_ ?_
  with_reducible refine .trans ?_ ((State.setN_touches ..).mono rfl)
  with_reducible refine .upd ?_
  with_reducible refine .trans ?_ ((State.setN_touches ..).mono rfl)
  with_reducible refine .trans ?_ ((State.setN_touches ..).mono rfl)
  with_reducible refine .trans ?_ ((State.setN_touches ..).mono rfl)
  exact .refl _
  with_reducible refine .trans ?_ ((State.sendFrame_touches ..).mono rfl)
  exact .refl _
  exact .refl _

theorem State.siteAckFrom_touches (s : State) (k : Fin 4) (id : Nat) (frozen : Nat) (unlocked : Nat) (missed : Nat) : Touches
  1152921504606846977 s (State.siteAckFrom s k id frozen unlocked missed) := by
  unfold State.siteAckFrom
  split
  with_reducible refine .iteR ?_ ?_
  exact .refl _
  with_reducible refine .iteR ?_ ?_
  with_reducible refine .trans ?_ ((State.updThb_touches ..).mono rfl)
  exact .refl _
  with_reducible refine .trans ?_ ((State.siteAckSend_touches ..).mono rfl)
  exact .refl _
  exact .refl _

theorem State.siteFrom_touches (s : State) (op : Nat) (id : Nat) (f : Nat) (limit : Nat) : Touches 1152922810276904961 s (State.siteFrom s
  op id f limit) := by
  unfold State.siteFrom
  with_reducible refine .iteL ?_ ?_
  exact .refl _
  with_reducible refine .ite ?_ ?_
  with_reducible refine .trans ?_ ((State.siteDown_touches ..).mono rfl)
  with_reducible refine .trans ?_ ((State.siteBegin_touches ..).mono rfl)
  exact .refl _
  with_reducible refine .iteR ?_ ?_
  exact .refl _
  dsimp only
  split
  with_reducible refine .iteR ?_ ?_
  with_reducible refine .trans ?_ ((State.siteDown_touches ..).mono rfl)
  exact .refl _
  with_reducible refine .trans ?_ ((State.siteEnd_touches ..).mono rfl)
  exact .refl _
  with_reducible refine .trans ?_ ((State.siteDown_touches ..).mono rfl)
  exact .refl _

theorem State.siteLimit_touches (s : State) : Touches 1152922810276904961 s (State.siteLimit s) := by
  unfold State.siteLimit
  with_reducible exact .iteR (.refl _) (.after ((State.siteEnd_touches ..).mono rfl) (.refl _))

theorem State.siteOwn_touches (s : State) : Touches 1152921504606846977 s (State.siteOwn s) := by
  unfold State.siteOwn
  split
  with_reducible refine .iteR ?_ ?_
  exact .refl _
  with_reducible refine .ite ?_ ?_
  with_reducible refine .trans ?_ ((State.siteAckSend_touches ..).mono rfl)
  with_reducible refine .upd ?_
  exact .refl _
  with_reducible refine .upd ?_
  exact .refl _
  exact .refl _

theorem State.spiSent_touches (s : State) (b : List Byte) : Touches 68719476736 s (State.spiSent s b) := by
  unfold State.spiSent
  with_reducible exact .upd (.refl _)

theorem State.spiTaken_touches (s : State) : Touches 618475290624 s (State.spiTaken s) := by
  unfold State.spiTaken
  split
  with_reducible refine .upd ?_
  exact .refl _
  with_reducible refine .upd ?_
  exact .refl _
  exact .refl _

theorem State.spiFetch_touches (s : State) (clocked : Nat) : Touches 618475290624 s (State.spiFetch s clocked) := by
  unfold State.spiFetch
  with_reducible exact .iteL (.refl _) (.iteR (.after ((State.spiSent_touches ..).mono rfl) (.refl _)) (.after
    ((State.spiTaken_touches ..).mono rfl) (.refl _)))

theorem State.spiSend_touches (s : State) (b : List Byte) : Touches 1305670057993 s (State.spiSend s b) := by
  unfold State.spiSend
  with_reducible exact .iteL (.refl _) (.iteL (.after ((State.spiSent_touches ..).mono rfl) (.refl _)) (.ite (.after
    ((State.addSat_touches ..).mono rfl) (.refl _)) (.after ((State.receiveRequest_touches ..).mono rfl) (.iteL (.refl _) (.after
    ((State.addSat_touches ..).mono rfl) (.refl _))))))

theorem State.sramAccess_touches (s : State) (o : SramObs) : Touches 1205840113968390241 s (State.sramAccess s o) := by
  unfold State.sramAccess
  with_reducible refine .iteL ?_ ?_
  exact .refl _
  dsimp only
  split
  split
  with_reducible refine .trans ?_ (forEach_touches (hf := ?_) ..)
  exact .refl _
  intro _
  intro _
  with_reducible refine .trans ?_ ((State.conflict_touches ..).mono rfl)
  exact .refl _
  exact .refl _
  with_reducible refine .trans ?_ ((State.serveRequest_touches ..).mono rfl)
  with_reducible refine .trans ?_ ((State.marchAccess_touches ..).mono rfl)
  with_reducible refine .trans ?_ ((State.setPort_touches ..).mono rfl)
  with_reducible refine .iteL ?_ ?_
  with_reducible refine .trans ?_ ((State.raise_touches ..).mono rfl)
  with_reducible refine .trans ?_ (forEach_touches (hf := ?_) ..)
  split
  with_reducible refine .trans ?_ (forEach_touches (hf := ?_) ..)
  exact .refl _
  intro _
  intro _
  with_reducible refine .trans ?_ ((State.conflict_touches ..).mono rfl)
  exact .refl _
  exact .refl _
  intro _
  intro _
  with_reducible refine .trans ?_ ((State.conflict_touches ..).mono rfl)
  exact .refl _
  with_reducible refine .trans ?_ ((State.invertHits_touches ..).mono rfl)
  exact .refl _

theorem State.startupDone_touches (s : State) (a : Fin 8) : Touches 775163750645761 s (State.startupDone s a) := by
  unfold State.startupDone
  with_reducible refine .iteR ?_ ?_
  exact .refl _
  dsimp only
  split
  with_reducible refine .trans ?_ ((State.kick_touches ..).mono rfl)
  with_reducible refine .trans ?_ ((State.updConv_touches ..).mono rfl)
  exact .refl _
  with_reducible refine .trans ?_ ((State.updConv_touches ..).mono rfl)
  exact .refl _

theorem State.streamFrame_touches (s : State) : Touches 1649267441665 s (State.streamFrame s) := by
  unfold State.streamFrame
  with_reducible exact .iteL (.refl _) (.ite (.after ((State.addSat_touches ..).mono rfl) (.upd (.refl _))) (.upd (.refl _)))

theorem State.streamStart_touches (s : State) (h : Requester) (mask : Nat) (divisor : Nat) (src : Nat) : Touches 1855425871881 s
  (State.streamStart s h mask divisor src) := by
  unfold State.streamStart
  with_reducible refine .trans ?_ (State.execute_touches (hm := rfl) (hf := ?_) ..)
  exact .refl _
  intro _
  with_reducible refine .ite ?_ ?_
  with_reducible refine .trans ?_ ((State.reply_touches ..).mono rfl)
  exact .refl _
  with_reducible refine .ite ?_ ?_
  with_reducible refine .trans ?_ ((State.reply_touches ..).mono rfl)
  exact .refl _
  with_reducible refine .ite ?_ ?_
  with_reducible refine .trans ?_ ((State.reply_touches ..).mono rfl)
  exact .refl _
  with_reducible refine .ite ?_ ?_
  with_reducible refine .trans ?_ ((State.reply_touches ..).mono rfl)
  exact .refl _
  with_reducible refine .trans ?_ ((State.reply_touches ..).mono rfl)
  with_reducible refine .upd ?_
  exact .refl _

theorem State.streamStop_touches (s : State) (h : Requester) : Touches 1855425871881 s (State.streamStop s h) := by
  unfold State.streamStop
  with_reducible refine .trans ?_ (State.execute_touches (hm := rfl) (hf := ?_) ..)
  exact .refl _
  intro _
  with_reducible refine .ite ?_ ?_
  with_reducible refine .trans ?_ ((State.reply_touches ..).mono rfl)
  exact .refl _
  with_reducible refine .ite ?_ ?_
  with_reducible refine .trans ?_ ((State.reply_touches ..).mono rfl)
  exact .refl _
  with_reducible refine .trans ?_ ((State.reply_touches ..).mono rfl)
  with_reducible refine .upd ?_
  exact .refl _

theorem State.strobe_touches (s : State) (n : Fin 16) (high : Bool) : Touches 576461856110018561 s (State.strobe s n high) := by
  unfold State.strobe
  with_reducible exact .ite (.iteR (.after ((State.updSrc_touches ..).mono rfl) (.refl _)) (.after ((State.source_touches ..).mono rfl)
    (.after ((State.setActive_touches ..).mono rfl) (.refl _)))) (.iteR (.after ((State.updSrc_touches ..).mono rfl) (.refl _)) (.after
    ((State.setActive_touches ..).mono rfl) (.refl _)))

theorem State.strobes_touches (s : State) (time : Nat) (tsw0 : Bool) (tsw1 : Bool) (flds : Bool) : Touches 576461856110018817 s
  (State.strobes s time tsw0 tsw1 flds) := by
  unfold State.strobes
  with_reducible exact .after ((State.strobe_touches ..).mono rfl) (.after ((State.strobe_touches ..).mono rfl) (.after
    ((State.strobe_touches ..).mono rfl) (.after ((State.at'_touches ..).mono rfl) (.refl _))))

theorem State.substituteAt_touches (s : State) (p : Fin 8) (n : Nat) : Touches 1099528404993 s (State.substituteAt s p n) := by
  unfold State.substituteAt
  with_reducible exact .after ((State.boundaryEntries_touches ..).mono rfl) (.after ((State.updPoint_touches ..).mono rfl) (.refl _))

theorem State.substituteBoundary_touches (s : State) (p : Fin 8) : Touches 72085296495132673 s (State.substituteBoundary s p) := by
  unfold State.substituteBoundary
  with_reducible exact .iteR (.refl _) (.after ((State.stepAtOnce_touches ..).mono rfl) (.after ((State.boundaryFound_touches ..).mono rfl)
    (.after ((State.substituteAt_touches ..).mono rfl) (.iteR (.refl _) (.after ((State.nettingStep_touches ..).mono rfl) (.refl _))))))

theorem State.svcChange_touches (s : State) (level : Bool) : Touches 2306415862841806945 s (State.svcChange s level) := by
  unfold State.svcChange
  with_reducible exact .iteL (.refl _) (.ite (.upd (.refl _)) (.after ((State.serviceEnd_touches ..).mono rfl) (.upd (.refl _))))

theorem State.svcStrap_touches (s : State) : Touches 576461856110018561 s (State.svcStrap s) := by
  unfold State.svcStrap
  with_reducible exact .iteR (.refl _) (.after ((State.source_touches ..).mono rfl) (.refl _))

theorem State.sweepRead_touches (s : State) (err : SymErr) (twin : SymErr) : Touches 1187825715458908257 s (State.sweepRead s err twin) := by
  unfold State.sweepRead
  with_reducible refine .iteL ?_ ?_
  exact .refl _
  split
  exact .refl _
  with_reducible refine .iteR ?_ ?_
  exact .refl _
  with_reducible refine .trans ?_ ((State.decodeWord_touches ..).mono rfl)
  with_reducible refine .upd ?_
  with_reducible refine .trans ?_ ((State.background_touches ..).mono rfl)
  exact .refl _

theorem State.sweepWord_touches (s : State) (a : Nat) (err twin : SymErr) (busy : Bool) :
    Touches 1187825715458908257 s (State.sweepWord s a err twin busy) :=
  .ite (.refl _) (State.sweepRead_touches ..)

theorem State.syncFrom_touches (s : State) (f : SyncFrame) (t2 : Nat) : Touches 1729682635665441417 s (State.syncFrom s f t2) := by
  unfold State.syncFrom
  with_reducible exact .iteL (.refl _) (.ite (.after ((State.updTime_touches ..).mono rfl) (.after ((State.rebase_touches ..).mono rfl)
    (.after ((State.updTime_touches ..).mono rfl) (.after ((State.setN_touches ..).mono rfl) (.refl _))))) (.iteL
    (.after ((State.updTime_touches ..).mono rfl) (.after ((State.setN_touches ..).mono rfl) (.refl _))) (.ite
    (.after ((State.timeJump_touches ..).mono rfl) (.refl _)) (.iteR (.refl _) (.after ((State.setN_touches ..).mono rfl) (.refl _))))))

theorem State.syncSend_touches (s : State) : Touches 1152921504606846976 s (State.syncSend s) := by
  unfold State.syncSend
  with_reducible exact .iteR (.refl _) (.after ((State.sendDown_touches ..).mono rfl) (.refl _))

theorem State.tableauClose_touches (s : State) (h : Requester) (id : Nat) : Touches 4432348189618339851 s (State.tableauClose s h id) := by
  unfold State.tableauClose
  with_reducible refine .trans ?_ (State.execute_touches (hm := rfl) (hf := ?_) ..)
  exact .refl _
  intro _
  with_reducible refine .ite ?_ ?_
  with_reducible refine .trans ?_ ((State.reply_touches ..).mono rfl)
  exact .refl _
  split
  with_reducible refine .trans ?_ ((State.reply_touches ..).mono rfl)
  exact .refl _
  with_reducible refine .ite ?_ ?_
  with_reducible refine .trans ?_ ((State.runHeld_touches ..).mono rfl)
  with_reducible refine .trans ?_ ((State.reply_touches ..).mono rfl)
  with_reducible refine .trans ?_ ((State.closeTableau_touches ..).mono rfl)
  exact .refl _
  with_reducible refine .trans ?_ ((State.reply_touches ..).mono rfl)
  exact .refl _

theorem State.tableauComplete_touches (s : State) : Touches 4432348189618339851 s (State.tableauComplete s) := by
  unfold State.tableauComplete
  split
  exact .refl _
  with_reducible refine .iteL ?_ ?_
  exact .refl _
  with_reducible refine .trans ?_ ((State.runHeld_touches ..).mono rfl)
  with_reducible refine .iteR ?_ ?_
  with_reducible refine .trans ?_ (forEach_touches (hf := ?_) ..)
  with_reducible refine .upd ?_
  exact .refl _
  intro _
  intro _
  with_reducible refine .trans ?_ ((State.reply_touches ..).mono rfl)
  exact .refl _
  with_reducible refine .trans ?_ ((State.siteOwn_touches ..).mono rfl)
  exact .refl _

theorem State.tableauOpen_touches (s : State) (h : Requester) : Touches 3504693313545 s (State.tableauOpen s h) := by
  unfold State.tableauOpen
  with_reducible refine .trans ?_ (State.execute_touches (hm := rfl) (hf := ?_) ..)
  exact .refl _
  intro _
  with_reducible refine .ite ?_ ?_
  with_reducible refine .trans ?_ ((State.reply_touches ..).mono rfl)
  exact .refl _
  with_reducible refine .ite ?_ ?_
  with_reducible refine .trans ?_ ((State.reply_touches ..).mono rfl)
  exact .refl _
  with_reducible refine .trans ?_ ((State.reply_touches ..).mono rfl)
  with_reducible refine .upd ?_
  with_reducible refine .trans ?_ ((State.openTableau_touches ..).mono rfl)
  exact .refl _

theorem State.tableauRead_touches (s : State) (h : Requester) (idx : Nat) (sub : Nat) (id : Nat) : Touches 1305670057993 s
  (State.tableauRead s h idx sub id) := by
  unfold State.tableauRead
  with_reducible refine .trans ?_ (State.execute_touches (hm := rfl) (hf := ?_) ..)
  exact .refl _
  intro _
  split
  with_reducible refine .ite ?_ ?_
  with_reducible refine .trans ?_ ((State.reply_touches ..).mono rfl)
  exact .refl _
  with_reducible refine .upd ?_
  exact .refl _
  with_reducible refine .trans ?_ ((State.reply_touches ..).mono rfl)
  exact .refl _

theorem State.tableauTimeout_touches (s : State) : Touches 4432348189618339851 s (State.tableauTimeout s) := by
  unfold State.tableauTimeout
  with_reducible exact .after ((State.runHeld_touches ..).mono rfl) (.after ((State.closeLocal_touches ..).mono rfl) (.refl _))

theorem State.tamperTwin_touches (s : State) (fault : Option Nat) : Touches 3098477855206551649 s (State.tamperTwin s fault) := by
  unfold State.tamperTwin
  split
  with_reducible refine .trans ?_ (forEach_touches (hf := ?_) ..)
  with_reducible refine .trans ?_ ((State.sessionTamper_touches ..).mono rfl)
  with_reducible refine .iteR ?_ ?_
  with_reducible refine .trans ?_ ((State.applyDecision_touches ..).mono rfl)
  with_reducible refine .upd ?_
  exact .refl _
  with_reducible refine .trans ?_ ((State.abortSeal_touches ..).mono rfl)
  exact .refl _
  intro _
  intro _
  with_reducible refine .trans ?_ ((State.queueRecord_touches ..).mono rfl)
  exact .refl _
  exact .refl _

theorem State.tiUpdate_touches (s : State) (p : Fin 8) (n : Nat) : Touches 18691697672193 s (State.tiUpdate s p n) := by
  unfold State.tiUpdate
  with_reducible refine .iteL ?_ ?_
  with_reducible refine .trans ?_ ((State.tempBoundary_touches ..).mono rfl)
  exact .refl _
  split
  with_reducible refine .iteR ?_ ?_
  exact .refl _
  with_reducible refine .trans ?_ ((State.setTi_touches ..).mono rfl)
  exact .refl _
  exact .refl _

theorem State.tryUp_touches (s : State) (k : Fin 4) : Touches 1152921504606846978 s (State.tryUp s k) := by
  unfold State.tryUp
  with_reducible exact .iteR (.refl _) (.iteR (.after ((State.updThb_touches ..).mono rfl) (.refl _)) (.after ((State.setB_touches ..).mono
    rfl) (.refl _)))

theorem State.train_touches (s : State) (k : Fin 4) (seq : Nat) (serial : List Byte) (ack : Bool) (root : Bool) : Touches
  1729383360716865539 s (State.train s k seq serial ack root) := by
  unfold State.train
  with_reducible exact .iteL (.refl _) (.iteL (.after ((State.takeSeq_touches ..).mono rfl) (.refl _)) (.ite (.iteL (.after
    ((State.updThb_touches ..).mono rfl) (.after ((State.setB_touches ..).mono rfl) (.iteR (.refl _) (.after ((State.updThb_touches ..).mono
    rfl) (.refl _))))) (.ite (.after ((State.upstreamLost_touches ..).mono rfl) (.after ((State.updThb_touches ..).mono rfl) (.after
    ((State.intrusion_touches ..).mono rfl) (.refl _)))) (.after ((State.childLost_touches ..).mono rfl) (.after ((State.updThb_touches
    ..).mono rfl) (.after ((State.intrusion_touches ..).mono rfl) (.refl _)))))) (.ite (.ite (.after ((State.upstreamLost_touches ..).mono
    rfl) (.after ((State.updThb_touches ..).mono rfl) (.iteR (.after ((State.updThb_touches ..).mono rfl) (.after ((State.setB_touches
    ..).mono rfl) (.iteR (.refl _) (.after ((State.updThb_touches ..).mono rfl) (.refl _))))) (.after ((State.intrusion_touches ..).mono
    rfl) (.refl _))))) (.after ((State.childLost_touches ..).mono rfl) (.after ((State.updThb_touches ..).mono rfl) (.iteR (.after
    ((State.updThb_touches ..).mono rfl) (.after ((State.setB_touches ..).mono rfl) (.iteR (.refl _) (.after ((State.updThb_touches ..).mono
    rfl) (.refl _))))) (.after ((State.intrusion_touches ..).mono rfl) (.refl _)))))) (.after ((State.tryUp_touches ..).mono rfl) (.iteR
    (.after ((State.updThb_touches ..).mono rfl) (.after ((State.setB_touches ..).mono rfl) (.iteR (.refl _) (.after ((State.updThb_touches
    ..).mono rfl) (.refl _))))) (.after ((State.intrusion_touches ..).mono rfl) (.refl _)))))))

theorem State.trainSend_touches (s : State) (k : Fin 4) : Touches 1152921504606846978 s (State.trainSend s k) := by
  unfold State.trainSend
  with_reducible exact .iteL (.refl _) (.after ((State.tryUp_touches ..).mono rfl) (.after ((State.updThb_touches ..).mono rfl) (.after
    ((State.sendRaw_touches ..).mono rfl) (.iteR (.refl _) (.after ((State.updThb_touches ..).mono rfl) (.refl _))))))

theorem State.tstepFrom_touches (s : State) (e : Nat) (step : Int) (valid : Bool) : Touches 1152922604135251969 s (State.tstepFrom s e step
  valid) := by
  unfold State.tstepFrom
  with_reducible exact .iteL (.refl _) (.after ((State.sendDown_touches ..).mono rfl) (.after ((State.demandFlag_touches ..).mono rfl)
    (.after ((State.sessionTimeStep_touches ..).mono rfl) (.after ((State.updTime_touches ..).mono rfl) (.after
    ((State.put_touches ..).mono rfl) (.refl _))))))

theorem State.twinEvaluation_touches (s : State) (i : Nat) (fault : Option Nat) : Touches 3099049603417485409 s (State.twinEvaluation s i
  fault) := by
  unfold State.twinEvaluation
  split
  exact .refl _
  dsimp only
  split
  with_reducible refine .trans ?_ ((State.enterTwin_touches ..).mono rfl)
  with_reducible refine .upd ?_
  exact .refl _
  with_reducible refine .trans ?_ ((State.clearTwin_touches ..).mono rfl)
  with_reducible refine .upd ?_
  exact .refl _
  with_reducible refine .trans ?_ ((State.sealTwin_touches ..).mono rfl)
  with_reducible refine .upd ?_
  exact .refl _
  with_reducible refine .trans ?_ ((State.calSecond_touches ..).mono rfl)
  with_reducible refine .upd ?_
  exact .refl _
  with_reducible refine .trans ?_ ((State.signTwin_touches ..).mono rfl)
  with_reducible refine .upd ?_
  exact .refl _
  with_reducible refine .trans ?_ ((State.tamperTwin_touches ..).mono rfl)
  with_reducible refine .upd ?_
  exact .refl _

theorem State.unitRefused_touches (s : State) (u : JUnit) : Touches 210453397504 s (State.unitRefused s u) := by
  unfold State.unitRefused
  dsimp only
  split
  with_reducible refine .trans ?_ ((State.replyWrite_touches ..).mono rfl)
  with_reducible refine .upd ?_
  exact .refl _
  with_reducible refine .trans ?_ ((State.reply_touches ..).mono rfl)
  with_reducible refine .upd ?_
  exact .refl _
  with_reducible refine .upd ?_
  exact .refl _

theorem State.unitCommit_touches (s : State) : Touches 4541556082535645187 s (State.unitCommit s) := by
  unfold State.unitCommit
  split
  with_reducible refine .iteL ?_ ?_
  exact .refl _
  with_reducible refine .ite ?_ ?_
  with_reducible refine .trans ?_ ((State.unitRefused_touches ..).mono rfl)
  exact .refl _
  with_reducible refine .trans ?_ ((State.ownerEffect_touches ..).mono rfl)
  split
  with_reducible refine .trans ?_ ((State.raise_touches ..).mono rfl)
  with_reducible refine .trans ?_ ((State.addWrap_touches ..).mono rfl)
  with_reducible refine .upd ?_
  with_reducible refine .trans ?_ (forEach_touches (hf := ?_) ..)
  exact .refl _
  intro _
  intro _
  with_reducible refine .trans ?_ ((State.applyWrite_touches ..).mono rfl)
  exact .refl _
  with_reducible refine .trans ?_ (forEach_touches (hf := ?_) ..)
  with_reducible refine .trans ?_ ((State.raise_touches ..).mono rfl)
  with_reducible refine .trans ?_ ((State.addWrap_touches ..).mono rfl)
  with_reducible refine .upd ?_
  with_reducible refine .trans ?_ (forEach_touches (hf := ?_) ..)
  exact .refl _
  intro _
  intro _
  with_reducible refine .trans ?_ ((State.applyWrite_touches ..).mono rfl)
  exact .refl _
  intro _
  intro _
  with_reducible refine .trans ?_ ((State.entryHook_touches ..).mono rfl)
  exact .refl _
  exact .refl _

theorem State.unitRetire_touches (s : State) : Touches 4294967296 s (State.unitRetire s) := by
  unfold State.unitRetire
  with_reducible exact .iteR (.refl _) (.upd (.refl _))

theorem State.unitStart_touches (s : State) : Touches 1112396529665 s (State.unitStart s) := by
  unfold State.unitStart
  split
  with_reducible refine .iteL ?_ ?_
  exact .refl _
  with_reducible refine .iteL ?_ ?_
  exact .refl _
  with_reducible refine .ite ?_ ?_
  with_reducible refine .trans ?_ ((State.addSat_touches ..).mono rfl)
  with_reducible refine .trans ?_ ((State.ckptBegin_touches ..).mono rfl)
  exact .refl _
  with_reducible refine .upd ?_
  exact .refl _
  exact .refl _

theorem State.vbatCheck_touches (s : State) (time : Nat) (mv : Nat) : Touches 576461856110018817 s (State.vbatCheck s time mv) := by
  unfold State.vbatCheck
  with_reducible exact .after ((State.checkRun_touches ..).mono rfl) (.after ((State.put_touches ..).mono rfl) (.after
    ((State.at'_touches ..).mono rfl) (.refl _)))

theorem State.vpReportFrom_touches (s : State) (k : Fin 4) (f : VpFrame) : Touches 1152921504606846977 s (State.vpReportFrom s k f) := by
  unfold State.vpReportFrom
  with_reducible exact .iteR (.after ((State.updThb_touches ..).mono rfl) (.refl _)) (.after ((State.formVirtual_touches ..).mono rfl)
    (.refl _))

theorem State.vpReportSend_touches (s : State) : Touches 1152921504606846977 s (State.vpReportSend s) := by
  unfold State.vpReportSend
  with_reducible exact .iteL (.refl _) (.iteL (.after ((State.formVirtual_touches ..).mono rfl) (.refl _)) (.after
    ((State.sendFrame_touches ..).mono rfl) (.refl _)))

theorem State.windowOver_touches (s : State) (n : Fin 16) : Touches 576461851815051265 s (State.windowOver s n) := by
  unfold State.windowOver
  with_reducible exact .iteR (.refl _) (.after ((State.syncSrc_touches ..).mono rfl) (.after ((State.updSrc_touches ..).mono rfl)
    (.refl _)))

theorem State.writeInhibited_touches (s : State) (items : Nat) (groups : Nat) : Touches 4289342160019479795 s (State.writeInhibited s items
  groups) := by
  unfold State.writeInhibited
  with_reducible exact .ite (.upd (.refl _)) (.after ((State.powerLost_touches ..).mono rfl) (.after ((State.saveCounts_touches ..).mono
    rfl) (.ite (.after ((State.cutTallies_touches ..).mono rfl) (.after ((State.updSave_touches ..).mono rfl) (.upd (.refl _)))) (.after
    ((State.cutTallies_touches ..).mono rfl) (.after ((State.updSave_touches ..).mono rfl) (.upd (.refl _)))))))

end Sys2Proof.Machine
end

