-- ==== Sys2Proof/Laws/Frame.lean ====
section
/-! SUPPORT. What no operation of the model touches: the queue of waiting commands, and the scratch memory but for the writes of the scratch area
and lost scratch groups, which keep its canonical form: one lemma per operation that may write the memory (`_kept`); every other keeps both by
its mask (`Touches.same`, `Touches.kept`). -/

namespace Sys2Proof.Machine

open Sys2Proof
set_option Elab.async false

/-- The queue and the scratch memory are the same. -/
def Same (s t : State) : Prop := t.pending = s.pending ∧ t.scratch = s.scratch

/-- The queue is the same, and the scratch memory keeps its canonical form. -/
def Kept (s t : State) : Prop := t.pending = s.pending ∧ (Memory.wf s.scratch = true → Memory.wf t.scratch = true)

/-- What touches neither the queue nor the scratch memory keeps both. -/
theorem Touches.same {m : Nat} {s t : State} (h : Touches m s t) (h1 : Nat.land m 4 ≠ 4 := by decide)
    (h2 : Nat.land m 34359738368 ≠ 34359738368 := by decide) : Same s t := ⟨h.pending h1, h.scratch h2⟩

/-- What touches neither keeps both. -/
theorem Touches.kept {m : Nat} {s t : State} (h : Touches m s t) (h1 : Nat.land m 4 ≠ 4 := by decide)
    (h2 : Nat.land m 34359738368 ≠ 34359738368 := by decide) : Kept s t := ⟨h.pending h1, fun w => by rw [h.scratch h2]; exact w⟩

theorem Same.kept {s t : State} (h : Same s t) : Kept s t := ⟨h.1, fun w => by rw [h.2]; exact w⟩

theorem Same.refl (s : State) : Same s s := ⟨rfl, rfl⟩

theorem Same.trans {s t u : State} (h : Same s t) (g : Same t u) : Same s u := ⟨g.1.trans h.1, g.2.trans h.2⟩

theorem Same.after {s t u : State} (g : Same t u) (h : Same s t) : Same s u := h.trans g

theorem Same.ite {c : Prop} [Decidable c] {s a b : State} (ha : Same s a) (hb : Same s b) : Same s (if c then a else b) := by
  split <;> assumption

/-- A change that may not happen, after what the state was before it. -/
theorem Same.iteR {c : Prop} [Decidable c] {s x a : State} (h : Same s x) (ha : Same x a) : Same s (if c then a else x) :=
  .ite (h.trans ha) h

theorem Same.iteL {c : Prop} [Decidable c] {s x a : State} (h : Same s x) (ha : Same x a) : Same s (if c then x else a) :=
  .ite h (h.trans ha)

theorem Same.iteFst {α : Type} {c : Prop} [Decidable c] {s : State} {a b : State × α} (ha : Same s a.1) (hb : Same s b.1) :
    Same s (if c then a else b).1 := by
  split <;> assumption

theorem Same.iteSnd {α : Type} {c : Prop} [Decidable c] {s : State} {a b : α × State} (ha : Same s a.2) (hb : Same s b.2) :
    Same s (if c then a else b).2 := by
  split <;> assumption

theorem Same.foldl {α : Type} {f : State → α → State} {l : List α} {s x : State} (hf : ∀ u a, Same u (f u a)) (h : Same s x) :
    Same s (l.foldl f x) := by
  induction l generalizing x with
  | nil => exact h
  | cons a r ih => exact ih (h.trans (hf x a))

theorem Same.foldlFst {α β : Type} {f : State × β → α → State × β} {l : List α} {s : State} {x : State × β}
    (hf : ∀ u a, Same u.1 (f u a).1) (h : Same s x.1) : Same s (l.foldl f x).1 := by
  induction l generalizing x with
  | nil => exact h
  | cons a r ih => exact ih (h.trans (hf x a))

theorem Same.foldlSnd {α β : Type} {f : β × State → α → β × State} {l : List α} {s : State} {x : β × State}
    (hf : ∀ u a, Same u.2 (f u a).2) (h : Same s x.2) : Same s (l.foldl f x).2 := by
  induction l generalizing x with
  | nil => exact h
  | cons a r ih => exact ih (h.trans (hf x a))

theorem Same.foldlThd {α β γ : Type} {f : β × γ × State → α → β × γ × State} {l : List α} {s : State} {x : β × γ × State}
    (hf : ∀ u a, Same u.2.2 (f u a).2.2) (h : Same s x.2.2) : Same s (l.foldl f x).2.2 := by
  induction l generalizing x with
  | nil => exact h
  | cons a r ih => exact ih (h.trans (hf x a))

theorem Same.upd {s X : State}
    {nums' : List (Nat × Int)} {blobs' : List (Nat × List Byte)} {free' : Nat} {mode' : Mode} {attended' : Bool} {modeNext' : Option Mode}
    {modeHist' : List (Nat × Mode)} {rtc' : Nat} {index' : Nat} {timeStepNext' : Int} {startup' : RecallSt} {twins' : List TwinKind}
    {lockLatch' : Bool} {lockNvm' : Bool} {integrityFlag' : Bool} {lanes' : Vector Lane 5} {laneSub' : Option LaneSub} {ports' : Vector Port 60}
    {spares' : Vector Spare 4} {mclk' : Vector Bool 15} {blockNo' : Nat} {portNoSpare' : Bool} {learned' : Vector Bool 15}
    {points' : Vector Point 8} {pulses' : Vector Pulse 8} {demand' : Demand} {evq' : List EventEntry} {evOver' : List EventEntry}
    {jobs' : List RecJob} {logs' : Vector LogSt 5} {merges' : List HealthMerge} {journal' : Journal} {store' : Store} {nvm' : Nvm}
    {spi' : LinkSt} {can' : LinkSt} {bus' : CanSt} {stream' : Stream} {tab' : Option Tableau} {tabLast' : Nat}
    {heldBatches' : List (Requester × List Byte)} {cal' : Option CalRun} {plateUse' : Vector PlateUse 8} {sealedRef' : Vector (Vector Plate 4) 8}
    {convs' : Vector Conv 8} {couples' : Vector Couple 3} {inputAt' : Vector Nat 32} {auxRun' : Option AuxRun} {banks' : Vector Bank 5}
    {march' : March} {bankSub' : Option BankSub} {sram' : List (Nat × Nat)} {sweepAt' : Nat} {stringReads' : Vector Nat 8}
    {sessions' : Vector Session 8} {sign' : SignSt} {disp' : Display} {tamper' : TamperSt} {thb' : Thiber} {svc' : ModeSt}
    (h : Same s X) :
    Same s (State.mk
      nums' blobs' X.pending free' mode' attended' modeNext' modeHist' rtc' index' timeStepNext' startup' twins' lockLatch' lockNvm'
      integrityFlag' lanes' laneSub' ports' spares' mclk' blockNo' portNoSpare' learned' points' pulses' demand' evq' evOver' jobs' logs' merges'
      journal' store' nvm' X.scratch spi' can' bus' stream' tab' tabLast' heldBatches' cal' plateUse' sealedRef' convs' couples' inputAt' auxRun'
      banks' march' bankSub' sram' sweepAt' stringReads' sessions' sign' disp' tamper' thb' svc') := h

theorem Kept.refl (s : State) : Kept s s := ⟨rfl, id⟩

theorem Kept.trans {s t u : State} (h : Kept s t) (g : Kept t u) : Kept s u := ⟨g.1.trans h.1, fun w => g.2 (h.2 w)⟩

theorem Kept.after {s t u : State} (g : Kept t u) (h : Kept s t) : Kept s u := h.trans g

theorem Kept.ite {c : Prop} [Decidable c] {s a b : State} (ha : Kept s a) (hb : Kept s b) : Kept s (if c then a else b) := by
  split <;> assumption

/-- A change that may not happen, after what the state was before it. -/
theorem Kept.iteR {c : Prop} [Decidable c] {s x a : State} (h : Kept s x) (ha : Kept x a) : Kept s (if c then a else x) :=
  .ite (h.trans ha) h

theorem Kept.iteL {c : Prop} [Decidable c] {s x a : State} (h : Kept s x) (ha : Kept x a) : Kept s (if c then x else a) :=
  .ite h (h.trans ha)

theorem Kept.iteFst {α : Type} {c : Prop} [Decidable c] {s : State} {a b : State × α} (ha : Kept s a.1) (hb : Kept s b.1) :
    Kept s (if c then a else b).1 := by
  split <;> assumption

theorem Kept.iteSnd {α : Type} {c : Prop} [Decidable c] {s : State} {a b : α × State} (ha : Kept s a.2) (hb : Kept s b.2) :
    Kept s (if c then a else b).2 := by
  split <;> assumption

theorem Kept.foldl {α : Type} {f : State → α → State} {l : List α} {s x : State} (hf : ∀ u a, Kept u (f u a)) (h : Kept s x) :
    Kept s (l.foldl f x) := by
  induction l generalizing x with
  | nil => exact h
  | cons a r ih => exact ih (h.trans (hf x a))

theorem Kept.foldlFst {α β : Type} {f : State × β → α → State × β} {l : List α} {s : State} {x : State × β}
    (hf : ∀ u a, Kept u.1 (f u a).1) (h : Kept s x.1) : Kept s (l.foldl f x).1 := by
  induction l generalizing x with
  | nil => exact h
  | cons a r ih => exact ih (h.trans (hf x a))

theorem Kept.foldlSnd {α β : Type} {f : β × State → α → β × State} {l : List α} {s : State} {x : β × State}
    (hf : ∀ u a, Kept u.2 (f u a).2) (h : Kept s x.2) : Kept s (l.foldl f x).2 := by
  induction l generalizing x with
  | nil => exact h
  | cons a r ih => exact ih (h.trans (hf x a))

theorem Kept.foldlThd {α β γ : Type} {f : β × γ × State → α → β × γ × State} {l : List α} {s : State} {x : β × γ × State}
    (hf : ∀ u a, Kept u.2.2 (f u a).2.2) (h : Kept s x.2.2) : Kept s (l.foldl f x).2.2 := by
  induction l generalizing x with
  | nil => exact h
  | cons a r ih => exact ih (h.trans (hf x a))

theorem Kept.upd {s X : State}
    {nums' : List (Nat × Int)} {blobs' : List (Nat × List Byte)} {free' : Nat} {mode' : Mode} {attended' : Bool} {modeNext' : Option Mode}
    {modeHist' : List (Nat × Mode)} {rtc' : Nat} {index' : Nat} {timeStepNext' : Int} {startup' : RecallSt} {twins' : List TwinKind}
    {lockLatch' : Bool} {lockNvm' : Bool} {integrityFlag' : Bool} {lanes' : Vector Lane 5} {laneSub' : Option LaneSub} {ports' : Vector Port 60}
    {spares' : Vector Spare 4} {mclk' : Vector Bool 15} {blockNo' : Nat} {portNoSpare' : Bool} {learned' : Vector Bool 15}
    {points' : Vector Point 8} {pulses' : Vector Pulse 8} {demand' : Demand} {evq' : List EventEntry} {evOver' : List EventEntry}
    {jobs' : List RecJob} {logs' : Vector LogSt 5} {merges' : List HealthMerge} {journal' : Journal} {store' : Store} {nvm' : Nvm}
    {spi' : LinkSt} {can' : LinkSt} {bus' : CanSt} {stream' : Stream} {tab' : Option Tableau} {tabLast' : Nat}
    {heldBatches' : List (Requester × List Byte)} {cal' : Option CalRun} {plateUse' : Vector PlateUse 8} {sealedRef' : Vector (Vector Plate 4) 8}
    {convs' : Vector Conv 8} {couples' : Vector Couple 3} {inputAt' : Vector Nat 32} {auxRun' : Option AuxRun} {banks' : Vector Bank 5}
    {march' : March} {bankSub' : Option BankSub} {sram' : List (Nat × Nat)} {sweepAt' : Nat} {stringReads' : Vector Nat 8}
    {sessions' : Vector Session 8} {sign' : SignSt} {disp' : Display} {tamper' : TamperSt} {thb' : Thiber} {svc' : ModeSt}
    (h : Kept s X) :
    Kept s (State.mk
      nums' blobs' X.pending free' mode' attended' modeNext' modeHist' rtc' index' timeStepNext' startup' twins' lockLatch' lockNvm'
      integrityFlag' lanes' laneSub' ports' spares' mclk' blockNo' portNoSpare' learned' points' pulses' demand' evq' evOver' jobs' logs' merges'
      journal' store' nvm' X.scratch spi' can' bus' stream' tab' tabLast' heldBatches' cal' plateUse' sealedRef' convs' couples' inputAt' auxRun'
      banks' march' bankSub' sram' sweepAt' stringReads' sessions' sign' disp' tamper' thb' svc') := h

theorem forEach_kept {α : Type} (l : List α) (f : α → State → State) (s : State) (hf : ∀ a0 u, Kept u (f a0 u)) : Kept s (forEach l f s) := by
  unfold forEach
  with_reducible refine .foldl (hf := ?_) ?_
  · intro _ _
    exact hf ..
  · exact .refl _

theorem State.execute_kept (s : State) (h : Requester) (op idx sub : Nat) (payload : List Byte) (f : State → State) (hf : ∀ u, Kept u (f u)) :
    Kept s (s.execute h op idx sub payload f) := by
  unfold State.execute
  with_reducible exact .iteL (.after ((State.admitted_touches ..).kept) (.refl _)) (.iteR (.after ((State.turn_touches ..).kept) (.refl _)) (.after (hf ..)
    (.refl _)))

theorem State.receive_kept (s : State) (k : Fin 4) (seq : Nat) (up : Bool) (f : State → State) (hf : ∀ u, Kept u (f u)) :
    Kept s (s.receive k seq up f) := by
  unfold State.receive
  with_reducible exact .iteL (.refl _) (.iteL (.after ((State.takeSeq_touches ..).kept) (.refl _)) (.ite (.after ((State.discard_touches ..).kept) (.after
    ((State.intrusion_touches ..).kept) (.refl _))) (.after (hf ..) (.refl _))))
theorem State.scratchLost_kept (s : State) (g : Nat) : Kept s (State.scratchLost s g) := by
  unfold State.scratchLost
  have h : Kept s ((List.range 8).foldl (fun (acc : List Byte × State) _ =>
      let f := acc.2.fresh; (acc.1 ++ [byteOf (Config.unstated f.1)], f.2)) ([], s)).2 :=
    .foldlSnd (hf := fun u _ => (State.fresh_touches u.2).kept) (.refl s)
  revert h
  generalize (List.range 8).foldl _ _ = r
  exact fun h => ⟨h.1, fun w => Memory.wf_writes _ _ w⟩

theorem State.structureLost_kept (s : State) (o : NvmObs) : Kept s (State.structureLost s o) := by
  unfold State.structureLost
  with_reducible refine .iteL ?_ ?_
  exact .refl _
  with_reducible refine .ite ?_ ?_
  with_reducible refine .iteR ?_ ?_
  exact .refl _
  with_reducible refine .trans ?_ ((State.destroyKeys_touches ..).kept)
  exact .refl _
  with_reducible refine .ite ?_ ?_
  with_reducible refine .iteR ?_ ?_
  exact .refl _
  with_reducible refine .trans ?_ ((State.integrity_touches ..).kept)
  exact .refl _
  with_reducible refine .ite ?_ ?_
  with_reducible refine .upd ?_
  exact .refl _
  with_reducible refine .ite ?_ ?_
  with_reducible refine .upd ?_
  exact .refl _
  with_reducible refine .ite ?_ ?_
  with_reducible refine .iteR ?_ ?_
  exact .refl _
  with_reducible refine .trans ?_ ((State.integrity_touches ..).kept)
  exact .refl _
  with_reducible refine .ite ?_ ?_
  with_reducible refine .upd ?_
  exact .refl _
  with_reducible refine .ite ?_ ?_
  with_reducible refine .trans ?_ ((State.health_touches ..).kept)
  with_reducible refine .trans ?_ ((State.setN_touches ..).kept)
  exact .refl _
  with_reducible refine .ite ?_ ?_
  with_reducible refine .iteR ?_ ?_
  exact .refl _
  with_reducible refine .trans ?_ ((State.loseTally_touches ..).kept)
  exact .refl _
  split
  with_reducible refine .trans ?_ ((State.answerAny_touches ..).kept)
  with_reducible refine .trans ?_ ((State.loseSlot_touches ..).kept)
  exact .refl _
  with_reducible refine .ite ?_ ?_
  with_reducible refine .upd ?_
  exact .refl _
  with_reducible refine .ite ?_ ?_
  with_reducible refine .trans ?_ ((State.setN_touches ..).kept)
  exact .refl _
  with_reducible refine .trans ?_ ((State.answerAny_touches ..).kept)
  with_reducible refine .iteL ?_ ?_
  exact .refl _
  with_reducible refine .trans ?_ (State.scratchLost_kept ..)
  exact .refl _

theorem State.contentWrong_kept (s : State) (o : NvmObs) : Kept s (State.contentWrong s o) := by
  unfold State.contentWrong
  with_reducible refine .ite ?_ ?_
  with_reducible refine .iteR ?_ ?_
  exact .refl _
  with_reducible refine .trans ?_ ((State.setN_touches ..).kept)
  with_reducible refine .trans ?_ ((State.fresh_touches ..).kept)
  exact .refl _
  with_reducible refine .ite ?_ ?_
  with_reducible refine .trans ?_ (State.scratchLost_kept ..)
  exact .refl _
  with_reducible refine .iteL ?_ ?_
  exact .refl _
  with_reducible refine .trans ?_ (State.structureLost_kept ..)
  exact .refl _

theorem State.scratchWrite_kept (s : State) (a : Nat) (data : List Byte) (cut : Option Nat) : Kept s (State.scratchWrite s a data cut) := by
  unfold State.scratchWrite
  refine .trans ?_ ((State.rangeWrote_touches ..).kept)
  exact ⟨rfl, fun w => Memory.wf_writes _ _ w⟩

theorem State.scratchHost_kept (s : State) (page : Nat) (sub : Nat) (data : List Byte) (cut : Option Nat) : Kept s (State.scratchHost s
  page sub data cut).2 := by
  unfold State.scratchHost
  with_reducible refine .iteSnd ?_ ?_
  dsimp only
  exact .refl _
  with_reducible refine .iteSnd ?_ ?_
  dsimp only
  exact .refl _
  dsimp only
  with_reducible refine .trans ?_ (State.scratchWrite_kept ..)
  exact .refl _

theorem State.writePath_kept (s : State) (h : Requester) (d : Desc) (idx : Nat) (sub : Nat) (data : List Byte) (cut : Option Nat) : Kept s
  (State.writePath s h d idx sub data cut).2 := by
  unfold State.writePath
  with_reducible refine .iteSnd ?_ ?_
  with_reducible refine .trans ?_ (State.scratchHost_kept ..)
  exact .refl _
  with_reducible refine .iteSnd ?_ ?_
  dsimp only
  with_reducible refine .trans ?_ ((State.writeNow_touches ..).kept)
  exact .refl _
  with_reducible refine .iteSnd ?_ ?_
  dsimp only
  with_reducible refine .trans ?_ ((State.sameWritten_touches ..).kept)
  exact .refl _
  dsimp only
  with_reducible refine .trans ?_ ((State.queueUnit_touches ..).kept)
  exact .refl _

theorem State.runWrite_kept (s : State) (h : Requester) (idx : Nat) (sub : Nat) (data : List Byte) (cut : Option Nat) : Kept s
  (State.runWrite s h idx sub data cut).2 := by
  unfold State.runWrite
  split
  dsimp only
  exact .refl _
  with_reducible refine .iteSnd ?_ ?_
  with_reducible refine .trans ?_ ((State.command_touches ..).kept)
  exact .refl _
  split
  with_reducible refine .trans ?_ (State.writePath_kept ..)
  exact .refl _
  dsimp only
  exact .refl _

theorem State.writeAnswered_kept (s : State) (h : Requester) (idx : Nat) (sub : Nat) (data : List Byte) (cut : Option Nat) : Kept s
  (State.writeAnswered s h idx sub data cut) := by
  unfold State.writeAnswered
  dsimp only
  split
  with_reducible refine .trans ?_ ((State.replyWrite_touches ..).kept)
  with_reducible refine .trans ?_ (State.runWrite_kept ..)
  exact .refl _
  with_reducible refine .trans ?_ (State.runWrite_kept ..)
  exact .refl _

theorem State.hostWrite_kept (s : State) (h : Requester) (idx : Nat) (sub : Nat) (data : List Byte) : Kept s (State.hostWrite s h idx sub
  data) := by
  unfold State.hostWrite
  with_reducible exact .after (State.execute_kept (hf := fun _ => .after (State.writeAnswered_kept ..) (.refl _)) ..) (.refl _)

theorem State.draftWrite_kept (s : State) (h : Requester) (kind : DraftKind) (c : Fin 7) (v : Int) : Kept s (State.draftWrite s h kind c v) := by
  unfold State.draftWrite
  split
  with_reducible refine .trans ?_ (State.hostWrite_kept ..)
  exact .refl _
  with_reducible refine .trans ?_ (State.hostWrite_kept ..)
  exact .refl _
  with_reducible refine .trans ?_ (State.hostWrite_kept ..)
  exact .refl _

theorem State.groupRead_kept (s : State) (o : NvmObs) : Kept s (State.groupRead s o) := by
  unfold State.groupRead
  dsimp only
  split
  with_reducible refine .iteL ?_ ?_
  with_reducible refine .trans ?_ ((State.injectedBytes_touches ..).kept)
  exact .refl _
  with_reducible refine .ite ?_ ?_
  with_reducible refine .trans ?_ ((State.groupCorrected_touches ..).kept)
  exact .refl _
  with_reducible refine .trans ?_ ((State.answerAny_touches ..).kept)
  with_reducible refine .trans ?_ ((State.groupLost_touches ..).kept)
  exact .refl _
  with_reducible refine .ite ?_ ?_
  with_reducible refine .trans ?_ ((State.groupCorrected_touches ..).kept)
  with_reducible refine .trans ?_ ((State.injectedBytes_touches ..).kept)
  exact .refl _
  with_reducible refine .trans ?_ ((State.answerAny_touches ..).kept)
  with_reducible refine .trans ?_ ((State.groupLost_touches ..).kept)
  with_reducible refine .trans ?_ ((State.injectedBytes_touches ..).kept)
  exact .refl _
  with_reducible refine .trans ?_ (State.structureLost_kept ..)
  with_reducible refine .trans ?_ ((State.groupLost_touches ..).kept)
  with_reducible refine .trans ?_ ((State.injectedBytes_touches ..).kept)
  exact .refl _
  with_reducible refine .trans ?_ (State.contentWrong_kept ..)
  with_reducible refine .trans ?_ ((State.injectedBytes_touches ..).kept)
  exact .refl _
  with_reducible refine .trans ?_ (State.contentWrong_kept ..)
  with_reducible refine .trans ?_ ((State.groupCorrected_touches ..).kept)
  with_reducible refine .trans ?_ ((State.injectedBytes_touches ..).kept)
  exact .refl _

theorem State.groupWrite_kept (s : State) (o : NvmObs) : Kept s (State.groupWrite s o) := by
  unfold State.groupWrite
  with_reducible refine .ite ?_ ?_
  with_reducible refine .trans ?_ ((State.nvmError_touches ..).kept)
  exact .refl _
  dsimp only
  split
  with_reducible refine .trans ?_ ((State.rangeWrote_touches ..).kept)
  exact .refl _
  with_reducible refine .trans ?_ ((State.rangeWrote_touches ..).kept)
  with_reducible refine .trans ?_ ((State.groupCorrected_touches ..).kept)
  exact .refl _
  with_reducible refine .trans ?_ ((State.rangeWrote_touches ..).kept)
  with_reducible refine .trans ?_ (State.contentWrong_kept ..)
  with_reducible refine .trans ?_ ((State.groupCorrected_touches ..).kept)
  exact .refl _
  with_reducible refine .trans ?_ ((State.rangeWrote_touches ..).kept)
  with_reducible refine .trans ?_ (State.contentWrong_kept ..)
  exact .refl _
  with_reducible refine .ite ?_ ?_
  split
  with_reducible refine .trans ?_ ((State.answerError_touches ..).kept)
  with_reducible refine .trans ?_ ((State.unitDropped_touches ..).kept)
  with_reducible refine .trans ?_ ((State.nvmError_touches ..).kept)
  with_reducible refine .trans ?_ ((State.groupLost_touches ..).kept)
  exact .refl _
  with_reducible refine .trans ?_ ((State.nvmError_touches ..).kept)
  with_reducible refine .trans ?_ ((State.groupLost_touches ..).kept)
  exact .refl _
  with_reducible refine .trans ?_ ((State.rangeWrote_touches ..).kept)
  with_reducible refine .trans ?_ (State.structureLost_kept ..)
  with_reducible refine .trans ?_ ((State.groupLost_touches ..).kept)
  exact .refl _

theorem State.hostScratch_kept (s : State) (h : Requester) (page : Nat) (sub : Nat) (data : List Byte) (cut : Option Nat) : Kept s
  (State.hostScratch s h page sub data cut) := by
  unfold State.hostScratch
  with_reducible exact .after (State.execute_kept (hf := fun _ => .after (State.writeAnswered_kept ..) (.refl _)) ..) (.refl _)

theorem State.nvmCycle_kept (s : State) (o : NvmObs) : Kept s (State.nvmCycle s o) := by
  unfold State.nvmCycle
  with_reducible exact .iteR (.refl _) (.ite (.after (State.groupWrite_kept ..) (.iteL (.refl _) (.after
    ((State.remapCycle_touches ..).kept) (.refl _)))) (.after (State.groupRead_kept ..) (.iteL (.refl _) (.after
    ((State.remapCycle_touches ..).kept) (.refl _)))))

theorem State.patrolRead_kept (s : State) (err : GroupErr) (bothBad : Bool) (part : Nat) : Kept s (State.patrolRead s err bothBad part) := by
  unfold State.patrolRead
  with_reducible refine .iteL ?_ ?_
  exact .refl _
  with_reducible refine .iteR ?_ ?_
  with_reducible refine .trans ?_ ((State.setN_touches ..).kept)
  split
  with_reducible refine .trans ?_ ((State.remapCycle_touches ..).kept)
  exact .refl _
  with_reducible refine .trans ?_ ((State.rangeWrote_touches ..).kept)
  with_reducible refine .trans ?_ ((State.groupCorrected_touches ..).kept)
  with_reducible refine .trans ?_ ((State.remapCycle_touches ..).kept)
  exact .refl _
  with_reducible refine .trans ?_ (State.structureLost_kept ..)
  with_reducible refine .trans ?_ ((State.groupLost_touches ..).kept)
  with_reducible refine .trans ?_ ((State.remapCycle_touches ..).kept)
  exact .refl _
  with_reducible refine .trans ?_ (State.contentWrong_kept ..)
  with_reducible refine .trans ?_ ((State.remapCycle_touches ..).kept)
  exact .refl _
  with_reducible refine .trans ?_ (State.contentWrong_kept ..)
  with_reducible refine .trans ?_ ((State.rangeWrote_touches ..).kept)
  with_reducible refine .trans ?_ ((State.groupCorrected_touches ..).kept)
  with_reducible refine .trans ?_ ((State.remapCycle_touches ..).kept)
  exact .refl _
  with_reducible refine .upd ?_
  with_reducible refine .trans ?_ ((State.addWrap_touches ..).kept)
  exact .refl _

end Sys2Proof.Machine
end

