-- ==== Sys2Proof/Laws/Requests.lean ====
section
/-! SUPPORT. Host requests: what becomes of a request that is executed as soon as it is received, by the path its entry takes. -/

namespace Sys2Proof.Machine

open Sys2Proof
set_option Elab.async false

/-! ### Little-endian byte strings -/

@[simp] theorem leBytes_length (n v : Nat) : (leBytes n v).length = n := by
  induction n generalizing v with
  | zero => rfl
  | succ n ih => simp [leBytes, ih]

theorem leNat_leBytes (n v : Nat) (h : v < 256 ^ n) : leNat (leBytes n v) = v := by
  induction n generalizing v with
  | zero => simp at h; simp [leBytes, leNat, h]
  | succ n ih =>
    have hv : v / 256 < 256 ^ n := by rw [Nat.div_lt_iff_lt_mul (by decide)]; rwa [Nat.pow_succ] at h
    simp only [leBytes, leNat, ih _ hv, byteOf, BitVec.toNat_ofNat]
    omega

namespace State

/-! ### Receipt, turn and answer -/

theorem serves_linksOn {s : State} (h : s.serves = true) : s.linksOn = true := by
  unfold serves at h
  unfold linksOn
  cases hm : s.mode <;> simp_all

@[simp] theorem link_setLink (s : State) (l : Link) (x : LinkSt) : (s.setLink l x).link l = x := by cases l <;> rfl

@[simp] theorem setLink_setLink (s : State) (l : Link) (x y : LinkSt) : (s.setLink l x).setLink l y = s.setLink l y := by cases l <;> rfl

theorem execute_ready {s : State} {h : Requester} (r : s.Ready h) (op idx sub : Nat) (payload : List Byte) (f : State → State) :
    s.execute h op idx sub payload f = f (s.taken h op idx sub payload) := by
  have hm : s.mode ≠ .recalling := by
    intro e
    have := r.1
    simp [serves, e] at this
  simp [execute, admitted, serves_linksOn r.1, r.2.1, hm, turn, r.2.2, taken]

/-- The answer to the request that alone is in its link's queue. -/
theorem reply_head {u : State} {h : Requester} {op idx sub : Nat} {payload : List Byte} (on : u.serves = true)
    (q : (u.link h.link).queue = [⟨op, h.tag, idx, sub, .ok, payload⟩]) (st : Status) (p : List Byte) :
    u.reply h op idx sub st p = u.setLink h.link { u.link h.link with queue := [], out := (u.link h.link).out ++ [⟨op, h.tag, idx, sub, st, p⟩] } := by
  simp [reply, serves_linksOn on, q, drain]

/-- A request answered at once leaves one response more and nothing else. -/
theorem reply_taken {s : State} {h : Requester} (r : s.Ready h) (op idx sub : Nat) (payload : List Byte) (st : Status) (p : List Byte) :
    (s.taken h op idx sub payload).reply h op idx sub st p = s.answered h op idx sub st p := by
  rw [reply_head (payload := payload)]
  · unfold taken answered
    simp only [link_setLink, setLink_setLink]
    congr 1
    have := r.2.2
    cases hl : s.link h.link
    rw [hl] at this
    simp_all
  · simpa [taken, serves] using r.1
  · simp [taken]

@[simp] theorem heldPayload_taken (s : State) (h : Requester) (op i j : Nat) (p : List Byte) : (s.taken h op i j p).heldPayload h = p := by
  simp [heldPayload, taken]

/-- The answer to a request that was taken up, from a state whose links have not changed since. -/
theorem reply_after {s u : State} {h : Requester} (r : s.Ready h) {op idx sub : Nat} {payload : List Byte} (on : u.serves = true)
    (hs : u.spi = (s.taken h op idx sub payload).spi) (hc : u.can = (s.taken h op idx sub payload).can) (st : Status) (p : List Byte) :
    u.reply h op idx sub st p = { u with spi := (s.answered h op idx sub st p).spi, can := (s.answered h op idx sub st p).can } := by
  have q := r.2.2
  rw [reply_head (payload := payload) on]
  · unfold answered
    unfold taken at hs hc
    revert q hs hc
    cases h.link <;> simp only [setLink, link] <;> intro q hs hc <;> simp only [hs, hc, q]
  · unfold taken at hs hc
    revert hs hc
    cases h.link <;> simp only [setLink, link] <;> intro a b <;> simp only [a, b]

/-- The same, with the links of the answered state put in place. -/
theorem reply_done {s u : State} {h : Requester} (r : s.Ready h) {op idx sub : Nat} {payload : List Byte} (on : u.serves = true)
    (hs : u.spi = (s.taken h op idx sub payload).spi) (hc : u.can = (s.taken h op idx sub payload).can) (st : Status) (p : List Byte) :
    u.reply h op idx sub st p = u.withLinksOf (s.answered h op idx sub st p) := reply_after r on hs hc st p

theorem answered_links (s u : State) (h : Requester) (op idx sub : Nat) (st : Status) (p : List Byte) :
    Answered s (u.withLinksOf (s.answered h op idx sub st p)) h op idx sub st p := ⟨rfl, rfl⟩

/-! ### Writes -/

theorem setV_setLink (s : State) (l : Link) (x : LinkSt) (k : Nat) (v : Val) : (s.setLink l x).setV k v = (s.setV k v).setLink l x := by
  cases l <;> cases v <;> rfl

theorem forEach_setV_setLink (ws : List EntryWrite) (s : State) (l : Link) (x : LinkSt) :
    forEach ws (fun w s => s.setV w.key w.val) (s.setLink l x) = (forEach ws (fun w s => s.setV w.key w.val) s).setLink l x := by
  induction ws generalizing s with
  | nil => rfl
  | cons w ws ih => exact (congrArg (forEach ws fun w s => s.setV w.key w.val) (setV_setLink s l x w.key w.val)).trans (ih _)

theorem foreseen_setLink (s : State) (l : Link) (x : LinkSt) (ws : List EntryWrite) : (s.setLink l x).foreseen ws = (s.foreseen ws).setLink l x := by
  have e : (s.setLink l x).waitingWrites = s.waitingWrites := by cases l <;> rfl
  unfold foreseen
  rw [e]
  exact forEach_setV_setLink ..

theorem entryValueOk_setLink (s : State) (l : Link) (x : LinkSt) (es : List EntryWrite) (d : Desc) (idx sub : Nat) (data : List Byte) :
    (s.setLink l x).entryValueOk es d idx sub data = s.entryValueOk es d idx sub data := by
  unfold entryValueOk
  rw [foreseen_setLink]
  cases l <;> rfl

theorem writeStatus_setLink (s : State) (l : Link) (x : LinkSt) (es : List EntryWrite) (d : Desc) (idx sub : Nat) (data : List Byte) :
    (s.setLink l x).writeStatus es d idx sub data = s.writeStatus es d idx sub data := by
  have c : (s.setLink l x).classStatus d = s.classStatus d := by cases l <;> rfl
  have r : (s.setLink l x).stateRefuses idx sub = s.stateRefuses idx sub := by cases l <;> rfl
  unfold writeStatus
  rw [c, r, entryValueOk_setLink]

theorem writeStatus_taken (s : State) (h : Requester) (op i j : Nat) (b : List Byte) (es : List EntryWrite) (d : Desc) (idx sub : Nat) (data : List Byte) :
    (s.taken h op i j b).writeStatus es d idx sub data = s.writeStatus es d idx sub data := writeStatus_setLink ..

theorem put_setLink (s : State) (l : Link) (x : LinkSt) (k : Nat) (v : Int) : (s.setLink l x).put k v = (s.put k v).setLink l x := by
  have c (n : Nat) : (s.setLink l x).cow n k = (s.cow n k).setLink l x := by
    unfold cow
    cases l <;> dsimp only [setLink] <;> (repeat' split) <;> rfl
  unfold put setQ
  cases l <;> dsimp only [setLink] at c ⊢ <;> rw [c] <;> rfl

/-- The hook of a draft coefficient (R160) and of a pulse setting (R141). -/
theorem entryHook_draft (s : State) {k : Nat} (h : 0x6808 ≤ k / 256 ∧ k / 256 ≤ 0x680A) :
    s.entryHook k = s.draftWritten ⟨(k % 256 - 1) % 7, by omega⟩ := by
  have : k / 256 = 0x6808 ∨ k / 256 = 0x6809 ∨ k / 256 = 0x680A := by omega
  have u : k ≠ K.UTC_OFFSET := by unfold K.UTC_OFFSET; omega
  unfold entryHook
  rcases this with e | e | e <;> simp +decide only [e, u, if_true, if_false]

theorem entryHook_pulse (s : State) {k : Nat} (h : k / 256 = 0x4810 ∨ k / 256 = 0x4811) :
    s.entryHook k = s.updPulse ⟨(k % 256 - 1) % 8, by omega⟩ fun x => { x with waits := true } := by
  have u : k ≠ K.UTC_OFFSET := by unfold K.UTC_OFFSET; omega
  unfold entryHook
  rcases h with e | e <;> simp +decide only [e, u, if_true, if_false]

theorem draftWritten_setLink (s : State) (l : Link) (x : LinkSt) (c : Fin 7) : (s.setLink l x).draftWritten c = (s.draftWritten c).setLink l x := by
  have u (t : State) (k : Nat) : (t.setLink l x).getU k = t.getU k := by cases l <;> rfl
  unfold draftWritten
  simp only [u, put_setLink]
  cases l <;> rfl

theorem sameWritten_setLink (s : State) (l : Link) (x : LinkSt) (k : Nat) : (s.setLink l x).sameWritten k = (s.sameWritten k).setLink l x := by
  unfold sameWritten
  dsimp only
  split
  · rename_i h
    rcases h with h | h
    · rw [entryHook_draft _ h, entryHook_draft _ h, draftWritten_setLink]
    · rw [entryHook_pulse _ h, entryHook_pulse _ h]
      cases l <;> rfl
  · rfl

theorem sameWritten_link (s : State) (k : Nat) (l : Link) : (s.sameWritten k).link l = s.link l := by
  unfold sameWritten
  dsimp only
  split
  · rename_i h
    rcases h with h | h
    · rw [entryHook_draft _ h]
      unfold draftWritten
      cases l <;> simp [link]
    · rw [entryHook_pulse _ h]
      cases l <;> rfl
  · rfl

theorem sameWritten_mode (s : State) (k : Nat) : (s.sameWritten k).mode = s.mode := by
  unfold sameWritten
  dsimp only
  split
  · rename_i h
    rcases h with h | h
    · rw [entryHook_draft _ h]
      simp [draftWritten]
    · rw [entryHook_pulse _ h]
      rfl
  · rfl

theorem sameWritten_svc (s : State) (k : Nat) : (s.sameWritten k).svc = s.svc := by
  unfold sameWritten
  dsimp only
  split
  · rename_i h
    rcases h with h | h
    · rw [entryHook_draft _ h]
      simp [draftWritten]
    · rw [entryHook_pulse _ h]
      rfl
  · rfl

theorem unchanged_taken (s : State) (h : Requester) (op i j : Nat) (b : List Byte) (k : Nat) (v : Val) :
    (s.taken h op i j b).unchanged k v = s.unchanged k v := by
  unfold taken; cases h.link <;> rfl

theorem hostWrite_ready {s : State} {h : Requester} (r : s.Ready h) (idx sub : Nat) (data : List Byte) :
    s.hostWrite h idx sub data = (s.taken h opWrite idx sub data).writeAnswered h idx sub data none := execute_ready r ..

theorem hostWrite_unknown {s : State} {h : Requester} (r : s.Ready h) {idx sub : Nat} (data : List Byte) (hd : findDesc idx sub = none) :
    s.hostWrite h idx sub data = s.answered h opWrite idx sub .unknownEntry [] := by
  rw [hostWrite_ready r]
  simp [writeAnswered, runWrite, hd, replyWrite, reply_taken r]

/-- A write that the checks refuse is answered with its status and changes nothing else (R377). -/
theorem hostWrite_refused {s : State} {h : Requester} (r : s.Ready h) {idx sub : Nat} {data : List Byte} {d : Desc} {st : Status}
    (hd : findDesc idx sub = some d) (hw : d.acc ≠ .wo) (hs : s.writeStatus [] d idx sub data = st) (no : st ≠ .ok) :
    s.hostWrite h idx sub data = s.answered h opWrite idx sub st [] := by
  rw [hostWrite_ready r]
  unfold writeAnswered runWrite
  simp only [hd, if_neg hw, writeStatus_taken, hs]
  cases st <;> first | exact absurd rfl no | exact reply_taken r ..

/-- A stored write that changes its entry becomes a waiting journal unit, answered after its commit group (R378). -/
theorem hostWrite_stored {s : State} {h : Requester} (r : s.Ready h) {idx sub : Nat} {data : List Byte} {d : Desc} {v : Val}
    (hd : findDesc idx sub = some d) (hw : d.acc ≠ .wo) (hs : s.writeStatus [] d idx sub data = .ok) (hi : idx < 0xF000)
    (hf : isFlagEntry idx = false) (hv : isVolatileEntry idx = false) (he : d.ty.decode data = v) (hu : s.unchanged (keyOf idx sub) v = false) :
    s.hostWrite h idx sub data =
      (s.taken h opWrite idx sub data).queueUnit ⟨[⟨keyOf idx sub, v⟩], unitBytes data.length, .write h idx sub⟩ := by
  rw [hostWrite_ready r]
  unfold writeAnswered runWrite
  simp only [hd, if_neg hw, writeStatus_taken, hs, writePath, he]
  rw [if_neg (by omega)]
  simp [hf, hv, unchanged_taken, hu]

/-- A stored write that leaves its entry as it is is answered OK without a unit (R378). -/
theorem hostWrite_unchanged {s : State} {h : Requester} (r : s.Ready h) {idx sub : Nat} {data : List Byte} {d : Desc} {v : Val}
    (hd : findDesc idx sub = some d) (hw : d.acc ≠ .wo) (hs : s.writeStatus [] d idx sub data = .ok) (hi : idx < 0xF000)
    (hf : isFlagEntry idx = false) (hv : isVolatileEntry idx = false) (he : d.ty.decode data = v) (hu : s.unchanged (keyOf idx sub) v = true) :
    s.hostWrite h idx sub data = (s.sameWritten (keyOf idx sub)).answered h opWrite idx sub .ok [] := by
  rw [hostWrite_ready r]
  unfold writeAnswered runWrite
  simp only [hd, if_neg hw, writeStatus_taken, hs, writePath, he]
  rw [if_neg (by omega)]
  simp [hf, hv, unchanged_taken, hu, replyWrite]
  have e : (s.taken h opWrite idx sub data).sameWritten (keyOf idx sub) = (s.sameWritten (keyOf idx sub)).taken h opWrite idx sub data := by
    unfold taken
    rw [sameWritten_setLink, sameWritten_link]
  rw [e]
  refine reply_taken ⟨?_, ?_, ?_⟩ ..
  · unfold serves
    rw [sameWritten_mode]
    exact r.1
  · rw [sameWritten_svc]
    exact r.2.1
  · rw [sameWritten_link]
    exact r.2.2

/-- A flag or volatile write acts at once and is answered OK (R378). -/
theorem hostWrite_now {s : State} {h : Requester} (r : s.Ready h) {idx sub : Nat} {data : List Byte} {d : Desc} {v : Val}
    (hd : findDesc idx sub = some d) (hw : d.acc ≠ .wo) (hs : s.writeStatus [] d idx sub data = .ok) (hi : idx < 0xF000)
    (hf : isFlagEntry idx = true ∨ isVolatileEntry idx = true) (he : d.ty.decode data = v) :
    s.hostWrite h idx sub data = ((s.taken h opWrite idx sub data).writeNow idx sub v).reply h opWrite idx sub .ok [] := by
  rw [hostWrite_ready r]
  unfold writeAnswered runWrite
  simp only [hd, if_neg hw, writeStatus_taken, hs, writePath, he]
  rw [if_neg (by omega), if_pos hf]
  rfl

/-- A write of a command entry (R378). -/
theorem hostWrite_command {s : State} {h : Requester} (r : s.Ready h) {idx sub : Nat} {data : List Byte} {d : Desc} {st : Status} {t : State}
    (hd : findDesc idx sub = some d) (hw : d.acc = .wo) (hc : (s.taken h opWrite idx sub data).command h d idx sub data = (some st, t)) :
    s.hostWrite h idx sub data = t.reply h opWrite idx sub st [] := by
  rw [hostWrite_ready r]
  unfold writeAnswered runWrite
  simp only [hd, if_pos hw, hc]
  rfl

end State

end Sys2Proof.Machine
end

