-- ==== Sys2Proof/Laws/Keeps.lean ====
section
/-! SUPPORT. What longer operations leave: the mode, the two host links and chosen number entries, carried through a sequence of operations. -/

namespace Sys2Proof.Machine

open Sys2Proof
set_option Elab.async false

/-- What holds of the start and is kept by every round holds at the end. -/
theorem forEach_ind {α : Type} (P : State → Prop) (l : List α) (f : α → State → State) (s : State) (h : P s)
    (hs : ∀ a ∈ l, ∀ u, P u → P (f a u)) : P (forEach l f s) := by
  induction l generalizing s with
  | nil => exact h
  | cons a l ih => exact ih (f a s) (hs a (by simp) s h) fun b hb => hs b (by simp [hb])

/-- What one round establishes and every round keeps holds at the end. -/
theorem forEach_reach {α : Type} (P : State → Prop) {l : List α} {f : α → State → State} {a : α} (ha : a ∈ l) (h : ∀ u, P (f a u))
    (hs : ∀ b ∈ l, ∀ u, P u → P (f b u)) (s : State) : P (forEach l f s) := by
  induction l generalizing s with
  | nil => simp at ha
  | cons b l ih =>
    rcases List.mem_cons.1 ha with rfl | ha
    · exact forEach_ind P l f _ (h s) fun b hb => hs b (by simp [hb])
    · exact ih ha (fun b hb => hs b (by simp [hb])) (f b s)

/-- What every round leaves as it is is so left by all of them. -/
theorem forEach_field {α β : Type} (g : State → β) (l : List α) (f : α → State → State) (s : State) (h : ∀ a ∈ l, ∀ u, g (f a u) = g u) :
    g (forEach l f s) = g s :=
  forEach_ind (fun u => g u = g s) l f s rfl fun a ha u hu => (h a ha u).trans hu

/-- From `s` to `u` the mode, the two host links and the number entries of `p` stay as they are. -/
structure Keeps (p : Nat → Prop) (s u : State) : Prop where
  mode : u.mode = s.mode
  spi : u.spi = s.spi
  can : u.can = s.can
  nums : ∀ k, p k → u.getN k = s.getN k

namespace Keeps

variable {p : Nat → Prop} {s u v : State}

theorem refl (s : State) : Keeps p s s := ⟨rfl, rfl, rfl, fun _ _ => rfl⟩

theorem trans (a : Keeps p s u) (b : Keeps p u v) : Keeps p s v :=
  ⟨b.mode.trans a.mode, b.spi.trans a.spi, b.can.trans a.can, fun k hk => (b.nums k hk).trans (a.nums k hk)⟩

theorem mono {q : Nat → Prop} (h : ∀ k, q k → p k) (a : Keeps p s u) : Keeps q s u := ⟨a.mode, a.spi, a.can, fun k hk => a.nums k (h k hk)⟩

/-- A change of other fields alone. -/
theorem other (hm : u.mode = s.mode) (hs : u.spi = s.spi) (hc : u.can = s.can) (hn : u.nums = s.nums) : Keeps p s u :=
  ⟨hm, hs, hc, fun k _ => State.getN_congr hn k⟩

theorem setN {k : Nat} (h : ¬ p k) (v : Int) : Keeps p s (s.setN k v) :=
  ⟨rfl, rfl, rfl, fun j hj => State.getN_setN_other s (fun e => h (by rw [← e]; exact hj)) v⟩

theorem setQ {k : Nat} (h : ¬ p k) (n : Nat) (v : Int) : Keeps p s (s.setQ n k v) :=
  ⟨by simp, by simp, by simp, fun j hj => by
    rw [State.getN_setQ, if_neg]
    intro e
    exact h (e ▸ hj)⟩

theorem put {k : Nat} (h : ¬ p k) (v : Int) : Keeps p s (s.put k v) := setQ h ..

theorem addSat {k : Nat} (h : ¬ p k) (w d : Nat) : Keeps p s (s.addSat w k d) := setQ h ..

theorem addWrap {k : Nat} (h : ¬ p k) (w d : Nat) : Keeps p s (s.addWrap w k d) := setQ h ..

theorem health (c r d : Nat) : Keeps p s (s.health c r d) := other (by simp) (by simp) (by simp) (by simp)

theorem queueRecord (j : RecJob) : Keeps p s (s.queueRecord j) := other (by simp) (by simp) (by simp) (by simp)

theorem forEach {α : Type} {l : List α} {f : α → State → State} (h : ∀ a ∈ l, ∀ u, Keeps p u (f a u)) : Keeps p s (Machine.forEach l f s) :=
  forEach_ind (Keeps p s) l f s (refl s) fun a ha u hu => hu.trans (h a ha u)

theorem serves (h : Keeps p s u) (hs : s.serves = true) : u.serves = true := by
  unfold State.serves at *
  rw [h.mode]
  exact hs

end Keeps

namespace State

/-- A request that is answered after such a change. -/
theorem reply_keeps {s u : State} {h : Requester} (r : s.Ready h) {p : Nat → Prop} {op idx sub : Nat} {payload : List Byte}
    (k : Keeps p (s.taken h op idx sub payload) u) (st : Status) (b : List Byte) :
    u.reply h op idx sub st b = u.withLinksOf (s.answered h op idx sub st b) :=
  reply_done r (k.serves (by simpa [serves] using r.1)) k.spi k.can st b

/-- The checks of a write, one by one. -/
theorem writeStatus_ok {s : State} {d : Desc} {idx sub : Nat} {data : List Byte} (h1 : s.classStatus d = .ok) (h2 : s.stateRefuses idx sub = false)
    (h3 : entryLenOk d idx sub data.length = true) (h4 : s.entryValueOk [] d idx sub data = true) : s.writeStatus [] d idx sub data = .ok := by
  simp [writeStatus, h1, h2, h3, h4]

@[simp] theorem getU_taken (s : State) (h : Requester) (op idx sub : Nat) (b : List Byte) (k : Nat) :
    (s.taken h op idx sub b).getU k = s.getU k := by simp [getU]

end State

/-! ### Number entries alone -/

/-- From `s` to `u` nothing changes but number entries and the tableau's copies of them; the number entries of `p` stay as they are. -/
structure NumsOnly (p : Nat → Prop) (s u : State) : Prop where
  frame : { u with nums := s.nums, tab := s.tab } = s
  nums : ∀ k, p k → u.getN k = s.getN k

namespace NumsOnly

variable {p : Nat → Prop} {s u v : State}

theorem refl (s : State) : NumsOnly p s s := ⟨rfl, fun _ _ => rfl⟩

theorem trans (a : NumsOnly p s u) (b : NumsOnly p u v) : NumsOnly p s v :=
  ⟨(congrArg (fun x : State => { x with nums := s.nums, tab := s.tab }) b.frame).trans a.frame, fun k hk => (b.nums k hk).trans (a.nums k hk)⟩

theorem mono {q : Nat → Prop} (h : ∀ k, q k → p k) (a : NumsOnly p s u) : NumsOnly q s u := ⟨a.frame, fun k hk => a.nums k (h k hk)⟩

theorem setN {k : Nat} (h : ¬ p k) (v : Int) : NumsOnly p s (s.setN k v) :=
  ⟨rfl, fun j hj => State.getN_setN_other s (fun e => h (by rw [← e]; exact hj)) v⟩

theorem setQ {k : Nat} (h : ¬ p k) (n : Nat) (v : Int) : NumsOnly p s (s.setQ n k v) :=
  ⟨by simp, fun j hj => by
    rw [State.getN_setQ, if_neg]
    intro e
    exact h (e ▸ hj)⟩

theorem put {k : Nat} (h : ¬ p k) (v : Int) : NumsOnly p s (s.put k v) := setQ h ..

theorem addSat {k : Nat} (h : ¬ p k) (w d : Nat) : NumsOnly p s (s.addSat w k d) := setQ h ..

theorem addWrap {k : Nat} (h : ¬ p k) (w d : Nat) : NumsOnly p s (s.addWrap w k d) := setQ h ..

theorem forEach {α : Type} {l : List α} {f : α → State → State} (h : ∀ a ∈ l, ∀ u, NumsOnly p u (f a u)) : NumsOnly p s (Machine.forEach l f s) :=
  forEach_ind (NumsOnly p s) l f s (refl s) fun a ha u hu => hu.trans (h a ha u)

theorem keeps (d : NumsOnly p s u) : Keeps p s u := by
  have f := d.frame
  have m := congrArg State.mode f
  have x := congrArg State.spi f
  have y := congrArg State.can f
  exact ⟨m, x, y, d.nums⟩

end NumsOnly

/-! ### The display -/

/-- From `s` to `u` nothing changes but the display and DROPPED_TARGETS. -/
structure DispOnly (s u : State) : Prop where
  frame : { u with disp := s.disp, nums := s.nums, tab := s.tab } = s
  nums : ∀ k, k ≠ K.DROPPED_TARGETS → u.getN k = s.getN k

namespace DispOnly

theorem refl (s : State) : DispOnly s s := ⟨rfl, fun _ _ => rfl⟩

theorem trans {s u v : State} (a : DispOnly s u) (b : DispOnly u v) : DispOnly s v :=
  ⟨(congrArg (fun x : State => { x with disp := s.disp, nums := s.nums, tab := s.tab }) b.frame).trans a.frame,
    fun k hk => (b.nums k hk).trans (a.nums k hk)⟩

theorem disp (s : State) (d : Display) : DispOnly s { s with disp := d } := ⟨rfl, fun _ _ => rfl⟩

theorem setRegion (s : State) (b : Bool) (x : Region) : DispOnly s (s.setRegion b x) := by unfold State.setRegion; split <;> exact disp ..

theorem pumpOn (s : State) : DispOnly s s.pumpOn := by
  unfold State.pumpOn
  split
  · exact .refl _
  · exact disp ..

theorem dropped (s : State) : DispOnly s (s.addSat 32 K.DROPPED_TARGETS 1) :=
  ⟨by simp [State.addSat, State.addSatQ], fun k hk => by rw [State.getN_addSat, if_neg hk]⟩

theorem setTarget (s : State) (b : Bool) (img : Nat) : DispOnly s (s.setTarget b img) := by
  unfold State.setTarget
  dsimp only
  split
  · exact .refl _
  split
  · split
    · exact (dropped s).trans (setRegion ..)
    · exact setRegion ..
  · exact (setRegion ..).trans (pumpOn _)

theorem compose (s : State) : DispOnly s s.compose := by
  unfold State.compose
  split
  · exact setTarget ..
  · exact .refl _

theorem keeps {p : Nat → Prop} {s u : State} (h : ¬ p K.DROPPED_TARGETS) (d : DispOnly s u) : Keeps p s u := by
  have f := d.frame
  have m := congrArg State.mode f
  have x := congrArg State.spi f
  have y := congrArg State.can f
  exact ⟨m, x, y, fun k hk => d.nums k fun e => h (e ▸ hk)⟩

end DispOnly

/-! ### The tamper sources -/

/-- From `s` to `u` nothing changes but the tamper sources, number entries, the tableau's copies of them and the journal; the number entries of
`p` stay as they are. -/
structure TamperOnly (p : Nat → Prop) (s u : State) : Prop where
  frame : { u with nums := s.nums, tab := s.tab, tamper := s.tamper, journal := s.journal } = s
  nums : ∀ k, p k → u.getN k = s.getN k

namespace TamperOnly

variable {p : Nat → Prop} {s u v : State}

theorem refl (s : State) : TamperOnly p s s := ⟨rfl, fun _ _ => rfl⟩

theorem trans (a : TamperOnly p s u) (b : TamperOnly p u v) : TamperOnly p s v :=
  ⟨(congrArg (fun x : State => { x with nums := s.nums, tab := s.tab, tamper := s.tamper, journal := s.journal }) b.frame).trans a.frame,
    fun k hk => (b.nums k hk).trans (a.nums k hk)⟩

theorem tamper (s : State) (x : TamperSt) : TamperOnly p s { s with tamper := x } := ⟨rfl, fun _ _ => rfl⟩

theorem updSrc (s : State) (n : Fin 16) (f : TamperSrc → TamperSrc) : TamperOnly p s (s.updSrc n f) := ⟨rfl, fun _ _ => rfl⟩

theorem put {k : Nat} (h : ¬ p k) (v : Int) : TamperOnly p s (s.put k v) :=
  ⟨by simp, fun j hj => by
    rw [State.getN_put, if_neg]
    intro e
    exact h (e ▸ hj)⟩

theorem addSat {k : Nat} (h : ¬ p k) (w d : Nat) : TamperOnly p s (s.addSat w k d) := put h _

theorem keepMarks (s : State) : TamperOnly p s s.keepMarks := ⟨rfl, fun _ _ => rfl⟩

theorem forEach {α : Type} {l : List α} {f : α → State → State} (h : ∀ a ∈ l, ∀ u, TamperOnly p u (f a u)) : TamperOnly p s (Machine.forEach l f s) :=
  forEach_ind (TamperOnly p s) l f s (refl s) fun a ha u hu => hu.trans (h a ha u)

theorem syncSrc {n : Fin 16} (h : ¬ p (K.SRC_STATE (n + 1))) : TamperOnly p s (s.syncSrc n) := put h _

theorem setSticky {n : Fin 16} (h1 : ¬ p K.TAMPER_STATUS) (h2 : ¬ p (K.TAMPER_REARM (n + 1))) : TamperOnly p s (s.setSticky n) := by
  unfold State.setSticky
  dsimp only
  have a : TamperOnly p s (s.put K.TAMPER_STATUS ((setBit (s.getU K.TAMPER_STATUS) n : Nat) : Int)) := put h1 _
  have b := a.trans ((addSat h2 32 1).trans (updSrc _ n fun x => { x with cleared := false }))
  split <;> split
  · exact b
  · exact a
  · exact b.trans (keepMarks _)
  · exact a.trans (keepMarks _)

/-- The entries of a source that its alarms write. -/
def entries (n : Fin 16) (k : Nat) : Prop :=
  k = K.TAMPER_STATUS ∨ k = K.TAMPER_REARM (n + 1) ∨ k = K.ALARM_COUNT (n + 1) ∨ k = K.LAST_ALARM (n + 1) ∨ k = K.SRC_STATE (n + 1)

theorem alarm (s : State) (n : Fin 16) (pt v : Nat) : TamperOnly (fun k => ¬ entries n k) s (s.alarm n pt v) := by
  unfold State.alarm
  split
  · exact ⟨rfl, fun _ _ => rfl⟩
  · exact (((setSticky (by simp [entries]) (by simp [entries])).trans (addSat (by simp [entries]) ..)).trans (put (by simp [entries]) _)).trans (updSrc ..)

/-- An event is counted, or its alarm is raised. -/
theorem counted (s : State) (n : Fin 16) (c : Nat) (f g : TamperSrc → TamperSrc) (pt v : Nat) :
    TamperOnly (fun k => ¬ entries n k) s
      (if s.srcCount n ≤ c then ((s.updSrc n f).alarm n pt v).syncSrc n else (s.updSrc n g).syncSrc n) := by
  have e : ¬ (fun k => ¬ entries n k) (K.SRC_STATE (n + 1)) := fun h => h (by simp [entries])
  split
  · exact ((updSrc ..).trans (alarm ..)).trans (syncSrc e)
  · exact (updSrc ..).trans (syncSrc e)

theorem source (s : State) (n : Fin 16) (v : Nat) : TamperOnly (fun k => ¬ entries n k) s (s.source n v) := by
  unfold State.source
  split
  · exact .refl _
  split
  · exact .refl _
  exact counted ..

theorem keeps (d : TamperOnly p s u) : Keeps p s u := by
  have f := d.frame
  have m := congrArg State.mode f
  have x := congrArg State.spi f
  have y := congrArg State.can f
  exact ⟨m, x, y, d.nums⟩

end TamperOnly

/-! ### The auxiliary converter bank -/

/-- From `s` to `u` nothing changes but number entries, the tableau's copies of them, the auxiliary converters and the logical couples; the number
entries of `p` stay as they are, and so do the injections' words. -/
structure AuxOnly (p : Nat → Prop) (s u : State) : Prop where
  frame : { u with nums := s.nums, tab := s.tab, convs := s.convs, couples := s.couples } = s
  nums : ∀ k, p k → u.getN k = s.getN k
  words : ∀ l : Fin 3, u.couples[l].injWord = s.couples[l].injWord

namespace AuxOnly

variable {p : Nat → Prop} {s u v : State}

theorem refl (s : State) : AuxOnly p s s := ⟨rfl, fun _ _ => rfl, fun _ => rfl⟩

theorem trans (a : AuxOnly p s u) (b : AuxOnly p u v) : AuxOnly p s v :=
  ⟨(congrArg (fun x : State => { x with nums := s.nums, tab := s.tab, convs := s.convs, couples := s.couples }) b.frame).trans a.frame,
    fun k hk => (b.nums k hk).trans (a.nums k hk), fun l => (b.words l).trans (a.words l)⟩

theorem updConv (s : State) (a : Fin 8) (f : Conv → Conv) : AuxOnly p s (s.updConv a f) := ⟨rfl, fun _ _ => rfl, fun _ => rfl⟩

theorem acquire (s : State) (a : Fin 8) (n : Nat) (w : List (Fin 8)) : AuxOnly p s (s.acquire a n w) := updConv ..

theorem updCouple {l : Fin 3} {f : Couple → Couple} (h : (f s.couples[l]).injWord = s.couples[l].injWord) : AuxOnly p s (s.updCouple l f) :=
  ⟨rfl, fun _ _ => rfl, fun j => by
    show ((s.couples.set l (f s.couples[l]))[j]).injWord = _
    by_cases e : l = j
    · subst e; simpa using h
    · simp [Fin.val_ne_of_ne e]⟩

theorem put {k : Nat} (h : ¬ p k) (v : Int) : AuxOnly p s (s.put k v) :=
  ⟨by simp, fun j hj => by
    rw [State.getN_put, if_neg]
    intro e
    exact h (e ▸ hj), fun l => by rw [State.put_couples]⟩

theorem forEach {α : Type} {l : List α} {f : α → State → State} (h : ∀ a ∈ l, ∀ u, AuxOnly p u (f a u)) : AuxOnly p s (Machine.forEach l f s) :=
  forEach_ind (AuxOnly p s) l f s (refl s) fun a ha u hu => hu.trans (h a ha u)

theorem keeps (d : AuxOnly p s u) : Keeps p s u := by
  have f := d.frame
  have m := congrArg State.mode f
  have x := congrArg State.spi f
  have y := congrArg State.can f
  exact ⟨m, x, y, d.nums⟩

theorem startConvs (s : State) (st : List (Fin 8 × Nat)) (both : Bool) : AuxOnly p s (s.startConvs st both) := by
  unfold State.startConvs
  dsimp only
  split
  · exact .forEach fun _ _ _ => updConv ..
  · exact .forEach fun _ _ _ => acquire ..

/-- What an injection's next conversion can do: of the number entries only the couple's INJ_STATE changes, and only to RUNNING. -/
theorem injectStart (s : State) (l : Fin 3) :
    AuxOnly (fun k => k ≠ K.INJ_STATE (l + 1)) s (s.injectStart l) ∧
    ((s.injectStart l).getN (K.INJ_STATE (l + 1)) = s.getN (K.INJ_STATE (l + 1)) ∨ (s.injectStart l).getN (K.INJ_STATE (l + 1)) = 2) := by
  have c (st : List (Fin 8 × Nat)) : AuxOnly (fun _ => True) s (s.startConvs st false) := startConvs ..
  have c' (st : List (Fin 8 × Nat)) : AuxOnly (fun k => k ≠ K.INJ_STATE (l + 1)) s (s.startConvs st false) := startConvs ..
  unfold State.injectStart
  dsimp only
  split
  · exact ⟨.refl s, .inl rfl⟩
  split
  · exact ⟨c' _, .inl ((c _).nums _ trivial)⟩
  · exact ⟨((c' _).trans (updCouple rfl)).trans (put (by simp) _), .inr (by rw [State.getN_put, if_pos rfl])⟩

/-- A couple with a pending injection starts that and nothing else (R195). -/
theorem kick_pending {s : State} {l : Fin 3} (h : s.getN (K.INJ_STATE (l + 1)) = 1) : s.kick l = s.injectStart l := by
  have i : s.injecting l = true := by simp [State.injecting, h]
  have e : s.serveCouple l = s := by rw [State.serveCouple, if_pos i]
  rw [State.kick, e, if_pos i]

end AuxOnly

end Sys2Proof.Machine
end

