-- ==== Sys2Proof/Laws/Modes.lean ====
section
/-! SUPPORT. How operations treat the mode: every operation keeps the mode in force and lets only a transition to METERING, SERVICE or LOCKDOWN wait
(`_keepsMode`), but for those that change it along Table 12.1 (`_moves`). -/

namespace Sys2Proof.Machine

open Sys2Proof
set_option Elab.async false
set_option linter.unusedSimpArgs false

/-- The mode is the same, and a waiting transition goes to METERING, SERVICE or LOCKDOWN, if it did before. -/
def ModeKept (s t : State) : Prop := t.mode = s.mode ∧ (s.NextOk → t.NextOk)

/-- What touches neither the mode nor the transition that waits keeps the mode. -/
theorem Touches.keepsMode {m : Nat} {s t : State} (h : Touches m s t) (h1 : Nat.land m 16 ≠ 16 := by decide) (h2 : Nat.land m 64 ≠ 64 := by decide) :
    ModeKept s t := ⟨h.mode h1, fun w x hx => w x (by rw [← h.modeNext h2]; exact hx)⟩

theorem ModeKept.refl (s : State) : ModeKept s s := ⟨rfl, id⟩

theorem ModeKept.trans {s t u : State} (h : ModeKept s t) (g : ModeKept t u) : ModeKept s u := ⟨g.1.trans h.1, fun w => g.2 (h.2 w)⟩

theorem ModeKept.after {s t u : State} (g : ModeKept t u) (h : ModeKept s t) : ModeKept s u := h.trans g

theorem ModeKept.ite {c : Prop} [Decidable c] {s a b : State} (ha : ModeKept s a) (hb : ModeKept s b) : ModeKept s (if c then a else b) := by
  split <;> assumption

/-- A change that may not happen, after what the state was before it. -/
theorem ModeKept.iteR {c : Prop} [Decidable c] {s x a : State} (h : ModeKept s x) (ha : ModeKept x a) : ModeKept s (if c then a else x) :=
  .ite (h.trans ha) h

theorem ModeKept.iteL {c : Prop} [Decidable c] {s x a : State} (h : ModeKept s x) (ha : ModeKept x a) : ModeKept s (if c then x else a) :=
  .ite h (h.trans ha)

theorem ModeKept.iteFst {α : Type} {c : Prop} [Decidable c] {s : State} {a b : State × α} (ha : ModeKept s a.1) (hb : ModeKept s b.1) :
    ModeKept s (if c then a else b).1 := by
  split <;> assumption

theorem ModeKept.iteSnd {α : Type} {c : Prop} [Decidable c] {s : State} {a b : α × State} (ha : ModeKept s a.2) (hb : ModeKept s b.2) :
    ModeKept s (if c then a else b).2 := by
  split <;> assumption

theorem ModeKept.foldl {α : Type} {f : State → α → State} {l : List α} {s x : State} (hf : ∀ u a, ModeKept u (f u a)) (h : ModeKept s x) :
    ModeKept s (l.foldl f x) := by
  induction l generalizing x with
  | nil => exact h
  | cons a r ih => exact ih (h.trans (hf x a))

theorem ModeKept.foldlFst {α β : Type} {f : State × β → α → State × β} {l : List α} {s : State} {x : State × β}
    (hf : ∀ u a, ModeKept u.1 (f u a).1) (h : ModeKept s x.1) : ModeKept s (l.foldl f x).1 := by
  induction l generalizing x with
  | nil => exact h
  | cons a r ih => exact ih (h.trans (hf x a))

theorem ModeKept.foldlSnd {α β : Type} {f : β × State → α → β × State} {l : List α} {s : State} {x : β × State}
    (hf : ∀ u a, ModeKept u.2 (f u a).2) (h : ModeKept s x.2) : ModeKept s (l.foldl f x).2 := by
  induction l generalizing x with
  | nil => exact h
  | cons a r ih => exact ih (h.trans (hf x a))

theorem ModeKept.foldlThd {α β γ : Type} {f : β × γ × State → α → β × γ × State} {l : List α} {s : State} {x : β × γ × State}
    (hf : ∀ u a, ModeKept u.2.2 (f u a).2.2) (h : ModeKept s x.2.2) : ModeKept s (l.foldl f x).2.2 := by
  induction l generalizing x with
  | nil => exact h
  | cons a r ih => exact ih (h.trans (hf x a))

theorem ModeKept.upd {s X : State}
    {nums' : List (Nat × Int)} {blobs' : List (Nat × List Byte)} {pending' : List Instr} {free' : Nat} {attended' : Bool}
    {modeHist' : List (Nat × Mode)} {rtc' : Nat} {index' : Nat} {timeStepNext' : Int} {startup' : RecallSt} {twins' : List TwinKind}
    {lockLatch' : Bool} {lockNvm' : Bool} {integrityFlag' : Bool} {lanes' : Vector Lane 5} {laneSub' : Option LaneSub} {ports' : Vector Port 60}
    {spares' : Vector Spare 4} {mclk' : Vector Bool 15} {blockNo' : Nat} {portNoSpare' : Bool} {learned' : Vector Bool 15}
    {points' : Vector Point 8} {pulses' : Vector Pulse 8} {demand' : Demand} {evq' : List EventEntry} {evOver' : List EventEntry}
    {jobs' : List RecJob} {logs' : Vector LogSt 5} {merges' : List HealthMerge} {journal' : Journal} {store' : Store} {nvm' : Nvm}
    {scratch' : List Host.Cell} {spi' : LinkSt} {can' : LinkSt} {bus' : CanSt} {stream' : Stream} {tab' : Option Tableau} {tabLast' : Nat}
    {heldBatches' : List (Requester × List Byte)} {cal' : Option CalRun} {plateUse' : Vector PlateUse 8} {sealedRef' : Vector (Vector Plate 4) 8}
    {convs' : Vector Conv 8} {couples' : Vector Couple 3} {inputAt' : Vector Nat 32} {auxRun' : Option AuxRun} {banks' : Vector Bank 5}
    {march' : March} {bankSub' : Option BankSub} {sram' : List (Nat × Nat)} {sweepAt' : Nat} {stringReads' : Vector Nat 8}
    {sessions' : Vector Session 8} {sign' : SignSt} {disp' : Display} {tamper' : TamperSt} {thb' : Thiber} {svc' : ModeSt}
    (h : ModeKept s X) :
    ModeKept s (State.mk
      nums' blobs' pending' free' X.mode attended' X.modeNext modeHist' rtc' index' timeStepNext' startup' twins' lockLatch' lockNvm'
      integrityFlag' lanes' laneSub' ports' spares' mclk' blockNo' portNoSpare' learned' points' pulses' demand' evq' evOver' jobs' logs' merges'
      journal' store' nvm' scratch' spi' can' bus' stream' tab' tabLast' heldBatches' cal' plateUse' sealedRef' convs' couples' inputAt' auxRun'
      banks' march' bankSub' sram' sweepAt' stringReads' sessions' sign' disp' tamper' thb' svc') := h

/-- A decided transition waits for its mode index. -/
theorem ModeKept.next {s X : State} {m : Mode}
    {nums' : List (Nat × Int)} {blobs' : List (Nat × List Byte)} {pending' : List Instr} {free' : Nat} {attended' : Bool}
    {modeHist' : List (Nat × Mode)} {rtc' : Nat} {index' : Nat} {timeStepNext' : Int} {startup' : RecallSt} {twins' : List TwinKind}
    {lockLatch' : Bool} {lockNvm' : Bool} {integrityFlag' : Bool} {lanes' : Vector Lane 5} {laneSub' : Option LaneSub} {ports' : Vector Port 60}
    {spares' : Vector Spare 4} {mclk' : Vector Bool 15} {blockNo' : Nat} {portNoSpare' : Bool} {learned' : Vector Bool 15}
    {points' : Vector Point 8} {pulses' : Vector Pulse 8} {demand' : Demand} {evq' : List EventEntry} {evOver' : List EventEntry}
    {jobs' : List RecJob} {logs' : Vector LogSt 5} {merges' : List HealthMerge} {journal' : Journal} {store' : Store} {nvm' : Nvm}
    {scratch' : List Host.Cell} {spi' : LinkSt} {can' : LinkSt} {bus' : CanSt} {stream' : Stream} {tab' : Option Tableau} {tabLast' : Nat}
    {heldBatches' : List (Requester × List Byte)} {cal' : Option CalRun} {plateUse' : Vector PlateUse 8} {sealedRef' : Vector (Vector Plate 4) 8}
    {convs' : Vector Conv 8} {couples' : Vector Couple 3} {inputAt' : Vector Nat 32} {auxRun' : Option AuxRun} {banks' : Vector Bank 5}
    {march' : March} {bankSub' : Option BankSub} {sram' : List (Nat × Nat)} {sweepAt' : Nat} {stringReads' : Vector Nat 8}
    {sessions' : Vector Session 8} {sign' : SignSt} {disp' : Display} {tamper' : TamperSt} {thb' : Thiber} {svc' : ModeSt}
    (hm : m.serving = true) (h : ModeKept s X) :
    ModeKept s (State.mk
      nums' blobs' pending' free' X.mode attended' (some m) modeHist' rtc' index' timeStepNext' startup' twins' lockLatch' lockNvm'
      integrityFlag' lanes' laneSub' ports' spares' mclk' blockNo' portNoSpare' learned' points' pulses' demand' evq' evOver' jobs' logs' merges'
      journal' store' nvm' scratch' spi' can' bus' stream' tab' tabLast' heldBatches' cal' plateUse' sealedRef' convs' couples' inputAt' auxRun'
      banks' march' bankSub' sram' sweepAt' stringReads' sessions' sign' disp' tamper' thb' svc') :=
  ⟨h.1, fun _ _ e => by cases e; exact hm⟩

theorem forEach_keepsMode {α : Type} (l : List α) (f : α → State → State) (s : State) (hf : ∀ a0 u, ModeKept u (f a0 u)) : ModeKept s (forEach l f s) := by
  unfold forEach
  with_reducible refine .foldl (hf := ?_) ?_
  · intro _ _
    exact hf ..
  · exact .refl _

theorem State.execute_keepsMode (s : State) (h : Requester) (op idx sub : Nat) (payload : List Byte) (f : State → State) (hf : ∀ u, ModeKept u (f u)) :
    ModeKept s (s.execute h op idx sub payload f) := by
  unfold State.execute
  with_reducible exact .iteL (.after ((State.admitted_touches ..).keepsMode) (.refl _)) (.iteR (.after ((State.turn_touches ..).keepsMode) (.refl _)) (.after (hf ..)
    (.refl _)))

theorem State.receive_keepsMode (s : State) (k : Fin 4) (seq : Nat) (up : Bool) (f : State → State) (hf : ∀ u, ModeKept u (f u)) :
    ModeKept s (s.receive k seq up f) := by
  unfold State.receive
  with_reducible exact .iteL (.refl _) (.iteL (.after ((State.takeSeq_touches ..).keepsMode) (.refl _)) (.ite (.after ((State.discard_touches ..).keepsMode) (.after
    ((State.intrusion_touches ..).keepsMode) (.refl _))) (.after (hf ..) (.refl _))))
theorem State.toLockdown_keepsMode (s : State) (att : Bool) : ModeKept s (State.toLockdown s att) := by
  unfold State.toLockdown
  exact .ite (.upd (.refl _)) (.trans (.next rfl (.refl _)) ((State.queueUnit_touches ..).keepsMode))

theorem State.respond_keepsMode (s : State) (c : Nat) (mask : Nat) : ModeKept s (State.respond s c mask) := by
  unfold State.respond
  with_reducible exact .iteR (.iteR (.iteR (.refl _) (.after ((State.destroyKeys_touches ..).keepsMode) (.refl _))) (.after
    (State.toLockdown_keepsMode ..) (.refl _))) (.after (forEach_keepsMode (hf := fun _ _ => .after ((State.syncSrc_touches ..).keepsMode)
    (.refl _)) ..) (.after ((State.keepMarks_touches ..).keepsMode) (.after ((State.put_touches ..).keepsMode) (.refl _))))

theorem State.applyDecision_keepsMode (s : State) (d : Decision) (second : Nat) : ModeKept s (State.applyDecision s d second).1 := by
  unfold State.applyDecision
  dsimp only
  with_reducible refine .trans ?_ ((State.alarmRecords_touches ..).keepsMode)
  with_reducible refine .trans ?_ ((State.addWrap_touches ..).keepsMode)
  with_reducible refine .trans ?_ (State.respond_keepsMode ..)
  with_reducible refine .iteR ?_ ?_
  exact .refl _
  with_reducible refine .trans ?_ ((State.addSat_touches ..).keepsMode)
  with_reducible refine .trans ?_ ((State.put_touches ..).keepsMode)
  with_reducible refine .trans ?_ ((State.setSticky_touches ..).keepsMode)
  exact .refl _

theorem State.serviceEnd_keepsMode (s : State) : ModeKept s (State.serviceEnd s) := by
  unfold State.serviceEnd
  refine .ite (.refl _) (.ite (.upd (.refl _)) ?_)
  split
  · exact .next rfl (.refl _)
  · exact .trans (.upd (.refl _)) ((State.endService_touches ..).keepsMode)

theorem State.serviceExit_keepsMode (s : State) : ModeKept s (State.serviceExit s).2 := by
  unfold State.serviceExit
  with_reducible refine .iteSnd ?_ ?_
  dsimp only
  exact .refl _
  dsimp only
  with_reducible refine .trans ?_ (State.serviceEnd_keepsMode ..)
  exact .refl _

theorem State.modeCommand_keepsMode (s : State) (h : Requester) (v : Nat) : ModeKept s (State.modeCommand s h v).2 := by
  unfold State.modeCommand
  split
  dsimp only
  with_reducible refine .trans ?_ (State.serviceExit_keepsMode ..)
  exact .refl _
  dsimp only
  with_reducible refine .upd ?_
  exact .refl _
  with_reducible refine .iteSnd ?_ ?_
  dsimp only
  exact .refl _
  dsimp only
  with_reducible refine .upd ?_
  exact .refl _
  dsimp only
  exact .refl _

theorem State.authCommand_keepsMode (s : State) (h : Requester) (cmd : List Byte) : ModeKept s (State.authCommand s h cmd).2 := by
  unfold State.authCommand
  with_reducible refine .iteSnd ?_ ?_
  dsimp only
  with_reducible refine .iteR ?_ ?_
  exact .refl _
  with_reducible refine .upd ?_
  exact .refl _
  with_reducible refine .iteSnd ?_ ?_
  dsimp only
  with_reducible refine .iteR ?_ ?_
  exact .refl _
  with_reducible refine .upd ?_
  exact .refl _
  with_reducible refine .iteSnd ?_ ?_
  dsimp only
  with_reducible refine .trans ?_ ((State.source_touches ..).keepsMode)
  with_reducible refine .trans ?_ ((State.addSat_touches ..).keepsMode)
  with_reducible refine .iteR ?_ ?_
  exact .refl _
  with_reducible refine .upd ?_
  exact .refl _
  with_reducible refine .iteSnd ?_ ?_
  dsimp only
  with_reducible refine .iteR ?_ ?_
  exact .refl _
  with_reducible refine .upd ?_
  exact .refl _
  with_reducible refine .iteSnd ?_ ?_
  with_reducible refine .trans ?_ (State.modeCommand_keepsMode ..)
  with_reducible refine .iteR ?_ ?_
  exact .refl _
  with_reducible refine .upd ?_
  exact .refl _
  with_reducible refine .trans ?_ ((State.tamperCommand_touches ..).keepsMode)
  with_reducible refine .iteR ?_ ?_
  exact .refl _
  with_reducible refine .upd ?_
  exact .refl _

theorem State.integrity_keepsMode (s : State) (cause : Nat) (detail : Nat) (idx : Nat) : ModeKept s (State.integrity s cause detail idx) := by
  unfold State.integrity
  with_reducible exact .after (State.toLockdown_keepsMode ..) (.upd (.after ((State.health_touches ..).keepsMode) (.after
    ((State.addSat_touches ..).keepsMode) (.after ((State.setN_touches ..).keepsMode) (.after ((State.setN_touches ..).keepsMode) (.after
    ((State.setN_touches ..).keepsMode) (.refl _)))))))

theorem State.uncorrectable_keepsMode (s : State) (la : Nat) (b : Fin 5) (r : Fin 16) (w : Fin 512) (master : Nat) (injected : Bool) (twin
  : SymErr) : ModeKept s (State.uncorrectable s la b r w master injected twin) := by
  unfold State.uncorrectable
  with_reducible refine .ite ?_ ?_
  dsimp only
  split
  with_reducible refine .trans ?_ ((State.banksWorn_touches ..).keepsMode)
  with_reducible refine .trans ?_ (State.integrity_keepsMode ..)
  with_reducible refine .trans ?_ ((State.lastError_touches ..).keepsMode)
  with_reducible refine .trans ?_ ((State.addSat_touches ..).keepsMode)
  with_reducible refine .trans ?_ ((State.lastError_touches ..).keepsMode)
  with_reducible refine .trans ?_ ((State.addSat_touches ..).keepsMode)
  exact .refl _
  with_reducible refine .trans ?_ ((State.banksWorn_touches ..).keepsMode)
  with_reducible refine .trans ?_ ((State.setWord_touches ..).keepsMode)
  with_reducible refine .trans ?_ ((State.lastError_touches ..).keepsMode)
  split
  with_reducible refine .trans ?_ ((State.symOne_touches ..).keepsMode)
  with_reducible refine .trans ?_ ((State.addSat_touches ..).keepsMode)
  exact .refl _
  with_reducible refine .trans ?_ ((State.addSat_touches ..).keepsMode)
  exact .refl _
  with_reducible refine .trans ?_ ((State.banksWorn_touches ..).keepsMode)
  with_reducible refine .trans ?_ ((State.wordLost_touches ..).keepsMode)
  with_reducible refine .trans ?_ ((State.lastError_touches ..).keepsMode)
  with_reducible refine .trans ?_ ((State.addSat_touches ..).keepsMode)
  exact .refl _

theorem State.decodeWord_keepsMode (s : State) (la : Nat) (b : Fin 5) (r : Fin 16) (w : Fin 512) (master : Nat) (inj : Nat) (err : SymErr)
  (twin : SymErr) : ModeKept s (State.decodeWord s la b r w master inj err twin) := by
  unfold State.decodeWord
  split
  with_reducible refine .iteL ?_ ?_
  exact .refl _
  with_reducible refine .ite ?_ ?_
  with_reducible refine .trans ?_ ((State.symOne_touches ..).keepsMode)
  exact .refl _
  with_reducible refine .trans ?_ (State.uncorrectable_keepsMode ..)
  exact .refl _
  with_reducible refine .ite ?_ ?_
  with_reducible refine .trans ?_ ((State.symOne_touches ..).keepsMode)
  exact .refl _
  with_reducible refine .trans ?_ (State.uncorrectable_keepsMode ..)
  exact .refl _
  with_reducible refine .trans ?_ (State.uncorrectable_keepsMode ..)
  exact .refl _

theorem State.copyErrors_keepsMode (s : State) (l : Fin 4) (lr : Fin 16) (b : Fin 5) (r : Fin 16) (errs : List CopyErr) : ModeKept s
  (State.copyErrors s l lr b r errs) := by
  unfold State.copyErrors
  with_reducible exact .after (forEach_keepsMode (hf := fun _ _ => .after (State.decodeWord_keepsMode ..) (.refl _)) ..) (.refl _)

theorem State.bankRegionDone_keepsMode (s : State) (r : Fin 16) (errs : List CopyErr) : ModeKept s (State.bankRegionDone s r errs) := by
  unfold State.bankRegionDone
  split
  with_reducible refine .iteL ?_ ?_
  exact .refl _
  dsimp only
  split
  with_reducible refine .ite ?_ ?_
  with_reducible refine .upd ?_
  with_reducible refine .trans ?_ ((State.copyRegion_touches ..).keepsMode)
  with_reducible refine .trans ?_ (State.copyErrors_keepsMode ..)
  with_reducible refine .trans ?_ ((State.background_touches ..).keepsMode)
  with_reducible refine .trans ?_ ((State.background_touches ..).keepsMode)
  exact .refl _
  with_reducible refine .trans ?_ ((State.finishBankSub_touches ..).keepsMode)
  with_reducible refine .trans ?_ ((State.copyRegion_touches ..).keepsMode)
  with_reducible refine .trans ?_ (State.copyErrors_keepsMode ..)
  with_reducible refine .trans ?_ ((State.background_touches ..).keepsMode)
  with_reducible refine .trans ?_ ((State.background_touches ..).keepsMode)
  exact .refl _
  with_reducible refine .trans ?_ (State.copyErrors_keepsMode ..)
  with_reducible refine .trans ?_ ((State.background_touches ..).keepsMode)
  with_reducible refine .trans ?_ ((State.background_touches ..).keepsMode)
  exact .refl _
  exact .refl _

theorem State.sealOver_keepsMode (s : State) : ModeKept s (State.sealOver s) := by
  unfold State.sealOver
  with_reducible exact .iteR (.upd (.refl _)) (.after (State.serviceEnd_keepsMode ..) (.upd (.refl _)))

theorem State.sealDone_keepsMode (s : State) : ModeKept s (State.sealDone s) := by
  unfold State.sealDone
  with_reducible exact .iteR (.refl _) (.after (State.sealOver_keepsMode ..) (.after (forEach_keepsMode (hf := fun _ _ => .after
    ((State.sealHistory_touches ..).keepsMode) (.refl _)) ..) (.after ((State.setN_touches ..).keepsMode) (.after
    ((State.setN_touches ..).keepsMode) (.refl _)))))

theorem State.checkpointWritten_keepsMode (s : State) : ModeKept s (State.checkpointWritten s) := by
  unfold State.checkpointWritten
  with_reducible exact .iteR (.refl _) (.after (State.sealDone_keepsMode ..) (.after ((State.ckptWritten_touches ..).keepsMode) (.refl _)))

theorem State.clearAccepted_keepsMode (s : State) : ModeKept s (State.clearAccepted s) := by
  unfold State.clearAccepted
  exact .trans (.trans (.next rfl (.refl _)) ((State.queueUnit_touches ..).keepsMode)) ((State.clearRecord_touches ..).keepsMode)

theorem State.clearTwin_keepsMode (s : State) (h : Requester) (first : Bool) (fault : Bool) : ModeKept s (State.clearTwin s h first fault) := by
  unfold State.clearTwin
  with_reducible refine .ite ?_ ?_
  with_reducible refine .trans ?_ ((State.replyWrite_touches ..).keepsMode)
  with_reducible refine .trans ?_ ((State.source_touches ..).keepsMode)
  exact .refl _
  with_reducible refine .ite ?_ ?_
  with_reducible refine .trans ?_ ((State.replyWrite_touches ..).keepsMode)
  exact .refl _
  with_reducible refine .trans ?_ ((State.replyWrite_touches ..).keepsMode)
  with_reducible refine .trans ?_ (State.clearAccepted_keepsMode ..)
  exact .refl _

theorem State.modeWrite_keepsMode (s : State) (v : Nat) : ModeKept s (State.modeWrite s v).2 := by
  unfold State.modeWrite
  with_reducible refine .iteSnd ?_ ?_
  dsimp only
  exact .refl _
  with_reducible refine .iteSnd ?_ ?_
  dsimp only
  with_reducible refine .trans ?_ (State.serviceExit_keepsMode ..)
  exact .refl _
  dsimp only
  exact .refl _

theorem State.command_keepsMode (s : State) (h : Requester) (d : Desc) (idx : Nat) (sub : Nat) (data : List Byte) : ModeKept s
  (State.command s h d idx sub data).2 := by
  unfold State.command
  with_reducible refine .iteSnd ?_ ?_
  dsimp only
  exact .refl _
  with_reducible refine .iteSnd ?_ ?_
  dsimp only
  exact .refl _
  with_reducible refine .iteSnd ?_ ?_
  dsimp only
  exact .refl _
  with_reducible refine .iteSnd ?_ ?_
  dsimp only
  exact .refl _
  with_reducible refine .iteSnd ?_ ?_
  dsimp only
  exact .refl _
  with_reducible refine .iteSnd ?_ ?_
  with_reducible refine .trans ?_ (State.modeWrite_keepsMode ..)
  exact .refl _
  with_reducible refine .iteSnd ?_ ?_
  with_reducible refine .trans ?_ (State.authCommand_keepsMode ..)
  exact .refl _
  with_reducible refine .iteSnd ?_ ?_
  dsimp only
  with_reducible refine .trans ?_ ((State.timeStep_touches ..).keepsMode)
  exact .refl _
  with_reducible refine .iteSnd ?_ ?_
  with_reducible refine .trans ?_ ((State.calWrite_touches ..).keepsMode)
  exact .refl _
  with_reducible refine .iteSnd ?_ ?_
  with_reducible refine .trans ?_ ((State.injectWrite_touches ..).keepsMode)
  exact .refl _
  with_reducible refine .iteSnd ?_ ?_
  with_reducible refine .trans ?_ ((State.auxWrite_touches ..).keepsMode)
  exact .refl _
  with_reducible refine .iteSnd ?_ ?_
  with_reducible refine .trans ?_ ((State.siteWrite_touches ..).keepsMode)
  exact .refl _
  with_reducible refine .iteSnd ?_ ?_
  with_reducible refine .trans ?_ ((State.sessionCommand_touches ..).keepsMode)
  exact .refl _
  with_reducible refine .iteSnd ?_ ?_
  with_reducible refine .trans ?_ ((State.laneWrite_touches ..).keepsMode)
  exact .refl _
  with_reducible refine .iteSnd ?_ ?_
  dsimp only
  exact .refl _
  with_reducible refine .iteSnd ?_ ?_
  dsimp only
  with_reducible refine .trans ?_ ((State.mdReset_touches ..).keepsMode)
  exact .refl _
  with_reducible refine .iteSnd ?_ ?_
  dsimp only
  with_reducible refine .trans ?_ ((State.clearStrings_touches ..).keepsMode)
  exact .refl _
  with_reducible refine .iteSnd ?_ ?_
  dsimp only
  with_reducible refine .trans ?_ ((State.latClear_touches ..).keepsMode)
  exact .refl _
  dsimp only
  with_reducible refine .trans ?_ ((State.clearCounters_touches ..).keepsMode)
  exact .refl _

theorem State.structureLost_keepsMode (s : State) (o : NvmObs) : ModeKept s (State.structureLost s o) := by
  unfold State.structureLost
  with_reducible refine .iteL ?_ ?_
  exact .refl _
  with_reducible refine .ite ?_ ?_
  with_reducible refine .iteR ?_ ?_
  exact .refl _
  with_reducible refine .trans ?_ ((State.destroyKeys_touches ..).keepsMode)
  exact .refl _
  with_reducible refine .ite ?_ ?_
  with_reducible refine .iteR ?_ ?_
  exact .refl _
  with_reducible refine .trans ?_ (State.integrity_keepsMode ..)
  exact .refl _
  with_reducible refine .ite ?_ ?_
  with_reducible refine .upd ?_
  exact .refl _
  with_reducible refine .ite ?_ ?_
  with_reducible refine .upd ?_
  exact .refl _
  with_reducible refine .ite ?_ ?_
  with_reducible refine .iteR ?_ ?_
  exact .refl _
  with_reducible refine .trans ?_ (State.integrity_keepsMode ..)
  exact .refl _
  with_reducible refine .ite ?_ ?_
  with_reducible refine .upd ?_
  exact .refl _
  with_reducible refine .ite ?_ ?_
  with_reducible refine .trans ?_ ((State.health_touches ..).keepsMode)
  with_reducible refine .trans ?_ ((State.setN_touches ..).keepsMode)
  exact .refl _
  with_reducible refine .ite ?_ ?_
  with_reducible refine .iteR ?_ ?_
  exact .refl _
  with_reducible refine .trans ?_ ((State.loseTally_touches ..).keepsMode)
  exact .refl _
  split
  with_reducible refine .trans ?_ ((State.answerAny_touches ..).keepsMode)
  with_reducible refine .trans ?_ ((State.loseSlot_touches ..).keepsMode)
  exact .refl _
  with_reducible refine .ite ?_ ?_
  with_reducible refine .upd ?_
  exact .refl _
  with_reducible refine .ite ?_ ?_
  with_reducible refine .trans ?_ ((State.setN_touches ..).keepsMode)
  exact .refl _
  with_reducible refine .trans ?_ ((State.answerAny_touches ..).keepsMode)
  with_reducible refine .iteL ?_ ?_
  exact .refl _
  with_reducible refine .trans ?_ ((State.scratchLost_touches ..).keepsMode)
  exact .refl _

theorem State.contentWrong_keepsMode (s : State) (o : NvmObs) : ModeKept s (State.contentWrong s o) := by
  unfold State.contentWrong
  with_reducible refine .ite ?_ ?_
  with_reducible refine .iteR ?_ ?_
  exact .refl _
  with_reducible refine .trans ?_ ((State.setN_touches ..).keepsMode)
  with_reducible refine .trans ?_ ((State.fresh_touches ..).keepsMode)
  exact .refl _
  with_reducible refine .ite ?_ ?_
  with_reducible refine .trans ?_ ((State.scratchLost_touches ..).keepsMode)
  exact .refl _
  with_reducible refine .iteL ?_ ?_
  exact .refl _
  with_reducible refine .trans ?_ (State.structureLost_keepsMode ..)
  exact .refl _

theorem State.deferredDecision_keepsMode (s : State) (fault : Option Nat) : ModeKept s (State.deferredDecision s fault) := by
  unfold State.deferredDecision
  with_reducible refine .ite ?_ ?_
  with_reducible refine .upd ?_
  with_reducible refine .trans ?_ ((State.setN_touches ..).keepsMode)
  exact .refl _
  with_reducible refine .upd ?_
  with_reducible refine .ite ?_ ?_
  with_reducible refine .trans ?_ ((State.setN_touches ..).keepsMode)
  with_reducible refine .trans ?_ (State.applyDecision_keepsMode ..)
  with_reducible refine .trans ?_ (forEach_keepsMode (hf := ?_) ..)
  with_reducible refine .trans ?_ ((State.takeSet_touches ..).keepsMode)
  exact .refl _
  intro _ _
  dsimp only
  split
  with_reducible refine .iteL ?_ ?_
  with_reducible refine .trans ?_ ((State.addSat_touches ..).keepsMode)
  exact .refl _
  with_reducible refine .trans ?_ ((State.put_touches ..).keepsMode)
  exact .refl _
  with_reducible refine .trans ?_ ((State.addSat_touches ..).keepsMode)
  exact .refl _
  with_reducible refine .trans ?_ ((State.setN_touches ..).keepsMode)
  with_reducible refine .trans ?_ (State.applyDecision_keepsMode ..)
  with_reducible refine .trans ?_ (forEach_keepsMode (hf := ?_) ..)
  with_reducible refine .trans ?_ ((State.takeSet_touches ..).keepsMode)
  exact .refl _
  intro _ _
  dsimp only
  split
  with_reducible refine .iteL ?_ ?_
  with_reducible refine .trans ?_ ((State.addSat_touches ..).keepsMode)
  exact .refl _
  with_reducible refine .trans ?_ ((State.put_touches ..).keepsMode)
  exact .refl _
  with_reducible refine .trans ?_ ((State.addSat_touches ..).keepsMode)
  exact .refl _

theorem State.runWrite_keepsMode (s : State) (h : Requester) (idx : Nat) (sub : Nat) (data : List Byte) (cut : Option Nat) : ModeKept s
  (State.runWrite s h idx sub data cut).2 := by
  unfold State.runWrite
  split
  dsimp only
  exact .refl _
  with_reducible refine .iteSnd ?_ ?_
  with_reducible refine .trans ?_ (State.command_keepsMode ..)
  exact .refl _
  split
  with_reducible refine .trans ?_ ((State.writePath_touches ..).keepsMode)
  exact .refl _
  dsimp only
  exact .refl _

theorem State.writeAnswered_keepsMode (s : State) (h : Requester) (idx : Nat) (sub : Nat) (data : List Byte) (cut : Option Nat) : ModeKept
  s (State.writeAnswered s h idx sub data cut) := by
  unfold State.writeAnswered
  dsimp only
  split
  with_reducible refine .trans ?_ ((State.replyWrite_touches ..).keepsMode)
  with_reducible refine .trans ?_ (State.runWrite_keepsMode ..)
  exact .refl _
  with_reducible refine .trans ?_ (State.runWrite_keepsMode ..)
  exact .refl _

theorem State.hostWrite_keepsMode (s : State) (h : Requester) (idx : Nat) (sub : Nat) (data : List Byte) : ModeKept s (State.hostWrite s h
  idx sub data) := by
  unfold State.hostWrite
  with_reducible exact .after (State.execute_keepsMode (hf := fun _ => .after (State.writeAnswered_keepsMode ..) (.refl _)) ..) (.refl _)

theorem State.draftWrite_keepsMode (s : State) (h : Requester) (kind : DraftKind) (c : Fin 7) (v : Int) : ModeKept s (State.draftWrite s h
  kind c v) := by
  unfold State.draftWrite
  split
  with_reducible refine .trans ?_ (State.hostWrite_keepsMode ..)
  exact .refl _
  with_reducible refine .trans ?_ (State.hostWrite_keepsMode ..)
  exact .refl _
  with_reducible refine .trans ?_ (State.hostWrite_keepsMode ..)
  exact .refl _

theorem State.enterAccepted_keepsMode (s : State) : ModeKept s (State.enterAccepted s) := by
  unfold State.enterAccepted
  dsimp only
  split
  · exact .upd ((State.addSat_touches s 32 K.SERVICE_COUNT 1).keepsMode)
  · exact .next rfl ((State.addSat_touches s 32 K.SERVICE_COUNT 1).keepsMode)

theorem State.enterTwin_keepsMode (s : State) (h : Requester) (first : Bool) (fault : Bool) : ModeKept s (State.enterTwin s h first fault) := by
  unfold State.enterTwin
  with_reducible refine .ite ?_ ?_
  with_reducible refine .trans ?_ ((State.replyWrite_touches ..).keepsMode)
  with_reducible refine .trans ?_ ((State.source_touches ..).keepsMode)
  exact .refl _
  with_reducible refine .ite ?_ ?_
  with_reducible refine .trans ?_ ((State.replyWrite_touches ..).keepsMode)
  exact .refl _
  with_reducible refine .trans ?_ ((State.replyWrite_touches ..).keepsMode)
  with_reducible refine .trans ?_ (State.enterAccepted_keepsMode ..)
  exact .refl _

theorem State.groupRead_keepsMode (s : State) (o : NvmObs) : ModeKept s (State.groupRead s o) := by
  unfold State.groupRead
  dsimp only
  split
  with_reducible refine .iteL ?_ ?_
  with_reducible refine .trans ?_ ((State.injectedBytes_touches ..).keepsMode)
  exact .refl _
  with_reducible refine .ite ?_ ?_
  with_reducible refine .trans ?_ ((State.groupCorrected_touches ..).keepsMode)
  exact .refl _
  with_reducible refine .trans ?_ ((State.answerAny_touches ..).keepsMode)
  with_reducible refine .trans ?_ ((State.groupLost_touches ..).keepsMode)
  exact .refl _
  with_reducible refine .ite ?_ ?_
  with_reducible refine .trans ?_ ((State.groupCorrected_touches ..).keepsMode)
  with_reducible refine .trans ?_ ((State.injectedBytes_touches ..).keepsMode)
  exact .refl _
  with_reducible refine .trans ?_ ((State.answerAny_touches ..).keepsMode)
  with_reducible refine .trans ?_ ((State.groupLost_touches ..).keepsMode)
  with_reducible refine .trans ?_ ((State.injectedBytes_touches ..).keepsMode)
  exact .refl _
  with_reducible refine .trans ?_ (State.structureLost_keepsMode ..)
  with_reducible refine .trans ?_ ((State.groupLost_touches ..).keepsMode)
  with_reducible refine .trans ?_ ((State.injectedBytes_touches ..).keepsMode)
  exact .refl _
  with_reducible refine .trans ?_ (State.contentWrong_keepsMode ..)
  with_reducible refine .trans ?_ ((State.injectedBytes_touches ..).keepsMode)
  exact .refl _
  with_reducible refine .trans ?_ (State.contentWrong_keepsMode ..)
  with_reducible refine .trans ?_ ((State.groupCorrected_touches ..).keepsMode)
  with_reducible refine .trans ?_ ((State.injectedBytes_touches ..).keepsMode)
  exact .refl _

theorem State.groupWrite_keepsMode (s : State) (o : NvmObs) : ModeKept s (State.groupWrite s o) := by
  unfold State.groupWrite
  with_reducible refine .ite ?_ ?_
  with_reducible refine .trans ?_ ((State.nvmError_touches ..).keepsMode)
  exact .refl _
  dsimp only
  split
  with_reducible refine .trans ?_ ((State.rangeWrote_touches ..).keepsMode)
  exact .refl _
  with_reducible refine .trans ?_ ((State.rangeWrote_touches ..).keepsMode)
  with_reducible refine .trans ?_ ((State.groupCorrected_touches ..).keepsMode)
  exact .refl _
  with_reducible refine .trans ?_ ((State.rangeWrote_touches ..).keepsMode)
  with_reducible refine .trans ?_ (State.contentWrong_keepsMode ..)
  with_reducible refine .trans ?_ ((State.groupCorrected_touches ..).keepsMode)
  exact .refl _
  with_reducible refine .trans ?_ ((State.rangeWrote_touches ..).keepsMode)
  with_reducible refine .trans ?_ (State.contentWrong_keepsMode ..)
  exact .refl _
  with_reducible refine .ite ?_ ?_
  split
  with_reducible refine .trans ?_ ((State.answerError_touches ..).keepsMode)
  with_reducible refine .trans ?_ ((State.unitDropped_touches ..).keepsMode)
  with_reducible refine .trans ?_ ((State.nvmError_touches ..).keepsMode)
  with_reducible refine .trans ?_ ((State.groupLost_touches ..).keepsMode)
  exact .refl _
  with_reducible refine .trans ?_ ((State.nvmError_touches ..).keepsMode)
  with_reducible refine .trans ?_ ((State.groupLost_touches ..).keepsMode)
  exact .refl _
  with_reducible refine .trans ?_ ((State.rangeWrote_touches ..).keepsMode)
  with_reducible refine .trans ?_ (State.structureLost_keepsMode ..)
  with_reducible refine .trans ?_ ((State.groupLost_touches ..).keepsMode)
  exact .refl _

theorem State.hostScratch_keepsMode (s : State) (h : Requester) (page : Nat) (sub : Nat) (data : List Byte) (cut : Option Nat) : ModeKept s
  (State.hostScratch s h page sub data cut) := by
  unfold State.hostScratch
  with_reducible exact .after (State.execute_keepsMode (hf := fun _ => .after (State.writeAnswered_keepsMode ..) (.refl _)) ..) (.refl _)

theorem State.keygenDone_keepsMode (s : State) (failed : Nat) : ModeKept s (State.keygenDone s failed) := by
  unfold State.keygenDone
  split
  with_reducible refine .ite ?_ ?_
  with_reducible refine .trans ?_ (State.sealOver_keepsMode ..)
  with_reducible refine .trans ?_ ((State.health_touches ..).keepsMode)
  with_reducible refine .upd ?_
  with_reducible refine .trans ?_ ((State.setN_touches ..).keepsMode)
  with_reducible refine .trans ?_ ((State.skipFresh_touches ..).keepsMode)
  exact .refl _
  with_reducible refine .trans ?_ ((State.queueStatute_touches ..).keepsMode)
  with_reducible refine .upd ?_
  with_reducible refine .trans ?_ ((State.fresh_touches ..).keepsMode)
  with_reducible refine .trans ?_ ((State.skipFresh_touches ..).keepsMode)
  exact .refl _
  exact .refl _

theorem State.laneCheckVector_keepsMode (s : State) (l : Fin 5) (corrections : List Nat) (uncorrectable : Bool) : ModeKept s
  (State.laneCheckVector s l corrections uncorrectable) := by
  unfold State.laneCheckVector
  with_reducible refine .iteL ?_ ?_
  exact .refl _
  with_reducible refine .iteL ?_ ?_
  with_reducible refine .trans ?_ ((State.laneOps_touches ..).keepsMode)
  exact .refl _
  split
  split
  with_reducible refine .ite ?_ ?_
  with_reducible refine .trans ?_ ((State.endShadow_touches ..).keepsMode)
  exact .refl _
  with_reducible refine .trans ?_ (State.integrity_keepsMode ..)
  exact .refl _
  with_reducible refine .trans ?_ (State.integrity_keepsMode ..)
  exact .refl _
  with_reducible refine .trans ?_ (State.integrity_keepsMode ..)
  exact .refl _
  exact .refl _
  split
  with_reducible refine .ite ?_ ?_
  with_reducible refine .trans ?_ ((State.endShadow_touches ..).keepsMode)
  exact .refl _
  with_reducible refine .trans ?_ (State.integrity_keepsMode ..)
  exact .refl _
  with_reducible refine .trans ?_ (State.integrity_keepsMode ..)
  exact .refl _
  with_reducible refine .trans ?_ (State.integrity_keepsMode ..)
  exact .refl _
  exact .refl _

theorem State.shadowWord_keepsMode (s : State) (p : Fin 8) (n : Nat) (o : LaneObs) : ModeKept s (State.shadowWord s p n o) := by
  unfold State.shadowWord
  split
  exact .refl _
  with_reducible refine .iteR ?_ ?_
  exact .refl _
  with_reducible refine .ite ?_ ?_
  with_reducible refine .ite ?_ ?_
  with_reducible refine .trans ?_ ((State.endShadow_touches ..).keepsMode)
  exact .refl _
  with_reducible refine .trans ?_ (State.integrity_keepsMode ..)
  exact .refl _
  with_reducible refine .ite ?_ ?_
  with_reducible refine .trans ?_ ((State.endShadow_touches ..).keepsMode)
  with_reducible refine .trans ?_ ((State.health_touches ..).keepsMode)
  exact .refl _
  with_reducible refine .trans ?_ ((State.laneOps_touches ..).keepsMode)
  exact .refl _

theorem State.laneWord_keepsMode (s : State) (p : Fin 8) (c : Fin 7) (n : Nat) (o : LaneObs) : ModeKept s (State.laneWord s p c n o) := by
  unfold State.laneWord
  with_reducible exact .iteR (.after ((State.laneOps_touches ..).keepsMode) (.after ((State.laneLatency_touches ..).keepsMode) (.iteR
    (.refl _) (.after (State.integrity_keepsMode ..) (.refl _))))) (.after ((State.shadowCount_touches ..).keepsMode) (.after
    (State.shadowWord_keepsMode ..) (.refl _)))

theorem State.marchPhaseEnd_keepsMode (s : State) (failed : Bool) (errs : List CopyErr) : ModeKept s (State.marchPhaseEnd s failed errs) := by
  unfold State.marchPhaseEnd
  with_reducible refine .iteL ?_ ?_
  exact .refl _
  dsimp only
  split
  with_reducible refine .ite ?_ ?_
  with_reducible refine .trans ?_ ((State.marchFailed_touches ..).keepsMode)
  with_reducible refine .trans ?_ ((State.background_touches ..).keepsMode)
  with_reducible refine .trans ?_ ((State.background_touches ..).keepsMode)
  exact .refl _
  with_reducible refine .upd ?_
  with_reducible refine .trans ?_ ((State.marchedRegion_touches ..).keepsMode)
  with_reducible refine .trans ?_ ((State.background_touches ..).keepsMode)
  with_reducible refine .trans ?_ ((State.background_touches ..).keepsMode)
  exact .refl _
  with_reducible refine .iteR ?_ ?_
  with_reducible refine .trans ?_ (State.copyErrors_keepsMode ..)
  with_reducible refine .trans ?_ ((State.background_touches ..).keepsMode)
  with_reducible refine .trans ?_ ((State.background_touches ..).keepsMode)
  exact .refl _
  with_reducible refine .upd ?_
  with_reducible refine .trans ?_ ((State.copyRegion_touches ..).keepsMode)
  exact .refl _
  with_reducible refine .ite ?_ ?_
  with_reducible refine .trans ?_ ((State.marchFailed_touches ..).keepsMode)
  with_reducible refine .trans ?_ ((State.background_touches ..).keepsMode)
  with_reducible refine .trans ?_ ((State.background_touches ..).keepsMode)
  exact .refl _
  with_reducible refine .upd ?_
  with_reducible refine .trans ?_ ((State.marchedRegion_touches ..).keepsMode)
  with_reducible refine .trans ?_ ((State.background_touches ..).keepsMode)
  with_reducible refine .trans ?_ ((State.background_touches ..).keepsMode)
  exact .refl _
  with_reducible refine .iteR ?_ ?_
  with_reducible refine .trans ?_ (State.copyErrors_keepsMode ..)
  with_reducible refine .trans ?_ ((State.background_touches ..).keepsMode)
  with_reducible refine .trans ?_ ((State.background_touches ..).keepsMode)
  exact .refl _
  with_reducible refine .trans ?_ ((State.copyBackEnd_touches ..).keepsMode)
  with_reducible refine .trans ?_ ((State.copyRegion_touches ..).keepsMode)
  exact .refl _
  with_reducible refine .trans ?_ ((State.background_touches ..).keepsMode)
  with_reducible refine .trans ?_ ((State.background_touches ..).keepsMode)
  exact .refl _

theorem State.nvmCycle_keepsMode (s : State) (o : NvmObs) : ModeKept s (State.nvmCycle s o) := by
  unfold State.nvmCycle
  with_reducible exact .iteR (.refl _) (.ite (.after (State.groupWrite_keepsMode ..) (.iteL (.refl _) (.after
    ((State.remapCycle_touches ..).keepsMode) (.refl _)))) (.after (State.groupRead_keepsMode ..) (.iteL (.refl _) (.after
    ((State.remapCycle_touches ..).keepsMode) (.refl _)))))

theorem State.patrolRead_keepsMode (s : State) (err : GroupErr) (bothBad : Bool) (part : Nat) : ModeKept s (State.patrolRead s err bothBad
  part) := by
  unfold State.patrolRead
  with_reducible refine .iteL ?_ ?_
  exact .refl _
  with_reducible refine .iteR ?_ ?_
  with_reducible refine .trans ?_ ((State.setN_touches ..).keepsMode)
  split
  with_reducible refine .trans ?_ ((State.remapCycle_touches ..).keepsMode)
  exact .refl _
  with_reducible refine .trans ?_ ((State.rangeWrote_touches ..).keepsMode)
  with_reducible refine .trans ?_ ((State.groupCorrected_touches ..).keepsMode)
  with_reducible refine .trans ?_ ((State.remapCycle_touches ..).keepsMode)
  exact .refl _
  with_reducible refine .trans ?_ (State.structureLost_keepsMode ..)
  with_reducible refine .trans ?_ ((State.groupLost_touches ..).keepsMode)
  with_reducible refine .trans ?_ ((State.remapCycle_touches ..).keepsMode)
  exact .refl _
  with_reducible refine .trans ?_ (State.contentWrong_keepsMode ..)
  with_reducible refine .trans ?_ ((State.remapCycle_touches ..).keepsMode)
  exact .refl _
  with_reducible refine .trans ?_ (State.contentWrong_keepsMode ..)
  with_reducible refine .trans ?_ ((State.rangeWrote_touches ..).keepsMode)
  with_reducible refine .trans ?_ ((State.groupCorrected_touches ..).keepsMode)
  with_reducible refine .trans ?_ ((State.remapCycle_touches ..).keepsMode)
  exact .refl _
  with_reducible refine .upd ?_
  with_reducible refine .trans ?_ ((State.addWrap_touches ..).keepsMode)
  exact .refl _

theorem State.restoreMarks_keepsMode (s : State) : ModeKept s (State.restoreMarks s) := by
  unfold State.restoreMarks
  dsimp only
  have h : ∀ st mk : Nat, ModeKept s (forEach allSources (fun n s => s.syncSrc n) { ((s.put K.TAMPER_STATUS (st : Nat)).put K.TAMPER_MARKS (mk : Nat)) with
      tamper := { ((s.put K.TAMPER_STATUS (st : Nat)).put K.TAMPER_MARKS (mk : Nat)).tamper with backupStatus := st, backupMarks := mk } }) :=
    fun st mk => .trans (.upd (((State.put_touches ..).keepsMode).trans ((State.put_touches ..).keepsMode))) (forEach_keepsMode _ _ _ fun _ _ => (State.syncSrc_touches ..).keepsMode)
  exact .ite (.next rfl (h _ _)) (h _ _)

theorem State.restoreEnergy_keepsMode (s : State) : ModeKept s (State.restoreEnergy s) := by
  unfold State.restoreEnergy
  with_reducible exact .upd (.ite (.after ((State.restartRtc_touches ..).keepsMode) (.upd (.after (forEach_keepsMode (hf := fun _ _ =>
    .after ((State.setN_touches ..).keepsMode) (.refl _)) ..) (.after ((State.setN_touches ..).keepsMode) (.after
    ((State.setN_touches ..).keepsMode) (.after ((State.finishSealing_touches ..).keepsMode) (.iteR (.after
    ((State.restore_touches ..).keepsMode) (.iteR (.refl _) (.after ((State.consistency_touches ..).keepsMode) (.refl _)))) (.after
    (State.integrity_keepsMode ..) (.refl _))))))))) (.upd (.upd (.after (forEach_keepsMode (hf := fun _ _ => .after
    ((State.setN_touches ..).keepsMode) (.refl _)) ..) (.after ((State.setN_touches ..).keepsMode) (.after
    ((State.setN_touches ..).keepsMode) (.after ((State.finishSealing_touches ..).keepsMode) (.iteR (.after
    ((State.restore_touches ..).keepsMode) (.iteR (.refl _) (.after ((State.consistency_touches ..).keepsMode) (.refl _)))) (.after
    (State.integrity_keepsMode ..) (.refl _))))))))))

theorem State.privilegedResolved_keepsMode (s : State) (time : Nat) (fault : Option Nat) : ModeKept s (State.privilegedResolved s time
  fault) := by
  unfold State.privilegedResolved
  with_reducible refine .iteL ?_ ?_
  exact .refl _
  with_reducible refine .upd ?_
  with_reducible refine .trans ?_ ((State.compose_touches ..).keepsMode)
  with_reducible refine .trans ?_ ((State.makeTestKey_touches ..).keepsMode)
  with_reducible refine .trans ?_ ((State.clearBand_touches ..).keepsMode)
  with_reducible refine .trans ?_ ((State.displayRecall_touches ..).keepsMode)
  with_reducible refine .trans ?_ ((State.banksRecall_touches ..).keepsMode)
  with_reducible refine .trans ?_ ((State.auxRecall_touches ..).keepsMode)
  with_reducible refine .trans ?_ ((State.recallPulses_touches ..).keepsMode)
  with_reducible refine .trans ?_ ((State.recallPorts_touches ..).keepsMode)
  with_reducible refine .trans ?_ (forEach_keepsMode (hf := ?_) ..)
  with_reducible refine .trans ?_ ((State.recallLanes_touches ..).keepsMode)
  with_reducible refine .trans ?_ ((State.recallCkpt_touches ..).keepsMode)
  with_reducible refine .trans ?_ ((State.demandRecall_touches ..).keepsMode)
  with_reducible refine .trans ?_ ((State.interruptAll_touches ..).keepsMode)
  with_reducible refine .trans ?_ (forEach_keepsMode (hf := ?_) ..)
  with_reducible refine .trans ?_ (State.restoreEnergy_keepsMode ..)
  with_reducible refine .trans ?_ (State.deferredDecision_keepsMode ..)
  with_reducible refine .trans ?_ (State.restoreMarks_keepsMode ..)
  split
  with_reducible refine .iteR ?_ ?_
  with_reducible refine .trans ?_ ((State.journalRecall_touches ..).keepsMode)
  with_reducible refine .trans ?_ ((State.setN_touches ..).keepsMode)
  with_reducible refine .trans ?_ ((State.at'_touches ..).keepsMode)
  exact .refl _
  with_reducible refine .trans ?_ (forEach_keepsMode (hf := ?_) ..)
  exact .refl _
  intro _ _
  with_reducible refine .trans ?_ ((State.applyDeviceState_touches ..).keepsMode)
  exact .refl _
  with_reducible refine .trans ?_ ((State.journalRecall_touches ..).keepsMode)
  with_reducible refine .trans ?_ ((State.setN_touches ..).keepsMode)
  with_reducible refine .trans ?_ ((State.at'_touches ..).keepsMode)
  exact .refl _
  intro _ _
  with_reducible refine .trans ?_ ((State.sessionRestore_touches ..).keepsMode)
  exact .refl _
  intro _ _
  with_reducible refine .trans ?_ ((State.recallPoint_touches ..).keepsMode)
  exact .refl _

theorem State.privilegedStep_keepsMode (s : State) (time : Nat) (fault : Option Nat) : ModeKept s (State.privilegedStep s time fault) := by
  unfold State.privilegedStep
  with_reducible exact .iteR (.after (State.privilegedResolved_keepsMode ..) (.refl _)) (.after ((State.thbRecall_touches ..).keepsMode)
    (.refl _))

theorem State.verifyStatute_keepsMode (s : State) (o : StatuteObs) : ModeKept s (State.verifyStatute s o) := by
  unfold State.verifyStatute
  with_reducible refine .iteL ?_ ?_
  exact .refl _
  dsimp only
  split
  with_reducible refine .upd ?_
  with_reducible refine .trans ?_ ((State.statuteCopy_touches ..).keepsMode)
  with_reducible refine .trans ?_ ((State.statuteCopy_touches ..).keepsMode)
  exact .refl _
  with_reducible refine .trans ?_ ((State.consistency_touches ..).keepsMode)
  with_reducible refine .upd ?_
  with_reducible refine .trans ?_ ((State.statuteCopy_touches ..).keepsMode)
  with_reducible refine .trans ?_ ((State.statuteCopy_touches ..).keepsMode)
  exact .refl _
  with_reducible refine .trans ?_ ((State.consistency_touches ..).keepsMode)
  with_reducible refine .upd ?_
  with_reducible refine .trans ?_ ((State.statuteCopy_touches ..).keepsMode)
  with_reducible refine .trans ?_ ((State.statuteCopy_touches ..).keepsMode)
  exact .refl _
  with_reducible refine .trans ?_ (State.integrity_keepsMode ..)
  with_reducible refine .upd ?_
  with_reducible refine .trans ?_ ((State.statuteCopy_touches ..).keepsMode)
  with_reducible refine .trans ?_ ((State.statuteCopy_touches ..).keepsMode)
  exact .refl _

theorem State.sampleRelease_keepsMode (s : State) (p : Fin 8) (c : Fin 7) (o : LaneObs) : ModeKept s (State.sampleRelease s p c o) := by
  unfold State.sampleRelease
  split
  exact .refl _
  with_reducible refine .trans ?_ ((State.streamSample_touches ..).keepsMode)
  with_reducible refine .iteR ?_ ?_
  with_reducible refine .iteR ?_ ?_
  with_reducible refine .ite ?_ ?_
  with_reducible refine .trans ?_ (State.integrity_keepsMode ..)
  with_reducible refine .trans ?_ ((State.laneHits_touches ..).keepsMode)
  with_reducible refine .iteR ?_ ?_
  with_reducible refine .trans ?_ ((State.correct_touches ..).keepsMode)
  with_reducible refine .trans ?_ ((State.setQ_touches ..).keepsMode)
  with_reducible refine .trans ?_ ((State.setQ_touches ..).keepsMode)
  with_reducible refine .iteSnd ?_ ?_
  with_reducible refine .trans ?_ ((State.fresh_touches ..).keepsMode)
  with_reducible refine .trans ?_ ((State.updChan_touches ..).keepsMode)
  with_reducible refine .iteR ?_ ?_
  exact .refl _
  with_reducible refine .trans ?_ ((State.nettingStep_touches ..).keepsMode)
  exact .refl _
  dsimp only
  with_reducible refine .trans ?_ ((State.updChan_touches ..).keepsMode)
  with_reducible refine .iteR ?_ ?_
  exact .refl _
  with_reducible refine .trans ?_ ((State.nettingStep_touches ..).keepsMode)
  exact .refl _
  with_reducible refine .trans ?_ ((State.firstChannel_touches ..).keepsMode)
  exact .refl _
  with_reducible refine .trans ?_ (State.laneWord_keepsMode ..)
  with_reducible refine .trans ?_ ((State.laneHits_touches ..).keepsMode)
  with_reducible refine .iteR ?_ ?_
  with_reducible refine .trans ?_ ((State.correct_touches ..).keepsMode)
  with_reducible refine .trans ?_ ((State.setQ_touches ..).keepsMode)
  with_reducible refine .trans ?_ ((State.setQ_touches ..).keepsMode)
  with_reducible refine .iteSnd ?_ ?_
  with_reducible refine .trans ?_ ((State.fresh_touches ..).keepsMode)
  with_reducible refine .trans ?_ ((State.updChan_touches ..).keepsMode)
  with_reducible refine .iteR ?_ ?_
  exact .refl _
  with_reducible refine .trans ?_ ((State.nettingStep_touches ..).keepsMode)
  exact .refl _
  dsimp only
  with_reducible refine .trans ?_ ((State.updChan_touches ..).keepsMode)
  with_reducible refine .iteR ?_ ?_
  exact .refl _
  with_reducible refine .trans ?_ ((State.nettingStep_touches ..).keepsMode)
  exact .refl _
  with_reducible refine .trans ?_ ((State.firstChannel_touches ..).keepsMode)
  exact .refl _
  with_reducible refine .trans ?_ ((State.updPoint_touches ..).keepsMode)
  exact .refl _
  with_reducible refine .trans ?_ ((State.lastChannel_touches ..).keepsMode)
  exact .refl _

theorem State.sealFuse_keepsMode (s : State) (o : StatuteObs) : ModeKept s (State.sealFuse s o) := by
  unfold State.sealFuse
  split
  with_reducible refine .iteL ?_ ?_
  exact .refl _
  with_reducible refine .ite ?_ ?_
  with_reducible refine .trans ?_ ((State.abortSeal_touches ..).keepsMode)
  with_reducible refine .iteR ?_ ?_
  with_reducible refine .trans ?_ ((State.statuteCopy_touches ..).keepsMode)
  with_reducible refine .trans ?_ ((State.statuteCopy_touches ..).keepsMode)
  exact .refl _
  with_reducible refine .trans ?_ (State.integrity_keepsMode ..)
  exact .refl _
  with_reducible refine .trans ?_ ((State.ckptBegin_touches ..).keepsMode)
  with_reducible refine .upd ?_
  with_reducible refine .trans ?_ ((State.zeroRegisters_touches ..).keepsMode)
  with_reducible refine .upd ?_
  with_reducible refine .trans ?_ ((State.setN_touches ..).keepsMode)
  with_reducible refine .trans ?_ ((State.setN_touches ..).keepsMode)
  with_reducible refine .upd ?_
  with_reducible refine .trans ?_ ((State.setB_touches ..).keepsMode)
  exact .refl _
  exact .refl _

theorem State.sealRefused_keepsMode (s : State) (h : Requester) (code : Nat) : ModeKept s (State.sealRefused s h code) := by
  unfold State.sealRefused
  with_reducible exact .after ((State.replyWrite_touches ..).keepsMode) (.after (State.sealOver_keepsMode ..) (.after
    ((State.setN_touches ..).keepsMode) (.refl _)))

theorem State.sealTwin_keepsMode (s : State) (h : Requester) (first : Nat) (fault : Bool) : ModeKept s (State.sealTwin s h first fault) := by
  unfold State.sealTwin
  with_reducible exact .ite (.after (State.sealRefused_keepsMode ..) (.after ((State.source_touches ..).keepsMode) (.refl _))) (.ite
    (.after (State.sealRefused_keepsMode ..) (.refl _)) (.after ((State.replyWrite_touches ..).keepsMode) (.upd (.after
    ((State.setN_touches ..).keepsMode) (.refl _)))))

theorem State.serveRequest_keepsMode (s : State) (o : SramObs) (r : SramReq) : ModeKept s (State.serveRequest s o r) := by
  unfold State.serveRequest
  with_reducible refine .trans ?_ ((State.setPort_touches ..).keepsMode)
  split
  dsimp only
  with_reducible refine .trans ?_ (State.decodeWord_keepsMode ..)
  with_reducible refine .trans ?_ ((State.injectedSymbols_touches ..).keepsMode)
  exact .refl _
  with_reducible refine .trans ?_ ((State.writeWord_touches ..).keepsMode)
  with_reducible refine .iteL ?_ ?_
  exact .refl _
  dsimp only
  with_reducible refine .trans ?_ (State.decodeWord_keepsMode ..)
  with_reducible refine .trans ?_ ((State.injectedSymbols_touches ..).keepsMode)
  exact .refl _

theorem State.sramAccess_keepsMode (s : State) (o : SramObs) : ModeKept s (State.sramAccess s o) := by
  unfold State.sramAccess
  with_reducible refine .iteL ?_ ?_
  exact .refl _
  dsimp only
  split
  split
  with_reducible refine .trans ?_ (forEach_keepsMode (hf := ?_) ..)
  exact .refl _
  intro _ _
  with_reducible refine .trans ?_ ((State.conflict_touches ..).keepsMode)
  exact .refl _
  exact .refl _
  with_reducible refine .trans ?_ (State.serveRequest_keepsMode ..)
  with_reducible refine .trans ?_ ((State.marchAccess_touches ..).keepsMode)
  with_reducible refine .trans ?_ ((State.setPort_touches ..).keepsMode)
  with_reducible refine .iteL ?_ ?_
  with_reducible refine .trans ?_ ((State.raise_touches ..).keepsMode)
  with_reducible refine .trans ?_ (forEach_keepsMode (hf := ?_) ..)
  split
  with_reducible refine .trans ?_ (forEach_keepsMode (hf := ?_) ..)
  exact .refl _
  intro _ _
  with_reducible refine .trans ?_ ((State.conflict_touches ..).keepsMode)
  exact .refl _
  exact .refl _
  intro _ _
  with_reducible refine .trans ?_ ((State.conflict_touches ..).keepsMode)
  exact .refl _
  with_reducible refine .trans ?_ ((State.invertHits_touches ..).keepsMode)
  exact .refl _

theorem State.svcChange_keepsMode (s : State) (level : Bool) : ModeKept s (State.svcChange s level) := by
  unfold State.svcChange
  with_reducible exact .iteL (.refl _) (.iteL (.upd (.refl _)) (.after (State.serviceEnd_keepsMode ..) (.upd (.refl _))))

theorem State.sweepRead_keepsMode (s : State) (err : SymErr) (twin : SymErr) : ModeKept s (State.sweepRead s err twin) := by
  unfold State.sweepRead
  with_reducible refine .iteL ?_ ?_
  exact .refl _
  split
  exact .refl _
  with_reducible refine .iteR ?_ ?_
  exact .refl _
  with_reducible refine .trans ?_ (State.decodeWord_keepsMode ..)
  with_reducible refine .upd ?_
  with_reducible refine .trans ?_ ((State.background_touches ..).keepsMode)
  exact .refl _

theorem State.sweepWord_keepsMode (s : State) (a : Nat) (err twin : SymErr) (busy : Bool) : ModeKept s (State.sweepWord s a err twin busy) :=
  .ite (.refl _) (State.sweepRead_keepsMode ..)

theorem State.tamperTwin_keepsMode (s : State) (fault : Option Nat) : ModeKept s (State.tamperTwin s fault) := by
  unfold State.tamperTwin
  split
  with_reducible refine .trans ?_ (forEach_keepsMode (hf := ?_) ..)
  with_reducible refine .trans ?_ ((State.sessionTamper_touches ..).keepsMode)
  with_reducible refine .iteR ?_ ?_
  with_reducible refine .trans ?_ (State.applyDecision_keepsMode ..)
  with_reducible refine .upd ?_
  exact .refl _
  with_reducible refine .trans ?_ ((State.abortSeal_touches ..).keepsMode)
  exact .refl _
  intro _ _
  with_reducible refine .trans ?_ ((State.queueRecord_touches ..).keepsMode)
  exact .refl _
  exact .refl _

theorem State.twinEvaluation_keepsMode (s : State) (i : Nat) (fault : Option Nat) : ModeKept s (State.twinEvaluation s i fault) := by
  unfold State.twinEvaluation
  split
  exact .refl _
  dsimp only
  split
  with_reducible refine .trans ?_ (State.enterTwin_keepsMode ..)
  with_reducible refine .upd ?_
  exact .refl _
  with_reducible refine .trans ?_ (State.clearTwin_keepsMode ..)
  with_reducible refine .upd ?_
  exact .refl _
  with_reducible refine .trans ?_ (State.sealTwin_keepsMode ..)
  with_reducible refine .upd ?_
  exact .refl _
  with_reducible refine .trans ?_ ((State.calSecond_touches ..).keepsMode)
  with_reducible refine .upd ?_
  exact .refl _
  with_reducible refine .trans ?_ ((State.signTwin_touches ..).keepsMode)
  with_reducible refine .upd ?_
  exact .refl _
  with_reducible refine .trans ?_ (State.tamperTwin_keepsMode ..)
  with_reducible refine .upd ?_
  exact .refl _

/-! ### The operations that change the mode -/

/-- From a mode, one change of mode by a step, with the waiting transition still in order. -/
def ModeMoves (s t : State) : Prop := ModeStep s.mode t.mode ∧ t.NextOk

theorem ModeKept.moves {s t : State} (h : ModeKept s t) (w : s.NextOk) : ModeMoves s t := ⟨.inl h.1, h.2 w⟩

theorem ModeMoves.after {s t u : State} (g : ModeKept t u) (h : ModeMoves s t) : ModeMoves s u := ⟨g.1 ▸ h.1, g.2 h.2⟩

theorem ModeMoves.before {s t u : State} (h : ModeKept s t) (w : t.NextOk → ModeMoves t u) (ok : s.NextOk) : ModeMoves s u :=
  ⟨h.1 ▸ (w (h.2 ok)).1, (w (h.2 ok)).2⟩

/-- A state in a new mode with nothing waiting. -/
theorem ModeMoves.enter {s t : State} (m : Mode) (hm : t.mode = m) (hn : t.modeNext = none) (h : s.mode.goesTo m = true) : ModeMoves s t :=
  ⟨.inr (.inl (hm ▸ h)), fun _ e => by rw [hn] at e; cases e⟩

theorem State.powerLost_moves (s : State) (h : s.mode.goesTo .dormant = true) : ModeMoves s s.powerLost :=
  .enter .dormant rfl rfl h

theorem State.recallBegin_moves (s : State) (time addr : Nat) (ftm : Bool) (map again : Nat) (stat : StatuteObs) (w : s.NextOk) :
    ModeMoves s (s.recallBegin time addr ftm map again stat) := by
  unfold State.recallBegin
  split
  · exact (ModeKept.refl s).moves w
  · rename_i h
    have hd : s.mode = .dormant := by
      by_contra hc
      exact h (.inl hc)
    dsimp only
    have k : ∀ u : State, ModeKept u
        (State.verifyStatute (if (((((u.addSat 32 K.RECALL_COUNT 1).setN K.RNG_STATE 1).canSettings).senseFuses map again).remapRecall).tamper.backupLost = true then
          ((((((((u.addSat 32 K.RECALL_COUNT 1).setN K.RNG_STATE 1).canSettings).senseFuses map again).remapRecall).setN K.RTC_VALID 0).addSat 32 K.BACKUP_RESETS 1).source 3 0)
          else (((((u.addSat 32 K.RECALL_COUNT 1).setN K.RNG_STATE 1).canSettings).senseFuses map again).remapRecall)) stat) := fun u =>
      have b : ModeKept u (((((u.addSat 32 K.RECALL_COUNT 1).setN K.RNG_STATE 1).canSettings).senseFuses map again).remapRecall) :=
        (((((State.addSat_touches ..).keepsMode).trans ((State.setN_touches ..).keepsMode)).trans ((State.canSettings_touches ..).keepsMode)).trans ((State.senseFuses_touches ..).keepsMode)).trans ((State.remapRecall_touches ..).keepsMode)
      .trans (.ite (((b.trans ((State.setN_touches ..).keepsMode)).trans ((State.addSat_touches ..).keepsMode)).trans ((State.source_touches ..).keepsMode)) b) (State.verifyStatute_keepsMode ..)
    exact .after (k _) (.enter .recalling rfl rfl (by rw [hd]; rfl))

theorem State.leaveRecall_moves (s : State) (h : s.mode = .recalling) : ModeMoves s s.leaveRecall := by
  unfold State.leaveRecall
  dsimp only
  refine .after (.trans ((State.setN_touches ..).keepsMode) ((State.compose_touches ..).keepsMode)) ?_
  split
  · exact .enter .lockdown rfl rfl (by rw [h]; rfl)
  · exact .enter .metering rfl rfl (by rw [h]; rfl)

theorem State.recallEnd_moves (s : State) (w : s.NextOk) : ModeMoves s s.recallEnd := by
  unfold State.recallEnd
  split
  · rename_i h
    exact s.leaveRecall_moves h.1
  · exact (ModeKept.refl s).moves w

theorem State.recallTimeout_moves (s : State) (w : s.NextOk) : ModeMoves s s.recallTimeout := by
  unfold State.recallTimeout
  split
  · exact (ModeKept.refl s).moves w
  · rename_i h
    have hr : s.mode = .recalling := Decidable.not_not.mp h
    exact .before (State.integrity_keepsMode ..) (fun _ => State.leaveRecall_moves _ ((State.integrity_keepsMode ..).1.trans hr)) w

theorem State.saveComplete_moves (s : State) (w : s.NextOk) : ModeMoves s s.saveComplete := by
  unfold State.saveComplete
  split
  · exact (ModeKept.refl s).moves w
  · rename_i h
    have hr : s.mode = .holdup := by
      by_contra hc
      exact h (.inl hc)
    have k : ∀ v : Nat, ModeKept s (((s.tallyStored.updSave fun v => { v with sections := v.sections ||| 64 }).setN K.HOLDUP_DURATION (v : Nat)).saveCounts) := fun _ =>
      ((((State.tallyStored_touches ..).keepsMode).trans ((State.updSave_touches ..).keepsMode)).trans ((State.setN_touches ..).keepsMode)).trans ((State.saveCounts_touches ..).keepsMode)
    exact .before (k _) (fun _ => State.powerLost_moves _ (by rw [(k _).1, hr]; rfl)) w

theorem State.writeInhibited_moves (s : State) (items groups : Nat) (w : s.NextOk) : ModeMoves s (s.writeInhibited items groups) := by
  unfold State.writeInhibited
  dsimp only
  split
  · exact (ModeKept.upd (.refl s)).moves w
  · rename_i h
    have hr : s.mode = .holdup := Decidable.not_not.mp h
    refine .before (s := s) (t := State.saveCounts _) (.trans (.ite ?_ ?_) ((State.saveCounts_touches ..).keepsMode)) (fun _ => State.powerLost_moves _ ?_) w
    · exact (ModeKept.upd (.refl s)).trans (((State.updSave_touches ..).keepsMode).trans ((State.cutTallies_touches ..).keepsMode))
    · exact (ModeKept.upd (.refl s)).trans (((State.updSave_touches ..).keepsMode).trans ((State.cutTallies_touches ..).keepsMode))
    · rw [((State.saveCounts_touches ..).keepsMode).1]
      have e : ∀ u : State, u.mode = .holdup → u.mode.goesTo .dormant = true := fun u e => by rw [e]; rfl
      refine e _ (Eq.trans ?_ hr)
      split <;> exact (((State.cutTallies_touches ..).keepsMode).1.trans ((State.updSave_touches ..).keepsMode).1)

theorem State.powerFail_moves (s : State) (time clampNs : Nat) (w : s.NextOk) : ModeMoves s (s.powerFail time clampNs) := by
  have a : ∀ c : Nat → Nat, ModeKept s ((s.at' time).stampLoss.displayClamp (c (s.at' time).stampLoss.disp.frameStart)) := fun _ =>
    (((State.at'_touches ..).keepsMode).trans ((State.stampLoss_touches ..).keepsMode)).trans ((State.displayClamp_touches ..).keepsMode)
  have b : ∀ u : State, ModeKept u (State.saveBegin { ((((u.setN K.HOLDUP_LAST u.now).pulsesOff.slackAll.calAbort.auxPowerFail.stopShadow).abortSeal 9).stopMain.closeTableau) with
      store := { ((((u.setN K.HOLDUP_LAST u.now).pulsesOff.slackAll.calAbort.auxPowerFail.stopShadow).abortSeal 9).stopMain.closeTableau).store with writing := none }
      stream := Stream.init, twins := [] }) := fun u =>
    .trans (.upd (((((((((((State.setN_touches ..).keepsMode).trans ((State.pulsesOff_touches ..).keepsMode)).trans ((State.slackAll_touches ..).keepsMode)).trans ((State.calAbort_touches ..).keepsMode)).trans
      ((State.auxPowerFail_touches ..).keepsMode)).trans ((State.stopShadow_touches ..).keepsMode)).trans ((State.abortSeal_touches ..).keepsMode)).trans ((State.stopMain_touches ..).keepsMode)).trans
      ((State.closeTableau_touches ..).keepsMode)))) ((State.saveBegin_touches ..).keepsMode)
  have c : ∀ m : Mode, s.mode = m → m.goesTo .holdup = true → (m = .recalling → m.goesTo .dormant = true) → ∀ f : Nat → Nat, ModeMoves s
      (let x := (s.at' time).stampLoss.displayClamp (f (s.at' time).stampLoss.disp.frameStart)
       if m = .recalling ∧ x.startup.ckptWritten = false then x.stopMain.powerLost else
       let x := { x with mode := Mode.holdup, modeNext := none, attended := false }
       let x := x.setN K.HOLDUP_LAST x.now
       let x := (x.pulsesOff.slackAll.calAbort.auxPowerFail.stopShadow).abortSeal 9
       let x := x.stopMain.closeTableau
       let x := { x with store := { x.store with writing := none }, stream := Stream.init, twins := [] }
       x.saveBegin) := by
    intro m hm hh hd f
    dsimp only
    split
    · rename_i h
      refine .before ((a f).trans ((State.stopMain_touches ..).keepsMode)) (fun _ => State.powerLost_moves _ ?_) w
      rw [((State.stopMain_touches ..).keepsMode).1, (a f).1, hm]
      exact hd h.1
    · exact .after (b _) (.enter .holdup rfl rfl (by rw [hm]; exact hh))
  unfold State.powerFail
  split
  · exact (ModeKept.refl s).moves w
  · exact (ModeKept.refl s).moves w
  · rename_i h1 h2
    generalize hm : s.mode = m at *
    cases m
    · exact absurd rfl h1
    · exact c .recalling rfl rfl (fun _ => rfl) (fun n => ((s.at' time).stampLoss.rtc + clampNs - n + 50000) / 100000)
    · exact c .metering rfl rfl (fun e => by cases e) (fun n => ((s.at' time).stampLoss.rtc + clampNs - n + 50000) / 100000)
    · exact c .service rfl rfl (fun e => by cases e) (fun n => ((s.at' time).stampLoss.rtc + clampNs - n + 50000) / 100000)
    · exact absurd rfl h2
    · exact c .lockdown rfl rfl (fun e => by cases e) (fun n => ((s.at' time).stampLoss.rtc + clampNs - n + 50000) / 100000)

/-- Between two serving modes one step may go in any way Table 12.1 and R344 allow. -/
theorem serving_step (a b : Mode) (ha : a.serving = true) (hb : b.serving = true) : ModeStep a b := by
  cases a <;> cases b <;> simp_all [Mode.serving, ModeStep, Mode.goesTo]

theorem State.applyMode_moves (s : State) (w : s.NextOk) : ModeMoves s s.applyMode := by
  unfold State.applyMode
  split
  · exact (ModeKept.refl s).moves w
  · rename_i m hm
    split
    · exact (ModeKept.refl s).moves w
    · rename_i hs
      have hserv : s.mode.serving = true := by
        unfold State.serves at hs
        cases h : s.mode <;> simp_all [Mode.serving]
      dsimp only
      have k : ∀ (u : State) (c : Prop) [Decidable c] (x y : Int), ModeKept u
          (State.compose (if m = .lockdown then (if c then (((u.setN K.MODE_INDEX x).setN K.MODE_TIME y).endService)
            else ((u.setN K.MODE_INDEX x).setN K.MODE_TIME y)).abortSeal 9 else
            (if c then (((u.setN K.MODE_INDEX x).setN K.MODE_TIME y).endService) else ((u.setN K.MODE_INDEX x).setN K.MODE_TIME y)))) := fun u c _ x y =>
        have b : ModeKept u ((u.setN K.MODE_INDEX x).setN K.MODE_TIME y) := ((State.setN_touches ..).keepsMode).trans ((State.setN_touches ..).keepsMode)
        have d : ModeKept u (if c then (((u.setN K.MODE_INDEX x).setN K.MODE_TIME y).endService) else ((u.setN K.MODE_INDEX x).setN K.MODE_TIME y)) :=
          .ite (b.trans ((State.endService_touches ..).keepsMode)) b
        .trans (.ite (d.trans ((State.abortSeal_touches ..).keepsMode)) d) ((State.compose_touches ..).keepsMode)
      exact .after (k _ _ _ _) ⟨serving_step _ _ hserv (w m hm), fun _ e => by cases e⟩

theorem State.samplePeriod_moves (s : State) (bits : List Nat) (w : s.NextOk) : ModeMoves s (s.samplePeriod bits) := by
  unfold State.samplePeriod
  split
  · exact (ModeKept.refl s).moves w
  · have k : ∀ (x : State) (c : Prop) [Decidable c], ModeKept s x → ModeMoves s (if c then x else x.applyTimeStep.applyMode) := fun x c _ h => by
      split
      · exact h.moves w
      · exact .before (h.trans ((State.applyTimeStep_touches ..).keepsMode)) (fun w => State.applyMode_moves _ w) w
    exact .after ((State.portPeriod_touches ..).keepsMode) (k { s with index := s.index + 1, rtc := s.rtc + 12500 } _ ⟨rfl, id⟩)

theorem State.period_moves (s : State) (bits : List Nat) (w : s.NextOk) : ModeMoves s (s.period bits) := by
  unfold State.period
  dsimp only
  split
  · exact .after ((State.tstepSend_touches ..).keepsMode) (s.samplePeriod_moves bits w)
  · exact s.samplePeriod_moves bits w

end Sys2Proof.Machine
end

