-- ==== Sys2Proof/WellFormed.lean ====
section
/-! DEFINITION. Which commands are well formed: the widths that the spec gives each operand of a row, checked operand by operand. -/

namespace Sys2Proof

/-- A value of at most `n` bits. -/
def fitsU (n v : Nat) : Bool := decide (v < 2 ^ n)

/-- A two's complement value of `n` bits. -/
def fitsI (n : Nat) (v : Int) : Bool := decide (-(2 ^ (n - 1) : Int) ≤ v) && decide (v < (2 ^ (n - 1) : Int))

/-- The TAG of a request is one byte (R380). -/
def requesterOk (h : Requester) : Bool := fitsU 8 h.tag

/-- Corrections name digits and adders of a lane: values of one byte. -/
def marksOk (l : List Nat) : Bool := l.all (fitsU 8)

/-- What a word meets in its lane: times of 32 bits. -/
def LaneObs.ok (o : LaneObs) : Bool := fitsU 32 o.latency && fitsU 32 o.interval && marksOk o.corrections && marksOk o.shadowCorrections

/-- What a port shows over one block of 1,024 edges (R66): at most 1,024 ones, eight phases. -/
def BlockObs.ok (o : BlockObs) : Bool := decide (o.ones ≤ 1024) && fitsU 8 o.transitions && fitsU 16 o.returnMean && fitsU 16 o.skewWorst

/-- AUTH_CMD (Table 12.10): a challenge of 16 bytes, r and s of 256 bits. -/
def Auth.ok (a : Auth) : Bool := decide (a.challenge.length = 16) && fitsU 256 a.r && fitsU 256 a.s

/-- A CENSUS frame (Table 14.5): a serial of eight bytes, and the widths of its fields. -/
def CensusFrame.ok (f : CensusFrame) : Bool :=
  decide (f.serial.length = 8) && fitsU 16 f.members && fitsU 8 f.depthBelow && fitsU 16 f.points && fitsU 16 f.unitNo && fitsU 8 f.state
    && fitsU 8 f.flags && fitsU 16 f.prevFirst

/-- A SYNC frame (Table 14.3). -/
def SyncFrame.ok (f : SyncFrame) : Bool :=
  fitsU 64 f.t1 && fitsI 32 f.corr && fitsU 8 f.hops && fitsU 8 f.timeState && fitsU 8 f.rebaseSeq && fitsI 64 f.shift

/-- A VP_REPORT frame (Table 14.3): at most eight points, in ascending order. -/
def VpFrame.ok (f : VpFrame) : Bool :=
  fitsU 64 f.endIdx && fitsU 16 f.flags && (f.points.map fun p => p.1.val).Pairwise (· < ·)
    && f.points.all fun p => fitsU 64 p.2.1 && fitsU 64 p.2.2.1 && fitsU 32 p.2.2.2

/-- A payload that a message can carry (R380: LENGTH at most 4,096). -/
def payloadOk (l : List Byte) : Bool := decide (l.length ≤ 4096)

/-- Result codes of an evaluation that a fault turns: a class of Table 11.3. -/
def faultOk (f : Option Nat) : Bool :=
  match f with
  | none => true
  | some c => decide (c < 4)

/-- A word of a host write of `n` bits. -/
def hostWordOk (h : Requester) (n w : Nat) : Bool := requesterOk h && fitsU n w

/-- A command of a host that carries an authentication. -/
def authOk (h : Requester) (a : Auth) : Bool := requesterOk h && a.ok

/-- A coefficient of a draft fits its entry (Table 05.11). -/
def DraftKind.ok (k : DraftKind) (v : Int) : Bool :=
  match k with
  | .gain => decide (0 ≤ v) && fitsU 32 v.toNat
  | .offset => fitsI 32 v
  | .trim => decide (0 ≤ v) && fitsU 16 v.toNat

/-- The request's origin, of a command that a host sends. -/
def Instr.host? : Instr → Option Requester
  | .portStatus h _ _ _ | .portCfg h _ _ _ | .decConfig h _ _ | .pointCfg h _ _ | .evStatus h _ _ | .latClear h _ | .laneMap h _ _
  | .pulseCfg h _ _ | .meterConst h _ _ | .mdReset h _ _ | .dmdCfg h _ | .calBegin h _ _ | .calZero h _ | .calGain h _ | .calPhase h
  | .calDrop h _ | .calCommit h | .calAbort h | .draftCoefficients h _ _ _ | .inject h _ _ | .coupleCfg h _ _ | .entry h _ _ _
  | .auxCalBegin h _ _ | .auxCalZero h | .auxCalFull h | .auxCalCommit h | .auxCalAbort h | .counterClear h _ | .scratchPage h _ _ _
  | .scratchGroup h _ _ _ | .sessionOpen h _ | .sessionClose h _ | .hostData h _ _ | .ringAck h _ | .hostImage h _ | .dispPoint h _
  | .drvFault h _ | .tamperStatus h _ | .clearMarks h _ | .clearLockdown h _ | .blowFuse h _ _ | .enterService h _ | .sealCmd h _
  | .serviceExit h | .authChallenge h | .timeStep h _ | .utcOffset h _ | .read h _ _ | .write h _ _ _ | .tableauOpen h
  | .tableauRead h _ _ _ | .tableauClose h _ | .batch h _ | .streamStart h _ _ _ | .streamStop h | .siteOpen h | .siteClose h
  | .stringCfg h _ _ | .stringClear h _ | .substitute h _ | .restore h _ => some h
  | .powerGood _ | .recallBegin _ _ _ _ _ _ | .privilegedResolved _ _ | .ordinaryResolved | .selfTestsDone _ _ | .recallEnd | .recallTimeout
  | .powerFailDetect _ _ | .forcedStep | .holdupSaveComplete | .writeInhibit _ _ | .samplePeriod _ | .sampleRelease _ _ _
  | .laneCheckVector _ _ _ | .shadowWarm _ | .latencyInterval | .substituteBoundary _ | .nettingStep _ | .offPointApply _ | .windowPublish _
  | .eventRecord | .blockEnd _ | .linkCheckFail _ _ | .pulseRise _ | .pulseFall _ | .pulseGapEnd _ | .demandIntervalEnd | .checkpointDue
  | .checkpointWritten | .tiUpdate _ | .calStepEnd | .twinEvaluation _ _ | .auxPassStart _ | .auxDelayEnd _ | .auxStartupDone _
  | .auxPowerDown _ | .auxConversionEnd _ _ _ _ | .auxResultWrite _ _ | .auxSelfCheck _ | .auxCalBurst _ | .sramAccess _ | .scrubWriteback _
  | .marchStart | .marchPhaseEnd _ | .marchRetry | .bankSubRegionDone _ | .sweepRead _ _ _ _ _ _ | .nvmCycleEnd _ | .patrolRead _
  | .journalUnitStart | .journalCommit | .journalRetire | .recordCopyWritten | .signStart | .signatureDone | .signWaitTimeout _
  | .rngFailure _ | .rngStartupDone | .frameBoundary _ | .compensationEnd _ | .readback _ | .pumpRegulated _ _ | .pumpOvervoltage
  | .displayWake _ | .bandTimeout | .tamperStrobe _ _ _ _ | .light _ | .glitch _ | .refClock _ | .rtcClock _ _ | .vbatCheck _ _
  | .dieTempCheck _ _ | .svcStrap | .tamperWindowExpiry _ _ | .tamperDecision | .sealKeygenDone _ | .sealFuseSet _ | .svcChange _
  | .serviceMaxExpiry | .authChallengeExpiry | .spiSend _ | .spiFetch _ | .canFrame _ _ _ | .canReassemblyTimeout | .canTransmit
  | .canBusoffRecovery | .tableauComplete | .tableauTimeout | .streamFrameReady | .train _ _ _ _ _ _ _ | .trainSend _ | .linkDown _ _
  | .pending _ _ | .pendingSend | .census _ _ _ | .censusSend | .censusTimeout _ _ | .numbering _ _ _ _ _ | .sync _ _ _ _ | .syncSend
  | .delayReq _ _ _ _ | .delayReqSend | .delayResp _ _ _ _ | .indexAdopt | .holdoverExpiry | .tstep _ _ _ _ _ | .vpReport _ _ _
  | .vpReportSend | .site _ _ _ _ _ _ | .siteAck _ _ _ _ _ _ | .siteAckSend | .siteLimitExpiry | .join _ _ _ _ _ | .grant _ _ _ _ _
  | .joinRetry | .laneRetestDone _ | .lightFall _ | .backupDomainReset | .canBusError _ _ | .corruptedLinkFrame _ => none

/-- Whether every operand of a command fits the width the spec gives it. -/
def wellFormed : Instr → Bool
  -- power and the fabric
  | .recallBegin _ _ _ map again _ => fitsU 32 map && fitsU 32 again
  | .privilegedResolved _ fault => faultOk fault
  | .selfTestsDone retests _ => decide (retests.length ≤ 5)
  | .samplePeriod bits => decide (bits.length ≤ 60) && bits.all (fitsU 250)
  | .sampleRelease _ _ o => o.ok
  | .laneCheckVector _ corrections _ => marksOk corrections
  | .blockEnd obs => obs.all BlockObs.ok
  -- words of host writes
  | .portStatus h _ _ w => hostWordOk h 16 w
  | .portCfg h _ _ w => hostWordOk h 16 w
  | .decConfig h _ w => hostWordOk h 8 w
  | .pointCfg h _ w => hostWordOk h 16 w
  | .evStatus h _ w => hostWordOk h 32 w
  | .latClear h w => hostWordOk h 8 w
  | .laneMap h _ w => hostWordOk h 8 w
  | .pulseCfg h _ w => hostWordOk h 16 w
  | .meterConst h _ w => hostWordOk h 32 w
  | .mdReset h _ w => hostWordOk h 8 w
  | .dmdCfg h w => hostWordOk h 8 w
  | .calZero h mask => hostWordOk h 7 mask
  | .calGain h mask => hostWordOk h 7 mask
  | .inject h _ w => hostWordOk h 32 w
  | .coupleCfg h _ w => hostWordOk h 16 w
  | .entry h _ _ w => hostWordOk h 64 w
  | .counterClear h w => hostWordOk h 8 w
  | .scratchGroup h _ _ w => hostWordOk h 64 w
  | .ringAck h w => hostWordOk h 32 w
  | .dispPoint h w => hostWordOk h 8 w
  | .tamperStatus h w => hostWordOk h 16 w
  | .stringCfg h _ w => hostWordOk h 64 w
  | .stringClear h w => hostWordOk h 8 w
  | .draftCoefficients h k _ v => requesterOk h && k.ok v
  | .timeStep h v => requesterOk h && fitsI 64 v
  | .utcOffset h v => requesterOk h && fitsI 16 v
  | .hostData h _ data => requesterOk h && payloadOk data
  | .hostImage h image => requesterOk h && payloadOk image
  | .drvFault h bits => requesterOk h && payloadOk bits
  | .scratchPage h _ data _ => requesterOk h && payloadOk data
  -- commands of hosts without a word
  | .calBegin h _ _ | .calPhase h | .calDrop h _ | .calCommit h | .calAbort h | .auxCalBegin h _ _ | .auxCalZero h | .auxCalFull h
  | .auxCalCommit h | .auxCalAbort h | .sessionOpen h _ | .sessionClose h _ | .serviceExit h | .authChallenge h | .tableauOpen h
  | .streamStop h | .siteOpen h | .siteClose h | .substitute h _ | .restore h _ => requesterOk h
  | .clearMarks h a => authOk h a
  | .clearLockdown h a => authOk h a
  | .blowFuse h _ a => authOk h a
  | .enterService h a => authOk h a
  | .sealCmd h a => authOk h a
  | .read h index sub => requesterOk h && fitsU 16 index && fitsU 8 sub
  | .write h index sub data => requesterOk h && fitsU 16 index && fitsU 8 sub && payloadOk data
  | .tableauRead h index sub id => requesterOk h && fitsU 16 index && fitsU 8 sub && fitsU 16 id
  | .tableauClose h id => requesterOk h && fitsU 16 id
  | .batch h payload => requesterOk h && payloadOk payload
  | .streamStart h mask divisor src => requesterOk h && fitsU 64 mask && fitsU 16 divisor && fitsU 8 src
  -- occurrences inside the device
  | .twinEvaluation _ fault => faultOk fault
  | .auxConversionEnd _ code _ _ => fitsI 25 code
  | .auxSelfCheck dev => decide (dev.length ≤ 8)
  | .auxCalBurst codes => decide (codes.length ≤ 256) && codes.all (fitsI 25)
  | .sealKeygenDone failed => decide (failed ≤ 3)
  -- the links
  | .canFrame _ id data => fitsU 29 id && decide (data.length ≤ 64)
  | .canBusError _ weight => fitsU 8 weight
  -- the Thiber link
  | .train _ seq serial keyId port _ _ => fitsU 8 seq && decide (serial.length = 8) && fitsU 32 keyId && fitsU 8 port
  | .pending _ seq => fitsU 8 seq
  | .census _ seq f => fitsU 8 seq && f.ok
  | .numbering _ seq first size depth => fitsU 8 seq && fitsU 16 first && fitsU 16 size && fitsU 8 depth
  | .sync _ seq f t2 => fitsU 8 seq && f.ok && fitsU 64 t2
  | .delayReq _ seq t3 t4 => fitsU 8 seq && fitsU 64 t3 && fitsU 64 t4
  | .delayResp _ seq t3 t4 => fitsU 8 seq && fitsU 64 t3 && fitsU 64 t4
  | .tstep _ seq e step _ => fitsU 8 seq && fitsU 64 e && fitsI 64 step
  | .vpReport _ seq f => fitsU 8 seq && f.ok
  | .site _ seq op id f limit => fitsU 8 seq && fitsU 8 op && fitsU 16 id && fitsU 64 f && fitsU 16 limit
  | .siteAck _ seq id frozen unlocked missed => fitsU 8 seq && fitsU 16 id && fitsU 16 frozen && fitsU 16 unlocked && fitsU 16 missed
  | .join _ seq serial members prevFirst => fitsU 8 seq && decide (serial.length = 8) && fitsU 16 members && fitsU 16 prevFirst
  | .grant _ seq serial first reason => fitsU 8 seq && decide (serial.length = 8) && fitsU 16 first && fitsU 8 reason
  -- operands that any value fits
  | .powerGood _ | .ordinaryResolved | .recallEnd | .recallTimeout | .powerFailDetect _ _ | .forcedStep | .holdupSaveComplete
  | .writeInhibit _ _ | .shadowWarm _ | .latencyInterval | .substituteBoundary _ | .nettingStep _ | .offPointApply _ | .windowPublish _
  | .eventRecord | .linkCheckFail _ _ | .pulseRise _ | .pulseFall _ | .pulseGapEnd _ | .demandIntervalEnd | .checkpointDue
  | .checkpointWritten | .tiUpdate _ | .calStepEnd | .auxPassStart _ | .auxDelayEnd _ | .auxStartupDone _ | .auxPowerDown _
  | .auxResultWrite _ _ | .sramAccess _ | .scrubWriteback _ | .marchStart | .marchPhaseEnd _ | .marchRetry | .bankSubRegionDone _
  | .sweepRead _ _ _ _ _ _ | .nvmCycleEnd _ | .patrolRead _ | .journalUnitStart | .journalCommit | .journalRetire | .recordCopyWritten
  | .signStart | .signatureDone | .signWaitTimeout _ | .rngFailure _ | .rngStartupDone | .frameBoundary _ | .compensationEnd _
  | .readback _ | .pumpRegulated _ _ | .pumpOvervoltage | .displayWake _ | .bandTimeout | .tamperStrobe _ _ _ _ | .light _ | .glitch _
  | .refClock _ | .rtcClock _ _ | .vbatCheck _ _ | .dieTempCheck _ _ | .svcStrap | .tamperWindowExpiry _ _ | .tamperDecision
  | .sealFuseSet _ | .svcChange _ | .serviceMaxExpiry | .authChallengeExpiry | .spiSend _ | .spiFetch _ | .canReassemblyTimeout
  | .canTransmit | .canBusoffRecovery | .tableauComplete | .tableauTimeout | .streamFrameReady | .trainSend _ | .linkDown _ _
  | .pendingSend | .censusSend | .censusTimeout _ _ | .syncSend | .delayReqSend | .indexAdopt | .holdoverExpiry | .vpReportSend
  | .siteAckSend | .siteLimitExpiry | .joinRetry | .laneRetestDone _ | .lightFall _ | .backupDomainReset | .corruptedLinkFrame _ => true

end Sys2Proof
end

