-- ==== Sys2Proof/Laws/PerInstr.lean ====
section
/-! SUPPORT. What holds of every command as syntax: a well-formed host command is a request whose TAG is one byte and whose payload a message can
carry (R380), sent by its own requester. One lemma per constructor. -/

namespace Sys2Proof.Laws.Wf

open Sys2Proof Sys2Proof.Machine
set_option Elab.async false

/-- A well-formed host command's request carries its requester's TAG, of one byte, and at most 4,096 bytes. -/
def Statement (i : Instr) : Prop :=
  wellFormed i = true → ∀ (l : Link) (m : Message), hostRequest i = some (l, m) →
    m.tag < 256 ∧ m.payload.length ≤ 4096 ∧ ∃ h, i.host? = some h ∧ l = h.link ∧ m.tag = h.tag

theorem silent {i : Instr} (h : hostRequest i = none) : Statement i := fun _ l m e => by rw [h] at e; cases e

theorem sent {i : Instr} (h : Requester) (op idx sub : Nat) (b : List Byte) (hr : hostRequest i = some (requestOf h op idx sub b))
    (hh : i.host? = some h) (hw : wellFormed i = true → h.tag < 256 ∧ b.length ≤ 4096) : Statement i := fun w l m e => by
  rw [hr] at e
  cases e
  exact ⟨(hw w).1, (hw w).2, h, hh, rfl, rfl⟩

theorem tag_lt {h : Requester} (w : requesterOk h = true) : h.tag < 256 := by simpa [requesterOk, fitsU] using w

theorem word_tag {h : Requester} {n w : Nat} (o : hostWordOk h n w = true) : h.tag < 256 := by
  simp [hostWordOk, requesterOk, fitsU] at o; exact o.1

theorem auth_ok {h : Requester} {a : Auth} (o : authOk h a = true) : h.tag < 256 ∧ a.challenge.length = 16 := by
  simp [authOk, requesterOk, Auth.ok, fitsU] at o; exact ⟨o.1, o.2.1.1⟩

theorem authBytes_length {idx : Nat} {a : Auth} {b : List Byte} (h : a.challenge.length = 16) (hb : b.length ≤ 4) :
    (State.authBytes idx a b).length ≤ 4096 := by simp [State.authBytes, h]; omega

theorem powerGood (time : Nat) : Statement (.powerGood time) := silent rfl
theorem recallBegin (time : Nat) (addr : Fin 8) (ftm : Bool) (fuseMap : Nat) (fuseAgain : Nat) (stat : StatuteObs) : Statement (.recallBegin time addr ftm fuseMap fuseAgain stat) := silent rfl
theorem privilegedResolved (time : Nat) (fault : Option Nat) : Statement (.privilegedResolved time fault) := silent rfl
theorem ordinaryResolved : Statement .ordinaryResolved := silent rfl
theorem selfTestsDone (retests : List Retest) (kat : Option Nat) : Statement (.selfTestsDone retests kat) := silent rfl
theorem recallEnd : Statement .recallEnd := silent rfl
theorem recallTimeout : Statement .recallTimeout := silent rfl
theorem powerFailDetect (time : Nat) (clampNs : Nat) : Statement (.powerFailDetect time clampNs) := silent rfl
theorem forcedStep : Statement .forcedStep := silent rfl
theorem holdupSaveComplete : Statement .holdupSaveComplete := silent rfl
theorem writeInhibit (items : Nat) (groups : Nat) : Statement (.writeInhibit items groups) := silent rfl
theorem samplePeriod (bits : List Nat) : Statement (.samplePeriod bits) := silent rfl
theorem sampleRelease (p : Fin 8) (c : Fin 7) (o : LaneObs) : Statement (.sampleRelease p c o) := silent rfl
theorem laneCheckVector (l : Fin 5) (corrections : List Nat) (uncorrectable : Bool) : Statement (.laneCheckVector l corrections uncorrectable) := silent rfl
theorem shadowWarm (p : Fin 8) : Statement (.shadowWarm p) := silent rfl
theorem latencyInterval : Statement .latencyInterval := silent rfl
theorem substituteBoundary (p : Fin 8) : Statement (.substituteBoundary p) := silent rfl
theorem nettingStep (p : Fin 8) : Statement (.nettingStep p) := silent rfl
theorem offPointApply (p : Fin 8) : Statement (.offPointApply p) := silent rfl
theorem windowPublish (p : Fin 8) : Statement (.windowPublish p) := silent rfl
theorem eventRecord : Statement .eventRecord := silent rfl
theorem blockEnd (obs : List BlockObs) : Statement (.blockEnd obs) := silent rfl
theorem linkCheckFail (m : Fin 60) (check : LinkCheck) : Statement (.linkCheckFail m check) := silent rfl
theorem portStatus (h : Requester) (p : Fin 8) (c : Fin 7) (w : Nat) : Statement (.portStatus h p c w) :=
  sent h _ _ _ _ rfl rfl fun w => ⟨word_tag w, by simp⟩
theorem portCfg (h : Requester) (p : Fin 8) (c : Fin 7) (w : Nat) : Statement (.portCfg h p c w) :=
  sent h _ _ _ _ rfl rfl fun w => ⟨word_tag w, by simp⟩
theorem decConfig (h : Requester) (p : Fin 8) (w : Nat) : Statement (.decConfig h p w) :=
  sent h _ _ _ _ rfl rfl fun w => ⟨word_tag w, by simp⟩
theorem pointCfg (h : Requester) (p : Fin 8) (w : Nat) : Statement (.pointCfg h p w) :=
  sent h _ _ _ _ rfl rfl fun w => ⟨word_tag w, by simp⟩
theorem evStatus (h : Requester) (p : Fin 8) (w : Nat) : Statement (.evStatus h p w) :=
  sent h _ _ _ _ rfl rfl fun w => ⟨word_tag w, by simp⟩
theorem latClear (h : Requester) (w : Nat) : Statement (.latClear h w) :=
  sent h _ _ _ _ rfl rfl fun w => ⟨word_tag w, by simp⟩
theorem laneMap (h : Requester) (p : Fin 8) (w : Nat) : Statement (.laneMap h p w) :=
  sent h _ _ _ _ rfl rfl fun w => ⟨word_tag w, by simp⟩
theorem pulseRise (m : Fin 8) : Statement (.pulseRise m) := silent rfl
theorem pulseFall (m : Fin 8) : Statement (.pulseFall m) := silent rfl
theorem pulseGapEnd (m : Fin 8) : Statement (.pulseGapEnd m) := silent rfl
theorem pulseCfg (h : Requester) (m : Fin 8) (w : Nat) : Statement (.pulseCfg h m w) :=
  sent h _ _ _ _ rfl rfl fun w => ⟨word_tag w, by simp⟩
theorem meterConst (h : Requester) (m : Fin 8) (w : Nat) : Statement (.meterConst h m w) :=
  sent h _ _ _ _ rfl rfl fun w => ⟨word_tag w, by simp⟩
theorem demandIntervalEnd : Statement .demandIntervalEnd := silent rfl
theorem mdReset (h : Requester) (p : Fin 8) (w : Nat) : Statement (.mdReset h p w) :=
  sent h _ _ _ _ rfl rfl fun w => ⟨word_tag w, by simp⟩
theorem dmdCfg (h : Requester) (w : Nat) : Statement (.dmdCfg h w) :=
  sent h _ _ _ _ rfl rfl fun w => ⟨word_tag w, by simp⟩
theorem checkpointDue : Statement .checkpointDue := silent rfl
theorem checkpointWritten : Statement .checkpointWritten := silent rfl
theorem tiUpdate (p : Fin 8) : Statement (.tiUpdate p) := silent rfl
theorem calBegin (h : Requester) (p : Fin 8) (q : Fin 4) : Statement (.calBegin h p q) :=
  sent h _ _ _ _ rfl rfl fun w => by simp [wellFormed, requesterOk, fitsU] at w; simp; omega
theorem calZero (h : Requester) (mask : Nat) : Statement (.calZero h mask) :=
  sent h _ _ _ _ rfl rfl fun w => ⟨word_tag w, by simp⟩
theorem calGain (h : Requester) (mask : Nat) : Statement (.calGain h mask) :=
  sent h _ _ _ _ rfl rfl fun w => ⟨word_tag w, by simp⟩
theorem calPhase (h : Requester) : Statement (.calPhase h) :=
  sent h _ _ _ _ rfl rfl fun w => by simp [wellFormed, requesterOk, fitsU] at w; simp; omega
theorem calDrop (h : Requester) (q : Fin 4) : Statement (.calDrop h q) :=
  sent h _ _ _ _ rfl rfl fun w => by simp [wellFormed, requesterOk, fitsU] at w; simp; omega
theorem calCommit (h : Requester) : Statement (.calCommit h) :=
  sent h _ _ _ _ rfl rfl fun w => by simp [wellFormed, requesterOk, fitsU] at w; simp; omega
theorem calAbort (h : Requester) : Statement (.calAbort h) :=
  sent h _ _ _ _ rfl rfl fun w => by simp [wellFormed, requesterOk, fitsU] at w; simp; omega
theorem calStepEnd : Statement .calStepEnd := silent rfl
theorem draftCoefficients (h : Requester) (kind : DraftKind) (c : Fin 7) (v : Int) : Statement (.draftCoefficients h kind c v) := by
  cases kind <;> refine sent h _ _ _ _ rfl rfl fun w => ?_ <;> simp [wellFormed, requesterOk, fitsU] at w <;> exact ⟨w.1, by simp⟩
theorem twinEvaluation (i : Nat) (fault : Option Nat) : Statement (.twinEvaluation i fault) := silent rfl
theorem auxPassStart (l : Fin 3) : Statement (.auxPassStart l) := silent rfl
theorem auxDelayEnd (l : Fin 3) : Statement (.auxDelayEnd l) := silent rfl
theorem auxStartupDone (a : Fin 8) : Statement (.auxStartupDone a) := silent rfl
theorem auxPowerDown (a : Fin 8) : Statement (.auxPowerDown a) := silent rfl
theorem auxConversionEnd (a : Fin 8) (code : Int) (edge : Nat) (waits : Nat) : Statement (.auxConversionEnd a code edge waits) := silent rfl
theorem auxResultWrite (l : Fin 3) (injection : Bool) : Statement (.auxResultWrite l injection) := silent rfl
theorem auxSelfCheck (dev : List Nat) : Statement (.auxSelfCheck dev) := silent rfl
theorem inject (h : Requester) (l : Fin 3) (w : Nat) : Statement (.inject h l w) :=
  sent h _ _ _ _ rfl rfl fun w => ⟨word_tag w, by simp⟩
theorem coupleCfg (h : Requester) (l : Fin 3) (w : Nat) : Statement (.coupleCfg h l w) :=
  sent h _ _ _ _ rfl rfl fun w => ⟨word_tag w, by simp⟩
theorem entry (h : Requester) (l : Fin 3) (e : Fin 16) (w : Nat) : Statement (.entry h l e w) :=
  sent h _ _ _ _ rfl rfl fun w => ⟨word_tag w, by simp⟩
theorem auxCalBegin (h : Requester) (input : Fin 32) (l : Fin 3) : Statement (.auxCalBegin h input l) :=
  sent h _ _ _ _ rfl rfl fun w => by simp [wellFormed, requesterOk, fitsU] at w; simp; omega
theorem auxCalZero (h : Requester) : Statement (.auxCalZero h) :=
  sent h _ _ _ _ rfl rfl fun w => by simp [wellFormed, requesterOk, fitsU] at w; simp; omega
theorem auxCalFull (h : Requester) : Statement (.auxCalFull h) :=
  sent h _ _ _ _ rfl rfl fun w => by simp [wellFormed, requesterOk, fitsU] at w; simp; omega
theorem auxCalCommit (h : Requester) : Statement (.auxCalCommit h) :=
  sent h _ _ _ _ rfl rfl fun w => by simp [wellFormed, requesterOk, fitsU] at w; simp; omega
theorem auxCalAbort (h : Requester) : Statement (.auxCalAbort h) :=
  sent h _ _ _ _ rfl rfl fun w => by simp [wellFormed, requesterOk, fitsU] at w; simp; omega
theorem auxCalBurst (codes : List Int) : Statement (.auxCalBurst codes) := silent rfl
theorem sramAccess (o : SramObs) : Statement (.sramAccess o) := silent rfl
theorem scrubWriteback (b : Fin 5) : Statement (.scrubWriteback b) := silent rfl
theorem marchStart : Statement .marchStart := silent rfl
theorem marchPhaseEnd (o : MarchObs) : Statement (.marchPhaseEnd o) := silent rfl
theorem marchRetry : Statement .marchRetry := silent rfl
theorem bankSubRegionDone (o : RegionObs) : Statement (.bankSubRegionDone o) := silent rfl
theorem sweepRead (b : Fin 5) (r : Fin 16) (w : Fin 512) (err : SymErr) (twin : SymErr) (busy : Bool) : Statement (.sweepRead b r w err twin busy) := silent rfl
theorem counterClear (h : Requester) (w : Nat) : Statement (.counterClear h w) :=
  sent h _ _ _ _ rfl rfl fun w => ⟨word_tag w, by simp⟩
theorem nvmCycleEnd (o : NvmObs) : Statement (.nvmCycleEnd o) := silent rfl
theorem patrolRead (o : PatrolObs) : Statement (.patrolRead o) := silent rfl
theorem journalUnitStart : Statement .journalUnitStart := silent rfl
theorem journalCommit : Statement .journalCommit := silent rfl
theorem journalRetire : Statement .journalRetire := silent rfl
theorem recordCopyWritten : Statement .recordCopyWritten := silent rfl
theorem scratchPage (h : Requester) (page : Fin 256) (data : List Byte) (cut : Option Nat) : Statement (.scratchPage h page data cut) :=
  sent h _ _ _ _ rfl rfl fun w => by simp [wellFormed, requesterOk, payloadOk, fitsU] at w; omega
theorem scratchGroup (h : Requester) (page : Fin 256) (g : Fin 32) (v : Nat) : Statement (.scratchGroup h page g v) :=
  sent h _ _ _ _ rfl rfl fun w => ⟨word_tag w, by simp⟩
theorem sessionOpen (h : Requester) (p : Fin 8) : Statement (.sessionOpen h p) :=
  sent h _ _ _ _ rfl rfl fun w => by simp [wellFormed, requesterOk, fitsU] at w; simp; omega
theorem sessionClose (h : Requester) (p : Fin 8) : Statement (.sessionClose h p) :=
  sent h _ _ _ _ rfl rfl fun w => by simp [wellFormed, requesterOk, fitsU] at w; simp; omega
theorem hostData (h : Requester) (p : Fin 8) (data : List Byte) : Statement (.hostData h p data) :=
  sent h _ _ _ _ rfl rfl fun w => by simp [wellFormed, requesterOk, payloadOk, fitsU] at w; omega
theorem ringAck (h : Requester) (w : Nat) : Statement (.ringAck h w) :=
  sent h _ _ _ _ rfl rfl fun w => ⟨word_tag w, by simp⟩
theorem signStart : Statement .signStart := silent rfl
theorem signatureDone : Statement .signatureDone := silent rfl
theorem signWaitTimeout (p : Fin 8) : Statement (.signWaitTimeout p) := silent rfl
theorem rngFailure (test : Fin 3) : Statement (.rngFailure test) := silent rfl
theorem rngStartupDone : Statement .rngStartupDone := silent rfl
theorem frameBoundary (lost : List (Nat × Int)) : Statement (.frameBoundary lost) := silent rfl
theorem compensationEnd (seg : Fin 192) : Statement (.compensationEnd seg) := silent rfl
theorem readback (codes : List Nat) : Statement (.readback codes) := silent rfl
theorem pumpRegulated (pos : Nat) (neg : Nat) : Statement (.pumpRegulated pos neg) := silent rfl
theorem pumpOvervoltage : Statement .pumpOvervoltage := silent rfl
theorem displayWake (codes : List Nat) : Statement (.displayWake codes) := silent rfl
theorem bandTimeout : Statement .bandTimeout := silent rfl
theorem hostImage (h : Requester) (image : List Byte) : Statement (.hostImage h image) :=
  sent h _ _ _ _ rfl rfl fun w => by simp [wellFormed, requesterOk, payloadOk, fitsU] at w; omega
theorem dispPoint (h : Requester) (w : Nat) : Statement (.dispPoint h w) :=
  sent h _ _ _ _ rfl rfl fun w => ⟨word_tag w, by simp⟩
theorem drvFault (h : Requester) (bits : List Byte) : Statement (.drvFault h bits) :=
  sent h _ _ _ _ rfl rfl fun w => by simp [wellFormed, requesterOk, payloadOk, fitsU] at w; omega
theorem tamperStrobe (time : Nat) (tsw0 : Bool) (tsw1 : Bool) (flds : Bool) : Statement (.tamperStrobe time tsw0 tsw1 flds) := silent rfl
theorem light (time : Nat) : Statement (.light time) := silent rfl
theorem glitch (time : Nat) : Statement (.glitch time) := silent rfl
theorem refClock (bad : Bool) : Statement (.refClock bad) := silent rfl
theorem rtcClock (time : Nat) (bad : Bool) : Statement (.rtcClock time bad) := silent rfl
theorem vbatCheck (time : Nat) (mv : Nat) : Statement (.vbatCheck time mv) := silent rfl
theorem dieTempCheck (time : Nat) (t : Int) : Statement (.dieTempCheck time t) := silent rfl
theorem svcStrap : Statement .svcStrap := silent rfl
theorem tamperWindowExpiry (n : Fin 16) (time : Nat) : Statement (.tamperWindowExpiry n time) := silent rfl
theorem tamperDecision : Statement .tamperDecision := silent rfl
theorem tamperStatus (h : Requester) (w : Nat) : Statement (.tamperStatus h w) :=
  sent h _ _ _ _ rfl rfl fun w => ⟨word_tag w, by simp⟩
theorem clearMarks (h : Requester) (a : Auth) : Statement (.clearMarks h a) :=
  sent h _ _ _ _ rfl rfl fun w => ⟨(auth_ok w).1, authBytes_length (auth_ok w).2 (by simp)⟩
theorem clearLockdown (h : Requester) (a : Auth) : Statement (.clearLockdown h a) :=
  sent h _ _ _ _ rfl rfl fun w => ⟨(auth_ok w).1, authBytes_length (auth_ok w).2 (by simp)⟩
theorem blowFuse (h : Requester) (n : Fin 16) (a : Auth) : Statement (.blowFuse h n a) :=
  sent h _ _ _ _ rfl rfl fun w => ⟨(auth_ok w).1, authBytes_length (auth_ok w).2 (by simp)⟩
theorem enterService (h : Requester) (a : Auth) : Statement (.enterService h a) :=
  sent h _ _ _ _ rfl rfl fun w => ⟨(auth_ok w).1, authBytes_length (auth_ok w).2 (by simp)⟩
theorem sealCmd (h : Requester) (a : Auth) : Statement (.sealCmd h a) :=
  sent h _ _ _ _ rfl rfl fun w => ⟨(auth_ok w).1, authBytes_length (auth_ok w).2 (by simp)⟩
theorem sealKeygenDone (failed : Nat) : Statement (.sealKeygenDone failed) := silent rfl
theorem sealFuseSet (stat : StatuteObs) : Statement (.sealFuseSet stat) := silent rfl
theorem serviceExit (h : Requester) : Statement (.serviceExit h) :=
  sent h _ _ _ _ rfl rfl fun w => by simp [wellFormed, requesterOk, fitsU] at w; simp; omega
theorem svcChange (level : Bool) : Statement (.svcChange level) := silent rfl
theorem serviceMaxExpiry : Statement .serviceMaxExpiry := silent rfl
theorem authChallenge (h : Requester) : Statement (.authChallenge h) :=
  sent h _ _ _ _ rfl rfl fun w => by simp [wellFormed, requesterOk, fitsU] at w; simp; omega
theorem authChallengeExpiry : Statement .authChallengeExpiry := silent rfl
theorem timeStep (h : Requester) (v : Int) : Statement (.timeStep h v) :=
  sent h _ _ _ _ rfl rfl fun w => by simp [wellFormed, requesterOk, fitsU] at w; simp; omega
theorem utcOffset (h : Requester) (v : Int) : Statement (.utcOffset h v) :=
  sent h _ _ _ _ rfl rfl fun w => by simp [wellFormed, requesterOk, fitsU] at w; simp; omega
theorem spiSend (bytes : List Byte) : Statement (.spiSend bytes) := silent rfl
theorem spiFetch (clocked : Nat) : Statement (.spiFetch clocked) := silent rfl
theorem canFrame (kind : CanKind) (id : Nat) (data : List Byte) : Statement (.canFrame kind id data) := silent rfl
theorem canReassemblyTimeout : Statement .canReassemblyTimeout := silent rfl
theorem canTransmit : Statement .canTransmit := silent rfl
theorem canBusoffRecovery : Statement .canBusoffRecovery := silent rfl
theorem read (h : Requester) (index : Nat) (sub : Nat) : Statement (.read h index sub) :=
  sent h _ _ _ _ rfl rfl fun w => by simp [wellFormed, requesterOk, fitsU] at w; simp; omega
theorem write (h : Requester) (index : Nat) (sub : Nat) (data : List Byte) : Statement (.write h index sub data) :=
  sent h _ _ _ _ rfl rfl fun w => by simp [wellFormed, requesterOk, payloadOk, fitsU] at w; omega
theorem tableauOpen (h : Requester) : Statement (.tableauOpen h) :=
  sent h _ _ _ _ rfl rfl fun w => by simp [wellFormed, requesterOk, fitsU] at w; simp; omega
theorem tableauRead (h : Requester) (index : Nat) (sub : Nat) (id : Nat) : Statement (.tableauRead h index sub id) :=
  sent h _ _ _ _ rfl rfl fun w => by simp [wellFormed, requesterOk, fitsU] at w; simp; omega
theorem tableauClose (h : Requester) (id : Nat) : Statement (.tableauClose h id) :=
  sent h _ _ _ _ rfl rfl fun w => by simp [wellFormed, requesterOk, fitsU] at w; simp; omega
theorem tableauComplete : Statement .tableauComplete := silent rfl
theorem tableauTimeout : Statement .tableauTimeout := silent rfl
theorem batch (h : Requester) (payload : List Byte) : Statement (.batch h payload) :=
  sent h _ _ _ _ rfl rfl fun w => by simp [wellFormed, requesterOk, payloadOk, fitsU] at w; omega
theorem streamStart (h : Requester) (mask : Nat) (divisor : Nat) (src : Nat) : Statement (.streamStart h mask divisor src) :=
  sent h _ _ _ _ rfl rfl fun w => by simp [wellFormed, requesterOk, fitsU] at w; simp; omega
theorem streamStop (h : Requester) : Statement (.streamStop h) :=
  sent h _ _ _ _ rfl rfl fun w => by simp [wellFormed, requesterOk, fitsU] at w; simp; omega
theorem streamFrameReady : Statement .streamFrameReady := silent rfl
theorem train (k : Fin 4) (seq : Nat) (serial : List Byte) (keyId : Nat) (port : Nat) (ack : Bool) (root : Bool) : Statement (.train k seq serial keyId port ack root) := silent rfl
theorem trainSend (k : Fin 4) : Statement (.trainSend k) := silent rfl
theorem linkDown (k : Fin 4) (reason : Nat) : Statement (.linkDown k reason) := silent rfl
theorem pending (k : Fin 4) (seq : Nat) : Statement (.pending k seq) := silent rfl
theorem pendingSend : Statement .pendingSend := silent rfl
theorem census (k : Fin 4) (seq : Nat) (f : CensusFrame) : Statement (.census k seq f) := silent rfl
theorem censusSend : Statement .censusSend := silent rfl
theorem censusTimeout (k : Fin 4) (trained : Bool) : Statement (.censusTimeout k trained) := silent rfl
theorem numbering (k : Fin 4) (seq : Nat) (first : Nat) (size : Nat) (depth : Nat) : Statement (.numbering k seq first size depth) := silent rfl
theorem sync (k : Fin 4) (seq : Nat) (f : SyncFrame) (t2 : Nat) : Statement (.sync k seq f t2) := silent rfl
theorem syncSend : Statement .syncSend := silent rfl
theorem delayReq (k : Fin 4) (seq : Nat) (t3 : Nat) (t4 : Nat) : Statement (.delayReq k seq t3 t4) := silent rfl
theorem delayReqSend : Statement .delayReqSend := silent rfl
theorem delayResp (k : Fin 4) (seq : Nat) (t3 : Nat) (t4 : Nat) : Statement (.delayResp k seq t3 t4) := silent rfl
theorem indexAdopt : Statement .indexAdopt := silent rfl
theorem holdoverExpiry : Statement .holdoverExpiry := silent rfl
theorem tstep (k : Fin 4) (seq : Nat) (e : Nat) (step : Int) (valid : Bool) : Statement (.tstep k seq e step valid) := silent rfl
theorem vpReport (k : Fin 4) (seq : Nat) (f : VpFrame) : Statement (.vpReport k seq f) := silent rfl
theorem vpReportSend : Statement .vpReportSend := silent rfl
theorem siteOpen (h : Requester) : Statement (.siteOpen h) :=
  sent h _ _ _ _ rfl rfl fun w => by simp [wellFormed, requesterOk, fitsU] at w; simp; omega
theorem siteClose (h : Requester) : Statement (.siteClose h) :=
  sent h _ _ _ _ rfl rfl fun w => by simp [wellFormed, requesterOk, fitsU] at w; simp; omega
theorem site (k : Fin 4) (seq : Nat) (op : Nat) (id : Nat) (f : Nat) (limit : Nat) : Statement (.site k seq op id f limit) := silent rfl
theorem siteAck (k : Fin 4) (seq : Nat) (id : Nat) (frozen : Nat) (unlocked : Nat) (missed : Nat) : Statement (.siteAck k seq id frozen unlocked missed) := silent rfl
theorem siteAckSend : Statement .siteAckSend := silent rfl
theorem siteLimitExpiry : Statement .siteLimitExpiry := silent rfl
theorem join (k : Fin 4) (seq : Nat) (serial : List Byte) (members : Nat) (prevFirst : Nat) : Statement (.join k seq serial members prevFirst) := silent rfl
theorem grant (k : Fin 4) (seq : Nat) (serial : List Byte) (first : Nat) (reason : Nat) : Statement (.grant k seq serial first reason) := silent rfl
theorem joinRetry : Statement .joinRetry := silent rfl
theorem stringCfg (h : Requester) (i : Fin 8) (w : Nat) : Statement (.stringCfg h i w) :=
  sent h _ _ _ _ rfl rfl fun w => ⟨word_tag w, by simp⟩
theorem stringClear (h : Requester) (w : Nat) : Statement (.stringClear h w) :=
  sent h _ _ _ _ rfl rfl fun w => ⟨word_tag w, by simp⟩
theorem substitute (h : Requester) (l : Fin 4) : Statement (.substitute h l) :=
  sent h _ _ _ _ rfl rfl fun w => by simp [wellFormed, requesterOk, fitsU] at w; simp; omega
theorem restore (h : Requester) (l : Fin 4) : Statement (.restore h l) :=
  sent h _ _ _ _ rfl rfl fun w => by simp [wellFormed, requesterOk, fitsU] at w; simp; omega
theorem laneRetestDone (corrections : Nat) : Statement (.laneRetestDone corrections) := silent rfl
theorem lightFall (time : Nat) : Statement (.lightFall time) := silent rfl
theorem backupDomainReset : Statement .backupDomainReset := silent rfl
theorem canBusError (transmitter : Bool) (weight : Nat) : Statement (.canBusError transmitter weight) := silent rfl
theorem corruptedLinkFrame (k : Fin 4) : Statement (.corruptedLinkFrame k) := silent rfl

end Sys2Proof.Laws.Wf
end

