-- ==== Sys2Proof/Laws/Scratch.lean ====
section
/-! SUPPORT. Operations that can write the scratch memory, where they leave it alone: a host write of an entry below the scratch area, and a
group cycle that loses no group of it. -/

namespace Sys2Proof.Machine

open Sys2Proof
set_option Elab.async false

theorem State.writePath_same (s : State) (h : Requester) (d : Desc) {idx : Nat} (hi : idx < 0xF000) (sub : Nat) (data : List Byte) (cut : Option Nat) :
    Same s (s.writePath h d idx sub data cut).2 := by
  unfold State.writePath
  rw [if_neg (by omega)]
  split
  · exact (State.writeNow_touches ..).same
  · split
    · exact (State.sameWritten_touches ..).same
    · exact (State.queueUnit_touches ..).same

theorem State.writeAnswered_same (s : State) (h : Requester) {idx : Nat} (hi : idx < 0xF000) (sub : Nat) (data : List Byte) (cut : Option Nat) :
    Same s (s.writeAnswered h idx sub data cut) := by
  have r : Same s (s.runWrite h idx sub data cut).2 := by
    unfold State.runWrite
    split
    · exact .refl _
    · split
      · exact (State.command_touches ..).same
      · split
        · exact State.writePath_same s h _ hi ..
        · exact .refl _
  unfold State.writeAnswered
  dsimp only
  split
  · exact r.trans (State.replyWrite_touches ..).same
  · exact r

theorem State.execute_same (s : State) (h : Requester) (op idx sub : Nat) (payload : List Byte) (f : State → State) (hf : ∀ u, Same u (f u)) :
    Same s (s.execute h op idx sub payload f) := by
  unfold State.execute
  with_reducible exact .iteL (.after (State.admitted_touches ..).same (.refl _)) (.iteR (.after (State.turn_touches ..).same (.refl _)) (.after (hf ..)
    (.refl _)))

/-- A host write of an entry below the scratch area writes no byte of it. -/
theorem State.hostWrite_same (s : State) (h : Requester) {idx : Nat} (hi : idx < 0xF000) (sub : Nat) (data : List Byte) :
    Same s (s.hostWrite h idx sub data) := State.execute_same _ _ _ _ _ _ _ fun _ => State.writeAnswered_same _ _ hi ..

theorem State.draftWrite_same (s : State) (h : Requester) (kind : DraftKind) (c : Fin 7) (v : Int) : Same s (s.draftWrite h kind c v) := by
  unfold State.draftWrite
  cases kind <;> exact State.hostWrite_same _ _ (by decide) ..

theorem State.structureLost_same (s : State) {o : NvmObs} (ho : o.group.val < 0xE000) : Same s (s.structureLost o) := by
  unfold State.structureLost
  refine .ite (.refl _) (.ite (.ite (State.destroyKeys_touches ..).same (.refl _)) (.ite (.ite (State.integrity_touches ..).same (.refl _)) (.ite ?_
    (.ite ?_ (.ite (.ite (State.integrity_touches ..).same (.refl _)) (.ite ?_ (.ite ?_ (.ite (.ite (State.loseTally_touches ..).same (.refl _)) ?_))))))))
  · exact .upd (.refl _)
  · exact .upd (.refl _)
  · exact .upd (.refl _)
  · exact (State.setN_touches ..).same.trans (State.health_touches ..).same
  · dsimp only
    split
    · exact (State.loseSlot_touches ..).same.trans (State.answerAny_touches ..).same
    · rename_i hk
      split
      · exact .upd (.refl _)
      · split
        · exact (State.setN_touches ..).same
        · unfold logOfGroup at hk
          (repeat' split at hk) <;> first | omega | cases hk

theorem State.contentWrong_same (s : State) {o : NvmObs} (ho : o.group.val < 0xE000) : Same s (s.contentWrong o) := by
  unfold State.contentWrong
  dsimp only
  split
  · split
    · exact (State.fresh_touches ..).same.trans (State.setN_touches ..).same
    · exact .refl _
  split
  · omega
  split
  · exact .refl _
  · exact s.structureLost_same ho

theorem State.groupWrite_same (s : State) {o : NvmObs} (ho : o.err.wrong = true → o.group.val < 0xE000) : Same s (s.groupWrite o) := by
  have w (u : State) : Same u (u.rangeWrote (8 * o.group.val) 8) := (State.rangeWrote_touches ..).same
  have c (b : Nat) : Same s (s.groupCorrected o.group.val b false) := (State.groupCorrected_touches ..).same
  unfold State.groupWrite
  dsimp only
  split
  · exact (State.nvmError_touches ..).same
  split
  · exact w _
  · exact (c _).trans (w _)
  · rename_i e
    exact ((c _).trans (State.contentWrong_same _ (ho (by rw [e]; rfl)))).trans (w _)
  · rename_i e
    exact (State.contentWrong_same _ (ho (by rw [e]; rfl))).trans (w _)
  · rename_i e
    split
    · split
      · exact (((State.groupLost_touches ..).same.trans (State.nvmError_touches ..).same).trans (State.unitDropped_touches ..).same).trans
          (State.answerError_touches ..).same
      · exact (State.groupLost_touches ..).same.trans (State.nvmError_touches ..).same
    · exact ((State.groupLost_touches ..).same.trans (State.structureLost_same (o := { o with request := none }) _ (ho (by rw [e]; rfl)))).trans (w _)

theorem State.groupRead_same (s : State) {o : NvmObs} (ho : o.err.wrong = true → o.group.val < 0xE000) : Same s (s.groupRead o) := by
  have i : Same s (s.injectedBytes o.group.val).2 := (State.injectedBytes_touches ..).same
  have l (u : State) (b : Bool) : Same u (u.groupLost o.group.val b) := (State.groupLost_touches ..).same
  have c (u : State) (b : Nat) (j : Bool) : Same u (u.groupCorrected o.group.val b j) := (State.groupCorrected_touches ..).same
  have a (u : State) (h : Option Requester) (st : Status) : Same u (u.answerAny h st) := (State.answerAny_touches ..).same
  unfold State.groupRead
  dsimp only
  split
  · exact .ite i (.ite (i.trans (c ..)) ((i.trans (l ..)).trans (a ..)))
  · exact .ite (i.trans (c ..)) ((i.trans (l ..)).trans (a ..))
  · rename_i e
    exact (i.trans (l ..)).trans (State.structureLost_same _ (ho (by rw [e]; rfl)))
  · rename_i e
    exact i.trans (State.contentWrong_same _ (ho (by rw [e]; rfl)))
  · rename_i e
    exact (i.trans (c ..)).trans (State.contentWrong_same _ (ho (by rw [e]; rfl)))

/-- A group cycle writes no byte of the scratch memory unless it finds a group of the area wrong. -/
theorem State.nvmCycle_same (s : State) {o : NvmObs} (ho : storesScratch (.nvmCycleEnd o) = false) : Same s (s.nvmCycle o) := by
  have g : o.err.wrong = true → o.group.val < 0xE000 := by
    intro w
    simp [storesScratch, w] at ho
    omega
  have r : Same s (if s.mode = .holdup then s else s.remapCycle) := .ite (.refl _) (State.remapCycle_touches ..).same
  unfold State.nvmCycle
  dsimp only
  exact .ite (.ite (r.trans (State.groupWrite_same _ g)) (r.trans (State.groupRead_same _ g))) (.refl _)

/-- Nor does the patrol, which reads every group in turn. -/
theorem State.patrolRead_same (s : State) {err : GroupErr} (ho : err.wrong = false) (bothBad : Bool) (part : Nat) :
    Same s (s.patrolRead err bothBad part) := by
  have r : Same s s.remapCycle := (State.remapCycle_touches ..).same
  unfold State.patrolRead
  dsimp only
  split
  · exact .refl _
  · have n (u : State) (v : Int) : Same u (u.setN K.PATROL_NEXT v) := (State.setN_touches ..).same
    have w (u : State) : Same u (u.addWrap 32 K.PATROL_CYCLES 1) := (State.addWrap_touches ..).same
    have f (u : State) (g : Nat) (v : Int) (h : Same s u) : Same s (if g = 65535 then
        { (u.setN K.PATROL_NEXT v).addWrap 32 K.PATROL_CYCLES 1 with nvm := { (u.setN K.PATROL_NEXT v).nvm with patrolCounts := [] } }
        else u.setN K.PATROL_NEXT v) := .ite (.upd ((h.trans (n ..)).trans (w ..))) (h.trans (n ..))
    refine f _ _ _ ?_
    cases err with
    | none => exact r
    | one b => exact (r.trans (State.groupCorrected_touches ..).same).trans (State.rangeWrote_touches ..).same
    | two => cases ho
    | undetected => cases ho
    | miscorrected b => cases ho

end Sys2Proof.Machine
end

