-- ==== Sys2Proof/Machine/Limits.lean ====
section
/-! DEFINITION. Machine/Limits.lean: the limits that the spec sets to the taps it gives no values of: the decimation chain (R71, R72), the
interpolator (R81) and the resampler (R105). Each is a proposition about the constants of Config that a claim can take as a premise; the machine uses
none of them. A frequency is a fraction of the rate that a filter's samples come at. -/

namespace Sys2Proof.Machine

open Sys2Proof

/-- `re` and `im` are the response at frequency `x` of `n` taps, tap `k` delayed by `k - off` samples. -/
def Response (n : Nat) (tap : Nat → Int) (off x re im : ℝ) : Prop :=
  re = ((List.range n).map fun k => (tap k : ℝ) * Real.cos (2 * Real.pi * x * (k - off))).sum ∧
    im = -((List.range n).map fun k => (tap k : ℝ) * Real.sin (2 * Real.pi * x * (k - off))).sum

/-- The magnitude of `re` and `im` lies between `lo` and `hi` decibels above `one`. -/
def BetweenDb (one lo hi re im : ℝ) : Prop :=
  one * (10 : ℝ) ^ (lo / 20) ≤ Real.sqrt (re ^ 2 + im ^ 2) ∧ Real.sqrt (re ^ 2 + im ^ 2) ≤ one * (10 : ℝ) ^ (hi / 20)

/-- Bits per word of the sinc3 stage (R70). -/
def decimation (osr500 : Bool) : Nat := if osr500 then 500 else 250

/-- The gain of the whole chain at frequency `x` of the output rate, relative to its DC gain, lies between `lo` and `hi` decibels: the sinc3 stage
times the compensation stage. -/
def ChainBetween (osr500 : Bool) (x lo hi : ℝ) : Prop :=
  let dc := |(((List.range 33).map fun k => coeff osr500 k).sum : ℝ)|
  let sinc := (Real.sin (Real.pi * x) / (decimation osr500 * Real.sin (Real.pi * x / decimation osr500))) ^ 3
  0 < dc ∧ ∀ re im, Response 33 (coeff osr500) 0 x re im → BetweenDb dc lo hi (sinc * re) (sinc * im)

/-- The magnitude response of the decimation chain (R71, Table 02.3). -/
def ChainMagnitude : Prop := ∀ osr500 : Bool,
  (∀ x : ℝ, 0 < x → x ≤ 0.125 → ChainBetween osr500 x (-0.002) 0.002) ∧
    (∀ x : ℝ, 0.125 ≤ x → x ≤ 0.25 → ChainBetween osr500 x (-0.01) 0.01) ∧
    (∀ x : ℝ, 0.25 ≤ x → x ≤ 0.375 → ChainBetween osr500 x (-0.05) 0.05) ∧
    ChainBetween osr500 0.4 (-0.3) (-0.1) ∧ ChainBetween osr500 0.45 (-1.2) (-0.8) ∧ ChainBetween osr500 0.4875 (-2.8) (-2.2) ∧
    ChainBetween osr500 0.5 (-4) (-3)

/-- The group delay of the chain (R72), in microseconds: 18.675 or 37.425 of the sinc3 stage, and the compensation stage's, whose delay in samples
is the part of its tap-index-weighted response along its response. -/
def ChainDelay : Prop := ∀ (osr500 : Bool) (x re im kre kim : ℝ), 0 ≤ x → x ≤ 0.125 → Response 33 (coeff osr500) 0 x re im →
  Response 33 (fun k => k * coeff osr500 k) 0 x kre kim →
  let t : ℝ := (if osr500 then 37.425 else 18.675) + (if osr500 then 25 else 12.5) * ((re * kre + im * kim) / (re ^ 2 + im ^ 2))
  |t - (if osr500 then 38.6 else 19.9)| ≤ 0.02

/-- The interpolator at a trim with taps of its own (R81): against the exact delay of `t` steps, a gain within 5 ppm and a delay within 1 ns from DC
to 0.125 of the sample rate. -/
def InterpolatorLimits : Prop := ∀ (osr500 : Bool) (t : Nat) (x re im : ℝ), t ≤ 256 → 0 ≤ x → x ≤ 0.125 →
  Response 16 (interpWeight osr500 t) (t / (if osr500 then 512 else 256)) x re im →
  |Real.sqrt (re ^ 2 + im ^ 2) / 2 ^ 30 - 1| ≤ 0.000005 ∧ 0 < re ∧
    |im| ≤ re * Real.tan (2 * Real.pi * x * (if osr500 then 0.00004 else 0.00008))

/-- The resampler (R105): orders 0 to 127 within 0.002 dB of unity, and at least 80 dB of attenuation from the order that folds on (281 at 50 Hz,
213 at 60 Hz) to half the sample rate, at the nominal frequency and at every place between two samples. -/
def ResamplerLimits : Prop := ∀ (osr500 sixty : Bool) (frac : Nat) (f re im : ℝ), frac < (if osr500 then 2 ^ 29 else 2 ^ 28) → 0 ≤ f →
  Response 96 (Config.resampleTap osr500 sixty frac) 0 (f / (if osr500 then 40000 else 80000)) re im →
  let nominal : ℝ := if sixty then 60 else 50
  (f ≤ 127 * nominal → BetweenDb (2 ^ 30) (-0.002) 0.002 re im) ∧
    (nominal * (if sixty then 213 else 281) ≤ f → f ≤ (if osr500 then 20000 else 40000) →
      Real.sqrt (re ^ 2 + im ^ 2) ≤ 2 ^ 30 * (10 : ℝ) ^ (-(4 : ℝ)))

end Sys2Proof.Machine
end

