-- ==== Sys2Proof/Tests/Slice0.lean ====
section
/-! SUPPORT. Tests of the model: ill-formed commands that the checks refuse, worked values of the spec, and a witness for each statement that has
hypotheses: states and operands that meet them, clause by clause. -/

namespace Sys2Proof.Machine

open Sys2Proof

/-! ### Worked values of the spec -/

/-- The characters "123456789", over which R232 and R385 give the check values of their codes. -/
def digits19 : List Byte := [49, 50, 51, 52, 53, 54, 55, 56, 57]

/-- R385: the check value of the CRC-16 is 0x29B1. -/
theorem test_crc16_check : crc16 digits19 = 0x29B1 := by decide +kernel

/-- R232: the check value of CRC-32C is 0xE306_9283. -/
theorem test_crc32c_check : crc32c digits19 = 0xE3069283 := by decide +kernel

/-- R401: CAN_TIMING's default. -/
theorem test_reset_can_timing : State.reset.getN (keyOf 0x1060 3) = 0x1222 := by decide +kernel

/-- Chapter 04, example: KE_1 of 1,048,576 mV and 1,280,000 mA at OSR 250 (R120). -/
theorem test_scale_constant : keOf 1048576 1280000 false = 20496382304121724 := by decide +kernel

/-- Chapter 04, example: R_T of 2,000,000 nΩ and 3,930 ppm/K at 45.00 °C (R128). -/
theorem test_cable_resistance : cableR 2000000 3930 4500 = 2196500 := by decide +kernel

/-- Chapter 04, example: the energy of one sample of 800 V and 500 A (R121). -/
theorem test_sample_energy :
    energyOf [0] (Vector.replicate 3 20496382304121724) (fun c => if c = 3 then 52428800 else 102400000) = 5965232355556 := by decide +kernel

/-- Chapter 04, example: a sample at −100 A takes as much as one at 100 A gives (R121). -/
theorem test_sample_energy_reversed :
    energyOf [0] (Vector.replicate 3 20496382304121724) (fun c => if c = 3 then -10485760 else 102400000) = -1193046471111 := by decide +kernel

/-- Chapter 02, example: PORT_CFG 0x0119 names MOD_KIND 1, CAP_CYCLES 1, CAP_PHASE 4 and USE (Table 02.1). -/
theorem test_port_cfg_word : field 0x0119 9 8 = 1 ∧ field 0x0119 6 4 = 1 ∧ field 0x0119 3 1 = 4 ∧ bit 0x0119 0 = true := by decide +kernel

/-- Chapter 05, example: at 40.00 °C between the plates of 25.03 °C and 70.04 °C (R156). -/
theorem test_plate_between :
    interpPairs 4000 [(-1996, 4194494), (2503, 4194243), (7004, 4193927)] = 4194138 ∧
    interpPairs 4000 [(-1996, 8986), (2503, 9792), (7004, 10700)] = 10094 := by decide +kernel

/-- Chapter 05, example: L_code, GAIN and OFFSET of the run at 25 °C (R163). -/
theorem test_draft_coefficients :
    lCode 500000 1280000 = 204800 ∧ roundQ (2 ^ 22 * 204800 / 204803) = 4194243 ∧ roundQ ((153 / 4 : ℚ) * 4194243 / 2 ^ 14) = 9792 := by decide +kernel

/-- Chapter 06, example: the words of entries 0 to 2 (Table 06.3). -/
theorem test_aux_entries : entAvg 0x00104D0C = 1 ∧ entInputA 0x00104D0C = 12 ∧ entInputB 0x00104D0C = 13 ∧ entRepeat 0x000200020020800A = 2 ∧
    entAvg 0x000200020020800A = 2 ∧ field 0x000200020020800A 63 48 = 2 ∧ entInputA 0x0000000000420005 = 5 ∧ entAvg 0x0000000000420005 = 4 := by decide +kernel

/-- Chapter 13, example: the response to the read of EA_IMPORT of P3 is one frame, padded to 16 bytes (R391). -/
theorem test_can_response :
    State.canFields ⟨opRead, 0x37, 0x4300, 1, .ok, leBytes 8 1234567890⟩ = [[0, 0, 0x43, 1, 0, 8, 0, 0xD2, 0x02, 0x96, 0x49, 0, 0, 0, 0, 0]] := by
  decide +kernel

/-- Chapter 13, example: a response of 886 bytes takes one FIRST, 13 MIDDLE and one LAST frame, the last of 16 bytes with the segment byte 0xCE. -/
theorem test_can_segments :
    (State.canFields ⟨opRead, 0x38, 0xC811, 48, .ok, List.replicate 886 0⟩).length = 15 ∧
    (State.canFields ⟨opRead, 0x38, 0xC811, 48, .ok, List.replicate 886 0⟩).getLast?.map (fun f => (f.length, f.head?)) = some (16, some 0xCE) := by
  decide +kernel

/-- Chapter 10, example: 84 units of frame 20 at +15 V after 15 frames at −15 V and 5 at +15 V leave a ledger of −1,916 (R302). -/
theorem test_ledger : ledgerClamp (-15 * 200 + 5 * 200 + 84) = -1916 := by decide

/-- Chapter 09, example: OPEN_TIME of index 142,093,994,960,000 (R13). -/
theorem test_stamp : leBytes 10 (State.reset.stamp 142093994960000) = [0, 0, 0, 0, 0x59, 0x47, 0xDE, 0x69, 0, 0] := by decide +kernel

/-- Chapter 09, example: CLOSE_TIME has 1,776,176,297 s and 62,500 units of 16 ns (R13). -/
theorem test_stamp_fraction : State.reset.stamp 142094103760080 = 1776176297 * 2 ^ 32 + 62500 := by decide +kernel

/-- Chapter 15, example: STRING_CFG of stage 4 of L1 with AMOUNT 40 is a permitted value (Table 15.1). -/
theorem test_string_word : State.reset.stringCfgOk 0x800A000000040100 = true := by decide +kernel

/-! ### Ill-formed commands are refused -/

/-- A requester, one with a TAG of more than a byte (R380), and an authentication of full width. -/
def host : Requester := ⟨.spi, 255⟩
def hostBad : Requester := ⟨.can, 256⟩
def authGood : Auth := ⟨List.replicate 16 0, 2 ^ 256 - 1, 2 ^ 256 - 1⟩

/-- A TAG takes one byte (R380): no request passes with more. -/
theorem test_ill_formed_tag :
    ([.portStatus hostBad 0 0 0, .portCfg hostBad 0 0 0, .decConfig hostBad 0 0, .pointCfg hostBad 0 0, .evStatus hostBad 0 0, .latClear hostBad 1,
      .laneMap hostBad 0 0, .pulseCfg hostBad 0 0, .meterConst hostBad 0 1, .mdReset hostBad 0 1, .dmdCfg hostBad 0, .calBegin hostBad 0 0,
      .calZero hostBad 1, .calGain hostBad 1, .calPhase hostBad, .calDrop hostBad 0, .calCommit hostBad, .calAbort hostBad,
      .draftCoefficients hostBad .trim 0 0, .inject hostBad 0 0, .coupleCfg hostBad 0 0, .entry hostBad 0 0 0, .auxCalBegin hostBad 0 0,
      .auxCalZero hostBad, .auxCalFull hostBad, .auxCalCommit hostBad, .auxCalAbort hostBad, .counterClear hostBad 1, .scratchPage hostBad 0 [] none,
      .scratchGroup hostBad 0 0 0, .sessionOpen hostBad 0, .sessionClose hostBad 0, .hostData hostBad 0 [], .ringAck hostBad 0, .hostImage hostBad [],
      .dispPoint hostBad 0, .drvFault hostBad [], .tamperStatus hostBad 0, .clearMarks hostBad authGood, .clearLockdown hostBad authGood,
      .blowFuse hostBad 0 authGood, .enterService hostBad authGood, .sealCmd hostBad authGood, .serviceExit hostBad, .authChallenge hostBad,
      .timeStep hostBad 0, .utcOffset hostBad 0, .read hostBad 0 0, .write hostBad 0 0 [], .tableauOpen hostBad, .tableauRead hostBad 0 0 0,
      .tableauClose hostBad 0, .batch hostBad [], .streamStart hostBad 0 0 0, .streamStop hostBad, .siteOpen hostBad, .siteClose hostBad,
      .stringCfg hostBad 0 0, .stringClear hostBad 1, .substitute hostBad 0, .restore hostBad 0] : List Instr).all (fun c => !(wellFormed c)) = true := by
  decide +kernel

/-- Words of host writes one above their entry's width (chapters 02 to 15). -/
theorem test_ill_formed_words :
    ([.portStatus host 0 0 (2 ^ 16), .portCfg host 0 0 (2 ^ 16), .decConfig host 0 256, .pointCfg host 0 (2 ^ 16), .evStatus host 0 (2 ^ 32),
      .latClear host 256, .laneMap host 0 256, .pulseCfg host 0 (2 ^ 16), .meterConst host 0 (2 ^ 32), .mdReset host 0 256, .dmdCfg host 256,
      .calZero host 128, .calGain host 128, .inject host 0 (2 ^ 32), .coupleCfg host 0 (2 ^ 16), .entry host 0 0 (2 ^ 64), .counterClear host 256,
      .scratchGroup host 0 0 (2 ^ 64), .ringAck host (2 ^ 32), .dispPoint host 256, .tamperStatus host (2 ^ 16), .stringCfg host 0 (2 ^ 64),
      .stringClear host 256, .draftCoefficients host .gain 0 (2 ^ 32), .draftCoefficients host .gain 0 (-1), .draftCoefficients host .offset 0 (2 ^ 31),
      .draftCoefficients host .trim 0 (2 ^ 16), .timeStep host (2 ^ 63), .utcOffset host (-(2 ^ 15) - 1), .read host (2 ^ 16) 0, .read host 0 256,
      .write host (2 ^ 16) 0 [], .write host 0 256 [], .tableauRead host (2 ^ 16) 0 0, .tableauRead host 0 256 0, .tableauRead host 0 0 (2 ^ 16),
      .tableauClose host (2 ^ 16), .streamStart host (2 ^ 64) 1 0, .streamStart host 0 (2 ^ 16) 0, .streamStart host 0 1 256] : List Instr).all
      (fun c => !(wellFormed c)) = true := by decide +kernel

/-- Payloads above 4,096 bytes (R380). -/
theorem test_ill_formed_payloads :
    ([.hostData host 0 (List.replicate 4097 0), .hostImage host (List.replicate 4097 0), .drvFault host (List.replicate 4097 0),
      .scratchPage host 0 (List.replicate 4097 0) none, .write host 0 0 (List.replicate 4097 0), .batch host (List.replicate 4097 0)] : List Instr).all
      (fun c => !(wellFormed c)) = true := by decide +kernel

/-- Authentications with a short challenge, or an r or s of more than 256 bits (Table 12.10). -/
theorem test_ill_formed_authentication :
    ([⟨List.replicate 15 0, 0, 0⟩, ⟨List.replicate 16 0, 2 ^ 256, 0⟩, ⟨List.replicate 16 0, 0, 2 ^ 256⟩] : List Auth).all (fun a =>
      !(wellFormed (.clearMarks host a)) && !(wellFormed (.clearLockdown host a)) && !(wellFormed (.blowFuse host 0 a)) &&
      !(wellFormed (.enterService host a)) && !(wellFormed (.sealCmd host a))) = true ∧ wellFormed (.sealCmd host authGood) = true := by decide +kernel

/-- Observations beyond what the device can show: words of the fuses, faults, retests, bits of a period, a lane's times and marks, a block's counts, codes. -/
theorem test_ill_formed_observations :
    ([.recallBegin 0 0 false (2 ^ 32) 0 ⟨true, true, true, true⟩, .recallBegin 0 0 false 0 (2 ^ 32) ⟨true, true, true, true⟩,
      .privilegedResolved 0 (some 4), .twinEvaluation 0 (some 4), .selfTestsDone (List.replicate 6 ⟨0, 0⟩) none, .samplePeriod (List.replicate 61 0),
      .samplePeriod [2 ^ 250], .sampleRelease 0 0 ⟨2 ^ 32, 0, [], false, false, false, [], false, false⟩,
      .sampleRelease 0 0 ⟨0, 2 ^ 32, [], false, false, false, [], false, false⟩, .sampleRelease 0 0 ⟨0, 0, [256], false, false, false, [], false, false⟩,
      .sampleRelease 0 0 ⟨0, 0, [], false, false, false, [256], false, false⟩, .laneCheckVector 0 [256] false, .blockEnd [⟨0, 1025, 0, 0, 0⟩],
      .blockEnd [⟨0, 0, 256, 0, 0⟩], .blockEnd [⟨0, 0, 0, 2 ^ 16, 0⟩], .blockEnd [⟨0, 0, 0, 0, 2 ^ 16⟩], .auxConversionEnd 0 (2 ^ 24) 0 0,
      .auxSelfCheck (List.replicate 9 0), .auxCalBurst (List.replicate 257 0), .auxCalBurst [-(2 ^ 24) - 1], .sealKeygenDone 4,
      .canFrame .fd (2 ^ 29) [], .canFrame .fd 0 (List.replicate 65 0), .canBusError true 256] : List Instr).all (fun c => !(wellFormed c)) = true := by
  decide +kernel

/-- Thiber frames with a field too wide, or a serial of another length than eight (Tables 14.2 to 14.5). -/
theorem test_ill_formed_frames :
    ([.train 0 256 (List.replicate 8 0) 0 0 false false, .train 0 0 (List.replicate 7 0) 0 0 false false, .train 0 0 (List.replicate 8 0) (2 ^ 32) 0 false false,
      .train 0 0 (List.replicate 8 0) 0 256 false false, .pending 0 256, .census 0 256 ⟨List.replicate 8 0, 0, 0, 0, 0, 0, 0, 0⟩,
      .census 0 0 ⟨List.replicate 9 0, 0, 0, 0, 0, 0, 0, 0⟩, .census 0 0 ⟨List.replicate 8 0, 2 ^ 16, 0, 0, 0, 0, 0, 0⟩,
      .census 0 0 ⟨List.replicate 8 0, 0, 256, 0, 0, 0, 0, 0⟩, .census 0 0 ⟨List.replicate 8 0, 0, 0, 2 ^ 16, 0, 0, 0, 0⟩,
      .census 0 0 ⟨List.replicate 8 0, 0, 0, 0, 2 ^ 16, 0, 0, 0⟩, .census 0 0 ⟨List.replicate 8 0, 0, 0, 0, 0, 256, 0, 0⟩,
      .census 0 0 ⟨List.replicate 8 0, 0, 0, 0, 0, 0, 256, 0⟩, .census 0 0 ⟨List.replicate 8 0, 0, 0, 0, 0, 0, 0, 2 ^ 16⟩, .numbering 0 256 0 0 0,
      .numbering 0 0 (2 ^ 16) 0 0, .numbering 0 0 0 (2 ^ 16) 0, .numbering 0 0 0 0 256, .sync 0 256 ⟨0, 0, 0, 0, 0, true, 0⟩ 0,
      .sync 0 0 ⟨2 ^ 64, 0, 0, 0, 0, true, 0⟩ 0, .sync 0 0 ⟨0, 2 ^ 31, 0, 0, 0, true, 0⟩ 0, .sync 0 0 ⟨0, 0, 256, 0, 0, true, 0⟩ 0,
      .sync 0 0 ⟨0, 0, 0, 256, 0, true, 0⟩ 0, .sync 0 0 ⟨0, 0, 0, 0, 256, true, 0⟩ 0, .sync 0 0 ⟨0, 0, 0, 0, 0, true, 2 ^ 63⟩ 0,
      .sync 0 0 ⟨0, 0, 0, 0, 0, true, 0⟩ (2 ^ 64)] : List Instr).all (fun c => !(wellFormed c)) = true ∧
    ([.delayReq 0 256 0 0, .delayReq 0 0 (2 ^ 64) 0, .delayReq 0 0 0 (2 ^ 64), .delayResp 0 256 0 0, .delayResp 0 0 (2 ^ 64) 0, .delayResp 0 0 0 (2 ^ 64),
      .tstep 0 256 0 0 true, .tstep 0 0 (2 ^ 64) 0 true, .tstep 0 0 0 (2 ^ 63) true, .vpReport 0 256 ⟨0, 0, []⟩, .vpReport 0 0 ⟨2 ^ 64, 0, []⟩,
      .vpReport 0 0 ⟨0, 2 ^ 16, []⟩, .vpReport 0 0 ⟨0, 0, [(1, 0, 0, 0), (0, 0, 0, 0)]⟩, .vpReport 0 0 ⟨0, 0, [(0, 2 ^ 64, 0, 0)]⟩,
      .vpReport 0 0 ⟨0, 0, [(0, 0, 2 ^ 64, 0)]⟩, .vpReport 0 0 ⟨0, 0, [(0, 0, 0, 2 ^ 32)]⟩, .site 0 256 1 0 0 0, .site 0 0 256 0 0 0,
      .site 0 0 1 (2 ^ 16) 0 0, .site 0 0 1 0 (2 ^ 64) 0, .site 0 0 1 0 0 (2 ^ 16), .siteAck 0 256 0 0 0 0, .siteAck 0 0 (2 ^ 16) 0 0 0,
      .siteAck 0 0 0 (2 ^ 16) 0 0, .siteAck 0 0 0 0 (2 ^ 16) 0, .siteAck 0 0 0 0 0 (2 ^ 16), .join 0 256 (List.replicate 8 0) 0 0,
      .join 0 0 (List.replicate 7 0) 0 0, .join 0 0 (List.replicate 8 0) (2 ^ 16) 0, .join 0 0 (List.replicate 8 0) 0 (2 ^ 16),
      .grant 0 256 (List.replicate 8 0) 0 0, .grant 0 0 (List.replicate 9 0) 0 0, .grant 0 0 (List.replicate 8 0) (2 ^ 16) 0,
      .grant 0 0 (List.replicate 8 0) 0 256] : List Instr).all (fun c => !(wellFormed c)) = true := by decide +kernel

/-! ### Witnesses: what the hypotheses of the statements ask for exists -/

/-- The device in METERING, in SERVICE, in RECALL after its step 5, and in LOCKDOWN, each as reset leaves the rest. -/
def inMetering : State := { State.reset with mode := .metering }
def inServiceMode : State := { State.reset with mode := .service }
def inRecall : State := { State.reset with mode := .recalling, startup := { RecallSt.init with steps := 2 ^ 4 + 2 ^ 5 + 2 ^ 7 } }
def inLockdown : State := { State.reset with mode := .lockdown, attended := true }

/-- A request of `host` finds a link that is ready in every serving mode. -/
theorem witness_Ready : inMetering.Ready host ∧ inServiceMode.Ready host ∧ inLockdown.Ready ⟨.can, 0⟩ := by
  refine ⟨⟨?_, ?_, ?_⟩, ⟨?_, ?_, ?_⟩, ⟨?_, ?_, ?_⟩⟩ <;> decide +kernel

theorem witness_EmptyQueueIdles : State.reset.pending = [] := rfl

theorem witness_StepTakesOneCommand : ∃ t, step { inMetering with pending := [.latencyInterval, .marchStart] } = .next t := ⟨_, rfl⟩

/-- Both invariants hold in METERING, with and without a transition that waits, and a step follows. -/
theorem witness_StepKeepsMemory : inMetering.MemoryOk ∧ State.MemoryOk { inMetering with scratch := [(458752, 1), (524287, 255)] } := by
  constructor <;> unfold State.MemoryOk <;> decide +kernel

theorem witness_StepFollowsTable121 : inMetering.NextOk ∧ State.NextOk { inLockdown with modeNext := some .service } :=
  ⟨(fun _ h => nomatch h), (fun _ h => by cases h; rfl)⟩

theorem witness_ScratchKept : storesScratch (.latencyInterval) = false ∧ storesScratch (.write host 0xEFFF 0 []) = false ∧
    storesScratch (.nvmCycleEnd ⟨57343, false, .two, false, none, 0⟩) = false ∧ storesScratch (.patrolRead ⟨.one 0, false, 0⟩) = false := by decide

/-- Requests outside service, in factory test mode, in RECALL, and behind one and behind four others. -/
theorem witness_LinksSilentOutsideService :
    hostRequest (.read host 0x1000 0) = some (.spi, ⟨opRead, 255, 0x1000, 0, .ok, []⟩) ∧ State.reset.linksOn = false ∧ State.reset.heldBatches = [] := by
  decide +kernel

theorem witness_FactoryTestModeAnswersAccess : State.linksOn { inMetering with svc := { ModeSt.init with ftm := true } } = true := by decide +kernel

theorem witness_RecallAnswersRecalling : inRecall.mode = .recalling ∧ inRecall.svc.ftm = false ∧ inRecall.heldBatches = [] ∧
    (∃ e ∈ State.stepLimits, bit inRecall.startup.steps e.1 = false) := by decide +kernel

theorem witness_RequestsWaitTheirTurn :
    let one : Message := ⟨opRead, 1, 0x1000, 0, .ok, []⟩
    let s : State := { inMetering with spi := { LinkSt.init with queue := [one] } }
    let full : State := { inMetering with spi := { LinkSt.init with queue := List.replicate 4 one } }
    s.serves = true ∧ (∀ a ∈ (s.link .spi).queue, a.same ⟨opRead, 255, 0x1000, 0, .ok, []⟩ = false) ∧ (s.link .spi).queue ≠ [] ∧
    4 ≤ (full.link .spi).queue.length := by decide +kernel

theorem witness_ReadAnswersValue :
    findDesc 0x1000 0xFF = none ∧ (∃ d, findDesc 0xE025 0 = some d ∧ d.acc = .wo) ∧
    (∃ d, findDesc 0x1060 3 = some d ∧ d.acc ≠ .wo ∧ d.ty = .u 16) ∧ State.isMeasured 0x1060 3 = false ∧ inMetering.viewBytes 0x1060 3 = none := by
  refine ⟨by decide +kernel, ⟨_, by rfl, by decide +kernel⟩, ⟨_, by rfl, by decide +kernel, by decide +kernel⟩, by decide +kernel, by decide +kernel⟩

theorem witness_ChallengeReplaced : inMetering.getN K.RNG_STATE ≠ 0 ∧ (inMetering.setN K.RNG_STATE 0).getN K.RNG_STATE = 0 := by decide +kernel

/-- A tableau that is open, one whose image is complete. -/
def openTab : Tableau := ⟨1, 100, false, false, [], [], 0⟩
def doneTab : Tableau := { openTab with complete := true }

theorem witness_TableauOpens : inMetering.tab = none ∧ 0 ≤ ((inMetering.index * 12500 : Nat) : Int) + inMetering.getN K.INDEX_SHIFT ∧
    State.tab { inMetering with tab := some openTab } ≠ none := by decide +kernel

theorem witness_TableauReads : (findDesc 0x4000 1).isSome = true ∧ isFrozen (keyOf 0x4000 1) = true ∧ (findDesc 0x1060 3).isSome = true ∧
    isFrozen (keyOf 0x1060 3) = false ∧ openTab.id = 1 ∧ openTab.complete = false ∧ doneTab.complete = true := by decide +kernel

theorem witness_TableauCloses : openTab.held = [] ∧ openTab.site = false ∧ openTab.id ≠ 2 := by decide

theorem witness_TableauCompletes : State.linksOn { inMetering with tab := some { openTab with held := [(host, 0x4000, 1)] } } = true ∧
    openTab.complete = false ∧ openTab.site = false := by decide +kernel

/-- A batch of one READ; one of a WRITE that changes DISP_POINT, and one of a WRITE of a read-only entry. -/
def readBatch : List Byte := [1, 0, 0x00, 0x10, 0, 0, 0, 0]
def writeBatch : List Byte := [2, 0, 0x05, 0x80, 0, 0, 1, 0, 2]
def refusedBatch : List Byte := [2, 0, 0x00, 0x10, 0, 0, 1, 0, 5]

theorem witness_BatchAppliesAllOrNothing :
    State.batchStatus [] ≠ .ok ∧ State.batchStatus (List.replicate 4097 0) = .length ∧
    State.batchStatus readBatch = .ok ∧ State.batchStatus writeBatch = .ok ∧ State.batchStatus refusedBatch = .ok ∧
    (∀ m ∈ (State.parseSubs 32 (writeBatch ++ readBatch)).1, inMetering.subWaits m = false) ∧
    (∀ x ∈ inMetering.subChecks (State.parseSubs 32 (writeBatch ++ readBatch)).1, x.2 = .ok) ∧
    (∃ x ∈ inMetering.subChecks (State.parseSubs 32 (writeBatch ++ refusedBatch)).1, x.2 ≠ .ok) := by decide +kernel

theorem witness_StreamStarts : inMetering.stream.running = false ∧ inMetering.streamOk 1 80 0 = true ∧ inMetering.streamOk (2 ^ 55) 256 1 = true ∧ host.link = .spi := by decide +kernel

/-- A stream with a full frame: one word in each of its periods. -/
def fullStream : Stream := { Stream.init with
  running := true, mask := 1, begin := 0, samples := (List.range (State.framePeriods 1)).map fun k => (k * 64, 0) }

theorem witness_StreamFramesQueue : State.streamFull fullStream = true ∧ fullStream.frames.length < 16 ∧
    State.streamFull { fullStream with frames := List.replicate 16 (0, []) } = true := by decide +kernel

/-- SENDs too short, with a wrong CRC, and whole. -/
theorem witness_SpiSendReceives :
    let b : List Byte := [1, 7, 0, 0x10, 0, 0, 0, 0]
    (parseHeader b).2 = 0 ∧ b.length < 10 ∧ crc16 b ≠ leNat [0, 0] ∧
    crc16 ((State.withCrc b).take 8) = leNat (((State.withCrc b).drop 8).take 2) ∧ carries .spi (parseHeader b).1.op = true ∧
    inMetering.spi.queue.length < 4 := by decide +kernel

theorem witness_SpiFetchSends : inMetering.linksOn = true ∧ (State.withCrc inMetering.spiNext.bytes).length = 10 := by decide +kernel

/-- The frame of chapter 13's example at node 21, in bus-off, and of another node. -/
theorem witness_CanFramesReceived :
    let s : State := { inMetering with bus := { CanSt.init with nodeActive := 21 } }
    State.serves { s with bus := { s.bus with busOff := true } } = true ∧ s.bus.busOff = false ∧ s.bus.rxErr ≤ 127 ∧
    State.canBase 0x1A150137 = s.bus.baseActive ∧ State.canDir 0x1A150137 = 0 ∧ State.canNode 0x1A150137 = s.bus.nodeActive ∧
    State.canNode 0x1A160137 ≠ s.bus.nodeActive ∧ State.canDir 0x1A950137 ≠ 0 ∧ s.bus.segOpen = false ∧
    (State.canHeader (State.canOp 0x1A150137) (State.canTag 0x1A150137) [0, 0x43, 1, 0, 0, 0]).2 = 0 ∧
    carries .can (State.canOp 0x1A150137) = true := by decide +kernel

theorem witness_CanReassemblyAbandoned :
    State.serves { inMetering with bus := { CanSt.init with segOpen := true } } = true ∧ inMetering.can.queue = [] := by decide +kernel

theorem witness_CanTransmitsAndRecovers :
    let s : State := { inMetering with can := { LinkSt.init with out := [⟨opRead, 0, 0, 0, .ok, []⟩] } }
    s.linksOn = true ∧ s.bus.busOff = false ∧ s.can.out ≠ [] ∧ s.bus.txErr + 255 ≤ 255 ∧ 255 < s.bus.txErr + 256 ∧
    State.linksOn { s with bus := { CanSt.init with busOff := true } } = true := by decide +kernel

/-- WRITEs that each path takes: an entry that does not exist, a read-only one, a stored one with a new and with its old value, a flag entry. -/
theorem witness_WriteFollowsItsPath :
    findDesc 0x1000 0xFF = none ∧ (∃ d, findDesc 0x1000 1 = some d ∧ d.acc ≠ .wo ∧ inServiceMode.writeStatus [] d 0x1000 1 [0] ≠ .ok) ∧
    (∃ d, findDesc 0x8005 0 = some d ∧ d.acc ≠ .wo ∧ inServiceMode.writeStatus [] d 0x8005 0 [7] = .ok) ∧
    inServiceMode.unchanged (keyOf 0x8005 0) (.num 7) = false ∧ inServiceMode.unchanged (keyOf 0x8005 0) (.num 0) = true ∧
    State.isFlagEntry 0x8005 = false ∧ State.isVolatileEntry 0x8005 = false ∧
    (∃ d, findDesc 0xA010 0 = some d ∧ inServiceMode.writeStatus [] d 0xA010 0 [0, 0] = .ok) ∧ State.isFlagEntry 0xA010 = true ∧
    (∃ d, findDesc 0xD000 1 = some d ∧ inServiceMode.writeStatus [] d 0xD000 1 (leBytes 8 0) = .ok) ∧ State.isVolatileEntry 0xD000 = true := by
  refine ⟨by decide +kernel, ⟨_, by rfl, by decide +kernel, by decide +kernel⟩, ⟨_, by rfl, by decide +kernel, by decide +kernel⟩, by decide +kernel,
    by decide +kernel, by decide +kernel, by decide +kernel, ⟨_, by rfl, by decide +kernel⟩, by decide +kernel, ⟨_, by rfl, by decide +kernel⟩,
    by decide +kernel⟩

/-- Values at the ends of their ranges that the configuration rows take in SERVICE. -/
theorem witness_ConfigurationWritesQueueUnits :
    let s := inServiceMode
    let f := s.foreseen []
    s.sealed = false ∧ s.inService = true ∧ s.sessionOn 7 = false ∧ f.portCfgOk 2 3 0x0119 = true ∧ f.decConfigOk 7 1 = true ∧ f.decConfigOk 0 0 = true ∧
    f.pointCfgOk 0 0 = true ∧ f.loadOk 0 (f.cfgKind 0) (f.cfgOsr 0) 3 = true ∧ f.loadOk 0 (f.cfgKind 0) (f.cfgOsr 0) 0 = true ∧
    f.pulseCfgOk 0x731 = true ∧ f.pulseCfgOk 0x010 = true ∧ 5 % 8 ≤ 5 ∧ 13 % 8 ≤ 5 := by decide +kernel

theorem witness_SettingWritesQueueUnits :
    let s := inServiceMode.setN K.CAL_STATE 1
    243 < 256 ∧ 243 % 16 ≤ 3 ∧ inMask 0x0000000000420005 0xFFFF80FF0FF7DF1F = true ∧ (s.foreseen []).entryOk 0x0000000000420005 = true ∧ s.sessionOn 0 = false ∧
    ((s.setN K.RING_NEWEST 0).foreseen []).ringAckOk 0 = true ∧ s.inService = true ∧ s.getN K.CAL_STATE = 1 := by decide +kernel

theorem witness_FlagWritesClearBits :
    inMask 0x13FFF 0x13FFF = true ∧ (List.replicate 25 (0 : Byte)).length = 25 ∧ leNat (List.replicate 24 (255 : Byte) ++ [3]) < 2 ^ 194 ∧
    (inMetering.setN K.TAMPER_STATUS 1).getU K.TAMPER_STATUS &&& 0xFFFF ≠ 0 := by decide +kernel

theorem witness_VolatileWritesActAtOnce :
    leNat (List.replicate 24 (0 : Byte)) &&& (inServiceMode.foreseen []).regionMask false = 0 ∧ inServiceMode.inService = true ∧
    (inServiceMode.foreseen []).stringCfgOk 0 = true ∧ (inServiceMode.foreseen []).stringCfgOk 0x800A000000040100 = true ∧
    State.inService { inServiceMode with disp := { Display.init with host := { Region.init with target := 1, comp := some ⟨[], 1, 1, 0⟩ } } } = true ∧
    Region.running { Region.init with comp := some ⟨[], 1, 1, 0⟩ } = true := by decide +kernel

theorem witness_ClearCommandsZero : (0 : Nat) ≠ 1 ∧ 255 < 256 ∧ inServiceMode.getN K.STRING_TAUT = 0 := by decide +kernel

/-- An unsealed device without a key verifies an authentication of zeros that carries its challenge (R350). -/
def zeros : Auth := ⟨List.replicate 16 0, 0, 0⟩
def challenged (s : State) : State := { s with svc := { s.svc with challenge := some zeros.challenge, svc := true } }

theorem witness_AuthenticatedCommandsAct :
    (challenged inServiceMode).Authentic 0x1010 zeros (leBytes 1 2) ∧ (challenged inServiceMode).Authentic 0x1010 zeros (leBytes 1 3) ∧
    (challenged inLockdown).Authentic 0xA013 zeros (leBytes 4 2) ∧ (challenged inLockdown).Authentic 0xA013 zeros (leBytes 4 1) ∧
    (challenged inLockdown).Authentic 0xA013 zeros (leBytes 4 (3 + 256 * 15)) := by
  refine ⟨⟨?_, ?_, ?_⟩, ⟨?_, ?_, ?_⟩, ⟨?_, ?_, ?_⟩, ⟨?_, ?_, ?_⟩, ⟨?_, ?_, ?_⟩⟩ <;> decide +kernel

theorem witness_AuthenticatedCommandsAct_clauses :
    inServiceMode.sealing = false ∧ State.sealing { inServiceMode with twins := [.sealing host 0] } = true ∧
    inLockdown.clearOk = true ∧ inMetering.clearOk = false ∧ inLockdown.serviceAccess = true ∧ inMetering.serviceAccess = false ∧
    inLockdown.srcFused 15 = false ∧ (inLockdown.setN K.TDIS (2 ^ 15)).srcFused 15 = true ∧ (15 : Fin 16) ≠ 11 ∧ (15 : Fin 16) ≠ 13 := by decide +kernel

theorem witness_AuthenticationFailureRefuses : zeros.challenge.length = 16 ∧ inMetering.svc.challenge ≠ some zeros.challenge := by decide +kernel

/-- A calibration run on point 2 of kind DC, open, measuring and committing. -/
def run2 : CalRun :=
  ⟨2, 0, 1, none, Vector.replicate 7 none, Vector.replicate 7 none, [], false, false, false, false, 0, 0, []⟩
def dcPoint (s : State) : State := s.updPoint 2 fun x => { x with app := { x.app with cfg := 4, ports := Vector.replicate 7 0x0101 } }
def calOpen : State := { (dcPoint inServiceMode).setN K.CAL_STATE 1 with cal := some run2 }

theorem witness_CalibrationCommandsAct :
    inMetering.inService = false ∧ (inServiceMode.setN K.CAL_STATE 3).getN K.CAL_STATE = 3 ∧ calOpen.inService = true ∧ calOpen.mode = .service ∧
    (dcPoint inServiceMode).cal = none ∧ (dcPoint inServiceMode).getN K.CAL_STATE = 0 ∧ kindOf (dcPoint inServiceMode).points[(2 : Fin 8)].app.cfg ≠ 0 ∧
    calOpen.cal = some run2 ∧ calOpen.getN K.CAL_STATE = 1 ∧
    9 &&& ((maskOf allChans fun c => calOpen.points[run2.point].app.uses c) ^^^ 127) = 0 ∧
    calOpen.getN (K.SESSION_STATE run2.point) = 0 ∧ run2.valid % 16 ≠ 0 ∧ run2.tainted = false ∧ run2.committed = false := by decide +kernel

/-- PHASE needs an AC point (R162). -/
theorem witness_CalibrationCommandsAct_phase :
    isAc (kindOf (calOpen.updPoint 2 fun x => { x with app := { x.app with cfg := 3 } }).points[run2.point].app.cfg) = true := by decide +kernel

/-- An auxiliary run on input 5, with both sums kept. -/
def auxRun5 : AuxRun := ⟨5, 0, none, [], [], true, some (0, 0), some (65535, 65535), false⟩
def auxOpen : State := { inServiceMode.setN K.AUX_CAL_STATE 1 with auxRun := some auxRun5 }

theorem witness_AuxCalibrationCommandsAct :
    inMetering.inService = false ∧ auxOpen.inService = true ∧ inServiceMode.auxRun = none ∧ inServiceMode.sealedInput 5 = false ∧
    (State.setN inServiceMode K.FUSE_MAP (2 ^ 31)).sealed = true ∧ auxOpen.getN K.AUX_CAL_STATE = 1 ∧ auxRun5.committing = false ∧
    auxRun5.zero.isSome = true := by decide +kernel

theorem witness_InjectionAccepted :
    inMetering.getN (K.INJ_STATE 1) ≠ 1 ∧ inMetering.getN (K.INJ_STATE 1) ≠ 2 ∧ inMask (0x14 - 256 * field 0x14 9 8 + 256 * 0) 0x00FF731F = true ∧
    (inMetering.foreseen []).injectOk (0x14 - 256 * field 0x14 9 8 + 256 * 0) = true ∧ (inMetering.setN (K.INJ_STATE 1) 2).getN (K.INJ_STATE 1) = 2 := by
  decide +kernel

theorem witness_SessionCommandsAct :
    let s := dcPoint inMetering
    s.commitRuns 2 = false ∧ s.openOk 2 = true ∧ s.openOk 3 = false ∧ State.commitRuns { calOpen.setN K.CAL_STATE 3 with cal := some run2 } 2 = true ∧
    (s.setN (K.SESSION_STATE 2) 2).getN (K.SESSION_STATE 2) = 2 ∧ (s.setN (K.SESSION_STATE 2) 1).getN (K.SESSION_STATE 2) = 1 ∧
    s.sessions[(2 : Fin 8)].closing = false ∧ s.sessions[(2 : Fin 8)].desc = none ∧ s.points[(2 : Fin 8)].closing = none ∧
    s.getN (K.SESSION_STATE 2) ≠ 1 ∧ s.getN (K.SESSION_STATE 2) ≠ 2 := by decide +kernel

theorem witness_ServiceExitEndsService :
    inMetering.serviceAccess = false ∧ inServiceMode.serviceAccess = true ∧ inServiceMode.sealing = false ∧ inServiceMode.inService = true ∧
    inLockdown.serviceAccess = true ∧ inLockdown.inService = false ∧ State.sealing { inServiceMode with twins := [.sealing host 0] } = true := by
  decide +kernel

theorem witness_TimeStepIsTaken :
    inMetering.timeLocked = false ∧ ((inMetering.setN K.ROLE 2).setN K.TIME_STATE 3).timeLocked = true ∧
    (inMetering.setN K.RTC_VALID 1).getN K.RTC_VALID ≠ 0 ∧ inMetering.getN K.RTC_VALID = 0 ∧
    (1000000000 : Int).natAbs ≤ 1000000000 ∧ 1000000000 < (-1000000001 : Int).natAbs ∧ (2 ^ 46 : Int).natAbs ≤ 2 ^ 46 := by decide +kernel

theorem witness_LaneCommandsAct :
    let s := inServiceMode
    let r : State := { s with lanes := (s.lanes.set 0 { s.lanes[(0 : Fin 5)] with state := .retired }).set 4 { s.lanes[(4 : Fin 5)] with logical := some 0 } }
    inMetering.inService = false ∧ s.inService = true ∧ s.lanes[(0 : Fin 5)].state = .inService ∧ s.lanes[(4 : Fin 5)].state = .idle ∧ s.laneSub = none ∧
    s.servedBy 0 ≠ [] ∧ State.servedBy { s with points := s.points.map fun x => { x with phys := 1 } } 0 = [] ∧
    r.lanes[(0 : Fin 5)].state = .retired ∧ r.lanes[(4 : Fin 5)].logical ≠ none ∧ r.svc.retest = none := by decide +kernel

/-- The last bytes of the last page, a page with a group that cannot be written, and lengths outside 1 to 4,096. -/
theorem witness_ScratchWritesStore :
    let bad : State := { inMetering with nvm := { inMetering.nvm with bad := [65535] } }
    inMetering.nvm.writeInhibit = false ∧ inMetering.rangeBad (State.scratchAddr 255 0) 256 = false ∧ bad.rangeBad (State.scratchAddr 255 0) 256 = true ∧
    bad.rangeBad (State.scratchAddr 255 0) 248 = false ∧ bad.rangeBad (State.scratchAddr 255 248) 8 = true ∧ bad.rangeBad (State.scratchAddr 255 240) 8 = false ∧
    256 * 255 + 256 ≤ 65536 ∧ 65536 < 256 * 255 + 257 ∧
    State.serves { inMetering with nvm := { inMetering.nvm with writeInhibit := true } } = true := by decide +kernel

theorem witness_SiteCommandsAct :
    let root := inMetering.setN K.THB_CFG 0x16
    root.isRoot = true ∧ root.thb.site = none ∧ inMetering.isRoot = false ∧
    State.isRoot { root with thb := { root.thb with site := some ⟨0x8001, 0, 60, none, false⟩ } } = true ∧
    (root.setN K.SITE_ID 0xFFFE).getU K.SITE_ID = 0xFFFE ∧ root.getU K.SITE_ID < 0x8001 := by decide +kernel

theorem witness_RecallBegins :
    let on : State := { State.reset with startup := { RecallSt.init with steps := 2 } }
    State.reset.mode = .dormant ∧ bit State.reset.startup.steps 1 = false ∧ bit on.startup.steps 1 = true ∧ inMetering.mode ≠ .dormant := by decide +kernel

theorem witness_RecallStepsComplete :
    let a : State := { inRecall with startup := { RecallSt.init with steps := 2 ^ 4 } }
    a.mode = .recalling ∧ bit a.startup.steps 4 = true ∧ bit a.startup.steps 5 = false ∧ bit inRecall.startup.steps 7 = true ∧
    bit inRecall.startup.steps 11 = false ∧ bit inRecall.startup.steps 5 = true ∧ bit inRecall.startup.steps 10 = false ∧
    bit (setBit inRecall.startup.steps 11) 11 = true ∧ bit (setBit inRecall.startup.steps 10) 10 = true := by decide +kernel

theorem witness_RecallEnds :
    let all : State := { inRecall with startup := { RecallSt.init with steps := 2 ^ 13 - 1 } }
    State.recallSteps.all (fun i => bit all.startup.steps i) = true ∧ State.recallSteps.all (fun i => bit inRecall.startup.steps i) = false ∧
    all.decided ≠ .lockdown ∧ State.decided { all with modeNext := some .lockdown } = .lockdown := by decide +kernel

theorem witness_PowerFailEntersHoldup :
    inMetering.serves = true ∧ State.mode { inRecall with startup := { inRecall.startup with ckptWritten := true } } = .recalling ∧
    inRecall.startup.ckptWritten = false ∧ State.reset.mode = .dormant := by decide +kernel

/-- A save whose sections S0 to S3 are written, and one with its tail too. -/
def inHoldup (sections : Nat) : State :=
  { State.reset with mode := .holdup, store := { Store.init with saves := Vector.replicate 2 ⟨sections, 0, 0, 0, 0, none, none, none, [], [], []⟩ } }

theorem witness_HoldupEndsDormant :
    (inHoldup 15).mode = .holdup ∧ bit (inHoldup 15).store.saves[(inHoldup 15).saveSlot].sections 1 = true ∧
    bit (inHoldup 15).store.saves[(inHoldup 15).saveSlot].sections 4 = false ∧ bit (inHoldup 63).store.saves[(inHoldup 63).saveSlot].sections 4 = true ∧
    inMetering.mode ≠ .holdup := by decide +kernel

theorem witness_CheckpointsAlternate :
    let c : CkptSlot := ⟨false, 1, 1, 0, none⟩
    let w : State := { inMetering with store := { Store.init with writing := some c } }
    inMetering.serves = true ∧ inMetering.store.writing = none ∧ inMetering.platesWriting = false ∧ State.reset.serves = false ∧
    w.store.writing = some c ∧ w.svc.sealHistory = false ∧ w.nvm.writeInhibit = false ∧
    (∃ i : Fin 2, i.val = c.seq % 2) ∧ (∃ i : Fin 2, i.val ≠ c.seq % 2) := by decide +kernel

/-- Sums that give coefficients within their limits (R200). -/
theorem witness_AuxCalibrationCommandsAct_limits :
    let r : AuxRun := { auxRun5 with full := some (65536 * 4096, 2500000) }
    inServiceMode.auxCoefficients r = some (4194304, 0) ∧ (3774874 : Int) ≤ 4194304 ∧ (4194304 : Int) ≤ 4613734 ∧
    ((State.setN inServiceMode K.FUSE_MAP (2 ^ 31)).setN (K.PLATE_TEMP_SRC 0) 5).sealedInput 5 = true := by decide +kernel

/-- A boundary at index 80 on the DC point 2 that hands over a step metered in METERING, and one metered in LOCKDOWN (R143). -/
def closing2 : Closing :=
  ⟨⟨80, none⟩, true, { StepSum.zero 0 with f := -1, lastIdx := 79 }, Vector.replicate 3 0, 0, 0, 0, false, false, Span.zero, ⟨0, none⟩⟩

theorem witness_StepsBookEnergy :
    let s := (dcPoint inMetering).updPoint 2 fun x => { x with closing := some closing2 }
    inMetering.points[(2 : Fin 8)].closing = none ∧ s.points[(2 : Fin 8)].closing = some closing2 ∧ closing2.isStep = true ∧
    kindOf s.points[(2 : Fin 8)].app.cfg = 4 ∧ s.modeAt closing2.sums.lastIdx ≠ .lockdown ∧
    State.modeAt { s with modeHist := [(40, .lockdown)] } closing2.sums.lastIdx = .lockdown ∧
    Closing.isStep { closing2 with isStep := false } = false := by decide +kernel

theorem witness_StepsBookEnergy_off :
    kindOf (dcPoint inMetering).points[(2 : Fin 8)].app.cfg ≠ 0 ∧ kindOf inMetering.points[(2 : Fin 8)].app.cfg = 0 ∧ inMetering.index % 80 = 0 ∧
    inMetering.clocksOn = true ∧ State.index { inMetering with index := 79 } % 80 ≠ 0 ∧ State.reset.clocksOn = false := by decide +kernel

/-- Lanes, points that are warm and not, and a port of a used channel with its clock. -/
theorem witness_LanesAndPortsAreChecked :
    let s := (dcPoint inMetering).updPoint 2 fun x => { x with shadowed := 64 }
    let sub : State := { s with laneSub := some ⟨0, 4, [2], false⟩, mclk := Vector.replicate 15 true }
    s.clocksOn = true ∧ State.reset.clocksOn = false ∧ s.lanes[(0 : Fin 5)].state = .inService ∧ (2 : Fin 8) ∈ ([2] : List (Fin 8)) ∧
    64 ≤ sub.points[(2 : Fin 8)].shadowed ∧ (dcPoint inMetering).points[(2 : Fin 8)].shadowed < 64 ∧
    sub.physPort 2 3 = homePort 2 3 ∧ sub.points[(2 : Fin 8)].app.uses 3 = true ∧ sub.mclk[sub.clockGroup (homePort 2 3)] = true ∧
    sub.clkReturn (groupOf (homePort 2 3)) = false ∧ (sub.setN (K.MCLK_CFG (groupOf (homePort 2 3) + 1)) 1).clkReturn (groupOf (homePort 2 3)) = true ∧
    (∀ cond ∈ List.range 256, sub.linkString (homePort 2 3) cond = false) ∧ sub.portUsed (homePort 7 6) = false := by decide +kernel

theorem witness_LanesAndPortsAreChecked_faults :
    let bad : State := { inMetering with ports := inMetering.ports.set 17 { Port.init with phase := .fault, clean := 3 } }
    let good : State := { inMetering with ports := inMetering.ports.set 17 { Port.init with phase := .good } }
    bad.ports[(17 : Fin 60)].phase = .fault ∧ bad.ports[(17 : Fin 60)].partBlock = false ∧ bad.ports[(17 : Fin 60)].failedInBlock = false ∧
    bad.ports[(17 : Fin 60)].clean + 1 = 4 ∧ good.ports[(17 : Fin 60)].phase = .good ∧ good.spareOf 17 = none ∧ (51 : Nat) ≤ 51 ∧ 51 < 52 ∧ 972 < 973 := by
  decide +kernel

theorem witness_PulsesAndDemandRun :
    let p (ph : PulsePhase) : State := { inMetering with pulses := inMetering.pulses.set 0 { Pulse.init 0 with phase := ph } }
    let n : State := { inMetering with index := 72000000 }
    inMetering.pulses[(0 : Fin 8)].phase = .idle ∧ inMetering.serves = true ∧ (p .gap).pulses[(0 : Fin 8)].phase = .gap ∧
    (p .high).pulses[(0 : Fin 8)].phase = .high ∧ State.reset.serves = false ∧ inMetering.getU (K.PULSE_BACKLOG 1) = 0 ∧
    (inMetering.setN (K.PULSE_BACKLOG 1) 1).getU (K.PULSE_BACKLOG 1) ≠ 0 ∧
    inMetering.demandSlot (inMetering.instant inMetering.index) = inMetering.demandSlot (inMetering.instant (inMetering.index - 1)) ∧
    n.clocksOn = true ∧ n.mode ≠ .holdup ∧ n.demandSlot (n.instant n.index) ≠ n.demandSlot (n.instant (n.index - 1)) ∧
    kindOf inMetering.points[(0 : Fin 8)].app.cfg = 0 ∧ inMetering.points[(0 : Fin 8)].dmdFrom = none ∧
    kindOf (dcPoint inMetering).points[(2 : Fin 8)].app.cfg ≠ 0 := by decide +kernel

/-- A session's opening values and close data, all zero. -/
def desc0 : Descriptor :=
  ⟨0, 0, 0, 0, 0, Vector.replicate 10 0, Vector.replicate 10 0, Vector.replicate 7 ⟨0, 0, 0, 0, 0⟩, 0, 0, []⟩
def close0 : CloseData :=
  ⟨0, 0, 0, 0, 0, 0, 0, 0, 0, 0, none, Vector.replicate 10 0, Vector.replicate 7 ⟨0, 0, 0, 0, 0⟩, Vector.replicate 7 0, 0, 0, Grown.zero, 0, 0, 0⟩
def closingSession : State :=
  { inMetering.setN K.RNG_STATE 0 with
    sessions := inMetering.sessions.set 2 { Session.init with desc := some desc0, close := some close0 }
    sign := { SignSt.init with queue := [2] } }

theorem witness_SigningProceeds :
    let r : SignRun := ⟨2, 0, some (.unsigned 5), 0, []⟩
    closingSession.sign.queue = [2] ∧ closingSession.sign.run = none ∧ closingSession.serves = true ∧ closingSession.getN K.RNG_STATE = 0 ∧
    (∀ j ∈ closingSession.jobs, j.log ≠ .ring) ∧ r.key.isSome = true ∧ closingSession.sessions[(2 : Fin 8)].close = some close0 ∧
    closingSession.sessions[(2 : Fin 8)].desc = some desc0 ∧ (closingSession.setN K.RNG_STATE 2).getN K.RNG_STATE ≠ 0 ∧ (2 : Fin 8) ∈ closingSession.sign.queue ∧
    (3 : Fin 8) ∉ closingSession.sign.queue ∧ State.reset.mode = .dormant ∧ inMetering.mode ≠ .dormant := by decide +kernel

/-- The metrological region with a stencil of two frames in its first and in its last frame, with a compensation, and a clearing that waits for its band. -/
def drive0 (frame : Nat) : Drive := ⟨.stencil, 0, [], 2, 0, frame, 0, 1, zeroLedger, 0, 1⟩
def showing (r : Region) : State := { inMetering with disp := { Display.init with metro := r, pump := true } }

theorem witness_DisplayRuns :
    let one := showing { Region.init with drive := some (drive0 0) }
    let last := showing { Region.init with drive := some (drive0 1) }
    let comp : Compensate := ⟨List.replicate 192 100, 1, 1, 0⟩
    let c := showing { Region.init with comp := some comp }
    one.mainOn = true ∧ one.disp.host.running = false ∧ one.disp.host.due = false ∧ one.disp.clear = .none ∧ one.disp.clearDrive = none ∧
    one.disp.clearComp = none ∧ one.disp.metro.due = false ∧ (drive0 0).frame + 1 < (drive0 0).total ∧ (drive0 1).total ≤ (drive0 1).frame + 1 ∧
    last.mainOn = true ∧ inMetering.disp.metro.running = false ∧ inMetering.disp.metro.due = false ∧ c.disp.metro.comp = some comp ∧
    bit comp.driven 0 = true ∧ c.disp.host.comp = none ∧ one.disp.pump = true ∧ inMetering.disp.pump = false ∧ State.reset.mainOn = false := by
  decide +kernel

theorem witness_DisplayRuns_images :
    let one := (showing { Region.init with drive := some (drive0 0) }).setN K.DISP_CFG 1
    let w : State := { inMetering with disp := { Display.init with clear := .wantBand } }
    inMetering.dispRunning = false ∧ one.dispOn = true ∧ one.disp.metro.running = true ∧
    ((List.range 194).filter fun i => inMetering.commanded.getD i 0 % 4 ≠ inMetering.commanded.getD i 0) = [] ∧
    ((List.range 194).filter fun i => (1 :: inMetering.commanded.tail).getD i 0 % 4 ≠ inMetering.commanded.getD i 0) ≠ [] ∧
    w.disp.clear = .wantBand ∧ w.mainOn = true ∧ inMetering.disp.clear ≠ .wantBand := by decide +kernel

/-- A measuring step with 20 blocks, one of them on a substitute boundary, and with a temperature missing. -/
def step20 (sub : Bool) (t : Option Int) (op : Nat) : CalStep :=
  ⟨op, 9, Vector.replicate 7 0, true, CalBlock.zero, CalBlock.zero, List.replicate 20 { CalBlock.zero with substitute := sub }, List.replicate 20 t, false⟩
def measuring (st : CalStep) : State := { calOpen.setN K.CAL_STATE 2 with cal := some { run2 with step := some st } }

theorem witness_AuxiliaryBankRuns_steps :
    32 ≤ inMetering.getU (K.PLATE_TEMP_SRC 2) ∧ (inMetering.setN (K.PLATE_TEMP_SRC 2) 31).getU (K.PLATE_TEMP_SRC 2) < 32 ∧
    (((inMetering.setN (K.INPUT_LATEST 32) 0).setN (K.INPUT_TEMP 32) 15000).validTemp 31 0).isSome = true ∧
    (measuring (step20 true none 4)).cal.isSome = true ∧ 20 ≤ (step20 true none 4).blocks.length ∧ (∃ b ∈ (step20 true none 4).blocks, b.substitute = true) ∧
    none ∈ (step20 false none 3).temps ∧ (CalStep.blocks { step20 false none 3 with blocks := [] }).length < 20 := by decide +kernel

/-- Couple 0 running PERIODIC, idle, late, in a delay, and with a result due; every input in the scan. -/
def couple0 (x : Couple) : State := { (inMetering.setN (K.COUPLE_CFG 1) 2).setN K.SCAN_MASK (2 ^ 32 - 1) with couples := inMetering.couples.set 0 x }

theorem witness_AuxiliaryBankRuns_couples :
    let w : Nat := 0x0000000000420005
    let d := (couple0 { Couple.init with phase := .delay, last := 15 }).setN (K.ENTRY 0 1) w
    (couple0 Couple.init).runOf 0 = 2 ∧ inMetering.runOf 0 ≠ 2 ∧ inMetering.runOf 0 = 0 ∧ (couple0 Couple.init).auxRuns = true ∧ State.reset.auxRuns = false ∧
    (couple0 { Couple.init with phase := .tail, late := true }).couples[(0 : Fin 3)].phase ≠ .idle ∧
    (couple0 { Couple.init with phase := .delay }).couples[(0 : Fin 3)].late = false ∧
    w = d.getU (K.ENTRY 0 (d.couples[(0 : Fin 3)].entry + 1)) ∧ d.couples[(0 : Fin 3)].entry ≤ d.couples[(0 : Fin 3)].last ∧
    d.couples[(0 : Fin 3)].k ≤ entRepeat w ∧ d.entryOpen w = true ∧
    Couple.init.due = [] ∧ Couple.init.injDue = false ∧ Couple.init.phase ≠ .tail := by decide +kernel

theorem witness_AuxiliaryBankRuns_converters :
    let busy : State := { couple0 { Couple.init with phase := .convert, word := 0x420005 } with
      convs := inMetering.convs.set 0 { Conv.init with off := false, busy := true } }
    inMetering.convs[(0 : Fin 8)].starting = false ∧ inMetering.convs[(0 : Fin 8)].busy = false ∧ busy.convs[(0 : Fin 8)].busy = true ∧
    busy.convs[(0 : Fin 8)].behind = [] ∧ (0 : Fin 8) = busy.leadOf 0 ∧ (∀ m : Fin 3, busy.carrier m = busy.carrier 0 → m = 0) ∧
    busy.getN (K.INJ_STATE 1) ≠ 2 ∧ busy.couples[(0 : Fin 3)].phase = .convert ∧
    busy.couples[(0 : Fin 3)].a.n + 1 ≠ 2 ^ entAvg busy.couples[(0 : Fin 3)].word ∧ (∀ l : Fin 3, (busy.carrier l).val ≠ (6 : Fin 8).val / 2) ∧
    (∃ code : Int, code < busy.codeLow busy.convs[(0 : Fin 8)].input) ∧ busy.injecting 0 = false := by
  refine ⟨?_, ?_, ?_, ?_, ?_, ?_, ?_, ?_, ?_, ?_, ⟨-(2 ^ 24), ?_⟩, ?_⟩ <;> decide +kernel

theorem witness_AuxiliaryBankRuns_bursts :
    let r : AuxRun := { auxRun5 with step := some (2, 0), bursts := List.replicate 15 (0, 0) }
    r.step ≠ none ∧ r.bursts.length + r.due.length < 16 ∧ AuxRun.step auxRun5 = none ∧
    (List.replicate 14 (0, 0) : List (Int × Nat)).length + 0 + 1 < 16 ∧ auxOpen.convs[auxOpen.leadOf r.couple].busy = false := by decide +kernel

/-- One request of L1 for a word of B2, a bank with words to write back, and the march in each of its phases. -/
def request0 : SramReq := ⟨1, 2, 5, 511, some (255, 2 ^ 64 - 1), false⟩
def marching (ph : MarchPhase) : State := { inMetering with march := { March.init with phase := ph, tries := 8 } }

theorem witness_MemoriesAreServed_banks :
    State.reset.mode = .dormant ∧ (inMetering.bankPort 2 false).waiting = [] ∧ inMetering.requestOk 2 (onPortS 1) request0 = true ∧ request0.busy = false ∧
    inMetering.march.phase ≠ .segment ∧ inMetering.alsoWritten 2 5 = none ∧ inMetering.banks[(2 : Fin 5)].scrubs = [] ∧ inMetering.portFree 2 = true ∧
    inMetering.marchAllowed = true ∧ inMetering.march.phase = .idle ∧ (marching .retry).marchAllowed = true ∧ (marching .retry).march.phase = .retry ∧
    8 ≤ (marching .retry).march.tries ∧ State.reset.banksWork = false ∧ (marching .mirror).banksWork = true ∧ (marching .copyBack).bankSub = none ∧
    (marching .copyBack).banks[(4 : Fin 5)].state = .idle ∧ (marching .copyBack).march.abandoned = false := by decide +kernel

/-- B1 worn and copied up to region 14, and the sweep at its last word. -/
theorem witness_MemoriesAreServed_substitution :
    let b1 : Bank := { inMetering.banks[(1 : Fin 5)] with state := .worn }
    let s : State := { inMetering with banks := inMetering.banks.set 1 b1, bankSub := some ⟨1, List.range 14, false, 0⟩ }
    let w : State := { inMetering.setN K.SWEEP_MODE 1 with sweepAt := wordPlace 3 15 511 }
    s.banks.toList.find? (fun (x : Bank) => x.state = .worn && !x.noSpare) = some b1 ∧ s.banksWork = true ∧ s.copying = some 14 ∧
    (List.range 14).length < 15 ∧ inMetering.copying ≠ some 0 ∧ w.getN K.SWEEP_MODE ≠ 0 ∧ w.sweepPlace w.sweepAt = some (wordPlace 3 15 511) ∧
    w.portFree 3 = true ∧ inMetering.getN K.SWEEP_MODE = 0 := by decide +kernel

theorem witness_MemoriesAreServed_store :
    let r : NvmObs := ⟨65535, false, .one 9, false, none, 0⟩
    let u : JUnit := ⟨[⟨keyOf 0x8005 0, .num 7⟩], 64, .write host 0x8005 0⟩
    let q : State := { inMetering with journal := { Journal.init with waiting := [u] }, store := { Store.init with nextDue := 2500001 } }
    let o (c : Bool) : State := { inMetering with journal := { Journal.init with openUnit := some u, committed := c } }
    inMetering.cycleServed r = true ∧ State.reset.cycleServed r = false ∧ inMetering.nvm.remaps = [] ∧ (∀ i ∈ State.strings, inMetering.tautWord i = none) ∧
    inMetering.sealed = false ∧ (inMetering.setN K.PATROL_NEXT 65535).getU K.PATROL_NEXT = 65535 ∧
    q.journal.openUnit = none ∧ q.journal.used + 2080 ≤ 8192 ∧ q.serves = true ∧ q.journalOn = true ∧ q.store.writing = none ∧
    q.rtc + 2500000 < q.store.nextDue ∧ (o false).journalOn = true ∧ (∀ w ∈ u.writes, (o false).statuteLocked w = false) ∧ (o true).journal.committed = true ∧
    inMetering.mainOn = true ∧ inMetering.nvm.writeInhibit = false := by decide +kernel

/-- Source 8 with an alarm that waits, and with a window that has passed. -/
def source8 (x : TamperSrc) : State := { inMetering with tamper := { TamperSt.init with srcs := TamperSt.init.srcs.set 8 x } }

theorem witness_SourcesAndDecisionsRun_sources :
    let a := source8 { TamperSrc.init with waiting := 1 }
    let c := source8 { TamperSrc.init with counting := true }
    inMetering.mainOn = true ∧ inMetering.srcFused 8 = false ∧ (inMetering.src 8).counting = false ∧ (inMetering.setN (K.SRC_CFG 9) 0x03E80101).srcCount 8 ≤ 1 ∧
    a.alarmSet false ≠ [] ∧ a.tamper.run = none ∧ a.mode ≠ .recalling ∧ inMetering.alarmSet false = [] ∧ (c.src 8).counting = true ∧
    (c.src 8).start + c.srcWindow 8 * 1000000 < max c.rtc 65000000001 ∧ max c.rtc 0 ≤ (c.src 8).start + c.srcWindow 8 * 1000000 ∧
    State.reset.mainOn = false ∧ State.sealed (inMetering.setN K.FUSE_MAP (2 ^ 31)) = true ∧ inMetering.serviceAccess = false := by decide +kernel

theorem witness_SourcesAndDecisionsRun_modes :
    let sealS (st : SealStep) : State := { inServiceMode with svc := { ModeSt.init with sealStep := st } }
    let twin : State := { challenged inMetering with twins := [.enterService host true] }
    inServiceMode.serviceAccess = true ∧ inServiceMode.decided = .service ∧ inServiceMode.sealing = false ∧ (sealS .keygen).sealing = true ∧
    (sealS .keygen).svc.sealStep = .keygen ∧ (sealS .keygen).svc.exitDue = false ∧ (sealS .fuse).svc.sealHistory = false ∧ inMetering.svc.sealStep ≠ .keygen ∧
    twin.twins[0]? = some (.enterService host true) ∧ twin.enterOk = true ∧ twin.decided ≠ .lockdown ∧ inMetering.twins[0]? = none ∧
    inMetering.svc.retest = none ∧ State.reset.mode = .dormant := by decide +kernel

/-- A MEMBER whose upstream port 0 and downstream port 1 are UP, with a given TIME_STATE. -/
def linked (timeState : Int) : State :=
  { ((inMetering.setN K.THB_CFG 3).setN K.ROLE 2).setN K.TIME_STATE timeState with
    thb := { Thiber.init with ports := (Thiber.init.ports.set 0 { ThbPort.init with state := .up }).set 1 { ThbPort.init with state := .up } } }

theorem witness_ThiberLinksAct_ports :
    (State.PortDown inMetering 0) ∧ inMetering.thbOn = true ∧ inMetering.thb.ports[(0 : Fin 4)].state ≠ .disabled ∧ State.reset.thbOn = false ∧
    (linked 3).thb.ports[(0 : Fin 4)].state ≠ .down ∧ (linked 3).thb.ports[(0 : Fin 4)].rxSeq ≠ some (255 % 256) ∧
    ((decide ((0 : Fin 4) ≠ 0) && true) || (decide ((0 : Fin 4) = 0) && (linked 3).isRoot)) = false ∧ (linked 3).serves = true ∧
    (linked 3).thb.ports[(1 : Fin 4)].known = false ∧ (linked 3).portEnabled 1 = true ∧ (linked 3).portEnabled 3 = false ∧
    (linked 3).takesFrame 1 255 true ∧ (linked 3).takesFrame 0 255 false := by
  refine ⟨Or.inr ?_, ?_, ?_, ?_, ?_, ?_, ?_, ?_, ?_, ?_, ?_, ⟨?_, ?_, ?_, ?_⟩, ⟨?_, ?_, ?_, ?_⟩⟩ <;> decide +kernel

theorem witness_ThiberLinksAct_time :
    let s := linked 3
    let t : State := { linked 1 with thb := { (linked 1).thb with time := { ThbTime.init with t3 := some 0, synced := true, matched := true } } }
    s.isMember = true ∧ s.getN K.TIME_STATE = 3 ∧ (linked 4).getN K.TIME_STATE = 4 ∧ s.isRoot = false ∧ s.thb.time.parentSeq = none ∧
    ((((2 * 65536 : Nat) / 65536 : Nat) : Int) - ((0 / 65536 : Nat) : Int)).natAbs = 2 ∧ t.getN K.TIME_STATE = 1 ∧ t.thb.time.t3 = some 0 ∧
    t.thb.time.synced = true ∧ t.thb.time.matched = true ∧ t.index % 80 = 0 ∧ State.index { t with index := 40 } % 80 = 40 ∧ s.isUp 0 = true ∧
    s.thb.census = false ∧ s.allKnown = false ∧
    State.allKnown { s with thb := { s.thb with ports := s.thb.ports.set 1 { s.thb.ports[(1 : Fin 4)] with known := true } } } = true := by decide +kernel

theorem witness_ThiberLinksAct_site :
    let x : SiteSt := ⟨0x8001, 0, 60, none, false⟩
    let s : State := { linked 3 with thb := { (linked 3).thb with site := some x, refused := true } }
    let top := inMetering.setN K.THB_CFG 0x1E
    s.thb.site = some x ∧ x.answered = false ∧ s.thb.refused = true ∧ s.serves = true ∧ s.isUp 0 = true ∧ s.isRoot = false ∧ (linked 3).thb.site = none ∧
    top.isTop = true ∧ (linked 3).isTop = false ∧ top.blockFree 1 1 1 false = true ∧ top.blockFree 0 1 1 false = false ∧ s.heldBatches = [] := by decide +kernel

theorem witness_SamplesAdvance :
    let word : State := inMetering.updChan 2 3 fun x => { x with out := some ⟨1, -524288, 0⟩ }
    let ev : EventEntry := ⟨2, 0, 0, 0, 0, 0, 0, 0, 0⟩
    let e : State := { inMetering with evq := List.replicate 512 ev, evOver := [ev] }
    inMetering.clocksOn = true ∧ State.reset.clocksOn = false ∧ State.reset.timeStepNext = 0 ∧ (inHoldup 15).clocksOn = true ∧ inMetering.mode ≠ .holdup ∧
    inMetering.serves = true ∧ State.modeNext { inMetering with modeNext := some .service } = some .service ∧
    word.points[(2 : Fin 8)].chans[(3 : Fin 7)].out.isSome = true ∧ inMetering.points[(2 : Fin 8)].chans[(3 : Fin 7)].out = none ∧
    inMetering.points[(2 : Fin 8)].ended = [] ∧ inMetering.evq = [] ∧ e.evq ≠ [] ∧ inMetering.jobs = [] := by decide +kernel

/-- The first sample after a release on an AC point at which no crossing came in time, and a window that ended at index 80. -/
theorem witness_SamplesAdvance_tracker :
    let ac : Point := { (Point.init 1 1) with
      app := { (Point.init 1 1).app with cfg := 3 }, started := true, track := .locked, chans := (Point.init 1 1).chans.set 0 { Chan.init with n := 16000 } }
    let w : EndedWindow := ⟨Window.begin ⟨0, none⟩ false false, ⟨80, none⟩, [], 0⟩
    ac.started = true ∧ ac.bound.idx ≠ 16000 ∧ substituteDue ac 16000 = true ∧ substituteDue ac 0 = false ∧ inMetering.points[(2 : Fin 8)].started = false ∧
    State.points { inMetering with points := inMetering.points.set 2 { ac with ended := [w] } } ≠ inMetering.points ∧ w.stop.idx + 3200 = 3280 := by
  decide +kernel

end Sys2Proof.Machine
end

section
/-! PROOFS. The statements about the scope: every command completes, and a host request that is not admitted is answered at receipt and runs no
further. -/

namespace Sys2Proof.Machine

open Sys2Proof

namespace State

/-! ### A request that is not admitted -/

/-- The steward executes nothing of a request that is not admitted. -/
theorem execute_unadmitted {s : State} {h : Requester} {op idx sub : Nat} {payload : List Byte}
    (no : (s.admitted h.link ⟨op, h.tag, idx, sub, .ok, payload⟩).1 = false) (f : State → State) :
    s.execute h op idx sub payload f = (s.admitted h.link ⟨op, h.tag, idx, sub, .ok, payload⟩).2 := if_pos no

theorem hostWrite_unadmitted {s : State} {h : Requester} {idx sub : Nat} {data : List Byte}
    (no : (s.admitted h.link ⟨opWrite, h.tag, idx, sub, .ok, data⟩).1 = false) :
    s.hostWrite h idx sub data = (s.admitted h.link ⟨opWrite, h.tag, idx, sub, .ok, data⟩).2 := execute_unadmitted no _

theorem streamStart_unadmitted {s : State} {h : Requester} {mask divisor src : Nat}
    (no : (s.admitted h.link ⟨opStreamStart, h.tag, 0, 0, .ok, leBytes 8 mask ++ leBytes 2 divisor ++ leBytes 1 src ++ [0]⟩).1 = false) :
    s.streamStart h mask divisor src =
      (s.admitted h.link ⟨opStreamStart, h.tag, 0, 0, .ok, leBytes 8 mask ++ leBytes 2 divisor ++ leBytes 1 src ++ [0]⟩).2 := by
  unfold streamStart
  exact execute_unadmitted no _

/-- With no batch held for the tableau there is nothing to run. -/
theorem runHeld_none {s : State} (hb : s.heldBatches = []) : s.runHeld = s := by
  unfold runHeld
  rw [hb]
  show { s with heldBatches := [] } = s
  rw [← hb]

theorem execute_unadmitted_runHeld {s : State} {h : Requester} {op idx sub : Nat} {payload : List Byte}
    (no : (s.admitted h.link ⟨op, h.tag, idx, sub, .ok, payload⟩).1 = false) (hb : s.heldBatches = []) (f : State → State) :
    (s.execute h op idx sub payload f).runHeld = (s.admitted h.link ⟨op, h.tag, idx, sub, .ok, payload⟩).2 := by
  rw [execute_unadmitted no f]
  exact runHeld_none (((admitted_touches ..).heldBatches (by decide)).trans hb)

end State

/-- Every command that is a host request goes through the same receipt: one that is not admitted there leaves what the receipt left
(R362, R382, R445). -/
theorem exec_unadmitted {c : Instr} {l : Link} {m : Message} {s : State} (hr : hostRequest c = some (l, m)) (no : (s.admitted l m).1 = false)
    (hb : s.heldBatches = []) : exec c s = .next (s.admitted l m).2 := by
  cases c
  case draftCoefficients h kind _ _ => cases kind <;> cases hr <;> exact congrArg Host.Outcome.next (State.hostWrite_unadmitted no)
  case streamStart => cases hr; exact congrArg Host.Outcome.next (State.streamStart_unadmitted no)
  case write | siteOpen | siteClose => cases hr; exact congrArg Host.Outcome.next (State.execute_unadmitted_runHeld no hb _)
  all_goals cases hr
  all_goals exact congrArg Host.Outcome.next (State.execute_unadmitted no _)

/-! ### The remaining time of RECALL -/

/-- A bound that one element's step reaches and every step keeps bounds the whole fold. -/
theorem le_foldl_of_mem {α : Type} {f : Nat → α → Nat} {n : Nat} {a : α} {xs : List α} (grows : ∀ m b, m ≤ f m b) (reaches : ∀ m, n ≤ f m a)
    (ha : a ∈ xs) (m : Nat) : n ≤ xs.foldl f m := by
  have keeps (ys : List α) : ∀ m, m ≤ ys.foldl f m := by
    induction ys with
    | nil => exact fun m => Nat.le_refl m
    | cons b ys ih => exact fun m => (grows m b).trans (ih _)
  induction xs generalizing m with
  | nil => cases ha
  | cons b xs ih =>
    rcases List.mem_cons.mp ha with rfl | ha
    · exact (reaches m).trans (keeps xs _)
    · exact ih ha _

namespace State

theorem recallLeft_state (s : State) : s.recallLeft.2 = { s with free := s.free + 2 } := rfl

theorem recallLeft_le (s : State) : s.recallLeft.1 ≤ 65535 := Nat.min_le_left ..

/-- The remaining time covers what every step not complete may still take (Table 12.7). -/
theorem le_recallLeft (s : State) {e : Nat × Nat} (he : e ∈ stepLimits) (running : bit s.startup.steps e.1 = false) :
    min 65535 ((e.2 - (s.rtc - s.startup.started) + 99999) / 100000) ≤ s.recallLeft.1 := by
  have rest : e.2 - (s.rtc - s.startup.started) ≤
      stepLimits.foldl (fun m e => if bit s.startup.steps e.1 then m else max m (e.2 - (s.rtc - s.startup.started))) 0 := by
    refine le_foldl_of_mem (fun m b => ?_) (fun m => ?_) he 0
    · split
      · exact Nat.le_refl m
      · exact Nat.le_max_left ..
    · rw [running]
      exact Nat.le_max_right ..
  unfold recallLeft
  dsimp only
  omega

/-- In RECALL the receipt answers RECALLING and admits nothing (R382). -/
theorem admitted_recalling {s : State} (hm : s.mode = .recalling) (hf : s.svc.ftm = false) (l : Link) (m : Message) :
    s.admitted l m =
      (false, { s with free := s.free + 2 }.answerNow l { m with status := .recalling, payload := leBytes 2 s.recallLeft.1 }) := by
  have on : s.linksOn = true := by simp [linksOn, hm]
  simp [admitted, on, hf, hm, recallLeft_state]

end State

/-- Settles O12: the receipt of a request in RECALL answers it and admits it no further. -/
theorem recallAnswersRecalling : Obligations.RecallAnswersRecalling := by
  intro c l m s hr hm hf hb
  have adm := State.admitted_recalling hm hf l m
  refine ⟨s.recallLeft.1, s.recallLeft_le, fun e he no => s.le_recallLeft he no, ?_⟩
  rw [exec_unadmitted hr (by rw [adm]) hb, adm]

/-- Settles O1: the arm of each command answers a next state. -/
theorem everyCommandCompletes : Obligations.EveryCommandCompletes := by
  intro c s
  cases c <;> exact ⟨_, rfl⟩

end Sys2Proof.Machine
end

section
/-! PROOFS. The frame of an operation as one record equation, from the mask of the fields that it may change. -/

namespace Sys2Proof.Machine

open Sys2Proof

/-- `t` with the fields of the mask `m` set back to those of `s`: what a frame written as a record update compares with `s`. -/
def State.restored (m : Nat) (s t : State) : State where
  nums := if Nat.land m 1 = 1 then s.nums else t.nums
  blobs := if Nat.land m 2 = 2 then s.blobs else t.blobs
  pending := if Nat.land m 4 = 4 then s.pending else t.pending
  free := if Nat.land m 8 = 8 then s.free else t.free
  mode := if Nat.land m 16 = 16 then s.mode else t.mode
  attended := if Nat.land m 32 = 32 then s.attended else t.attended
  modeNext := if Nat.land m 64 = 64 then s.modeNext else t.modeNext
  modeHist := if Nat.land m 128 = 128 then s.modeHist else t.modeHist
  rtc := if Nat.land m 256 = 256 then s.rtc else t.rtc
  index := if Nat.land m 512 = 512 then s.index else t.index
  timeStepNext := if Nat.land m 1024 = 1024 then s.timeStepNext else t.timeStepNext
  startup := if Nat.land m 2048 = 2048 then s.startup else t.startup
  twins := if Nat.land m 4096 = 4096 then s.twins else t.twins
  lockLatch := if Nat.land m 8192 = 8192 then s.lockLatch else t.lockLatch
  lockNvm := if Nat.land m 16384 = 16384 then s.lockNvm else t.lockNvm
  integrityFlag := if Nat.land m 32768 = 32768 then s.integrityFlag else t.integrityFlag
  lanes := if Nat.land m 65536 = 65536 then s.lanes else t.lanes
  laneSub := if Nat.land m 131072 = 131072 then s.laneSub else t.laneSub
  ports := if Nat.land m 262144 = 262144 then s.ports else t.ports
  spares := if Nat.land m 524288 = 524288 then s.spares else t.spares
  mclk := if Nat.land m 1048576 = 1048576 then s.mclk else t.mclk
  blockNo := if Nat.land m 2097152 = 2097152 then s.blockNo else t.blockNo
  portNoSpare := if Nat.land m 4194304 = 4194304 then s.portNoSpare else t.portNoSpare
  learned := if Nat.land m 8388608 = 8388608 then s.learned else t.learned
  points := if Nat.land m 16777216 = 16777216 then s.points else t.points
  pulses := if Nat.land m 33554432 = 33554432 then s.pulses else t.pulses
  demand := if Nat.land m 67108864 = 67108864 then s.demand else t.demand
  evq := if Nat.land m 134217728 = 134217728 then s.evq else t.evq
  evOver := if Nat.land m 268435456 = 268435456 then s.evOver else t.evOver
  jobs := if Nat.land m 536870912 = 536870912 then s.jobs else t.jobs
  logs := if Nat.land m 1073741824 = 1073741824 then s.logs else t.logs
  merges := if Nat.land m 2147483648 = 2147483648 then s.merges else t.merges
  journal := if Nat.land m 4294967296 = 4294967296 then s.journal else t.journal
  store := if Nat.land m 8589934592 = 8589934592 then s.store else t.store
  nvm := if Nat.land m 17179869184 = 17179869184 then s.nvm else t.nvm
  scratch := if Nat.land m 34359738368 = 34359738368 then s.scratch else t.scratch
  spi := if Nat.land m 68719476736 = 68719476736 then s.spi else t.spi
  can := if Nat.land m 137438953472 = 137438953472 then s.can else t.can
  bus := if Nat.land m 274877906944 = 274877906944 then s.bus else t.bus
  stream := if Nat.land m 549755813888 = 549755813888 then s.stream else t.stream
  tab := if Nat.land m 1099511627776 = 1099511627776 then s.tab else t.tab
  tabLast := if Nat.land m 2199023255552 = 2199023255552 then s.tabLast else t.tabLast
  heldBatches := if Nat.land m 4398046511104 = 4398046511104 then s.heldBatches else t.heldBatches
  cal := if Nat.land m 8796093022208 = 8796093022208 then s.cal else t.cal
  plateUse := if Nat.land m 17592186044416 = 17592186044416 then s.plateUse else t.plateUse
  sealedRef := if Nat.land m 35184372088832 = 35184372088832 then s.sealedRef else t.sealedRef
  convs := if Nat.land m 70368744177664 = 70368744177664 then s.convs else t.convs
  couples := if Nat.land m 140737488355328 = 140737488355328 then s.couples else t.couples
  inputAt := if Nat.land m 281474976710656 = 281474976710656 then s.inputAt else t.inputAt
  auxRun := if Nat.land m 562949953421312 = 562949953421312 then s.auxRun else t.auxRun
  banks := if Nat.land m 1125899906842624 = 1125899906842624 then s.banks else t.banks
  march := if Nat.land m 2251799813685248 = 2251799813685248 then s.march else t.march
  bankSub := if Nat.land m 4503599627370496 = 4503599627370496 then s.bankSub else t.bankSub
  sram := if Nat.land m 9007199254740992 = 9007199254740992 then s.sram else t.sram
  sweepAt := if Nat.land m 18014398509481984 = 18014398509481984 then s.sweepAt else t.sweepAt
  stringReads := if Nat.land m 36028797018963968 = 36028797018963968 then s.stringReads else t.stringReads
  sessions := if Nat.land m 72057594037927936 = 72057594037927936 then s.sessions else t.sessions
  sign := if Nat.land m 144115188075855872 = 144115188075855872 then s.sign else t.sign
  disp := if Nat.land m 288230376151711744 = 288230376151711744 then s.disp else t.disp
  tamper := if Nat.land m 576460752303423488 = 576460752303423488 then s.tamper else t.tamper
  thb := if Nat.land m 1152921504606846976 = 1152921504606846976 then s.thb else t.thb
  svc := if Nat.land m 2305843009213693952 = 2305843009213693952 then s.svc else t.svc

/-- What touches the fields of `m` alone is undone by setting those fields back. For a literal mask the left side is the record update itself. -/
theorem Touches.frame {m : Nat} {s t : State} (h : Touches m s t) : State.restored m s t = s := by
  have same {α : Type} {c : Prop} [Decidable c] {a b : α} (e : ¬ c → b = a) : (if c then a else b) = a := by
    by_cases hc : c
    · exact if_pos hc
    · rw [if_neg hc, e hc]
  unfold State.restored
  rw [same h.nums, same h.blobs, same h.pending, same h.free, same h.mode, same h.attended, same h.modeNext, same h.modeHist,
    same h.rtc, same h.index, same h.timeStepNext, same h.startup, same h.twins, same h.lockLatch, same h.lockNvm,
    same h.integrityFlag, same h.lanes, same h.laneSub, same h.ports, same h.spares, same h.mclk, same h.blockNo,
    same h.portNoSpare, same h.learned, same h.points, same h.pulses, same h.demand, same h.evq, same h.evOver, same h.jobs,
    same h.logs, same h.merges, same h.journal, same h.store, same h.nvm, same h.scratch, same h.spi, same h.can, same h.bus,
    same h.stream, same h.tab, same h.tabLast, same h.heldBatches, same h.cal, same h.plateUse, same h.sealedRef, same h.convs,
    same h.couples, same h.inputAt, same h.auxRun, same h.banks, same h.march, same h.bankSub, same h.sram, same h.sweepAt,
    same h.stringReads, same h.sessions, same h.sign, same h.disp, same h.tamper, same h.thb, same h.svc]

end Sys2Proof.Machine
end

section
/-! PROOFS. The tableau: opening it, reading under it, and the end of its image (R45 to R50, R396, R397). -/

namespace Sys2Proof.Machine

open Sys2Proof

namespace State

/-! ### The freeze index -/

/-- The freeze index begins late enough (R45). -/
theorem le_instant_freezeIdx {s : State} (pos : 0 ≤ ((s.index * 12500 : Nat) : Int) + s.getN K.INDEX_SHIFT) (ns : Nat) :
    s.rtc + ns ≤ s.instant (s.freezeIdx ns) := by
  unfold freezeIdx instant
  omega

/-- No earlier period begins late enough (R45). -/
theorem freezeIdx_le {s : State} {n ns : Nat} (pos : 0 ≤ ((s.index * 12500 : Nat) : Int) + s.getN K.INDEX_SHIFT) (from_ : s.index ≤ n)
    (late : s.rtc + ns ≤ s.instant n) : s.freezeIdx ns ≤ n := by
  unfold freezeIdx
  unfold instant at late ⊢
  omega

/-! ### Opening -/

/-- The ID that the next local tableau gets: 1 to 0x7FFF in turn (R396). -/
def nextTabId (s : State) : Nat := if s.tabLast = 0 ∨ 0x7FFF ≤ s.tabLast then 1 else s.tabLast + 1

theorem nextTabId_bounds (s : State) : 1 ≤ s.nextTabId ∧ s.nextTabId ≤ 0x7FFF := by
  unfold nextTabId
  split <;> omega

/-- The state with a local tableau just opened. -/
def tabOpened (s : State) : State := { s.openTableau s.nextTabId (s.freezeIdx 25000) false with tabLast := s.nextTabId }

theorem tabOpened_tab (s : State) : s.tabOpened.tab = some ⟨s.nextTabId, s.freezeIdx 25000, false, false, [], [], s.rtc⟩ := rfl

theorem getN_tabOpened (s : State) (k : Nat) : s.tabOpened.getN k =
    if k = K.TAB_F then (s.freezeIdx 25000 : Int) else if k = K.TAB_ID then (s.nextTabId : Int) else s.getN k := by
  show (((({ s with tab := _ } : State).setN K.TAB_ID _).setN K.TAB_F _).getN k) = _
  simp only [getN_setN]
  rfl

theorem stamp_tabOpened (s : State) (n : Nat) : s.tabOpened.stamp n = s.stamp n := by
  unfold stamp instant
  rw [getN_tabOpened, if_neg (by decide), if_neg (by decide)]

/-- Opening a tableau depends on the links in nothing. -/
theorem tabOpened_taken (s v : State) (h : Requester) (op idx sub : Nat) (b : List Byte) :
    (s.taken h op idx sub b).tabOpened.withLinksOf v = s.tabOpened.withLinksOf v := by
  unfold taken
  cases h.link <;> rfl

/-- With no tableau open TABLEAU_OPEN opens one and answers F, t(F) and the ID (R45, R396). -/
theorem tableauOpen_opens {s : State} {h : Requester} (r : s.Ready h) (no : s.tab = none) :
    s.tableauOpen h = s.tabOpened.withLinksOf (s.answered h opTabOpen 0 0 .ok
      (leBytes 8 (s.freezeIdx 25000) ++ leBytes 10 (s.stamp (s.freezeIdx 25000)) ++ leBytes 2 s.nextTabId)) := by
  let u := s.taken h opTabOpen 0 0 []
  have same : u.freezeIdx 25000 = s.freezeIdx 25000 ∧ u.nextTabId = s.nextTabId ∧ u.stamp (s.freezeIdx 25000) = s.stamp (s.freezeIdx 25000) := by
    unfold u taken
    cases h.link <;> exact ⟨rfl, rfl, rfl⟩
  obtain ⟨f, id, st⟩ := same
  have shut : u.tab.isSome = false := by simp [u, no]
  have run : s.tableauOpen h = u.tabOpened.reply h opTabOpen 0 0 .ok
      (leBytes 8 (u.freezeIdx 25000) ++ leBytes 10 (u.tabOpened.stamp (u.freezeIdx 25000)) ++ leBytes 2 u.nextTabId) := by
    unfold tableauOpen
    rw [execute_ready r, if_neg (by rw [shut]; decide), if_neg (by simp)]
    rfl
  rw [run, reply_done (u := u.tabOpened) r (by simpa [serves, tabOpened, openTableau, u] using r.1) rfl rfl, stamp_tabOpened, f, id, st,
    tabOpened_taken]

/-- While a tableau is open TABLEAU_OPEN is refused (R49). -/
theorem tableauOpen_refused {s : State} {h : Requester} (r : s.Ready h) (busy : s.tab ≠ none) :
    s.tableauOpen h = s.answered h opTabOpen 0 0 .wrongState [] := by
  unfold tableauOpen
  rw [execute_ready r, if_pos (by simpa [Option.isSome_iff_ne_none] using busy), reply_taken r]

/-! ### Reading -/

/-- What a read finds depends on the tableau alone. -/
theorem tableauStatus_taken (s : State) (h : Requester) (op i j : Nat) (b : List Byte) (idx sub : Nat) (payload : List Byte) :
    (s.taken h op i j b).tableauStatus idx sub payload = s.tableauStatus idx sub payload := by
  unfold tableauStatus
  rw [taken_tab]

/-- A read under an ID that no open tableau has (R397). -/
theorem tableauStatus_closed {s : State} {idx sub id : Nat} {d : Desc} (hd : findDesc idx sub = some d) (hid : id < 65536)
    (no : ∀ t, s.tab = some t → t.id ≠ id) : s.tableauStatus idx sub (leBytes 2 id) = .tableauClosed := by
  unfold tableauStatus
  cases ht : s.tab with
  | none => simp [hd]
  | some t => simp [hd, leNat_leBytes 2 id hid, no t ht]

/-- A read under the open tableau's ID asks for the frozen set (R46, R397). -/
theorem tableauStatus_open {s : State} {idx sub : Nat} {d : Desc} {t : Tableau} (hd : findDesc idx sub = some d) (ht : s.tab = some t)
    (hid : t.id < 65536) : s.tableauStatus idx sub (leBytes 2 t.id) = if isFrozen (keyOf idx sub) then .ok else .notFrozen := by
  unfold tableauStatus
  simp [hd, ht, leNat_leBytes 2 t.id hid]

/-- A read whose status is not OK is answered with it. -/
theorem tableauRead_refused {s : State} {h : Requester} {idx sub id : Nat} {st : Status} (r : s.Ready h)
    (hs : s.tableauStatus idx sub (leBytes 2 id) = st) (no : st ≠ .ok) : s.tableauRead h idx sub id = s.answered h opTabRead idx sub st [] := by
  unfold tableauRead
  rw [execute_ready r, heldPayload_taken, tableauStatus_taken, hs]
  cases st
  case ok => exact absurd rfl no
  all_goals exact reply_taken r ..

/-- A read of the frozen set is held until the image is complete (R48). -/
theorem tableauRead_held {s : State} {h : Requester} {idx sub id : Nat} {t : Tableau} (r : s.Ready h)
    (hs : s.tableauStatus idx sub (leBytes 2 id) = .ok) (ht : s.tab = some t) (hc : t.complete = false) :
    s.tableauRead h idx sub id =
      { s.taken h opTabRead idx sub (leBytes 2 id) with tab := some { t with held := t.held ++ [(h, idx, sub)] } } := by
  unfold tableauRead
  rw [execute_ready r, heldPayload_taken, tableauStatus_taken, hs]
  simp [tableauReady, ht, hc]

/-- A read of the frozen set under a complete image is answered with the entry's value (R46). -/
theorem tableauRead_complete {s : State} {h : Requester} {idx sub id : Nat} {t : Tableau} (r : s.Ready h)
    (hs : s.tableauStatus idx sub (leBytes 2 id) = .ok) (ht : s.tab = some t) (hc : t.complete = true) :
    s.tableauRead h idx sub id = s.answered h opTabRead idx sub .ok (s.tableauBytes idx sub) := by
  have e : (s.taken h opTabRead idx sub (leBytes 2 id)).tableauBytes idx sub = s.tableauBytes idx sub := by
    unfold taken
    cases h.link <;> rfl
  unfold tableauRead
  rw [execute_ready r, heldPayload_taken, tableauStatus_taken, hs]
  simp [tableauReady, ht, hc, e, reply_taken r]

/-- The bytes of an entry under the open tableau. -/
theorem tableauBytes_open {s : State} {idx sub : Nat} {d : Desc} {t : Tableau} (hd : findDesc idx sub = some d) (ht : s.tab = some t) :
    s.tableauBytes idx sub = d.ty.encode (.num (s.frozenVal t (keyOf idx sub))) := by
  unfold tableauBytes
  rw [hd, ht]

/-! ### The end of the image -/

theorem reply_linksOn (s : State) (h : Requester) (op idx sub : Nat) (st : Status) (p : List Byte) :
    (s.reply h op idx sub st p).linksOn = s.linksOn := by
  unfold linksOn
  rw [(reply_touches ..).mode (by decide)]

/-- The value under the tableau depends on the tableau's freeze index and copies, the entries and the modes. -/
theorem tableauBytes_congr {s u : State} {a b : Tableau} (hs : s.tab = some a) (hu : u.tab = some b) (hf : b.freeze = a.freeze)
    (hn : b.nums = a.nums) (nums : u.nums = s.nums) (mode : u.mode = s.mode) (next : u.modeNext = s.modeNext) (hist : u.modeHist = s.modeHist)
    (idx sub : Nat) : u.tableauBytes idx sub = s.tableauBytes idx sub := by
  have at_ (n : Nat) : u.modeAt n = s.modeAt n := by
    unfold modeAt decided
    rw [mode, next, hist]
  have val (k : Nat) : u.frozenVal b k = s.frozenVal a k := by
    unfold frozenVal
    rw [hf, hn, at_, getN_congr nums]
  cases hd : findDesc idx sub with
  | none => simp only [tableauBytes, hd]
  | some d => rw [tableauBytes_open hd hu, tableauBytes_open hd hs, val]

theorem reply_tableauBytes (s : State) (h : Requester) (op i j : Nat) (st : Status) (p : List Byte) (idx sub : Nat) :
    (s.reply h op i j st p).tableauBytes idx sub = s.tableauBytes idx sub := by
  have t := reply_touches s h op i j st p
  have ht := t.tab (by decide)
  cases hs : s.tab with
  | none => simp [tableauBytes, hs]
  | some a =>
    exact tableauBytes_congr hs (ht.trans hs) rfl rfl (t.nums (by decide)) (t.mode (by decide)) (t.modeNext (by decide))
      (t.modeHist (by decide)) ..

/-- An answer joins the responses of its link. -/
theorem reply_out_new {s : State} (on : s.linksOn = true) (h : Requester) (op idx sub : Nat) (st : Status) (p : List Byte) :
    (⟨op, h.tag, idx, sub, st, p⟩ : Message) ∈ ((s.reply h op idx sub st p).link h.link).out := by
  simp [reply, on]

/-- An answer takes no response away. -/
theorem reply_out_old {s : State} {l : Link} {m : Message} (hm : m ∈ (s.link l).out) (h : Requester) (op idx sub : Nat) (st : Status)
    (p : List Byte) : m ∈ ((s.reply h op idx sub st p).link l).out := by
  unfold reply
  split
  · exact hm
  · by_cases e : h.link = l
    · subst e
      simp [hm]
    · revert e hm
      cases h.link <;> cases l <;> intro hm e
      · exact absurd rfl e
      · exact hm
      · exact hm
      · exact absurd rfl e

/-- The state with the open tableau's image complete and every read that was held answered with its value (R48). -/
def heldAnswered (s : State) (t : Tableau) : State :=
  forEach t.held (fun (r : Requester × Nat × Nat) s => s.reply r.1 opTabRead r.2.1 r.2.2 .ok (s.tableauBytes r.2.1 r.2.2))
    { s with tab := some { t with complete := true, held := [] } }

theorem heldAnswered_touches (s : State) (t : Tableau) :
    Touches 206158430208 { s with tab := some { t with complete := true, held := [] } } (s.heldAnswered t) :=
  .foldl (hf := fun _ _ => reply_touches ..) (.refl _)

/-- The answer to a read that was held. -/
def heldAnswer (s : State) (r : Requester × Nat × Nat) : Message := ⟨opTabRead, r.1.tag, r.2.1, r.2.2, .ok, s.tableauBytes r.2.1 r.2.2⟩

theorem reply_heldAnswer (s : State) (h : Requester) (op i j : Nat) (st : Status) (p : List Byte) (r : Requester × Nat × Nat) :
    (s.reply h op i j st p).heldAnswer r = s.heldAnswer r := by
  unfold heldAnswer
  rw [reply_tableauBytes]

/-- Each read that was held has its answer among the responses of its link. -/
theorem heldAnswered_out {s : State} {t : Tableau} (ht : s.tab = some t) (on : s.linksOn = true) {r : Requester × Nat × Nat} (hr : r ∈ t.held) :
    s.heldAnswer r ∈ ((s.heldAnswered t).link r.1.link).out := by
  have k := heldAnswered_touches s t
  have live : (s.heldAnswered t).linksOn = true := by
    unfold linksOn at on ⊢
    rw [k.mode (by decide)]
    exact on
  have same : (s.heldAnswered t).heldAnswer r = s.heldAnswer r := congrArg (Message.mk opTabRead r.1.tag r.2.1 r.2.2 .ok) <|
    tableauBytes_congr ht (k.tab (by decide)) rfl rfl (k.nums (by decide)) (k.mode (by decide)) (k.modeNext (by decide)) (k.modeHist (by decide)) ..
  rw [← same]
  refine forEach_reach (fun u => u.linksOn = true → u.heldAnswer r ∈ (u.link r.1.link).out) hr (fun u => ?_) (fun a _ u hu => ?_) _ live
  · rw [reply_linksOn, reply_heldAnswer]
    exact fun on => reply_out_new on ..
  · rw [reply_linksOn, reply_heldAnswer]
    exact fun on => reply_out_old (hu on) ..

/-- A local tableau's image becomes complete, with no batch held for it. -/
theorem tableauComplete_local {s : State} {t : Tableau} (ht : s.tab = some t) (hc : t.complete = false) (hl : t.site = false)
    (hb : s.heldBatches = []) : s.tableauComplete = s.heldAnswered t := by
  have k : (s.heldAnswered t).heldBatches = [] := ((heldAnswered_touches s t).heldBatches (by decide)).trans hb
  unfold tableauComplete
  rw [ht]
  dsimp only
  rw [if_neg (by simp [hc]), if_neg (by simp [hl])]
  exact runHeld_none k

end State

/-- Settles O16: the freeze index is the least that begins late enough, and the answer carries what the opened tableau holds. -/
theorem tableauOpens : Obligations.TableauOpens := by
  intro s h r
  refine ⟨fun no pos => ?_, fun busy => congrArg Host.Outcome.next (State.tableauOpen_refused r busy)⟩
  obtain ⟨least, most⟩ := s.nextTabId_bounds
  refine ⟨_, s.freezeIdx 25000, s.nextTabId, congrArg Host.Outcome.next (State.tableauOpen_opens r no), s.tabOpened_tab, least, most,
    ?_, ?_, State.le_instant_freezeIdx pos 25000, fun n => State.freezeIdx_le pos, State.answered_links ..⟩
  · simp [State.getN_tabOpened]
  · simp [State.getN_tabOpened, K.TAB_ID, K.TAB_F]

/-- Settles O17: a read is judged by the tableau it names and the frozen set, and waits for the image. -/
theorem tableauReads : Obligations.TableauReads := by
  intro s h idx sub id d r hd hid
  refine ⟨fun no => congrArg Host.Outcome.next
    (State.tableauRead_refused r (State.tableauStatus_closed hd hid no) (by decide)), fun t ht e => ?_⟩
  subst e
  have status := State.tableauStatus_open hd ht hid
  refine ⟨fun out => ?_, fun frozen waits => ?_, fun frozen done => ?_⟩
  · rw [out] at status
    exact congrArg Host.Outcome.next (State.tableauRead_refused r status (by decide))
  · rw [frozen] at status
    exact congrArg Host.Outcome.next (State.tableauRead_held r status ht waits)
  · rw [frozen] at status
    refine congrArg Host.Outcome.next ((State.tableauRead_complete r status ht done).trans ?_)
    rw [State.tableauBytes_open hd ht, State.frozenVal]
    cases lookupL t.nums (keyOf idx sub) <;> rfl

/-- Settles O19: every read that was held has its answer, and nothing but the tableau and the links has changed. -/
theorem tableauCompletes : Obligations.TableauCompletes := by
  intro s t ht hc hl hb on
  have k := State.heldAnswered_touches s t
  have k' : Touches 1305670057984 s (s.heldAnswered t) := .trans (.upd (.refl s)) (k.mono rfl)
  exact ⟨_, congrArg Host.Outcome.next (State.tableauComplete_local ht hc hl hb), k.tab (by decide),
    fun r hr => State.heldAnswered_out ht on hr, k'.frame⟩

end Sys2Proof.Machine
end

section
/-! PROOFS. Writes of stored entries and of the clearing commands: the checks of R377 entry by entry, and what an accepted write does (R34, R136,
R226, R378, R432). -/

namespace Sys2Proof.Machine

open Sys2Proof

/-! ### Indices of points (R374) -/

/-- The index of a point's entry names that point. -/
theorem pointOfIdx_add {b : Nat} (hr : pointRange (b / 0x1000) = true) (hb : b % 0x1000 < 0x100) (p : Fin 8) :
    pointOfIdx (b + 0x100 * p.val) = p.val := by
  have hi : (b + 0x100 * p.val) / 0x1000 = b / 0x1000 := by omega
  have lo : (b + 0x100 * p.val) % 0x1000 = b % 0x1000 + 0x100 * p.val := by omega
  unfold pointOfIdx isPointIdx
  rw [hi, lo, hr, if_pos (by simp; omega)]
  omega

/-- And P0's same entry (R374). -/
theorem baseIdx_add {b : Nat} (hr : pointRange (b / 0x1000) = true) (hb : b % 0x1000 < 0x100) (p : Fin 8) : baseIdx (b + 0x100 * p.val) = b := by
  unfold baseIdx
  rw [pointOfIdx_add hr hb]
  omega

/-- A number below `n` is its own remainder. -/
theorem fin_mk_mod {n : Nat} (p : Fin n) (h : p.val % n < n) : (⟨p.val % n, h⟩ : Fin n) = p := Fin.ext (Nat.mod_eq_of_lt p.isLt)

/-- The bits of a word below a power of two lie in the mask of all ones below it. -/
theorem inMask_of_lt {w n : Nat} (h : w < 2 ^ n) : inMask w (2 ^ n - 1) = true := by
  refine decide_eq_true (Nat.eq_of_testBit_eq fun i => ?_)
  rw [Nat.testBit_or, Nat.testBit_two_pow_sub_one]
  by_cases hi : i < n
  · simp [hi]
  · simp [hi, Nat.testBit_lt_two_pow (h.trans_le (Nat.pow_le_pow_right (by decide) (not_lt.1 hi)))]

namespace State

/-! ### Stored entries -/

/-- A write that the checks accept of an entry that is neither a flag nor volatile is a stored write (R378). -/
theorem hostWrite_accepted {s : State} {h : Requester} (r : s.Ready h) {idx sub : Nat} {data : List Byte} {d : Desc} {v : Val}
    (hd : findDesc idx sub = some d) (hw : d.acc ≠ .wo) (hs : s.writeStatus [] d idx sub data = .ok) (hi : idx < 0xF000)
    (hf : isFlagEntry idx = false) (hv : isVolatileEntry idx = false) (he : d.ty.decode data = v) :
    s.hostWrite h idx sub data = s.storedWrite h idx sub data v := by
  unfold storedWrite
  split
  · exact hostWrite_unchanged r hd hw hs hi hf hv he ‹_›
  · exact hostWrite_stored r hd hw hs hi hf hv he ((Bool.not_eq_true _).mp ‹_›)

/-- The same of an unsigned number that fits its type, by the class, the state and the value (R377). -/
theorem hostWrite_number {s : State} {h : Requester} (r : s.Ready h) {idx sub n w : Nat} {d : Desc} (hd : findDesc idx sub = some d)
    (ht : d.ty = .u (n * 8)) (hw : w < 256 ^ n) (hc : d.acc ≠ .wo) (cls : s.classStatus d = .ok) (st : s.stateRefuses idx sub = false)
    (val : (s.foreseen []).valueOk d idx sub (.num w) = true) (hi : idx < 0xF000) (hf : isFlagEntry idx = false)
    (hv : isVolatileEntry idx = false) : s.hostWrite h idx sub (leBytes n w) = s.storedWrite h idx sub (leBytes n w) (.num w) := by
  have dec : d.ty.decode (leBytes n w) = .num w := by rw [ht, Ty.decode, leNat_leBytes n w hw]
  refine hostWrite_accepted r hd hc (writeStatus_ok cls st ?_ ?_) hi hf hv dec
  · rw [entryLenOk, if_neg (by omega), ht, leBytes_length]
    exact decide_eq_true rfl
  · rw [entryValueOk, if_neg (by omega), dec, val, ht]
    rfl

theorem classStatus_sealable {s : State} {d : Desc} (ha : d.acc = .sealable) (unsealed : s.sealed = false) (on : s.inService = true) :
    s.classStatus d = .ok := by simp [classStatus, ha, unsealed, on]

theorem classStatus_rws {s : State} {d : Desc} (ha : d.acc = .rws) (on : s.inService = true) : s.classStatus d = .ok := by
  simp [classStatus, ha, on]

theorem classStatus_rw {s : State} {d : Desc} (ha : d.acc = .rw) : s.classStatus d = .ok := by simp [classStatus, ha]

/-! ### Checks by the index -/

/-- Entries outside the ranges that R376 names refuse no write by the state. -/
theorem stateRefuses_free {s : State} {idx sub : Nat} (hb : baseIdx idx ≠ 0x2000 ∧ baseIdx idx ≠ 0x2018 ∧ baseIdx idx ≠ 0xC003)
    (hi : idx < 0x6800 ∨ (0x7060 < idx ∧ idx ≠ 0xE060)) : s.stateRefuses idx sub = false := by
  obtain ⟨h1, h2, h3⟩ := hb
  unfold stateRefuses
  dsimp only
  rw [if_neg (by simp [h1, h2, h3]), if_neg (by omega), if_neg (by omega), if_neg (by simp; omega)]

/-- The configuration of a point and of its decimation refuses a write during a session (R74, R88). -/
theorem stateRefuses_session {s : State} {b sub : Nat} (hb : b = 0x2000 ∨ b = 0x2018) (p : Fin 8) (off : s.sessionOn p = false) :
    s.stateRefuses (b + 0x100 * p.val) sub = false := by
  have hr : pointRange (b / 0x1000) = true := by rcases hb with rfl | rfl <;> decide
  have hl : b % 0x1000 < 0x100 := by omega
  have hp : (⟨p.val % 8, by omega⟩ : Fin 8) = p := fin_mk_mod p _
  unfold stateRefuses
  simp only [baseIdx_add hr hl, pointOfIdx_add hr hl, hp, off]
  exact if_pos (by rcases hb with rfl | rfl <;> rfl)

/-- Where no further rule names the entry, a rule of the table alone judges the value (R375). -/
theorem valueOk_table {u : State} {d : Desc} {idx sub : Nat} {v : Val} (hr : d.rule ≠ .special)
    (hb : baseIdx idx ≠ 0x2018 ∧ baseIdx idx ≠ 0x2001 ∧ baseIdx idx ≠ 0x4006) (hi : idx ≠ 0xE010) :
    u.valueOk d idx sub v = d.rule.holds v := by
  obtain ⟨h1, h2, h3⟩ := hb
  unfold valueOk
  cases hd : d.rule
  case special => exact absurd hd hr
  all_goals simp [h1, h2, h3, hi]

/-- Where no further rule names the entry, a rule of its own judges the value (R375). -/
theorem valueOk_special {u : State} {d : Desc} {idx sub : Nat} {v : Val} (hr : d.rule = .special)
    (hb : baseIdx idx ≠ 0x2018 ∧ baseIdx idx ≠ 0x2001 ∧ baseIdx idx ≠ 0x4006) (hi : idx ≠ 0xE010) :
    u.valueOk d idx sub v = u.specialOk idx sub v := by
  obtain ⟨h1, h2, h3⟩ := hb
  unfold valueOk
  simp [hr, Rule.holds, h1, h2, h3, hi]

theorem specialOk_portCfg (u : State) (p : Fin 8) (c : Fin 7) (v : Val) :
    u.specialOk (0x2010 + 0x100 * p.val) (c.val + 1) v = u.portCfgOk p c v.nat := by
  have hp : (⟨p.val % 8, by omega⟩ : Fin 8) = p := fin_mk_mod p _
  have hc : (⟨(c.val + 1 - 1) % 7, by omega⟩ : Fin 7) = c := fin_mk_mod c _
  unfold specialOk
  simp only [baseIdx_add (b := 0x2010) rfl (by decide), pointOfIdx_add (b := 0x2010) rfl (by decide), hp, hc]
  rw [if_neg (by omega)]
  rfl

theorem specialOk_pointCfg (u : State) (p : Fin 8) (v : Val) : u.specialOk (0x2000 + 0x100 * p.val) 0 v = u.pointCfgOk p v.nat := by
  have hp : (⟨p.val % 8, by omega⟩ : Fin 8) = p := fin_mk_mod p _
  unfold specialOk
  simp only [baseIdx_add (b := 0x2000) rfl (by decide), pointOfIdx_add (b := 0x2000) rfl (by decide), hp]
  rw [if_neg (by omega)]
  rfl

/-! ### The rows of the configuration entries -/

section Rows

variable {s : State} {h : Requester} {w : Nat}

theorem portCfg_write (r : s.Ready h) (p : Fin 8) (c : Fin 7) (unsealed : s.sealed = false) (on : s.inService = true)
    (ok : (s.foreseen []).portCfgOk p c w = true) :
    s.hostWrite h (0x2010 + 0x100 * p.val) (c.val + 1) (leBytes 2 w) =
      s.storedWrite h (0x2010 + 0x100 * p.val) (c.val + 1) (leBytes 2 w) (.num w) := by
  have hd : ∀ (p : Fin 8) (c : Fin 7),
      findDesc (0x2010 + 0x100 * p.val) (c.val + 1) = some ⟨0x2010, 1, 1, 1, 7, .u 16, .sealable, 385, [], .special⟩ := by decide +kernel
  have fits : w < 2 ^ 12 := by
    unfold portCfgOk at ok
    simp only [Bool.and_eq_true, decide_eq_true_eq] at ok
    exact ok.1.1
  have base := baseIdx_add (b := 0x2010) rfl (by decide) p
  refine hostWrite_number r (hd p c) rfl (by omega) (by decide) (classStatus_sealable rfl unsealed on) ?_ ?_ (by omega) ?_ ?_
  · exact stateRefuses_free (by simp [base]) (by omega)
  · rw [valueOk_special rfl (by simp [base]) (by omega), specialOk_portCfg]
    exact ok
  · simp [isFlagEntry, base]; omega
  · simp [isVolatileEntry]; omega

theorem decConfig_write (r : s.Ready h) (p : Fin 8) (unsealed : s.sealed = false) (on : s.inService = true) (off : s.sessionOn p = false)
    (fits : w ≤ 1) (ok : (s.foreseen []).decConfigOk p w = true) :
    s.hostWrite h (0x2018 + 0x100 * p.val) 0 (leBytes 1 w) = s.storedWrite h (0x2018 + 0x100 * p.val) 0 (leBytes 1 w) (.num w) := by
  have hd : ∀ p : Fin 8, findDesc (0x2018 + 0x100 * p.val) 0 = some ⟨0x2018, 1, 1, 0, 0, .u 8, .sealable, 0, [], .mask 0x1⟩ := by decide +kernel
  have base := baseIdx_add (b := 0x2018) rfl (by decide) p
  have hp : (⟨p.val % 8, by omega⟩ : Fin 8) = p := fin_mk_mod p _
  have mask : inMask w 1 = true := inMask_of_lt (n := 1) (by omega)
  refine hostWrite_number r (hd p) rfl (by omega) (by decide) (classStatus_sealable rfl unsealed on) (stateRefuses_session (.inr rfl) p off) ?_
    (by omega) ?_ ?_
  · unfold valueOk
    simp [base, pointOfIdx_add (b := 0x2018) rfl (by decide), hp, Rule.holds, Val.nat, mask, ok]
    omega
  · simp [isFlagEntry, base]; omega
  · simp [isVolatileEntry]; omega

theorem pointCfg_write (r : s.Ready h) (p : Fin 8) (unsealed : s.sealed = false) (on : s.inService = true) (off : s.sessionOn p = false)
    (fits : w < 32) (ok : (s.foreseen []).pointCfgOk p w = true) :
    s.hostWrite h (0x2000 + 0x100 * p.val) 0 (leBytes 2 w) = s.storedWrite h (0x2000 + 0x100 * p.val) 0 (leBytes 2 w) (.num w) := by
  have hd : ∀ p : Fin 8, findDesc (0x2000 + 0x100 * p.val) 0 = some ⟨0x2000, 1, 1, 0, 0, .u 16, .sealable, 0, [], .special⟩ := by decide +kernel
  have base := baseIdx_add (b := 0x2000) rfl (by decide) p
  refine hostWrite_number r (hd p) rfl (by omega) (by decide) (classStatus_sealable rfl unsealed on) (stateRefuses_session (.inl rfl) p off) ?_
    (by omega) ?_ ?_
  · rw [valueOk_special rfl (by simp [base]) (by omega), specialOk_pointCfg]
    exact ok
  · simp [isFlagEntry, base]; omega
  · simp [isVolatileEntry]; omega

theorem laneMap_write (r : s.Ready h) (p : Fin 8) (on : s.inService = true) (fits : w ≤ 3)
    (ok : (s.foreseen []).loadOk p ((s.foreseen []).cfgKind p) ((s.foreseen []).cfgOsr p) w = true) :
    s.hostWrite h 0xE010 (p.val + 1) (leBytes 1 w) = s.storedWrite h 0xE010 (p.val + 1) (leBytes 1 w) (.num w) := by
  have hd : ∀ p : Fin 8, findDesc 0xE010 (p.val + 1) = some ⟨0xE010, 1, 1, 1, 8, .u 8, .rws, 0,
      [(1, 0), (2, 0), (3, 1), (4, 1), (5, 2), (6, 2), (7, 3), (8, 3)], .mask 0x3⟩ := by decide +kernel
  have hp : (⟨(p.val + 1 - 1) % 8, by omega⟩ : Fin 8) = p := fin_mk_mod p _
  have mask : inMask w 3 = true := inMask_of_lt (n := 2) (by omega)
  refine hostWrite_number r (hd p) rfl (by omega) (by decide) (classStatus_rws rfl on) (stateRefuses_free (by decide) (by decide)) ?_
    (by decide) (by decide) (by decide)
  unfold valueOk
  simp only [hp]
  simp +decide [Rule.holds, Val.nat, mask, ok]

theorem pulseCfg_write (r : s.Ready h) (m : Fin 8) (fits : w < 0x772) (ok : (s.foreseen []).pulseCfgOk w = true) :
    s.hostWrite h 0x4810 (m.val + 1) (leBytes 2 w) = s.storedWrite h 0x4810 (m.val + 1) (leBytes 2 w) (.num w) := by
  have hd : ∀ m : Fin 8, findDesc 0x4810 (m.val + 1) = some ⟨0x4810, 1, 1, 1, 8, .u 16, .rw, 16,
      [(2, 272), (3, 528), (4, 784), (5, 1040), (6, 1296), (7, 1552), (8, 1808)], .special⟩ := by decide +kernel
  refine hostWrite_number r (hd m) rfl (by omega) (by decide) (classStatus_rw rfl) (stateRefuses_free (by decide) (by decide)) ?_
    (by decide) (by decide) (by decide)
  rw [valueOk_special rfl (by decide) (by decide)]
  exact ok

theorem meterConst_write (r : s.Ready h) (m : Fin 8) (lo : 1 ≤ w) (hi : w ≤ 1000000) :
    s.hostWrite h 0x4811 (m.val + 1) (leBytes 4 w) = s.storedWrite h 0x4811 (m.val + 1) (leBytes 4 w) (.num w) := by
  have hd : ∀ m : Fin 8, findDesc 0x4811 (m.val + 1) = some ⟨0x4811, 1, 1, 1, 8, .u 32, .rw, 10000, [], .within (1) (1000000)⟩ := by decide +kernel
  refine hostWrite_number r (hd m) rfl (by omega) (by decide) (classStatus_rw rfl) (stateRefuses_free (by decide) (by decide)) ?_
    (by decide) (by decide) (by decide)
  rw [valueOk_table (by decide) (by decide) (by decide)]
  show (decide ((1 : Int) ≤ w) && decide ((w : Int) ≤ 1000000)) = true
  simp
  omega

theorem dmdCfg_write (r : s.Ready h) (on : s.inService = true) (fits : w < 16) (code : w % 8 ≤ 5) :
    s.hostWrite h 0x4800 0 (leBytes 1 w) = s.storedWrite h 0x4800 0 (leBytes 1 w) (.num w) := by
  have hd : findDesc 0x4800 0 = some ⟨0x4800, 1, 1, 0, 0, .u 8, .rws, 3, [], .special⟩ := by decide +kernel
  have mask : inMask w 0x0F = true := inMask_of_lt (n := 4) (by omega)
  refine hostWrite_number r hd rfl (by omega) (by decide) (classStatus_rws rfl on) (stateRefuses_free (by decide) (by decide)) ?_
    (by decide) (by decide) (by decide)
  rw [valueOk_special rfl (by decide) (by decide)]
  have len : field w 2 0 ≤ 5 := by unfold field; omega
  show (inMask w 0x0F && decide (field w 2 0 ≤ 5)) = true
  rw [mask, decide_eq_true len]
  rfl

end Rows

end State

/-- Settles O29: each row is a stored write of a number that fits its type, its class, its state and its value rule. -/
theorem configurationWritesQueueUnits : Obligations.ConfigurationWritesQueueUnits := by
  intro s h w r
  refine ⟨fun p c unsealed on ok => ?_, fun p unsealed on off fits ok => ?_, fun p unsealed on off fits ok => ?_, fun p on fits ok => ?_,
    fun m fits ok => ?_, fun m lo hi => ?_, fun on fits code => ?_⟩ <;> refine congrArg Host.Outcome.next ?_
  · exact State.portCfg_write r p c unsealed on ok
  · exact State.decConfig_write r p unsealed on off fits ok
  · exact State.pointCfg_write r p unsealed on off fits ok
  · exact State.laneMap_write r p on fits ok
  · exact State.pulseCfg_write r m fits ok
  · exact State.meterConst_write r m lo hi
  · exact State.dmdCfg_write r on fits code

end Sys2Proof.Machine
end

section
/-! PROOFS. The clearing commands: they take 0x01 alone, and zero the entries they name (R34, R136, R226, R432). -/

namespace Sys2Proof.Machine

open Sys2Proof

/-- What an answered command may touch: what its execution touches, and the two links. -/
theorem Touches.answered {m n : Nat} {s u v : State} {h : Requester} {op idx sub : Nat} {b : List Byte} (k : Touches m (s.taken h op idx sub b) u)
    (hm : Nat.lor m n = n := by rfl) (hl : Nat.lor 206158430208 n = n := by rfl) : Touches n s (u.withLinksOf v) := by
  have links : Touches n s (s.taken h op idx sub b) := (State.setLink_touches ..).mono hl
  have back : Touches 206158430208 u (u.withLinksOf v) := .upd (.refl u)
  exact (links.trans (k.mono hm)).trans (back.mono hl)

namespace State

/-- The indices of the clearing commands. -/
def ClearEntry (idx : Nat) : Prop := idx = 0xE025 ∨ idx = 0xE039 ∨ idx = 0xD002 ∨ ∃ p : Fin 8, idx = 0x4011 + 0x100 * p.val

theorem ClearEntry.desc {idx : Nat} (e : ClearEntry idx) : ∃ d, findDesc idx 0 = some d ∧ d.acc = .wo ∧ d.ty = .u 8 := by
  have md : ∀ p : Fin 8, findDesc (0x4011 + 0x100 * p.val) 0 = some ⟨0x4011, 1, 1, 0, 0, .u 8, .wo, 0, [], .within (1) (1)⟩ := by decide +kernel
  have dev : ∀ i ∈ [0xE025, 0xE039, 0xD002], findDesc i 0 = some ⟨i, 1, 1, 0, 0, .u 8, .wo, 0, [], .within (1) (1)⟩ := by decide +kernel
  rcases e with rfl | rfl | rfl | ⟨p, rfl⟩
  · exact ⟨_, dev _ (by decide), rfl, rfl⟩
  · exact ⟨_, dev _ (by decide), rfl, rfl⟩
  · exact ⟨_, dev _ (by decide), rfl, rfl⟩
  · exact ⟨_, md p, rfl, rfl⟩

theorem ClearEntry.base {idx : Nat} (e : ClearEntry idx) : baseIdx idx = idx ∧ idx ≠ 0x4011 ∨ baseIdx idx = 0x4011 := by
  rcases e with rfl | rfl | rfl | ⟨p, rfl⟩
  · exact .inl (by decide)
  · exact .inl (by decide)
  · exact .inl (by decide)
  · exact .inr (baseIdx_add rfl (by decide) p)

/-- What the clearing command of an index does. -/
def clearing (s : State) (idx : Nat) : State :=
  if baseIdx idx = 0x4011 then s.mdReset ⟨pointOfIdx idx % 8, by omega⟩
  else if idx = 0xD002 then s.clearStrings
  else if idx = 0xE025 then s.latClear
  else s.clearCounters

/-- A clearing command takes 0x01 and refuses every other byte by its value (R377). -/
theorem command_clearing (s : State) (h : Requester) {d : Desc} {idx w : Nat} (e : ClearEntry idx) (hd : d.ty = .u 8) (hw : w < 256) :
    s.command h d idx 0 (leBytes 1 w) = if w = 1 then (some .ok, s.clearing idx) else (some .invalidValue, s) := by
  have range : idx = 0xE025 ∨ idx = 0xE039 ∨ idx = 0xD002 ∨ 0x4011 ≤ idx ∧ idx ≤ 0x4711 := by
    rcases e with h | h | h | ⟨p, h⟩ <;> omega
  have base := e.base
  have val : leNat (leBytes 1 w) = w := leNat_leBytes 1 w hw
  have free : s.stateRefuses idx 0 = false := stateRefuses_free (by omega) (by omega)
  have len : entryLenOk d idx 0 (leBytes 1 w).length = true := by
    rw [entryLenOk, if_neg (by omega), hd, leBytes_length]
    rfl
  unfold command
  simp only [val, free, len]
  rw [if_neg (by omega), if_neg (by omega), if_neg (by decide), if_neg (by omega), if_neg (by decide), if_neg (by omega), if_neg (by omega),
    if_neg (by omega), if_neg (by omega), if_neg (by omega), if_neg (by omega), if_neg (by omega), if_neg (by omega), if_neg (by omega)]
  by_cases one : w = 1
  · rw [if_neg (not_not.2 one), if_pos one]
    unfold clearing
    (repeat' split) <;> rfl
  · rw [if_pos one, if_neg one]

theorem clear_refused {s : State} {h : Requester} (r : s.Ready h) {idx w : Nat} (e : ClearEntry idx) (hw : w < 256) (no : w ≠ 1) :
    s.hostWrite h idx 0 (leBytes 1 w) = s.answered h opWrite idx 0 .invalidValue [] := by
  obtain ⟨d, hd, wo, ty⟩ := e.desc
  rw [hostWrite_command r hd wo ((command_clearing _ h e ty hw).trans (if_neg no)), reply_taken r]

theorem clear_accepted {s : State} {h : Requester} (r : s.Ready h) {idx : Nat} (e : ClearEntry idx) {m : Nat}
    (k : Touches m (s.taken h opWrite idx 0 (leBytes 1 1)) ((s.taken h opWrite idx 0 (leBytes 1 1)).clearing idx))
    (hm : Nat.land m 16 ≠ 16 := by decide) (hs : Nat.land m 68719476736 ≠ 68719476736 := by decide)
    (hc : Nat.land m 137438953472 ≠ 137438953472 := by decide) :
    s.hostWrite h idx 0 (leBytes 1 1) =
      ((s.taken h opWrite idx 0 (leBytes 1 1)).clearing idx).withLinksOf (s.answered h opWrite idx 0 .ok []) := by
  obtain ⟨d, hd, wo, ty⟩ := e.desc
  rw [hostWrite_command r hd wo ((command_clearing _ h e ty (by decide)).trans (if_pos rfl))]
  refine reply_done r ?_ (k.spi hs) (k.can hc) ..
  have on := r.1
  unfold serves at on ⊢
  rw [k.mode hm, taken_mode]
  exact on

/-! ### What they zero -/

/-- Three counters set to 0 for each number below `n`: they read 0. -/
theorem getN_zeroed (a b c : Nat → Nat) {n l k : Nat} (hl : l < n) (hk : k = a l ∨ k = b l ∨ k = c l) (s : State) :
    (forEach (List.range n) (fun l s => ((s.setN (a l) 0).setN (b l) 0).setN (c l) 0) s).getN k = 0 := by
  refine forEach_reach (fun u => u.getN k = 0) (List.mem_range.2 hl) (fun u => ?_) (fun j _ u hu => ?_) s
  · simp only [getN_setN]
    split_ifs <;> simp_all
  · simp [hu]

/-- Every other entry keeps its number. -/
theorem getN_not_zeroed (a b c : Nat → Nat) {n k : Nat} (no : ∀ l, l < n → k ≠ a l ∧ k ≠ b l ∧ k ≠ c l) (s : State) :
    (forEach (List.range n) (fun l s => ((s.setN (a l) 0).setN (b l) 0).setN (c l) 0) s).getN k = s.getN k := by
  refine forEach_field (fun u => u.getN k) _ _ s fun l hl u => ?_
  obtain ⟨ha, hb, hc⟩ := no l (List.mem_range.1 hl)
  simp [ha, hb, hc]

theorem getN_mdReset (s : State) (p : Fin 8) (k : Nat) : (s.mdReset p).getN k =
    if k = K.MAX_DMD_IMPORT p ∨ k = K.MAX_DMD_EXPORT p ∨ k = K.MAX_DMD_IMPORT_TIME p ∨ k = K.MAX_DMD_EXPORT_TIME p then 0 else s.getN k := by
  simp only [mdReset, getN_put]
  split_ifs <;> simp_all

/-- After STRING_CLEAR every string is slack (R432). -/
theorem getN_taut_clearStrings (s : State) : s.clearStrings.getN K.STRING_TAUT = 0 := by
  have kept (u : State) : u.compose.getN K.STRING_TAUT = u.getN K.STRING_TAUT := (DispOnly.compose u).nums _ (by decide)
  unfold clearStrings
  by_cases taut : s.taut = true
  · rw [if_pos taut, kept, slackAll, if_neg (by simp [taut])]
    simp [K.STRING_TAUT, K.TAINT_SINCE]
  · rw [if_neg taut]
    simpa [State.taut] using taut

/-- With no string taut STRING_CLEAR has nothing to do (R432). -/
theorem clearStrings_slack {s : State} (slack : s.getN K.STRING_TAUT = 0) : s.clearStrings = s := by simp [clearStrings, taut, slack]

/-! ### The four rows -/

theorem clearing_latClear (s : State) : s.clearing 0xE025 = s.latClear := rfl
theorem clearing_clearCounters (s : State) : s.clearing 0xE039 = s.clearCounters := rfl
theorem clearing_clearStrings (s : State) : s.clearing 0xD002 = s.clearStrings := rfl
theorem clearing_mdReset (s : State) (p : Fin 8) : s.clearing (0x4011 + 0x100 * p.val) = s.mdReset p := by
  have hp : (⟨p.val % 8, by omega⟩ : Fin 8) = p := fin_mk_mod p _
  unfold clearing
  simp only [baseIdx_add (b := 0x4011) rfl (by decide), pointOfIdx_add (b := 0x4011) rfl (by decide), hp, if_true]

section Rows

variable {s : State} {h : Requester}

theorem latClear_zeroes (r : s.Ready h) : ∃ t, exec (.latClear h 1) s = .next t ∧ Answered s t h opWrite 0xE025 0 .ok [] ∧
    (∀ l, l < 5 → t.getN (K.LAT_WORST (l + 1)) = 0 ∧ t.getN (K.LAT_OVER (l + 1)) = 0 ∧ t.getN (K.II_WORST (l + 1)) = 0) ∧
    (∀ k, (∀ l, l < 5 → k ≠ K.LAT_WORST (l + 1) ∧ k ≠ K.LAT_OVER (l + 1) ∧ k ≠ K.II_WORST (l + 1)) → t.getN k = s.getN k) ∧
    { t with nums := s.nums, spi := s.spi, can := s.can } = s := by
  have k := latClear_touches (s.taken h opWrite 0xE025 0 (leBytes 1 1))
  refine ⟨_, congrArg Host.Outcome.next (clear_accepted r (.inl rfl) k), answered_links .., fun l hl => ?_, fun k no => ?_,
    (Touches.answered (n := 206158430209) k).frame⟩
  · rw [getN_withLinksOf, getN_withLinksOf, getN_withLinksOf, clearing_latClear, latClear]
    exact ⟨getN_zeroed _ _ _ hl (.inl rfl) _, getN_zeroed _ _ _ hl (.inr (.inl rfl)) _, getN_zeroed _ _ _ hl (.inr (.inr rfl)) _⟩
  · rw [getN_withLinksOf, clearing_latClear, latClear]
    exact (getN_not_zeroed _ _ _ no _).trans (getN_taken ..)

theorem counterClear_zeroes (r : s.Ready h) : ∃ t, exec (.counterClear h 1) s = .next t ∧ Answered s t h opWrite 0xE039 0 .ok [] ∧
    (∀ m, m < 11 → t.getN (K.CONFLICT_COUNT (m + 1)) = 0 ∧ t.getN (K.COLLISION_COUNT (m + 1)) = 0 ∧ t.getN (K.WAIT_WORST (m + 1)) = 0) ∧
    (∀ k, (∀ m, m < 11 → k ≠ K.CONFLICT_COUNT (m + 1) ∧ k ≠ K.COLLISION_COUNT (m + 1) ∧ k ≠ K.WAIT_WORST (m + 1)) → t.getN k = s.getN k) ∧
    { t with nums := s.nums, spi := s.spi, can := s.can } = s := by
  have k := clearCounters_touches (s.taken h opWrite 0xE039 0 (leBytes 1 1))
  refine ⟨_, congrArg Host.Outcome.next (clear_accepted r (.inr (.inl rfl)) k), answered_links .., fun m hm => ?_, fun k no => ?_,
    (Touches.answered (n := 206158430209) k).frame⟩
  · rw [getN_withLinksOf, getN_withLinksOf, getN_withLinksOf, clearing_clearCounters, clearCounters]
    exact ⟨getN_zeroed _ _ _ hm (.inl rfl) _, getN_zeroed _ _ _ hm (.inr (.inl rfl)) _, getN_zeroed _ _ _ hm (.inr (.inr rfl)) _⟩
  · rw [getN_withLinksOf, clearing_clearCounters, clearCounters]
    exact (getN_not_zeroed _ _ _ no _).trans (getN_taken ..)

theorem mdReset_zeroes (r : s.Ready h) (p : Fin 8) :
    ∃ t, exec (.mdReset h p 1) s = .next t ∧ Answered s t h opWrite (0x4011 + 0x100 * p.val) 0 .ok [] ∧
      (∀ k, t.getN k = if k = K.MAX_DMD_IMPORT p ∨ k = K.MAX_DMD_EXPORT p ∨ k = K.MAX_DMD_IMPORT_TIME p ∨ k = K.MAX_DMD_EXPORT_TIME p then 0
        else s.getN k) ∧
      { t with nums := s.nums, tab := s.tab, spi := s.spi, can := s.can } = s := by
  have k := mdReset_touches (s.taken h opWrite (0x4011 + 0x100 * p.val) 0 (leBytes 1 1)) p
  rw [← clearing_mdReset] at k
  refine ⟨_, congrArg Host.Outcome.next (clear_accepted r (.inr (.inr (.inr ⟨p, rfl⟩))) k), answered_links .., fun j => ?_,
    (Touches.answered (n := 1305670057985) k).frame⟩
  rw [getN_withLinksOf, clearing_mdReset, getN_mdReset, getN_taken]

theorem stringClear_slackens (r : s.Ready h) :
    ∃ t, exec (.stringClear h 1) s = .next t ∧ Answered s t h opWrite 0xD002 0 .ok [] ∧ t.getN K.STRING_TAUT = 0 ∧
      (s.getN K.STRING_TAUT = 0 → t = s.answered h opWrite 0xD002 0 .ok []) := by
  have run := clear_accepted r (.inr (.inr (.inl rfl))) (clearStrings_touches (s.taken h opWrite 0xD002 0 (leBytes 1 1)))
  refine ⟨_, congrArg Host.Outcome.next run, answered_links .., getN_taut_clearStrings _, fun slack => ?_⟩
  rw [clearing_clearStrings, clearStrings_slack ((getN_taken ..).trans slack)]
  exact (reply_done r (by simpa [serves] using r.1) rfl rfl ..).symm.trans (reply_taken r ..)

end Rows

end State

/-- Settles O33: the value rule of the four entries is 0x01, and each command zeroes the entries it names. -/
theorem clearCommandsZero : Obligations.ClearCommandsZero := by
  intro s h r
  refine ⟨fun w hw no => ⟨?_, ?_, ?_, fun p => ?_⟩, State.latClear_zeroes r, State.counterClear_zeroes r, State.mdReset_zeroes r,
    State.stringClear_slackens r⟩
  · exact congrArg Host.Outcome.next (State.clear_refused r (.inl rfl) hw no)
  · exact congrArg Host.Outcome.next (State.clear_refused r (.inr (.inl rfl)) hw no)
  · exact congrArg Host.Outcome.next (State.clear_refused r (.inr (.inr (.inl rfl))) hw no)
  · exact congrArg Host.Outcome.next (State.clear_refused r (.inr (.inr (.inr ⟨p, rfl⟩))) hw no)

end Sys2Proof.Machine
end

section
/-! PROOFS. The lanes: what a check vector, a shadowed sample and the 1 s interval do (R27, R33, R37 to R39, R353). -/

namespace Sys2Proof.Machine

open Sys2Proof

/-- What one round does to a part of the state that every other round leaves is what all of them do to it. -/
theorem forEach_once {α β : Type} {g : State → β} {upd : β → β} {f : α → State → State} {a : α} {l : List α} (nd : l.Nodup) (ha : a ∈ l)
    (same : ∀ u, g (f a u) = upd (g u)) (other : ∀ b ∈ l, b ≠ a → ∀ u, g (f b u) = g u) (s : State) : g (forEach l f s) = upd (g s) := by
  induction l generalizing s with
  | nil => simp at ha
  | cons b l ih =>
    obtain ⟨hb, nd⟩ := List.nodup_cons.1 nd
    have rest : ∀ c ∈ l, c ≠ a → ∀ u, g (f c u) = g u := fun c hc => other c (List.mem_cons_of_mem b hc)
    by_cases e : b = a
    · subst e
      have later : ∀ c ∈ l, ∀ u, g (f c u) = g u := fun c hc => rest c hc fun e => hb (e ▸ hc)
      exact (forEach_field g l f (f b s) later).trans (same s)
    · have inside : a ∈ l := (List.mem_cons.1 ha).resolve_left fun h => e h.symm
      exact (ih nd inside rest (f b s)).trans (congrArg upd (other b List.mem_cons_self e s))

namespace State

/-! ### Integrity faults (R353) -/

/-- The transition to LOCKDOWN is decided (R346). -/
theorem toLockdown_decided (s : State) (att : Bool) : (s.toLockdown att).decided = .lockdown := by
  unfold toLockdown
  split
  · assumption
  · rfl

theorem integrity_decided (s : State) (cause detail idx : Nat) : (s.integrity cause detail idx).decided = .lockdown := toLockdown_decided ..

theorem integrity_flag (s : State) (cause detail idx : Nat) : (s.integrity cause detail idx).integrityFlag = true :=
  (toLockdown_touches ..).integrityFlag (by decide)

/-- The entries of an integrity fault: the word of its cause, the time, the index and the count. -/
theorem getN_integrity (s : State) (cause detail idx k : Nat) : (s.integrity cause detail idx).getN k =
    if k = K.INTEGRITY_COUNT then ((satAdd 32 (s.getU K.INTEGRITY_COUNT) 1 : Nat) : Int)
    else if k = K.INTEGRITY_INDEX then (idx : Int)
    else if k = K.INTEGRITY_TIME then (s.now : Int)
    else if k = K.INTEGRITY_CAUSE then ((cause * 2 ^ 24 + detail % 2 ^ 24 : Nat) : Int)
    else s.getN k := by
  have last (u : State) (att : Bool) : (u.toLockdown att).getN k = u.getN k := getN_congr ((toLockdown_touches ..).nums (by decide)) k
  have flag (u : State) : State.getN { u with integrityFlag := true } k = u.getN k := rfl
  unfold integrity
  simp only [last, flag, getN_health, getN_addSat, getN_setN, getU]
  rfl

/-! ### Wear -/

/-- The entries that record a lane substitution (R40). -/
def SubKey (k : Nat) : Prop := k = K.SUB_COUNT ∨ k = K.SUB_FROM ∨ k = K.SUB_INDEX ∨ k = K.SUB_TIME

theorem getN_finishSub {k : Nat} (no : ¬ SubKey k) (s : State) (sub : LaneSub) (n : Nat) : (s.finishSub sub n).getN k = s.getN k := by
  simp only [SubKey, not_or] at no
  obtain ⟨h1, h2, h3, h4⟩ := no
  unfold finishSub recordDevice
  dsimp only
  split
  · rw [getN_queueUnit, getN_health]
    rfl
  · rw [getN_queueUnit, getN_health, getN_setN_other _ h4, getN_setN_other _ h3, getN_setN_other _ h2, getN_setN_other _ h1]
    rfl

theorem getN_handOver {k : Nat} (no : ¬ SubKey k) (s : State) (p : Fin 8) (n : Nat) : (s.handOver p n).getN k = s.getN k := by
  unfold handOver
  split
  · rfl
  · dsimp only
    (repeat' split)
    · exact getN_finishSub no ..
    · rfl
    · rfl

theorem getN_handOverOff {k : Nat} (no : ¬ SubKey k) (s : State) (n : Nat) : (s.handOverOff n).getN k = s.getN k := by
  unfold handOverOff
  split
  · rfl
  · exact forEach_field (fun u => u.getN k) _ _ s fun _ _ _ => getN_handOver no ..

theorem getN_startShadow {k : Nat} (no : ¬ SubKey k) (s : State) (a b : Fin 5) (restore : Bool) : (s.startShadow a b restore).getN k = s.getN k := by
  have begun : (forEach (s.servedBy a) (fun p s => s.updPoint p fun x => { x with shadowed := 0, shWhole := false, warm := false }) s).getN k =
      s.getN k :=
    forEach_field (fun u => u.getN k) _ _ s fun _ _ _ => rfl
  unfold startShadow
  dsimp only
  split
  · exact (getN_finishSub no ..).trans begun
  · exact (getN_handOverOff no ..).trans begun

theorem getN_endShadow (s : State) (sub : LaneSub) (k : Nat) : (s.endShadow sub).getN k = s.getN k :=
  getN_congr ((endShadow_touches ..).nums (by decide)) k

/-- Wear writes no entry but those of a substitution (R38 to R40). -/
theorem getN_declareWorn {k : Nat} (no : ¬ SubKey k) (s : State) (l : Fin 5) (p : Nat) : (s.declareWorn l p).getN k = s.getN k := by
  unfold declareWorn
  dsimp only
  split
  · split
    · rw [getN_startShadow no, getN_health, getN_updLane]
    · rw [getN_updLane, getN_health, getN_updLane]
  · split
    · rw [getN_endShadow, getN_health]
    · rfl
  · rfl

/-- An operation with a correction counts once in its lane's counter (R37). -/
theorem getN_laneOp_corrected (s : State) (l : Fin 5) (p d : Nat) : (s.laneOp l p d).getN (K.LANE_CORRECTED (l + 1)) =
    if d = 0 then s.getN (K.LANE_CORRECTED (l + 1)) else ((satAdd 32 (s.getU (K.LANE_CORRECTED (l + 1))) 1 : Nat) : Int) := by
  have no : ¬ SubKey (K.LANE_CORRECTED (l + 1)) := by
    simp only [SubKey, K.LANE_CORRECTED, K.SUB_COUNT, K.SUB_FROM, K.SUB_INDEX, K.SUB_TIME]
    omega
  unfold laneOp
  dsimp only
  split
  · rfl
  · split
    · rw [getN_declareWorn no, getN_addSat, if_pos rfl]
      rfl
    · rw [getN_addSat, if_pos rfl]
      rfl

/-! ### The check vector (R27) -/

/-- Without corrections and with every operation corrected nothing is to be done. -/
theorem laneCheckVector_clean (s : State) (l : Fin 5) : s.laneCheckVector l [] false = s := by
  unfold laneCheckVector
  split <;> rfl

theorem laneCheckVector_one {s : State} (on : s.clocksOn = true) (l : Fin 5) (d : Nat) :
    s.laneCheckVector l [d] false = s.laneOp l (s.lanePoint l) d := by
  unfold laneCheckVector
  rw [if_neg (by simp [on])]
  rfl

/-- An operation that cannot be corrected is an integrity fault of a lane that serves (R38, R353). -/
theorem laneCheckVector_fault {s : State} (on : s.clocksOn = true) {l : Fin 5} (serves : s.lanes[l].state = .inService ∨ s.lanes[l].state = .worn) :
    s.laneCheckVector l [] true = s.integrity 2 (l * 256 + s.lanePoint l) s.index := by
  unfold laneCheckVector
  rw [if_neg (by simp [on])]
  dsimp only [laneOps, forEach, List.foldl_nil]
  rw [if_neg (by decide)]
  rcases serves with e | e
  · rw [e]
    rfl
  · rw [e]
    rfl

theorem lanePoint_le (s : State) (l : Fin 5) : s.lanePoint l ≤ 0xFF := by
  unfold lanePoint
  split <;> omega

/-! ### Shadowing (R39) -/

theorem shadowWarm_warm {s : State} {p : Fin 8} {sub : LaneSub} (hs : s.laneSub = some sub) (hp : p ∈ sub.points) (full : 64 ≤ s.points[p].shadowed) :
    s.shadowWarm p = s.updPoint p fun x => { x with warm := true } := by
  unfold shadowWarm
  rw [hs]
  exact if_pos ⟨hp, full⟩

theorem shadowWarm_cold {s : State} {p : Fin 8} (few : ∀ sub, s.laneSub = some sub → p ∈ sub.points → s.points[p].shadowed < 64) :
    s.shadowWarm p = s := by
  unfold shadowWarm
  cases hs : s.laneSub with
  | none => rfl
  | some sub => exact if_neg fun h => absurd h.2 (not_le.2 (few sub hs h.1))

/-! ### The 1 s interval (R33, R38) -/

/-- A lane at the start of a 1 s interval. -/
def intervalLane (x : Lane) : Lane := { x with worst1s := 0, corrected1s := 0, latHighLast := x.latHigh, latHigh := false }

/-- One lane's part of the interval. -/
def laneInterval (l : Fin 5) (s : State) : State := (s.setN (K.LAT_WORST_1S (l + 1)) (s.lanes[l].worst1s : Nat)).updLane l intervalLane

theorem latencyInterval_eq (s : State) : s.latencyInterval = (forEach [0, 1, 2, 3, 4] laneInterval s).banksInterval := rfl

theorem updLane_lane (s : State) (l : Fin 5) (f : Lane → Lane) : (s.updLane l f).lanes[l] = f s.lanes[l] := by simp [updLane]

theorem updLane_lane_other (s : State) {l j : Fin 5} (h : j ≠ l) (f : Lane → Lane) : (s.updLane j f).lanes[l] = s.lanes[l] := by
  simp [updLane, Fin.val_ne_of_ne h]

theorem updBank_bank (s : State) (b : Fin 5) (f : Bank → Bank) : (s.updBank b f).banks[b] = f s.banks[b] := by simp [updBank]

theorem updBank_bank_other (s : State) {b j : Fin 5} (h : j ≠ b) (f : Bank → Bank) : (s.updBank j f).banks[b] = s.banks[b] := by
  simp [updBank, Fin.val_ne_of_ne h]

theorem mem_allLanes (l : Fin 5) : l ∈ ([0, 1, 2, 3, 4] : List (Fin 5)) := by
  revert l
  decide

/-- What the interval does to one lane and its published figure. -/
theorem laneInterval_all (s : State) (l : Fin 5) :
    (forEach [0, 1, 2, 3, 4] laneInterval s).lanes[l] = intervalLane s.lanes[l] ∧
      (forEach [0, 1, 2, 3, 4] laneInterval s).getN (K.LAT_WORST_1S (l + 1)) = (s.lanes[l].worst1s : Nat) := by
  have key (j : Fin 5) (h : j ≠ l) : K.LAT_WORST_1S (l + 1) ≠ K.LAT_WORST_1S (j + 1) := by
    unfold K.LAT_WORST_1S
    omega
  have once := forEach_once (g := fun u : State => (u.lanes[l], u.getN (K.LAT_WORST_1S (l + 1))))
    (upd := fun x => (intervalLane x.1, ((x.1.worst1s : Nat) : Int))) (f := laneInterval) (by decide) (mem_allLanes l)
    (fun u => Prod.ext (updLane_lane ..) (by simp [laneInterval]))
    (fun j _ h u => Prod.ext (updLane_lane_other _ h _) (by simp [laneInterval, key j h])) s
  exact ⟨congrArg Prod.fst once, congrArg Prod.snd once⟩

/-- A bank's corrections begin anew (R222). -/
theorem banksInterval_bank (s : State) (b : Fin 5) : s.banksInterval.banks[b] = { s.banks[b] with corrected1s := 0 } :=
  forEach_once (g := fun u : State => u.banks[b]) (upd := fun x => { x with corrected1s := 0 }) (by decide) (mem_allLanes b)
    (fun u => updBank_bank ..) (fun _ _ h u => updBank_bank_other u h _) s

/-- The published figure, the lane and the bank after the interval. -/
theorem latencyInterval_lane (s : State) (l : Fin 5) : s.latencyInterval.getN (K.LAT_WORST_1S (l + 1)) = (s.lanes[l].worst1s : Nat) ∧
    s.latencyInterval.lanes[l] = intervalLane s.lanes[l] ∧ s.latencyInterval.banks[l] = { s.banks[l] with corrected1s := 0 } := by
  obtain ⟨lane, figure⟩ := laneInterval_all s l
  have banks : (forEach [0, 1, 2, 3, 4] laneInterval s).banks = s.banks := forEach_field State.banks _ _ s fun _ _ _ => rfl
  have k := banksInterval_touches (forEach [0, 1, 2, 3, 4] laneInterval s)
  rw [latencyInterval_eq, banksInterval_bank, banks, getN_congr (k.nums (by decide)), k.lanes (by decide)]
  exact ⟨figure, lane, rfl⟩

end State

end Sys2Proof.Machine
end

section
/-! PROOFS. The modulator ports: a check that fails, the end of a block and its count, and the checks of returned clocks (R62 to R68, R78, R83). -/

namespace Sys2Proof.Machine

open Sys2Proof

theorem chanOfPort_homePort (p : Fin 8) (c : Fin 7) : chanOfPort (homePort p c) = some (p, c) := by
  revert p c
  decide

theorem homePort_lt (p : Fin 8) (c : Fin 7) : (homePort p c).val < 56 := by
  show 7 * p.val + c.val < 56
  omega

/-! ### Bits -/

theorem bit_or_flag (v i : Nat) : bit (v ||| 2 ^ i) i = true := by simp [bit]

theorem bit_or_of_bit {v i : Nat} (h : bit v i = true) (m : Nat) : bit (v ||| m) i = true := by
  unfold bit at h ⊢
  rw [Nat.testBit_or, h, Bool.true_or]

/-- The entries that a failing check writes: flags of ports with their re-arm counters, and what its tamper source writes (R69, R78). -/
def LinkKey (k : Nat) : Prop :=
  (∃ (p : Fin 8) (c : Fin 7), k = K.PORT_STATUS p (c + 1) ∨ k = K.REARM_COUNT p (c + 1)) ∨ TamperOnly.entries 5 k

theorem entries_not_status (p : Fin 8) (c : Fin 7) : ¬ TamperOnly.entries 5 (K.PORT_STATUS p (c + 1)) := by
  simp only [TamperOnly.entries, K.PORT_STATUS, K.TAMPER_STATUS, K.TAMPER_REARM, K.ALARM_COUNT, K.LAST_ALARM, K.SRC_STATE]
  omega

theorem status_ne_rearm (p q : Fin 8) (c j : Fin 7) : K.PORT_STATUS p (c + 1) ≠ K.REARM_COUNT q (j + 1) := by
  unfold K.PORT_STATUS K.REARM_COUNT
  omega

/-- Where these entries lie: indices that end in 0x11 or 0x16, and the tamper range. -/
theorem LinkKey.place {k : Nat} (h : LinkKey k) : k / 256 % 256 = 0x11 ∨ k / 256 % 256 = 0x16 ∨ 0xA00000 ≤ k ∧ k < 0xB00000 := by
  simp only [LinkKey, TamperOnly.entries, K.PORT_STATUS, K.REARM_COUNT, K.TAMPER_STATUS, K.TAMPER_REARM, K.ALARM_COUNT, K.LAST_ALARM,
    K.SRC_STATE] at h
  rcases h with ⟨p, c, h⟩ | h <;> omega

theorem eye_not_linkKey (p : Fin 8) (c : Fin 7) : ¬ LinkKey (K.EYE p (c + 1)) := fun h => by
  have := h.place
  unfold K.EYE at this
  omega

theorem physPort_not_linkKey (p : Fin 8) (c : Fin 7) : ¬ LinkKey (K.PHYS_PORT p (c + 1)) := fun h => by
  have := h.place
  unfold K.PHYS_PORT at this
  omega

theorem stringCfg_not_linkKey {i : Nat} (hi : i ≤ 8) : ¬ LinkKey (K.STRING_CFG i) := fun h => by
  have := h.place
  unfold K.STRING_CFG at this
  omega

theorem mclkCfg_not_linkKey (g : Fin 15) : ¬ LinkKey (K.MCLK_CFG (g + 1)) := fun h => by
  have := h.place
  unfold K.MCLK_CFG at this
  omega

namespace State

/-! ### Flags -/

/-- A flag set: the port's PORT_STATUS gains the mask, and of the other entries only its re-arm counter can change (R78). -/
theorem getN_setPortFlag {k : Nat} (s : State) (n : Nat) (p : Fin 8) (c : Fin 7) (mask : Nat) (no : k ≠ K.REARM_COUNT p (c + 1)) :
    (s.setPortFlag n p c mask).getN k =
      if k = K.PORT_STATUS p (c + 1) then ((s.getU (K.PORT_STATUS p (c + 1)) ||| mask : Nat) : Int) else s.getN k := by
  unfold setPortFlag
  dsimp only
  split
  · rw [getN_setQ]
  · show (addSatQ _ _ _ _ _).getN k = _
    rw [addSatQ, getN_setQ, if_neg no, getN_setQ]

/-- The flag reads as set. -/
theorem getU_setPortFlag (s : State) (n : Nat) (p : Fin 8) (c : Fin 7) (mask : Nat) :
    (s.setPortFlag n p c mask).getU (K.PORT_STATUS p (c + 1)) = s.getU (K.PORT_STATUS p (c + 1)) ||| mask := by
  rw [getU, getN_setPortFlag _ _ _ _ _ (status_ne_rearm _ _ _ _), if_pos rfl]
  rfl

/-- No flag that is set is cleared by setting another. -/
theorem bit_setPortFlag {s : State} {p : Fin 8} {c : Fin 7} {i : Nat} (h : bit (s.getU (K.PORT_STATUS p (c + 1))) i = true) (n : Nat) (q : Fin 8)
    (j : Fin 7) (mask : Nat) : bit ((s.setPortFlag n q j mask).getU (K.PORT_STATUS p (c + 1))) i = true := by
  rw [getU, getN_setPortFlag _ _ _ _ _ (status_ne_rearm _ _ _ _)]
  split
  · rename_i e
    rw [e] at h
    exact bit_or_of_bit h mask
  · exact h

theorem setPortFlag_not_linkKey {k : Nat} (no : ¬ LinkKey k) (s : State) (n : Nat) (p : Fin 8) (c : Fin 7) (mask : Nat) :
    (s.setPortFlag n p c mask).getN k = s.getN k := by
  rw [getN_setPortFlag _ _ _ _ _ fun h => no (.inl ⟨p, c, .inr h⟩), if_neg fun h => no (.inl ⟨p, c, .inl h⟩)]

/-- A flag changes of a point nothing but what a channel remembers of cleared flags. -/
theorem setPortFlag_app (s : State) (n : Nat) (p : Fin 8) (c : Fin 7) (mask : Nat) (q : Fin 8) :
    (s.setPortFlag n p c mask).points[q].app = s.points[q].app := by
  have keep (u : State) (f : Chan → Chan) : (u.updChan p c f).points[q].app = u.points[q].app := by
    by_cases e : p = q
    · subst e
      simp [updChan, updPoint]
    · simp [updChan, updPoint, Fin.val_ne_of_ne e]
  have entry (u : State) (k : Nat) (v : Int) : (u.setQ n k v).points[q].app = u.points[q].app :=
    congrArg (fun x : Vector Point 8 => x[q].app) (setQ_points ..)
  unfold setPortFlag
  dsimp only
  split
  · rw [entry]
  · rw [keep, addSatQ, entry, entry]

/-! ### A check that fails -/

theorem getN_channelFault {k : Nat} (no : ¬ TamperOnly.entries 5 k) (s : State) (p : Fin 8) (m : Fin 60) : (s.channelFault p m).getN k = s.getN k := by
  unfold channelFault
  split
  · split
    · rfl
    · exact (TamperOnly.source ..).nums k no
  · rfl

theorem getN_homeFails {k : Nat} (no : ¬ TamperOnly.entries 5 k) (s : State) (p : Fin 8) (m : Fin 60) (forced : Bool) :
    (s.homeFails p m forced).getN k = s.getN k := by
  unfold homeFails
  split
  · dsimp only
    split
    · rfl
    · exact getN_channelFault no ..
  · split
    · exact getN_channelFault no s p m
    · exact getN_channelFault no ..

theorem getN_spareFaulty (s : State) (i : Fin 4) (k : Nat) : (s.spareFaulty i).getN k = s.getN k :=
  getN_congr ((spareFaulty_touches ..).nums (by decide)) k

theorem getN_cancelSpare {k : Nat} (no : ¬ TamperOnly.entries 5 k) (s : State) (i : Fin 4) : (s.cancelSpare i).getN k = s.getN k := by
  unfold cancelSpare
  dsimp only
  split
  · exact getN_channelFault no ..
  · rfl

/-- A home port in use that serves its channel. -/
def ServesHome (s : State) (p : Fin 8) (c : Fin 7) : Prop := s.physPort p c = homePort p c ∧ s.points[p].app.uses c = true

theorem servedChan_home {s : State} {p : Fin 8} {c : Fin 7} (h : s.physPort p c = homePort p c) : s.servedChan (homePort p c) = some (p, c) := by
  unfold servedChan
  rw [chanOfPort_homePort]
  exact if_pos h

theorem portUsed_home {s : State} {p : Fin 8} {c : Fin 7} (h : s.ServesHome p c) : s.portUsed (homePort p c) = true := by
  unfold portUsed
  rw [servedChan_home h.1]
  exact h.2

/-- Which port serves a channel depends on its entry alone. -/
theorem physPort_congr {s u : State} {p : Fin 8} {c : Fin 7} (h : u.getN (K.PHYS_PORT p (c + 1)) = s.getN (K.PHYS_PORT p (c + 1))) :
    u.physPort p c = s.physPort p c := by
  unfold physPort getU
  simp only [h]

theorem servesHome_congr {s u : State} {p : Fin 8} {c : Fin 7} (h : u.getN (K.PHYS_PORT p (c + 1)) = s.getN (K.PHYS_PORT p (c + 1)))
    (ha : u.points[p].app = s.points[p].app) : u.ServesHome p c ↔ s.ServesHome p c := by
  unfold ServesHome
  rw [physPort_congr h, ha]

/-- The port that fails a check, with its flag set. -/
def flagged (s : State) (m : Fin 60) (p : Fin 8) (c : Fin 7) (flag : Nat) : State :=
  (s.updPort m fun x => { x with failedInBlock := true }).setPortFlag s.index p c (2 ^ flag)

/-- A check that fails on a home port sets its flag and asks the understudy (R66, R83). -/
theorem checkFails_home {s : State} {p : Fin 8} {c : Fin 7} (h : s.ServesHome p c) (flag : Nat) (forced : Bool) :
    s.checkFails (homePort p c) flag forced = (s.flagged (homePort p c) p c flag).homeFails p (homePort p c) forced := by
  have served : (s.updPort (homePort p c) fun x => { x with failedInBlock := true }).servedChan (homePort p c) = some (p, c) :=
    servedChan_home h.1
  unfold checkFails
  rw [if_neg (by simp [portUsed_home h])]
  dsimp only
  rw [served]
  exact if_pos (homePort_lt p c)

/-- The entry of the flags after a check that failed on a home port. -/
theorem getN_checkFails_status {s : State} {p : Fin 8} {c : Fin 7} (h : s.ServesHome p c) (flag : Nat) (forced : Bool) :
    (s.checkFails (homePort p c) flag forced).getN (K.PORT_STATUS p (c + 1)) = ((s.getU (K.PORT_STATUS p (c + 1)) ||| 2 ^ flag : Nat) : Int) := by
  rw [checkFails_home h, getN_homeFails (entries_not_status p c), flagged, getN_setPortFlag _ _ _ _ _ (status_ne_rearm _ _ _ _), if_pos rfl]
  rfl

/-- What a check that fails does besides: flags set, tamper entries, ports and understudies. Every other entry is left. -/
theorem getN_checkFails {k : Nat} (no : ¬ LinkKey k) (s : State) (m : Fin 60) (flag : Nat) (forced : Bool) :
    (s.checkFails m flag forced).getN k = s.getN k := by
  have none5 : ¬ TamperOnly.entries 5 k := fun h => no (.inr h)
  unfold checkFails
  split
  · rfl
  · dsimp only
    split
    · split
      · exact (getN_homeFails none5 ..).trans (setPortFlag_not_linkKey no ..)
      · exact (getN_channelFault none5 ..).trans (setPortFlag_not_linkKey no ..)
    · split
      · split
        · exact getN_cancelSpare none5 ..
        · exact getN_spareFaulty ..
      · rfl

/-- A check that fails clears no flag. -/
theorem bit_checkFails {s : State} {p : Fin 8} {c : Fin 7} {i : Nat} (h : bit (s.getU (K.PORT_STATUS p (c + 1))) i = true) (m : Fin 60)
    (flag : Nat) (forced : Bool) : bit ((s.checkFails m flag forced).getU (K.PORT_STATUS p (c + 1))) i = true := by
  have none5 := entries_not_status p c
  have step {u v : State} (e : v.getN (K.PORT_STATUS p (c + 1)) = u.getN (K.PORT_STATUS p (c + 1)))
      (hu : bit (u.getU (K.PORT_STATUS p (c + 1))) i = true) : bit (v.getU (K.PORT_STATUS p (c + 1))) i = true := by
    rw [getU, e]
    exact hu
  unfold checkFails
  split
  · exact h
  · dsimp only
    split
    · split
      · refine step (getN_homeFails none5 ..) (bit_setPortFlag ?_ ..)
        exact h
      · refine step (getN_channelFault none5 ..) (bit_setPortFlag ?_ ..)
        exact h
    · split
      · split
        · exact step (getN_cancelSpare none5 ..) h
        · exact step (getN_spareFaulty ..) h
      · exact h

/-- A check that fails leaves the configuration in force. -/
theorem checkFails_app (s : State) (m : Fin 60) (flag : Nat) (forced : Bool) (q : Fin 8) :
    (s.checkFails m flag forced).points[q].app = s.points[q].app := by
  have via {u v : State} (e : v.points = u.points) : v.points[q].app = u.points[q].app := congrArg (fun x : Vector Point 8 => x[q].app) e
  unfold checkFails
  split
  · rfl
  · dsimp only
    split
    · split
      · exact (via ((homeFails_touches ..).points (by decide))).trans (setPortFlag_app ..)
      · exact (via ((channelFault_touches ..).points (by decide))).trans (setPortFlag_app ..)
    · split
      · split
        · exact (via ((cancelSpare_touches ..).points (by decide))).trans rfl
        · exact (via ((spareFaulty_touches ..).points (by decide))).trans rfl
      · rfl

theorem servesHome_checkFails (s : State) (m : Fin 60) (flag : Nat) (forced : Bool) (p : Fin 8) (c : Fin 7) :
    (s.checkFails m flag forced).ServesHome p c ↔ s.ServesHome p c :=
  servesHome_congr (getN_checkFails (physPort_not_linkKey p c) ..) (checkFails_app ..)

theorem updPort_port (s : State) (m : Fin 60) (f : Port → Port) : (s.updPort m f).ports[m] = f s.ports[m] := by simp [updPort]

theorem source_port (s : State) (n : Fin 16) (v : Nat) (m : Fin 60) : (s.source n v).ports[m] = s.ports[m] :=
  congrArg (fun x : Vector Port 60 => x[m]) ((source_touches ..).ports (by decide))

theorem setPortFlag_port (s : State) (n : Nat) (p : Fin 8) (c : Fin 7) (mask : Nat) (m : Fin 60) :
    (s.setPortFlag n p c mask).ports[m] = s.ports[m] :=
  congrArg (fun x : Vector Port 60 => x[m]) ((setPortFlag_touches ..).ports (by decide))

/-- A good home port without a paired understudy: its channel is in link fault from the next period (R67, R85). -/
theorem homeFails_alone {s : State} {p : Fin 8} {m : Fin 60} (good : s.ports[m].phase = .good) (alone : s.spareOf m = none) (forced : Bool) :
    (s.homeFails p m forced).ports[m].faultPending = true ∧ (s.homeFails p m forced).portNoSpare = true := by
  have pending : (s.channelFault p m).ports[m].faultPending = true := by
    unfold channelFault
    rw [good]
    dsimp only
    split
    · assumption
    · rw [source_port, updPort_port]
  unfold homeFails
  rw [alone]
  dsimp only
  rw [if_pos good]
  exact ⟨pending, rfl⟩

/-- The ports of the flagged state but for the block's failure, and the understudies. -/
theorem flagged_port (s : State) (m : Fin 60) (p : Fin 8) (c : Fin 7) (flag : Nat) :
    (s.flagged m p c flag).ports[m] = { s.ports[m] with failedInBlock := true } := by
  unfold flagged
  rw [setPortFlag_port, updPort_port]

theorem flagged_spareOf (s : State) (m : Fin 60) (p : Fin 8) (c : Fin 7) (flag : Nat) : (s.flagged m p c flag).spareOf m = s.spareOf m := by
  have e : (s.flagged m p c flag).spares = s.spares := (setPortFlag_touches ..).spares (by decide)
  unfold spareOf
  rw [e]

theorem checkFails_alone {s : State} {p : Fin 8} {c : Fin 7} (h : s.ServesHome p c) (good : s.ports[homePort p c].phase = .good)
    (alone : s.spareOf (homePort p c) = none) (flag : Nat) (forced : Bool) :
    (s.checkFails (homePort p c) flag forced).ports[homePort p c].faultPending = true ∧
      (s.checkFails (homePort p c) flag forced).portNoSpare = true := by
  rw [checkFails_home h]
  exact homeFails_alone (by rw [flagged_port]; exact good) (by rw [flagged_spareOf]; exact alone) forced

/-! ### The checks of returned clocks (R66) -/

/-- A check that a group fails sets SKEW on every port of the group that is a home port in use. -/
theorem groupFails_skew {s : State} {g : Fin 15} (ret : s.clkReturn g = true) {p : Fin 8} {c : Fin 7} (hg : groupOf (homePort p c) = g)
    (h : s.ServesHome p c) : bit ((s.groupFails g).getU (K.PORT_STATUS p (c + 1))) 3 = true := by
  let j : Fin 4 := ⟨(homePort p c).val % 4, by omega⟩
  have port : (⟨4 * g.val + j.val, by omega⟩ : Fin 60) = homePort p c := by
    subst hg
    exact Fin.ext (Nat.div_add_mod ..)
  have all : (forEach (List.finRange 4) (fun j s => s.checkFails ⟨4 * g.val + j.val, by omega⟩ 3 false) s).ServesHome p c ↔ s.ServesHome p c :=
    iff_of_eq (forEach_field (fun u => u.ServesHome p c) _ _ s fun _ _ u => propext (servesHome_checkFails u ..))
  unfold groupFails
  rw [if_pos ret]
  refine forEach_reach (fun u => u.ServesHome p c → bit (u.getU (K.PORT_STATUS p (c + 1))) 3 = true) (List.mem_finRange j) (fun u => ?_)
    (fun b _ u hu => ?_) s (all.2 h)
  · rw [port, servesHome_checkFails]
    intro sv
    rw [getU, getN_checkFails_status sv]
    exact bit_or_flag _ 3
  · rw [servesHome_checkFails]
    exact fun sv => bit_checkFails (hu sv) ..

end State

end Sys2Proof.Machine
end

section
/-! PROOFS. The end of a block at a home port in normal mode: the eye, the density and the count of clean blocks (R62, R63, R66, R68). -/

namespace Sys2Proof.Machine

open Sys2Proof

namespace State

/-- A block of a home port that serves its channel, in normal mode, with its clock running and no string on the link. -/
structure HomeBlock (s : State) (o : BlockObs) (p : Fin 8) (c : Fin 7) : Prop where
  port : o.port = homePort p c
  serves : s.ServesHome p c
  clock : s.mclk[s.clockGroup o.port] = true
  normal : s.clkReturn (groupOf o.port) = false
  quiet : ∀ cond, s.linkString o.port cond = false

/-- What a block's checks ask of the state: the entries that neither a check nor the eye writes, the ports' clocks and the uses in force. -/
theorem HomeBlock.congr {s u : State} {o : BlockObs} {p : Fin 8} {c : Fin 7} (b : s.HomeBlock o p c)
    (nums : ∀ k, ¬ LinkKey k → k ≠ K.EYE p (c + 1) → u.getN k = s.getN k) (app : u.points[p].app = s.points[p].app) (mclk : u.mclk = s.mclk)
    (spares : u.spares = s.spares) (no : u.blockNo = s.blockNo) : u.HomeBlock o p c := by
  have phys := nums _ (physPort_not_linkKey p c) (by unfold K.PHYS_PORT K.EYE; omega)
  have string (i : Nat) (hi : i ≤ 8) : u.getU (K.STRING_CFG i) = s.getU (K.STRING_CFG i) := by
    rw [getU, nums _ (stringCfg_not_linkKey hi) (by unfold K.STRING_CFG K.EYE; omega)]
    rfl
  have ret (g : Fin 15) : u.clkReturn g = s.clkReturn g := by
    unfold clkReturn getU
    rw [nums _ (mclkCfg_not_linkKey g) (by unfold K.MCLK_CFG K.EYE; omega)]
  have group : u.clockGroup o.port = s.clockGroup o.port := by
    unfold clockGroup
    rw [spares]
  refine ⟨b.port, (servesHome_congr phys app).2 b.serves, ?_, (ret _).trans b.normal, fun cond => ?_⟩
  · simp only [mclk, group]
    exact b.clock
  · rw [← b.quiet cond]
    unfold linkString
    simp [string, no]

theorem HomeBlock.observed {s : State} {o : BlockObs} {p : Fin 8} {c : Fin 7} (b : s.HomeBlock o p c) : s.portObserved o.port = true := by
  unfold portObserved
  rw [b.clock, b.port, portUsed_home b.serves]
  rfl

/-! ### Strings -/

/-- With no string on the link no operation of one is counted. -/
theorem linkStringHits_quiet {s : State} {m : Fin 60} (quiet : ∀ cond, s.linkString m cond = false) : s.linkStringHits m = s := by
  refine forEach_ind (fun u => u = s) _ _ s rfl fun i hi u hu => ?_
  subst hu
  have off := quiet (field (u.getU (K.STRING_CFG i)) 23 16)
  unfold linkString at off
  have one := List.any_eq_false.1 off i hi
  dsimp only at one ⊢
  rw [if_neg]
  simpa using one

/-- The transitions of a block without a string. -/
theorem blockMask_quiet {s : State} {o : BlockObs} (quiet : ∀ cond, s.linkString o.port cond = false) : s.blockMask o = o.transitions := by
  unfold blockMask
  rw [quiet 3]
  rfl

/-! ### The eye (R63) -/

/-- The EYE word of a block: the width, the centre and the capture phase (R63). -/
def eyeWord (s : State) (m : Fin 60) (mask : Nat) : Nat := (8 - popCount 8 mask) * 256 + eyeCentre mask * 16 + s.capturePhase m

/-- The state with the EYE entry of a channel written. -/
def eyePut (s : State) (p : Fin 8) (c : Fin 7) (mask : Nat) : State := s.put (K.EYE p (c + 1)) (s.eyeWord (homePort p c) mask : Nat)

/-- The eye monitor of a home port writes its EYE entry, and EYE_NARROW where a transition lies at or beside the capture phase. -/
theorem eyeMonitor_cases {s : State} {p : Fin 8} {c : Fin 7} (h : s.physPort p c = homePort p c) (mask : Nat) :
    s.eyeMonitor (homePort p c) mask = s.eyePut p c mask ∨
      s.eyeMonitor (homePort p c) mask = (s.eyePut p c mask).setPortFlag (s.eyePut p c mask).index p c 32 := by
  unfold eyeMonitor
  rw [servedChan_home h]
  dsimp only
  split
  · exact .inr rfl
  · exact .inl rfl

theorem getN_eyeMonitor {s : State} {p : Fin 8} {c : Fin 7} (h : s.physPort p c = homePort p c) (mask : Nat) {k : Nat} (no : ¬ LinkKey k) :
    (s.eyeMonitor (homePort p c) mask).getN k = if k = K.EYE p (c + 1) then (s.eyeWord (homePort p c) mask : Int) else s.getN k := by
  rcases eyeMonitor_cases h mask with e | e
  · rw [e, eyePut, getN_put]
  · rw [e, setPortFlag_not_linkKey no, eyePut, getN_put]

theorem eyeMonitor_app {s : State} {p : Fin 8} {c : Fin 7} (h : s.physPort p c = homePort p c) (mask : Nat) (q : Fin 8) :
    (s.eyeMonitor (homePort p c) mask).points[q].app = s.points[q].app := by
  have put : (s.eyePut p c mask).points[q].app = s.points[q].app :=
    congrArg (fun x : Vector Point 8 => x[q].app) (put_points ..)
  rcases eyeMonitor_cases h mask with e | e
  · rw [e, put]
  · rw [e, setPortFlag_app, put]

/-- The eye monitor leaves what the further checks ask. -/
theorem HomeBlock.eye {s : State} {o : BlockObs} {p : Fin 8} {c : Fin 7} (b : s.HomeBlock o p c) :
    (s.eyeMonitor o.port o.transitions).HomeBlock o p c := by
  have k := eyeMonitor_touches s o.port o.transitions
  refine b.congr (fun j no ne => ?_) ?_ (k.mclk (by decide)) (k.spares (by decide)) (k.blockNo (by decide))
  · rw [b.port, getN_eyeMonitor b.serves.1 _ no, if_neg ne]
  · rw [b.port, eyeMonitor_app b.serves.1]

/-! ### The checks (R62, R66) -/

/-- The checks of such a block: the eye, and a density out of bounds. -/
theorem HomeBlock.checks {s : State} {o : BlockObs} {p : Fin 8} {c : Fin 7} (b : s.HomeBlock o p c) :
    s.blockChecks o = if o.ones ≤ 51 ∨ 973 ≤ o.ones then (s.eyeMonitor o.port o.transitions).checkFails o.port 2 false
      else s.eyeMonitor o.port o.transitions := by
  have return_ : (s.eyeMonitor o.port o.transitions).returnMonitor o.port o = s.eyeMonitor o.port o.transitions :=
    if_neg (by simp [b.eye.normal])
  unfold blockChecks
  rw [if_neg (by simp [b.observed])]
  simp only [linkStringHits_quiet b.quiet, blockMask_quiet b.quiet, return_, b.eye.quiet, Bool.false_eq_true, if_false]

theorem HomeBlock.getN_eye {s : State} {o : BlockObs} {p : Fin 8} {c : Fin 7} (b : s.HomeBlock o p c) :
    (s.blockChecks o).getN (K.EYE p (c + 1)) = (s.eyeWord o.port o.transitions : Int) := by
  have eye : (s.eyeMonitor o.port o.transitions).getN (K.EYE p (c + 1)) = (s.eyeWord o.port o.transitions : Int) := by
    rw [b.port, getN_eyeMonitor b.serves.1 _ (eye_not_linkKey p c), if_pos rfl]
  rw [b.checks]
  split
  · rw [getN_checkFails (eye_not_linkKey p c), eye]
  · exact eye

theorem HomeBlock.density {s : State} {o : BlockObs} {p : Fin 8} {c : Fin 7} (b : s.HomeBlock o p c) (out : o.ones ≤ 51 ∨ 973 ≤ o.ones) :
    bit ((s.blockChecks o).getU (K.PORT_STATUS p (c + 1))) 2 = true := by
  rw [b.checks, if_pos out, getU]
  have sv := b.eye.serves
  rw [b.port] at sv ⊢
  rw [getN_checkFails_status sv]
  exact bit_or_flag _ 2

/-! ### The count (R68) -/

/-- In link fault the fourth clean block in a row ends the fault. -/
theorem countBlock_fault {s : State} {m : Fin 60} (clean : s.ports[m].failedInBlock = false) (fault : s.ports[m].phase = .fault) :
    (s.countBlock m).ports[m].phase = (if s.ports[m].clean + 1 < 4 then .fault else .good) ∧
      (s.countBlock m).ports[m].clean = if s.ports[m].clean + 1 < 4 then s.ports[m].clean + 1 else 0 := by
  unfold countBlock
  dsimp only
  rw [if_neg (by rw [clean]; decide), if_neg (by rw [fault]; decide)]
  by_cases few : s.ports[m].clean + 1 < 4
  · rw [if_pos few, if_pos few, if_pos few, updPort_port]
    exact ⟨fault, rfl⟩
  · rw [if_neg few, if_neg few, if_neg few]
    have done : ((s.updPort m fun x => { x with clean := 0, phase := .good }).ports[m]).phase = .good ∧
        ((s.updPort m fun x => { x with clean := 0, phase := .good }).ports[m]).clean = 0 := by
      rw [updPort_port]
      exact ⟨rfl, rfl⟩
    split
    · exact done
    · exact done

/-- A whole block of a port in link fault, past its start, is counted. -/
theorem HomeBlock.counts {s : State} {o : BlockObs} {p : Fin 8} {c : Fin 7} (b : s.HomeBlock o p c) (whole : s.ports[o.port].partBlock = false)
    (fault : s.ports[o.port].phase = .fault) : s.blockCounts o = s.countBlock o.port := by
  unfold blockCounts
  rw [if_neg (by simp [b.observed])]
  dsimp only
  rw [if_neg (by rw [whole]; decide), if_neg (by simp [b.normal]), if_neg (by rw [fault]; simp)]

/-! ### The end of a block -/

theorem blockEnds_blockNo {s : State} (on : s.clocksOn = true) (obs : List BlockObs) : (s.blockEnds obs).blockNo = s.blockNo + 1 := by
  unfold blockEnds
  rw [if_neg (by simp [on])]
  show State.blockNo (learnGroups _ _) + 1 = _
  rw [(learnGroups_touches ..).blockNo (by decide), (blocksEnd_touches ..).blockNo (by decide)]

theorem blockEnds_nil {s : State} (on : s.clocksOn = true) : s.blockEnds [] = { s with blockNo := s.blockNo + 1 } := by
  unfold blockEnds
  rw [if_neg (by simp [on])]
  rfl

/-- One observed home port: its checks, then its count. -/
theorem blocksEnd_home (s : State) {o : BlockObs} (home : o.port.val < 56) : s.blocksEnd [o] = (s.blockChecks o).blockCounts o := by
  unfold blocksEnd
  simp [home, forEach]

theorem getN_blockEnds_home {s : State} (on : s.clocksOn = true) {o : BlockObs} (home : o.port.val < 56) (k : Nat) :
    (s.blockEnds [o]).getN k = (s.blockChecks o).getN k := by
  unfold blockEnds
  rw [if_neg (by simp [on]), blocksEnd_home s home]
  exact getN_congr (((learnGroups_touches ..).nums (by decide)).trans ((blockCounts_touches ..).nums (by decide))) k

theorem blockEnds_home_ports {s : State} (on : s.clocksOn = true) {o : BlockObs} (home : o.port.val < 56) :
    (s.blockEnds [o]).ports = ((s.blockChecks o).blockCounts o).ports := by
  unfold blockEnds
  rw [if_neg (by simp [on]), blocksEnd_home s home]
  exact (learnGroups_touches ..).ports (by decide)

/-- A clean whole block in link fault: the count goes on, or the fault ends (R68). -/
theorem HomeBlock.fault_ends {s : State} {o : BlockObs} {p : Fin 8} {c : Fin 7} (b : s.HomeBlock o p c) (on : s.clocksOn = true)
    (lo : 51 < o.ones) (hi : o.ones < 973) (whole : s.ports[o.port].partBlock = false) (clean : s.ports[o.port].failedInBlock = false)
    (fault : s.ports[o.port].phase = .fault) :
    (s.blockEnds [o]).ports[o.port].phase = (if s.ports[o.port].clean + 1 < 4 then .fault else .good) ∧
      (s.blockEnds [o]).ports[o.port].clean = if s.ports[o.port].clean + 1 < 4 then s.ports[o.port].clean + 1 else 0 := by
  have home : o.port.val < 56 := by
    rw [b.port]
    exact homePort_lt p c
  have same : (s.eyeMonitor o.port o.transitions).ports = s.ports := (eyeMonitor_touches ..).ports (by decide)
  have checks : s.blockChecks o = s.eyeMonitor o.port o.transitions := by
    rw [b.checks, if_neg (by omega)]
  have counts := b.eye.counts (by simp only [same]; exact whole) (by simp only [same]; exact fault)
  have count := countBlock_fault (s := s.eyeMonitor o.port o.transitions) (m := o.port) (by simp only [same]; exact clean)
    (by simp only [same]; exact fault)
  simp only [blockEnds_home_ports on home, checks, counts]
  simpa only [same] using count

end State

namespace State

/-! ### The checks between blocks (R66) -/

theorem linkCheckFail_stuck {s : State} (on : s.clocksOn = true) (m : Fin 60) : s.linkCheckFail m .stuck = s.checkFails m 1 false :=
  if_neg (by simp [on])

theorem linkCheckFail_unused {s : State} {m : Fin 60} (unused : s.portUsed m = false) : s.linkCheckFail m .stuck = s := by
  by_cases on : s.clocksOn = true
  · rw [linkCheckFail_stuck on]
    exact if_pos unused
  · exact if_pos ((Bool.not_eq_true _).mp on)

/-- A returned clock outside its limits or stopped is a check of the whole group in clock-return mode. -/
theorem linkCheckFail_return {s : State} (on : s.clocksOn = true) (m : Fin 60) {k : LinkCheck} (hk : k ≠ .stuck) :
    s.linkCheckFail m k = if s.clkReturn (groupOf m) then s.groupFails (groupOf m) else s := by
  unfold linkCheckFail
  rw [if_neg (by simp [on])]
  cases k
  case stuck => exact absurd rfl hk
  all_goals rfl

theorem linkCheckFail_normal {s : State} {m : Fin 60} {k : LinkCheck} (hk : k ≠ .stuck) (normal : s.clkReturn (groupOf m) = false) :
    s.linkCheckFail m k = s := by
  by_cases on : s.clocksOn = true
  · rw [linkCheckFail_return on m hk, normal]
    rfl
  · exact if_pos ((Bool.not_eq_true _).mp on)

/-- The integrity fault of a check vector names the lane and the point it serves (R353). -/
theorem laneCheckVector_fault_entries {s : State} (on : s.clocksOn = true) {l : Fin 5}
    (serves : s.lanes[l].state = .inService ∨ s.lanes[l].state = .worn) :
    (s.laneCheckVector l [] true).integrityFlag = true ∧ (s.laneCheckVector l [] true).decided = .lockdown ∧
      (s.laneCheckVector l [] true).getN K.INTEGRITY_CAUSE = (2 * 2 ^ 24 + (l * 256 + s.lanePoint l) : Nat) ∧
      (s.laneCheckVector l [] true).getN K.INTEGRITY_INDEX = (s.index : Nat) := by
  have fits : (l * 256 + s.lanePoint l) % 2 ^ 24 = l * 256 + s.lanePoint l := by
    have := s.lanePoint_le l
    omega
  rw [laneCheckVector_fault on serves]
  refine ⟨integrity_flag .., integrity_decided .., ?_, ?_⟩
  · rw [getN_integrity, fits, if_neg (by decide), if_neg (by decide), if_neg (by decide), if_pos rfl]
  · rw [getN_integrity, if_neg (by decide), if_pos rfl]

end State

/-- Settles O52: each occurrence by what it does to its lane or port, and its frame by what it may touch. -/
theorem lanesAndPortsAreChecked : Obligations.LanesAndPortsAreChecked := by
  intro s
  refine ⟨fun l ds u => ⟨fun off => congrArg Host.Outcome.next (if_pos off), fun on => ⟨_, rfl, fun hd hu => ?_, fun d hd hu => ?_,
      fun hd hu serves => ?_, (State.laneCheckVector_touches ..).frame⟩⟩,
    fun p => ⟨fun sub hs hp full => congrArg Host.Outcome.next (State.shadowWarm_warm hs hp full),
      fun few => congrArg Host.Outcome.next (State.shadowWarm_cold few)⟩,
    ⟨_, rfl, fun l => s.latencyInterval_lane l, (State.latencyInterval_touches s).frame⟩,
    fun obs => ⟨fun off => congrArg Host.Outcome.next (if_pos off), fun on => ⟨_, rfl, State.blockEnds_blockNo on obs, fun hobs => ?_,
      fun o p c one port phys use clock normal quiet => ?_, (State.blockEnds_touches s obs).frame⟩⟩,
    fun m k => ⟨fun off => congrArg Host.Outcome.next (if_pos off), fun hk unused => ?_,
      fun hk normal => congrArg Host.Outcome.next (State.linkCheckFail_normal hk normal), fun p c on hk hm phys use => ?_,
      fun on hk ret => ⟨_, rfl, fun p c group phys use => ?_, (State.linkCheckFail_touches ..).frame⟩⟩⟩
  · subst hd hu
    exact s.laneCheckVector_clean l
  · subst hd hu
    rw [State.laneCheckVector_one on, State.getN_laneOp_corrected]
  · subst hd hu
    exact State.laneCheckVector_fault_entries on serves
  · subst hobs
    exact State.blockEnds_nil on
  · subst one
    have b : s.HomeBlock o p c := ⟨port, ⟨phys.trans port, use⟩, clock, normal, quiet⟩
    have home : o.port.val < 56 := by
      rw [port]
      exact homePort_lt p c
    refine ⟨(State.getN_blockEnds_home on home _).trans b.getN_eye, fun out => ?_, fun lo hi => b.fault_ends on lo hi⟩
    rw [State.getU, State.getN_blockEnds_home on home]
    exact b.density out
  · subst hk
    exact congrArg Host.Outcome.next (State.linkCheckFail_unused unused)
  · subst hk hm
    have sv : s.ServesHome p c := ⟨phys, use⟩
    refine ⟨_, congrArg Host.Outcome.next (State.linkCheckFail_stuck on _), State.getN_checkFails_status sv 1 false,
      fun good alone => State.checkFails_alone sv good alone 1 false, (State.checkFails_touches ..).frame⟩
  · rw [State.linkCheckFail_return on m hk, if_pos ret]
    exact State.groupFails_skew ret group ⟨phys, use⟩

end Sys2Proof.Machine
end

section
/-! PROOFS. Writes of flag entries: a bit carried as 1 is cleared at once, and the write is answered OK (R78, R116, R305, R321, R322, R378). -/

namespace Sys2Proof.Machine

open Sys2Proof

/-- The frame of a change of the display and the two links, where `d` is the display with its own changes undone. -/
theorem Touches.frame_disp {s t : State} (k : Touches 288230582310141952 s t) {d : Display} (undone : d = s.disp) :
    { t with disp := d, spi := s.spi, can := s.can } = s := by
  subst undone
  exact k.frame

namespace State

/-! ### The flag path (R378) -/

/-- The indices of the flag entries, and P0's same entries (R374). -/
theorem isFlagEntry_ranges {idx : Nat} (flag : isFlagEntry idx = true) :
    (baseIdx idx = 0x2011 ∨ baseIdx idx = 0x5001 ∨ baseIdx idx = 0xA010 ∨ baseIdx idx = 0x8035) ∧ idx < 0xB000 ∧ (idx < 0x6800 ∨ 0x8000 < idx) := by
  have near : baseIdx idx ≤ idx ∧ idx ≤ baseIdx idx + 0x700 := by
    unfold baseIdx pointOfIdx
    split
    · rename_i point
      simp only [isPointIdx, Bool.and_eq_true, decide_eq_true_eq] at point
      omega
    · omega
  simp only [isFlagEntry, Bool.or_eq_true, decide_eq_true_eq, or_assoc] at flag
  rcases flag with base | base | rfl | rfl
  · exact ⟨.inl base, by omega⟩
  · exact ⟨.inr (.inl base), by omega⟩
  · decide
  · decide

/-- A write of a flag entry whose value its own rule accepts acts at once and is answered OK: no state of R376 refuses it (R377, R378). -/
theorem hostWrite_flag {s : State} {h : Requester} (r : s.Ready h) {idx sub : Nat} {data : List Byte} {d : Desc} {v : Val}
    (flag : isFlagEntry idx = true) (hd : findDesc idx sub = some d) (acc : d.acc = .rw) (rule : d.rule = .special)
    (len : d.ty.lenOk data.length = true) (valid : d.ty.valid data = true) (dec : d.ty.decode data = v)
    (ok : (s.foreseen []).specialOk idx sub v = true) :
    s.hostWrite h idx sub data =
      ((s.taken h opWrite idx sub data).writeNow idx sub v).withLinksOf (s.answered h opWrite idx sub .ok []) := by
  obtain ⟨base, below, range⟩ := isFlagEntry_ranges flag
  have val : s.entryValueOk [] d idx sub data = true := by
    rw [entryValueOk, if_neg (by omega), valid, dec, valueOk_special rule (by omega) (by omega), ok]
    rfl
  have st : s.writeStatus [] d idx sub data = .ok :=
    writeStatus_ok (classStatus_rw acc) (stateRefuses_free (by omega) (by omega)) (by rw [entryLenOk, if_neg (by omega), len]) val
  have k := writeNow_touches (s.taken h opWrite idx sub data) idx sub v
  rw [hostWrite_now r hd (by simp [acc]) st (by omega) (.inl flag) dec]
  refine reply_done r ?_ (k.spi (by decide)) (k.can (by decide)) ..
  rw [serves, k.mode (by decide), taken_mode]
  exact r.1

/-- The same of an unsigned number that fits its type. -/
theorem hostWrite_flags {s : State} {h : Requester} (r : s.Ready h) {idx sub n w : Nat} {d : Desc} (flag : isFlagEntry idx = true)
    (hd : findDesc idx sub = some d) (acc : d.acc = .rw) (rule : d.rule = .special) (ty : d.ty = .u (n * 8)) (fits : w < 256 ^ n)
    (ok : (s.foreseen []).specialOk idx sub (.num w) = true) : s.hostWrite h idx sub (leBytes n w) =
      ((s.taken h opWrite idx sub (leBytes n w)).writeNow idx sub (.num w)).withLinksOf (s.answered h opWrite idx sub .ok []) := by
  refine hostWrite_flag r flag hd acc rule ?_ ?_ ?_ ok
  · rw [ty, leBytes_length]
    exact decide_eq_true rfl
  · rw [ty]
    rfl
  · rw [ty, Ty.decode, leNat_leBytes n w fits]

/-! ### The value rules (R375) -/

theorem specialOk_portStatus (u : State) (p : Fin 8) (sub : Nat) (v : Val) : u.specialOk (0x2011 + 0x100 * p.val) sub v = inMask v.nat 0x1FF := by
  unfold specialOk
  simp only [baseIdx_add (b := 0x2011) rfl (by decide)]
  rw [if_neg (by omega)]
  rfl

theorem specialOk_evStatus (u : State) (p : Fin 8) (v : Val) : u.specialOk (0x5001 + 0x100 * p.val) 0 v = inMask v.nat 0x13FFF := by
  unfold specialOk
  simp only [baseIdx_add (b := 0x5001) rfl (by decide)]
  rw [if_neg (by omega), if_neg (by decide), if_neg (by decide), if_neg (by decide), if_neg (by omega), if_neg (by omega), if_neg (by omega),
    if_neg (by omega)]
  rfl

theorem specialOk_tamperStatus (u : State) (v : Val) : u.specialOk 0xA010 0 v = true := rfl

theorem specialOk_drvFault (u : State) (v : Val) : u.specialOk 0x8035 0 v = decide (v.nat < 2 ^ 194) := rfl

/-! ### What each entry's write clears -/

theorem writeNow_portStatus (u : State) (p : Fin 8) (c : Fin 7) (v : Val) :
    u.writeNow (0x2011 + 0x100 * p.val) (c.val + 1) v = u.clearPortFlags p c v.nat := by
  have hp : (⟨p.val % 8, by omega⟩ : Fin 8) = p := fin_mk_mod p _
  have hc : (⟨(c.val + 1 - 1) % 7, by omega⟩ : Fin 7) = c := fin_mk_mod c _
  unfold writeNow
  simp only [baseIdx_add (b := 0x2011) rfl (by decide), pointOfIdx_add (b := 0x2011) rfl (by decide), hp, hc, if_true]

theorem writeNow_evStatus (u : State) (p : Fin 8) (v : Val) : u.writeNow (0x5001 + 0x100 * p.val) 0 v = u.clearEvStatus p v.nat := by
  have hp : (⟨p.val % 8, by omega⟩ : Fin 8) = p := fin_mk_mod p _
  unfold writeNow
  simp only [baseIdx_add (b := 0x5001) rfl (by decide), pointOfIdx_add (b := 0x5001) rfl (by decide), hp]
  rfl

theorem writeNow_tamperStatus (u : State) (v : Val) : u.writeNow 0xA010 0 v = u.clearSticky v.nat := rfl

theorem writeNow_drvFault (u : State) (v : Val) : u.writeNow 0x8035 0 v = u.clearDrvFault v.nat := rfl

/-- QUAL is ignored: only the six event bits are cleared (R78). -/
theorem getN_clearPortFlags (s : State) (p : Fin 8) (c : Fin 7) (w k : Nat) : (s.clearPortFlags p c w).getN k =
    if k = K.PORT_STATUS p (c + 1) then
      ((s.getU (K.PORT_STATUS p (c + 1)) ^^^ (s.getU (K.PORT_STATUS p (c + 1)) &&& w &&& 0x3F) : Nat) : Int) else s.getN k := by
  rw [clearPortFlags, updChan, getN_updPoint, getN_put]

theorem getN_clearEvStatus (s : State) (p : Fin 8) (w k : Nat) : (s.clearEvStatus p w).getN k =
    if k = K.EV_STATUS p then ((s.getU (K.EV_STATUS p) ^^^ (s.getU (K.EV_STATUS p) &&& w) : Nat) : Int) else s.getN k := by
  rw [clearEvStatus, getN_updPoint, getN_put]

/-- With no sticky flag hit there is nothing to clear. -/
theorem clearSticky_none {s : State} {w : Nat} (miss : s.getU K.TAMPER_STATUS &&& w = 0) : s.clearSticky w = s := if_pos miss

/-- The sticky flags that are hit are cleared, and of the other number entries none changes (R322). -/
theorem getN_clearSticky {s : State} {w : Nat} (hit : s.getU K.TAMPER_STATUS &&& w ≠ 0) (k : Nat) : (s.clearSticky w).getN k =
    if k = K.TAMPER_STATUS then ((s.getU K.TAMPER_STATUS ^^^ (s.getU K.TAMPER_STATUS &&& w) : Nat) : Int) else s.getN k := by
  have marked (u : State) (l : List (Fin 16)) : (forEach l (fun n u => u.updSrc n fun x => { x with cleared := true }) u).keepMarks.getN k = u.getN k :=
    forEach_field (fun u => u.getN k) _ _ u fun _ _ _ => rfl
  rw [clearSticky, if_neg hit, marked, getN_put]

theorem getN_clearSticky_other (s : State) (w : Nat) {k : Nat} (no : k ≠ K.TAMPER_STATUS) : (s.clearSticky w).getN k = s.getN k := by
  by_cases miss : s.getU K.TAMPER_STATUS &&& w = 0
  · rw [clearSticky_none miss]
  · rw [getN_clearSticky miss, if_neg no]

theorem getU_clearSticky (s : State) (w : Nat) :
    (s.clearSticky w).getU K.TAMPER_STATUS = s.getU K.TAMPER_STATUS ^^^ (s.getU K.TAMPER_STATUS &&& w) := by
  by_cases miss : s.getU K.TAMPER_STATUS &&& w = 0
  · rw [clearSticky_none miss, miss, Nat.xor_zero]
  · rw [getU, getN_clearSticky miss, if_pos rfl, Int.toNat_natCast]

/-- The backup domain's copy follows (R321). -/
theorem backupStatus_clearSticky {s : State} {w : Nat} (hit : s.getU K.TAMPER_STATUS &&& w ≠ 0) :
    (s.clearSticky w).tamper.backupStatus = (s.clearSticky w).getU K.TAMPER_STATUS := by
  rw [clearSticky, if_neg hit]
  rfl

theorem fault_clearDrvFault (s : State) (w : Nat) : (s.clearDrvFault w).disp.fault = s.disp.fault ^^^ (s.disp.fault &&& w) := rfl

/-- DRV_FAULT is the display's own register: beside it a write changes only what the display remembers of cleared bits (R305). -/
theorem disp_clearDrvFault (s : State) (w : Nat) :
    { (s.clearDrvFault w).disp with fault := s.disp.fault, faultCleared := s.disp.faultCleared } = s.disp := rfl

/-! ### The four rows -/

section Rows

variable {s : State} {h : Requester} {w : Nat}

theorem portStatus_clears (r : s.Ready h) (p : Fin 8) (c : Fin 7) (fits : w < 512) :
    ∃ t, exec (.portStatus h p c w) s = .next t ∧ Answered s t h opWrite (0x2011 + 0x100 * p.val) (c.val + 1) .ok [] ∧
      (∀ k, t.getN k = if k = K.PORT_STATUS p (c + 1) then
        ((s.getU (K.PORT_STATUS p (c + 1)) ^^^ (s.getU (K.PORT_STATUS p (c + 1)) &&& w &&& 0x3F) : Nat) : Int) else s.getN k) ∧
      { t with nums := s.nums, tab := s.tab, points := s.points, spi := s.spi, can := s.can } = s := by
  have hd : ∀ (p : Fin 8) (c : Fin 7),
      findDesc (0x2011 + 0x100 * p.val) (c.val + 1) = some ⟨0x2011, 1, 1, 1, 7, .u 16, .rw, 192, [], .special⟩ := by decide +kernel
  have flag : isFlagEntry (0x2011 + 0x100 * p.val) = true := by simp [isFlagEntry, baseIdx_add (b := 0x2011) rfl (by decide) p]
  have run := hostWrite_flags (n := 2) r flag (hd p c) rfl rfl rfl (by omega)
    ((specialOk_portStatus ..).trans (inMask_of_lt (n := 9) fits))
  rw [writeNow_portStatus] at run
  refine ⟨_, congrArg Host.Outcome.next run, answered_links .., fun k => ?_,
    (Touches.answered (n := 1305686835201) (clearPortFlags_touches ..)).frame⟩
  rw [getN_withLinksOf, getN_clearPortFlags, getU_taken, getN_taken]
  rfl

theorem evStatus_clears (r : s.Ready h) (p : Fin 8) (fits : w < 2 ^ 32) (mask : inMask w 0x13FFF = true) :
    ∃ t, exec (.evStatus h p w) s = .next t ∧ Answered s t h opWrite (0x5001 + 0x100 * p.val) 0 .ok [] ∧
      (∀ k, t.getN k = if k = K.EV_STATUS p then ((s.getU (K.EV_STATUS p) ^^^ (s.getU (K.EV_STATUS p) &&& w) : Nat) : Int) else s.getN k) ∧
      { t with nums := s.nums, tab := s.tab, points := s.points, spi := s.spi, can := s.can } = s := by
  have hd : ∀ p : Fin 8, findDesc (0x5001 + 0x100 * p.val) 0 = some ⟨0x5001, 1, 1, 0, 0, .u 32, .rw, 0, [], .special⟩ := by decide +kernel
  have flag : isFlagEntry (0x5001 + 0x100 * p.val) = true := by simp [isFlagEntry, baseIdx_add (b := 0x5001) rfl (by decide) p]
  have run := hostWrite_flags (n := 4) r flag (hd p) rfl rfl rfl fits ((specialOk_evStatus ..).trans mask)
  rw [writeNow_evStatus] at run
  refine ⟨_, congrArg Host.Outcome.next run, answered_links .., fun k => ?_,
    (Touches.answered (n := 1305686835201) (clearEvStatus_touches ..)).frame⟩
  rw [getN_withLinksOf, getN_clearEvStatus, getU_taken, getN_taken]
  rfl

theorem tamperStatus_clears (r : s.Ready h) (fits : w < 2 ^ 16) :
    ∃ t, exec (.tamperStatus h w) s = .next t ∧ Answered s t h opWrite 0xA010 0 .ok [] ∧
      t.getU K.TAMPER_STATUS = s.getU K.TAMPER_STATUS ^^^ (s.getU K.TAMPER_STATUS &&& w) ∧
      (s.getU K.TAMPER_STATUS &&& w ≠ 0 → t.tamper.backupStatus = t.getU K.TAMPER_STATUS) ∧
      (∀ k, k ≠ K.TAMPER_STATUS → t.getN k = s.getN k) ∧
      { t with nums := s.nums, tab := s.tab, tamper := s.tamper, journal := s.journal, spi := s.spi, can := s.can } = s := by
  have hd : findDesc 0xA010 0 = some ⟨0xA010, 1, 1, 0, 0, .u 16, .rw, 0, [], .special⟩ := by decide +kernel
  have run := hostWrite_flags (n := 2) r (by decide) hd rfl rfl rfl fits (specialOk_tamperStatus ..)
  rw [writeNow_tamperStatus] at run
  refine ⟨_, congrArg Host.Outcome.next run, answered_links .., ?_, fun hit => ?_, fun k no => ?_,
    (Touches.answered (n := 576462062268448769) (clearSticky_touches ..)).frame⟩
  · exact (getU_clearSticky ..).trans (by rw [getU_taken]; rfl)
  · exact backupStatus_clearSticky (by rw [getU_taken]; exact hit)
  · rw [getN_withLinksOf, getN_clearSticky_other _ _ no, getN_taken]

theorem drvFault_clears (r : s.Ready h) {bits : List Byte} (len : bits.length = 25) (fits : leNat bits < 2 ^ 194) :
    ∃ t, exec (.drvFault h bits) s = .next t ∧ Answered s t h opWrite 0x8035 0 .ok [] ∧
      t.disp.fault = s.disp.fault ^^^ (s.disp.fault &&& leNat bits) ∧
      { t with disp := { t.disp with fault := s.disp.fault, faultCleared := s.disp.faultCleared }, spi := s.spi, can := s.can } = s := by
  have hd : findDesc 0x8035 0 = some ⟨0x8035, 1, 1, 0, 0, .blob 25, .rw, 0, [], .special⟩ := by decide +kernel
  have run := hostWrite_flag (v := .bytes bits) r (by decide) hd rfl rfl (decide_eq_true len) rfl rfl
    ((specialOk_drvFault ..).trans (decide_eq_true fits))
  rw [writeNow_drvFault] at run
  have disp := disp_clearDrvFault (s.taken h opWrite 0x8035 0 bits) (leNat bits)
  have fault := fault_clearDrvFault (s.taken h opWrite 0x8035 0 bits) (leNat bits)
  rw [taken_disp] at disp fault
  exact ⟨_, congrArg Host.Outcome.next run, answered_links .., fault,
    Touches.frame_disp (Touches.answered (clearDrvFault_touches ..)) disp⟩

end Rows

end State

/-- Settles O31: a write of each of the four flag entries takes the flag path, which no state of a serving device refuses. -/
theorem flagWritesClearBits : Obligations.FlagWritesClearBits := by
  intro s h w r
  exact ⟨fun p c fits => State.portStatus_clears r p c fits, fun p fits mask => State.evStatus_clears r p fits mask,
    fun fits => State.tamperStatus_clears r fits, fun bits len fits => State.drvFault_clears r len fits⟩

end Sys2Proof.Machine
end

section
/-! PROOFS. What leaves the energy registers as they are: events, quantities, pulses, demand, sessions, plates and changes of configuration (R89,
R124, R143). -/

namespace Sys2Proof.Machine

open Sys2Proof
set_option Elab.async false

/-! ### What keeps the books -/

/-- The entries of a point that only the booking of a step writes: the billing and the disputed registers with their residues, NET_INDEX,
STEP_COUNT and LAST_NET (Table 04.7). -/
def bookKey (k : Nat) : Bool :=
  decide (0x4000 ≤ k / 256 ∧ k / 256 < 0x4800) && (decide (k / 256 % 256 < 4) || decide (k / 256 % 256 = 4 ∧ k % 256 ≤ 3))

/-- The booked entries hold what they held, and the same steps wait for their booking. -/
structure KeepsBooks (s t : State) : Prop where
  entry : ∀ {k}, bookKey k = true → t.getN k = s.getN k
  closing : ∀ q : Fin 8, t.points[q].closing = s.points[q].closing

/-- What touches neither the numbers nor the points keeps the books. -/
theorem Touches.keepsBooks {m : Nat} {s t : State} (h : Touches m s t) (hn : Nat.land m 1 ≠ 1 := by decide)
    (hp : Nat.land m 16777216 ≠ 16777216 := by decide) : KeepsBooks s t :=
  ⟨fun _ => State.getN_congr (h.nums hn) _, fun q => by rw [h.points hp]⟩

namespace KeepsBooks

variable {s t u : State}

theorem refl (s : State) : KeepsBooks s s := ⟨fun _ => rfl, fun _ => rfl⟩

theorem trans (h : KeepsBooks s t) (g : KeepsBooks t u) : KeepsBooks s u :=
  ⟨fun b => (g.entry b).trans (h.entry b), fun q => (g.closing q).trans (h.closing q)⟩

theorem after (g : KeepsBooks t u) (h : KeepsBooks s t) : KeepsBooks s u := h.trans g

theorem plateUse {v : Vector PlateUse 8} (h : KeepsBooks s t) : KeepsBooks s { t with plateUse := v } := ⟨h.entry, h.closing⟩

theorem cal {v : Option CalRun} (h : KeepsBooks s t) : KeepsBooks s { t with cal := v } := ⟨h.entry, h.closing⟩

theorem laneSub {v : Option LaneSub} (h : KeepsBooks s t) : KeepsBooks s { t with laneSub := v } := ⟨h.entry, h.closing⟩

theorem ite {c : Prop} [Decidable c] (ht : KeepsBooks s t) (hu : KeepsBooks s u) : KeepsBooks s (if c then t else u) := by
  split <;> assumption

/-- A change that may not happen. -/
theorem iteR {c : Prop} [Decidable c] (h : KeepsBooks s t) (g : KeepsBooks t u) : KeepsBooks s (if c then u else t) := .ite (h.trans g) h

theorem iteL {c : Prop} [Decidable c] (h : KeepsBooks s t) (g : KeepsBooks t u) : KeepsBooks s (if c then t else u) := .ite h (h.trans g)

theorem forEach {α : Type} {l : List α} {f : α → State → State} (h : KeepsBooks s t) (hf : ∀ a ∈ l, ∀ u, KeepsBooks u (f a u)) :
    KeepsBooks s (Machine.forEach l f t) :=
  h.trans ⟨fun b => forEach_field (fun u => u.getN _) l f t fun a ha u => (hf a ha u).entry b,
    fun q => forEach_field (fun u => u.points[q].closing) l f t fun a ha u => (hf a ha u).closing q⟩

/-- An entry outside the books is set. That its key lies outside is computed for every point and subindex. -/
theorem setQ {n k : Nat} {v : Int} (h : KeepsBooks s t) (no : bookKey k = false := by clear * -; decide +revert) : KeepsBooks s (t.setQ n k v) := by
  refine h.trans ⟨fun {j} b => ?_, fun q => by rw [State.setQ_points]⟩
  have other : j ≠ k := fun e => by simp [e, no] at b
  rw [State.getN_setQ, if_neg other]

theorem put {k : Nat} {v : Int} (h : KeepsBooks s t) (no : bookKey k = false := by clear * -; decide +revert) :
    KeepsBooks s (t.put k v) := h.setQ no

theorem addSatQ {n w k d : Nat} (h : KeepsBooks s t) (no : bookKey k = false := by clear * -; decide +revert) :
    KeepsBooks s (t.addSatQ n w k d) := h.setQ no

theorem addWrapQ {n w k d : Nat} (h : KeepsBooks s t) (no : bookKey k = false := by clear * -; decide +revert) :
    KeepsBooks s (t.addWrapQ n w k d) := h.setQ no

/-- A point changes, but not in the step that waits. -/
theorem updPoint {p : Fin 8} {f : Point → Point} (h : KeepsBooks s t) (hf : ∀ x, (f x).closing = x.closing := by exact fun _ => rfl) :
    KeepsBooks s (t.updPoint p f) := by
  refine h.trans ⟨fun _ => rfl, fun q => ?_⟩
  rw [State.updPoint_points]
  by_cases e : q = p
  · subst e
    simp [hf]
  · simp [Fin.val_ne_of_ne (Ne.symm e)]

end KeepsBooks

theorem pointOfIdx_le (idx : Nat) : pointOfIdx idx ≤ idx % 0x1000 / 0x100 := by
  unfold pointOfIdx
  split <;> omega

namespace State

/-! ### Events -/

theorem setEvStatus_keepsBooks (s : State) (n : Nat) (p : Fin 8) (b : Fin 17) : KeepsBooks s (s.setEvStatus n p b) := by
  unfold setEvStatus
  exact .iteR (.setQ <| .refl s) (.updPoint <| .addSatQ <| .refl _)

theorem startEvent_keepsBooks (s : State) (n : Nat) (p : Fin 8) (b : Fin 17) (idx value whereMask : Nat) :
    KeepsBooks s (s.startEvent n p b idx value whereMask) := by
  unfold startEvent
  exact .after (pushEvent_touches ..).keepsBooks <| .after (setEvStatus_keepsBooks ..) <| .after (sessionEvent_touches ..).keepsBooks <|
    .addSatQ <| .setQ <| .updPoint <| .refl s

theorem endEvent_keepsBooks (s : State) (n : Nat) (p : Fin 8) (b : Fin 17) (idx : Nat) : KeepsBooks s (s.endEvent n p b idx) := by
  unfold endEvent
  exact .iteR (.refl s) <| .after (pushEvent_touches ..).keepsBooks <| .setQ <| .updPoint <| .refl s

theorem plainEvent_keepsBooks (s : State) (n : Nat) (p : Fin 8) (b : Fin 17) (cond clear : Bool) (value whereMask : Nat) :
    KeepsBooks s (s.plainEvent n p b cond clear value whereMask) := by
  unfold plainEvent
  exact .ite (.iteR (.refl s) (endEvent_keepsBooks ..)) <|
    .ite (.ite (endEvent_keepsBooks ..) (.updPoint <| .refl s)) <| .iteR (.refl s) (startEvent_keepsBooks ..)

theorem levelEvent_keepsBooks (s : State) (n : Nat) (p : Fin 8) (b : Fin 17) (from' : Nat) (cond clear : Bool) (value : Nat) (lowest : Bool)
    (whereMask : Nat) : KeepsBooks s (s.levelEvent n p b from' cond clear value lowest whereMask) := by
  unfold levelEvent
  exact .ite (.ite (endEvent_keepsBooks ..) (.updPoint <| .refl s)) <|
    .ite (.ite (.ite (.after (endEvent_keepsBooks ..) <| .updPoint <| .refl s) (.updPoint <| .refl s)) (.updPoint <| .refl s)) <|
    .ite (.ite (startEvent_keepsBooks ..) (.updPoint <| .refl s)) (.updPoint <| .refl s)

theorem lostReference_keepsBooks (s : State) (p : Fin 8) (n : Nat) : KeepsBooks s (s.lostReference p n) := by
  unfold lostReference
  exact .iteR (.refl s) (plainEvent_keepsBooks ..)

theorem cycleEvents_keepsBooks (s : State) (p : Fin 8) (cl : Closing) : KeepsBooks s (s.cycleEvents p cl) := by
  unfold cycleEvents
  refine .iteL (.after (lostReference_keepsBooks ..) <| .after (levelEvent_keepsBooks ..) <| .after (levelEvent_keepsBooks ..) <|
    .after (levelEvent_keepsBooks ..) <| levelEvent_keepsBooks ..) ?_
  exact .after (levelEvent_keepsBooks ..) <| levelEvent_keepsBooks ..

theorem endAllEvents_keepsBooks (s : State) (p : Fin 8) (idx : Nat) : KeepsBooks s (s.endAllEvents p idx) := by
  unfold endAllEvents
  exact .updPoint <| .forEach (.refl s) fun _ _ _ => endEvent_keepsBooks ..

theorem reversePower_keepsBooks (s : State) (p : Fin 8) (r : StepResult) : KeepsBooks s (s.reversePower p r) := by
  unfold reversePower
  refine .iteL (.refl s) <| .ite (.after (endEvent_keepsBooks ..) <| .updPoint <| .refl s) <| .ite ?_ <|
    .ite (.ite (.after (startEvent_keepsBooks ..) <| .updPoint <| .refl s) (.updPoint <| .refl s)) (.updPoint <| .refl s)
  exact .ite (.ite (.after (endEvent_keepsBooks ..) <| .updPoint <| .updPoint <| .refl s) (.updPoint <| .updPoint <| .refl s))
    (.updPoint <| .updPoint <| .refl s)

/-! ### Quantities -/

theorem cycleQuantities_keepsBooks (s : State) (p : Fin 8) (cl : Closing) : KeepsBooks s (s.cycleQuantities p cl) := by
  unfold cycleQuantities
  exact .iteR (.setQ <| .forEach (.forEach (.refl s) fun _ _ _ => .setQ <| .setQ <| .refl _) fun _ _ _ => .setQ <| .refl _) (.setQ <| .refl _)

theorem nominalFreq_keepsBooks (s : State) (p : Fin 8) (n cfg : Nat) : KeepsBooks s (s.nominalFreq p n cfg) := by
  unfold nominalFreq
  exact .setQ <| .setQ <| .refl s

/-- The quantity entries of a point lie outside the books. -/
theorem clearQuantities_keepsBooks (s : State) (p : Fin 8) (n : Nat) : KeepsBooks s (s.clearQuantities p n) := by
  refine .forEach (.refl s) fun e he u => .setQ (.refl u) ?_
  have low : baseIdx (e.1 / 256) ≤ 0x30A4 := by
    have := (List.mem_filter.1 he).2
    simp only [Bool.and_eq_true, decide_eq_true_eq] at this
    omega
  rw [baseIdx] at low
  have := pointOfIdx_le (e.1 / 256)
  simp [bookKey]
  omega

/-! ### Pulses -/

theorem queuePulses_keepsBooks (s : State) (n : Nat) (m : Fin 8) (k : Nat) : KeepsBooks s (s.queuePulses n m k) := by
  unfold queuePulses
  exact .iteL (.refl s) <| .iteR (.setQ <| .addWrapQ <| .refl s) (.addSatQ <| .refl _)

theorem addPulse_keepsBooks (s : State) (n : Nat) (m : Fin 8) (d : Int) : KeepsBooks s (s.addPulse n m d) := by
  unfold addPulse
  exact .ite (.setQ <| .refl s) <| .after (queuePulses_keepsBooks ..) <| .setQ <| .refl s

theorem correctPulses_keepsBooks (s : State) (p : Fin 8) (n : Nat) (net comp : Int) : KeepsBooks s (s.correctPulses p n net comp) := by
  unfold correctPulses
  exact .forEach (.refl s) fun _ _ _ => .ite (.after (addPulse_keepsBooks ..) (updPulse_touches ..).keepsBooks) (updPulse_touches ..).keepsBooks

theorem applyPulse_keepsBooks (s : State) (n : Nat) (m : Fin 8) : KeepsBooks s (s.applyPulse n m) := by
  unfold applyPulse
  exact .iteL (.refl s) <| .after (updPulse_touches ..).keepsBooks <| .iteL (.setQ <| .refl s) (.addSatQ <| .setQ <| .refl _)

theorem applyPulses_keepsBooks (s : State) (p : Fin 8) (n : Nat) : KeepsBooks s (s.applyPulses p n) := by
  unfold applyPulses
  exact .forEach (.refl s) fun _ _ _ => .iteR (.refl _) (applyPulse_keepsBooks ..)

/-! ### Demand -/

theorem finishDemand_keepsBooks (s : State) (p : Fin 8) (n : Nat) : KeepsBooks s (s.finishDemand p n) := by
  unfold finishDemand
  refine .setQ <| .updPoint <| .setQ <| .setQ <| .setQ <| .iteL (.setQ <| .setQ <| .setQ <| .setQ <| .setQ <| .refl s) ?_
  exact .iteR (.iteR (.refl _) (.setQ <| .setQ <| .refl _)) (.setQ <| .setQ <| .refl _)

theorem demandDue_keepsBooks (s : State) (p : Fin 8) (n : Nat) : KeepsBooks s (s.demandDue p n) := by
  unfold demandDue
  split
  · exact .iteR (.refl s) (finishDemand_keepsBooks ..)
  · exact .refl s

theorem bookDemand_keepsBooks (s : State) (p : Fin 8) (r : StepResult) : KeepsBooks s (s.bookDemand p r) := by
  have amount : ∀ (imported : Prop) [Decidable imported] (p : Fin 8),
      bookKey (if imported then K.DMD_IMPORT p else K.DMD_EXPORT p) = false := by
    intro imported _ p
    split <;> decide +revert
  unfold bookDemand
  refine .setQ <| .updPoint <| .setQ <| .updPoint (.setQ (demandDue_keepsBooks ..) (amount ..)) fun x => ?_
  exact (apply_ite Point.closing ..).trans (ite_self _)

/-! ### Sessions -/

theorem sessionStep_keepsBooks (s : State) (p : Fin 8) (r : StepResult) : KeepsBooks s (s.sessionStep p r) := by
  unfold sessionStep
  split
  · exact .iteR (.refl s) <| .forEach (.setQ <| .setQ (updGrown_touches ..).keepsBooks) fun _ _ _ => .setQ <| .refl _
  · exact .refl s

theorem takeOpen_keepsBooks (s : State) (p : Fin 8) (b : Nat) : KeepsBooks s (s.takeOpen p b) := by
  unfold takeOpen
  exact .after (queueUnit_touches ..).keepsBooks <| .after (updSession_touches ..).keepsBooks <|
    .forEach (.setQ <| .setQ <| .setQ <| .setQ <| .refl s) fun _ _ _ => .setQ <| .refl _

theorem takeClose_keepsBooks (s : State) (p : Fin 8) (b : Nat) : KeepsBooks s (s.takeClose p b) := by
  unfold takeClose
  split
  · exact .after (updSession_touches ..).keepsBooks <| .setQ <| .setQ <| .refl s
  · exact .refl s

theorem sessionBoundary_keepsBooks (s : State) (p : Fin 8) (n : Nat) : KeepsBooks s (s.sessionBoundary p n) := by
  unfold sessionBoundary
  have opened : KeepsBooks s (if s.getN (K.SESSION_STATE p) = 1 ∧ s.sessions[p].desc = none then
      (if s.sessions[p].openSkip then s.updSession p fun x => { x with openSkip := false } else s.takeOpen p n) else s) :=
    .iteR (.refl s) <| .ite (updSession_touches ..).keepsBooks (takeOpen_keepsBooks ..)
  exact .after (closeLaunch_touches ..).keepsBooks <| .after (.ite (.ite (updSession_touches ..).keepsBooks (takeClose_keepsBooks ..)) <|
    .iteR (.refl _) (updSession_touches ..).keepsBooks) opened

theorem acceptOpen_keepsBooks (s : State) (p : Fin 8) : KeepsBooks s (s.acceptOpen p) := by
  unfold acceptOpen
  exact .after (updSession_touches ..).keepsBooks <| .setQ <| .refl s

theorem releaseHeld_keepsBooks (s : State) (p : Fin 8) : KeepsBooks s (s.releaseHeld p) := by
  unfold releaseHeld
  exact .iteL (.refl s) <| .forEach (takeHeld_touches ..).keepsBooks fun _ _ _ =>
    .ite (.after (replyWrite_touches ..).keepsBooks <| acceptOpen_keepsBooks ..) (replyWrite_touches ..).keepsBooks

/-! ### What takes effect at a boundary -/

theorem forcedReturn_keepsBooks (s : State) (p : Fin 8) : KeepsBooks s (s.forcedReturn p) := by
  unfold forcedReturn
  refine .forEach (.refl s) fun _ _ u => ?_
  split
  · split
    · split
      · exact .after (updSpare_touches ..).keepsBooks <| .setQ <| .refl u
      · exact .refl u
    · exact .refl u
  · exact .refl u

theorem setTFlag_keepsBooks (s : State) (n : Nat) (p : Fin 8) (b : Nat) (v : Bool) : KeepsBooks s (s.setTFlag n p b v) := .setQ <| .refl s

theorem setTi_keepsBooks (s : State) (n : Nat) (p : Fin 8) (t : Int) : KeepsBooks s (s.setTi n p t) := by
  unfold setTi
  exact .iteL (.refl s) <| .after (coefDue_touches ..).keepsBooks <| .setQ <| .refl s

theorem tempBoundary_keepsBooks (s : State) (p : Fin 8) (n : Nat) : KeepsBooks s (s.tempBoundary p n) := by
  unfold tempBoundary
  refine .iteL (.refl s) ?_
  split
  · exact .iteR (.after (setTFlag_keepsBooks ..) <| .plateUse <| .refl s) <| .after (setTi_keepsBooks ..) (setTFlag_keepsBooks ..)
  · exact .iteR (.refl s) (setTFlag_keepsBooks ..)

theorem formActive_keepsBooks (s : State) (p : Fin 8) (n : Nat) : KeepsBooks s (s.formActive p n) := by
  unfold formActive
  exact .setQ <| .forEach (.refl s) fun _ _ _ => .setQ <| .setQ <| .setQ <| .refl _

theorem applyPlates_keepsBooks (s : State) (p : Fin 8) (n : Nat) : KeepsBooks s (s.applyPlates p n) := by
  unfold applyPlates
  refine .iteL (.refl s) ?_
  dsimp only
  split
  · refine .iteR (.addWrapQ <| .setQ <| .setQ <| .updPoint <| .after (formActive_keepsBooks ..) <| .plateUse <| .refl s) ?_
    exact .cal <| .put <| .put <| .put (queueRecord_touches ..).keepsBooks
  · exact .addWrapQ <| .setQ <| .setQ <| .updPoint <| .after (formActive_keepsBooks ..) <| .plateUse <| .refl s

theorem applyKind_keepsBooks (s : State) (p : Fin 8) (n cfg : Nat) : KeepsBooks s (s.applyKind p n cfg) := by
  unfold applyKind
  exact .setQ <| .updPoint <| .after (nominalFreq_keepsBooks ..) <| .after (clearQuantities_keepsBooks ..) <| endAllEvents_keepsBooks ..

theorem applyOsr_keepsBooks (s : State) (p : Fin 8) (n : Nat) (osr : Bool) : KeepsBooks s (s.applyOsr p n osr) := by
  unfold applyOsr
  refine .iteR (.forEach (.updPoint (endAllEvents_keepsBooks ..) fun _ => (apply_ite Point.closing ..).trans (ite_self _)) fun c _ u => ?_)
    (.setQ <| .refl _)
  dsimp only
  have both : KeepsBooks u ((u.clearFilter (homePort p c)).clearFilter (u.physPort p c)) :=
    .after (clearFilter_touches ..).keepsBooks (clearFilter_touches ..).keepsBooks
  split
  · exact .after (clearFilter_touches ..).keepsBooks both
  · exact both

theorem applyLane_keepsBooks (s : State) (p : Fin 8) : KeepsBooks s (s.applyLane p) := by
  unfold applyLane
  refine .iteL (.refl s) ?_
  dsimp only
  split
  · exact .iteR (.updPoint <| .refl s) (.laneSub <| .refl _)
  · exact .updPoint <| .refl s

theorem applyConfig_keepsBooks (s : State) (p : Fin 8) (n : Nat) : KeepsBooks s (s.applyConfig p n) := by
  unfold applyConfig
  exact .after (applyLane_keepsBooks ..) <| .forEach (.updPoint <| .iteR (.iteR (.refl s) (applyKind_keepsBooks ..)) (applyOsr_keepsBooks ..))
    fun _ _ _ => .iteR (.refl _) (linkStart_touches ..).keepsBooks

theorem stepConstants_keepsBooks (s : State) (p : Fin 8) (n : Nat) : KeepsBooks s (s.stepConstants p n) := by
  unfold stepConstants
  exact .ite (.updPoint <| .refl s) (.updPoint <| .refl s)

theorem finishSub_keepsBooks (s : State) (sub : LaneSub) (n : Nat) : KeepsBooks s (s.finishSub sub n) := by
  refine ⟨fun {k} b => getN_finishSub (fun own => ?_) s sub n, fun q => by rw [(finishSub_touches s sub n).points (by decide)]⟩
  rcases own with rfl | rfl | rfl | rfl <;> exact absurd b (by decide)

theorem handOver_keepsBooks (s : State) (p : Fin 8) (n : Nat) : KeepsBooks s (s.handOver p n) := by
  unfold handOver
  split
  · exact .refl s
  · exact .iteR (.refl s) <| .ite (.after (finishSub_keepsBooks ..) <| .updPoint <| .refl s) (.laneSub <| .updPoint <| .refl s)

theorem handOverOff_keepsBooks (s : State) (n : Nat) : KeepsBooks s (s.handOverOff n) := by
  unfold handOverOff
  split
  · exact .refl s
  · exact .forEach (.refl s) fun _ _ _ => handOver_keepsBooks ..

end State

end Sys2Proof.Machine
end

section
/-! PROOFS. A netting step books its amounts into the registers that the signs choose, and into no other (R89, R122 to R126, R143). -/

namespace Sys2Proof.Machine

open Sys2Proof
set_option Elab.async false

namespace State

/-! ### One amount (R124, R143) -/

/-- A register of the billing or of the disputed set, and its residue. -/
def registerKey (disputed : Bool) (p reg : Nat) : Nat := if disputed then K.DISPUTED p reg else K.ENERGY p reg
def residueKey (disputed : Bool) (p reg : Nat) : Nat := if disputed then K.DISPUTED_RESIDUE p reg else K.RESIDUE p reg

theorem getN_bookReg (s : State) (n : Nat) (p : Fin 8) (disputed : Bool) (reg x k : Nat) : (s.bookReg n p disputed reg x).getN k =
    if k = residueKey disputed p reg then (((s.getU (residueKey disputed p reg) + x) % 2 ^ 32 : Nat) : Int)
    else if k = registerKey disputed p reg then
      (((s.getU (registerKey disputed p reg) + (s.getU (residueKey disputed p reg) + x) / 2 ^ 32) % 2 ^ 64 : Nat) : Int)
    else s.getN k := by
  unfold bookReg
  dsimp only
  rw [getN_setQ, getN_setQ]
  rfl

theorem disputedBounds_keepsBooks (s : State) (p : Fin 8) (n start : Nat) (disputed : Bool) :
    KeepsBooks s (s.disputedBounds p n start disputed) := by
  unfold disputedBounds
  exact .ite (.setQ <| .setQ <| .refl s) <| .iteR (.refl s) (.setQ <| .refl s)

theorem bookKey_registerKey (disputed : Bool) (p : Fin 8) {reg : Nat} (small : reg ≤ 10) : bookKey (registerKey disputed p reg) = true := by
  cases disputed <;> simp [bookKey, registerKey, K.ENERGY, K.DISPUTED] <;> omega

theorem bookKey_residueKey (disputed : Bool) (p : Fin 8) {reg : Nat} (small : reg ≤ 10) : bookKey (residueKey disputed p reg) = true := by
  cases disputed <;> simp [bookKey, residueKey, K.RESIDUE, K.DISPUTED_RESIDUE] <;> omega

/-- A register is none of the residues. -/
theorem registerKey_ne_residueKey (a b : Bool) (q p : Fin 8) {i j : Nat} (hi : i ≤ 10) (hj : j ≤ 10) :
    registerKey a q i ≠ residueKey b p j := by
  cases a <;> cases b <;> simp [registerKey, residueKey, K.ENERGY, K.RESIDUE, K.DISPUTED, K.DISPUTED_RESIDUE] <;> omega

/-- A register is named by its set, its point and its number. -/
theorem registerKey_inj {a b : Bool} {q p : Fin 8} {i j : Nat} (hi : i ≤ 10) (hj : j ≤ 10) (e : registerKey a q i = registerKey b p j) :
    a = b ∧ q = p ∧ i = j := by
  cases a <;> cases b <;> simp [registerKey, K.ENERGY, K.DISPUTED] at e ⊢ <;> omega

theorem residueKey_inj {a b : Bool} {q p : Fin 8} {i j : Nat} (hi : i ≤ 10) (hj : j ≤ 10) (e : residueKey a q i = residueKey b p j) :
    a = b ∧ q = p ∧ i = j := by
  cases a <;> cases b <;> simp [residueKey, K.RESIDUE, K.DISPUTED_RESIDUE] at e ⊢ <;> omega

/-- The entries that name a step are no registers. -/
theorem registerKey_ne_names (disputed : Bool) (q p : Fin 8) {reg : Nat} (small : reg ≤ 10) : registerKey disputed q reg ≠ K.STEP_COUNT p ∧
    registerKey disputed q reg ≠ K.LAST_NET p ∧ registerKey disputed q reg ≠ K.NET_INDEX p := by
  cases disputed <;> simp [registerKey, K.ENERGY, K.DISPUTED, K.STEP_COUNT, K.LAST_NET, K.NET_INDEX] <;> omega

theorem residueKey_ne_names (disputed : Bool) (q p : Fin 8) {reg : Nat} (small : reg ≤ 10) : residueKey disputed q reg ≠ K.STEP_COUNT p ∧
    residueKey disputed q reg ≠ K.LAST_NET p ∧ residueKey disputed q reg ≠ K.NET_INDEX p := by
  cases disputed <;> simp [residueKey, K.RESIDUE, K.DISPUTED_RESIDUE, K.STEP_COUNT, K.LAST_NET, K.NET_INDEX] <;> omega

/-- A signed amount goes by its sign into one of two registers. -/
theorem bookReg_sign (s : State) (n : Nat) (p : Fin 8) (disputed : Bool) (i j : Nat) (v : Int) :
    (if 0 ≤ v then s.bookReg n p disputed i v.toNat else s.bookReg n p disputed j (-v).toNat) =
      s.bookReg n p disputed (if 0 ≤ v then i else j) v.natAbs := by
  by_cases h : 0 ≤ v
  · rw [if_pos h, if_pos h, show v.natAbs = v.toNat by omega]
  · rw [if_neg h, if_neg h, show v.natAbs = (-v).toNat by omega]

/-- The amounts `ds` of a step are booked into registers of one set, each with carry from its residue, and every other booked entry is as it was. -/
structure Books (p : Fin 8) (disputed : Bool) (ds : List (Nat × Nat)) (s t : State) : Prop where
  small : ∀ d ∈ ds, d.1 ≤ 10
  register : ∀ d ∈ ds, t.getN (registerKey disputed p d.1) =
    ((s.getU (registerKey disputed p d.1) + (s.getU (residueKey disputed p d.1) + d.2) / 2 ^ 32) % 2 ^ 64 : Nat)
  residue : ∀ d ∈ ds, t.getN (residueKey disputed p d.1) = ((s.getU (residueKey disputed p d.1) + d.2) % 2 ^ 32 : Nat)
  other : ∀ {k}, bookKey k = true → (∀ d ∈ ds, k ≠ registerKey disputed p d.1 ∧ k ≠ residueKey disputed p d.1) → t.getN k = s.getN k

namespace Books

variable {p : Fin 8} {disputed : Bool} {ds : List (Nat × Nat)} {s t u : State}

theorem nil (h : KeepsBooks s t) : Books p disputed [] s t := ⟨by simp, by simp, by simp, fun b _ => h.entry b⟩

theorem keep (h : Books p disputed ds s t) (g : KeepsBooks t u) : Books p disputed ds s u where
  small := h.small
  register d hd := (g.entry (bookKey_registerKey disputed p (h.small d hd))).trans (h.register d hd)
  residue d hd := (g.entry (bookKey_residueKey disputed p (h.small d hd))).trans (h.residue d hd)
  other b no := (g.entry b).trans (h.other b no)

/-- One more amount is booked, into a register that has none yet (R124). -/
theorem bookReg {n reg : Nat} (h : Books p disputed ds s t) (x : Nat) (small : reg ≤ 10) (free : ∀ d ∈ ds, d.1 ≠ reg) :
    Books p disputed (ds ++ [(reg, x)]) s (t.bookReg n p disputed reg x) := by
  have mixed {i j : Nat} (hi : i ≤ 10) (hj : j ≤ 10) : registerKey disputed p i ≠ residueKey disputed p j :=
    registerKey_ne_residueKey disputed disputed p p hi hj
  have freeRegister (d) (hd : d ∈ ds) : registerKey disputed p d.1 ≠ registerKey disputed p reg :=
    fun e => free d hd (registerKey_inj (h.small d hd) small e).2.2
  have freeResidue (d) (hd : d ∈ ds) : residueKey disputed p d.1 ≠ residueKey disputed p reg :=
    fun e => free d hd (residueKey_inj (h.small d hd) small e).2.2
  have register : t.getU (registerKey disputed p reg) = s.getU (registerKey disputed p reg) :=
    congrArg Int.toNat <| h.other (bookKey_registerKey disputed p small) fun d hd => ⟨(freeRegister d hd).symm, mixed small (h.small d hd)⟩
  have residue : t.getU (residueKey disputed p reg) = s.getU (residueKey disputed p reg) :=
    congrArg Int.toNat <| h.other (bookKey_residueKey disputed p small) fun d hd => ⟨(mixed (h.small d hd) small).symm, (freeResidue d hd).symm⟩
  refine ⟨fun d hd => ?_, fun d hd => ?_, fun d hd => ?_, fun {k} b no => ?_⟩
  all_goals simp only [List.mem_append, List.mem_singleton] at *
  · rcases hd with hd | rfl
    · exact h.small d hd
    · exact small
  · rcases hd with hd | rfl
    · rw [getN_bookReg, if_neg (mixed (h.small d hd) small), if_neg (freeRegister d hd), h.register d hd]
    · rw [getN_bookReg, if_neg (mixed small small), if_pos rfl, register, residue]
  · rcases hd with hd | rfl
    · rw [getN_bookReg, if_neg (freeResidue d hd), if_neg (mixed small (h.small d hd)).symm, h.residue d hd]
    · rw [getN_bookReg, if_pos rfl, residue]
  · obtain ⟨noRegister, noResidue⟩ := no (reg, x) (.inr rfl)
    rw [getN_bookReg, if_neg noResidue, if_neg noRegister, h.other b fun d hd => no d (.inl hd)]

/-- Net active energy goes by its sign into one of the first two registers, and apparent energy into that of the same direction. -/
theorem bookActive {n : Nat} (h : Books p disputed [] s t) (net : Int) (st : Nat) :
    Books p disputed [(if 0 ≤ net then 1 else 2, net.natAbs), (if 0 ≤ net then 7 else 8, st)] s
      (if 0 ≤ net then (t.bookReg n p disputed 1 net.toNat).bookReg n p disputed 7 st
        else (t.bookReg n p disputed 2 (-net).toNat).bookReg n p disputed 8 st) := by
  by_cases imported : 0 ≤ net
  · simp only [if_pos imported, show net.natAbs = net.toNat by omega]
    exact (h.bookReg _ (by decide) (by simp)).bookReg _ (by decide) (by simp)
  · simp only [if_neg imported, show net.natAbs = (-net).toNat by omega]
    exact (h.bookReg _ (by decide) (by simp)).bookReg _ (by decide) (by simp)

/-- The compensated energy `raw` is clipped at zero where the net energy is imported, and goes by its sign into the last two registers (R128). -/
theorem bookCompensated {n : Nat} (h : Books p disputed ds s t) (free : ∀ d ∈ ds, d.1 < 9) {net raw comp : Int}
    (clipped : comp = if 0 ≤ net ∧ raw < 0 then 0 else raw) :
    Books p disputed (ds ++ [(if 0 ≤ raw ∨ 0 ≤ net then 9 else 10, if 0 ≤ net ∧ raw < 0 then 0 else raw.natAbs)]) s
      (if 0 ≤ comp then t.bookReg n p disputed 9 comp.toNat else t.bookReg n p disputed 10 (-comp).toNat) := by
  have dest : (if 0 ≤ comp then 9 else 10) = if 0 ≤ raw ∨ 0 ≤ net then 9 else 10 := by
    rw [clipped]
    split_ifs <;> omega
  have amount : comp.natAbs = if 0 ≤ net ∧ raw < 0 then 0 else raw.natAbs := by
    rw [clipped]
    split_ifs <;> rfl
  rw [bookReg_sign, dest, amount]
  refine h.bookReg _ (by split <;> decide) fun d hd => ?_
  have := free d hd
  split <;> omega

end Books

/-! ### The amounts of a step (R122 to R126) -/

/-- The registers that the signs of a step choose, with the amounts booked into them: net active, apparent and reactive energy, on a DC point
the compensated energy too (R124, R126). -/
def stepDests (cl : Closing) (kind : Nat) (qt : Int) : List (Nat × Nat) :=
  let comp := cl.sums.f - roundUp (cl.sums.phases[(0 : Fin 3)].si * cl.kl : Nat) (2 ^ 64)
  [(if 0 ≤ cl.sums.f then 1 else 2, cl.sums.f.natAbs),
    (if 0 ≤ cl.sums.f then 7 else 8, stepS (phaseList kind) cl),
    (if 0 ≤ cl.sums.f then (if 0 ≤ qt then 3 else 6) else (if 0 ≤ qt then 4 else 5), qt.natAbs)] ++
  (if kind = 4 then [(if 0 ≤ comp ∨ 0 ≤ cl.sums.f then 9 else 10, if 0 ≤ cl.sums.f ∧ comp < 0 then 0 else comp.natAbs)] else [])

/-- A booked step: the registers as `stepDests` says, then the entries that name the step (R122 to R126, R143). -/
theorem bookStep_books (s : State) (p : Fin 8) (cl : Closing) (qt : Int) :
    ∃ u, Books p (decide (s.modeAt cl.sums.lastIdx = .lockdown)) (stepDests cl (kindOf s.points[p].app.cfg) qt) s u ∧
      ∀ {k}, bookKey k = true → (s.bookStep p cl qt).1.getN k =
        if k = K.STEP_COUNT p then ((wrapAdd 32 (u.getU k) 1 : Nat) : Int)
        else if k = K.LAST_NET p then cl.sums.f else if k = K.NET_INDEX p then (cl.bound.idx : Int) else u.getN k := by
  unfold bookStep
  extract_lets a kind ks n st net ls raw clip comp disputed dur r bounded active quad reactive counted regs used cabled indexed named dir old
    turned directed last
  have activeBooks : Books p disputed _ s active := (Books.nil (disputedBounds_keepsBooks ..)).bookActive net st
  have quadBounds : 3 ≤ quad ∧ quad ≤ 6 := by
    unfold quad
    split_ifs <;> decide
  have reactiveBooks : Books p disputed _ s reactive := activeBooks.bookReg qt.natAbs (by omega) (by simp; split <;> omega)
  have books : Books p disputed (stepDests cl kind qt) s regs := by
    unfold stepDests
    dsimp only
    by_cases dc : kind = 4
    · have loss : raw = cl.sums.f - roundUp (cl.sums.phases[(0 : Fin 3)].si * cl.kl : Nat) (2 ^ 64) := by simp only [raw, ls, if_pos dc, net]
      have clipped : comp = if 0 ≤ net ∧ raw < 0 then 0 else raw := by simp [comp, clip, dc]
      have clipCounted : KeepsBooks reactive counted := .iteR (.refl _) (.addSatQ <| .refl _)
      rw [if_pos dc, ← loss, show regs = _ from if_pos dc]
      exact (reactiveBooks.keep clipCounted).bookCompensated (by simp; split_ifs <;> omega) clipped
    · rw [if_neg dc, List.append_nil, show regs = _ from if_neg dc]
      exact reactiveBooks
  have cable : KeepsBooks regs cabled := .iteR (.refl _) <| .iteR (.setQ <| .setQ <| .refl _) (.addSatQ <| .refl _)
  have direction : KeepsBooks named directed := .iteL (.refl _) <| .setQ <| .iteR (.refl _) (.setQ <| .refl _)
  have beforeCount {k : Nat} (b : bookKey k = true) : (directed.bookDemand p r).getN k =
      if k = K.LAST_NET p then net else if k = K.NET_INDEX p then (n : Int) else regs.getN k := by
    have compNamed : KeepsBooks (indexed.setQ n (K.LAST_NET p) net) named := .setQ <| .refl _
    rw [(bookDemand_keepsBooks ..).entry b, direction.entry b, compNamed.entry b, getN_setQ, getN_setQ, cable.entry b]
  have pulses : KeepsBooks last ((last.correctPulses p n net comp).keepPulses p) :=
    .after (keepPulses_touches ..).keepsBooks (correctPulses_keepsBooks ..)
  refine ⟨regs, books, fun {k} b => ?_⟩
  rw [pulses.entry b]
  unfold last
  rw [addWrapQ, getN_setQ, beforeCount b]
  split
  · next e =>
    subst e
    rw [getU, beforeCount b, if_neg (by simp [K.STEP_COUNT, K.LAST_NET]), if_neg (by simp [K.STEP_COUNT, K.NET_INDEX])]
    rfl
  · rfl

/-! ### The netting step -/

theorem windowAt_closing (x : Point) (cl : Closing) : (x.windowAt cl).closing = x.closing := by
  unfold Point.windowAt
  dsimp only
  split
  · split <;> rfl
  · split <;> rfl

/-- What follows the booking of a step leaves the books (R124). -/
theorem bookClosing_keepsBooks_step {s : State} {p : Fin 8} {cl : Closing} (step : cl.isStep = true) :
    KeepsBooks (s.bookStep p cl (closingQ cl (kindOf s.points[p].app.cfg))).1 (s.bookClosing p cl) := by
  rw [bookClosing, if_pos step]
  exact .after (demandDue_keepsBooks ..) <| .updPoint (.after (reversePower_keepsBooks ..) <| .after (cycleEvents_keepsBooks ..) <|
    .after (cycleQuantities_keepsBooks ..) <| .after (sessionStep_keepsBooks ..) <| .updPoint <| .refl _) fun x => windowAt_closing x cl

/-- Samples that form no step are not booked (R94, R149). -/
theorem bookClosing_keepsBooks {s : State} {p : Fin 8} {cl : Closing} (no : cl.isStep = false) : KeepsBooks s (s.bookClosing p cl) := by
  rw [bookClosing, if_neg (by simp [no])]
  refine .after (demandDue_keepsBooks ..) <| .updPoint (.after (lostReference_keepsBooks ..) (correctPulses_keepsBooks ..)) fun x => ?_
  split
  · exact windowAt_closing x cl
  · rfl

/-- Everything that takes effect at the boundary follows the booking, and leaves the books. -/
theorem nettingStep_keepsBooks {s : State} {p : Fin 8} {cl : Closing} (waits : s.points[p].closing = some cl) :
    KeepsBooks ((s.bookClosing p cl).updPoint p fun x => { x with closing := none }) (s.nettingStep p) := by
  simp only [nettingStep, waits]
  refine .iteL (sessionBoundary_keepsBooks ..) <| .after (releaseHeld_keepsBooks ..) <| .after (tempBoundary_keepsBooks ..) <|
    .after (stepConstants_keepsBooks ..) <| .after (clockGroups_touches ..).keepsBooks <| .after (applyPulses_keepsBooks ..) <|
    .iteR ?_ (handOver_keepsBooks ..)
  exact .after (applyConfig_keepsBooks ..) <| .after (applyPlates_keepsBooks ..) (forcedReturn_keepsBooks ..)

/-- The step that waited waits no more. -/
theorem nettingStep_closing {s : State} {p : Fin 8} {cl : Closing} (waits : s.points[p].closing = some cl) :
    (s.nettingStep p).points[p].closing = none := by
  rw [(nettingStep_keepsBooks waits).closing]
  simp

/-- What takes effect on a point of kind OFF books nothing (R89). -/
theorem offPointApply_keepsBooks (s : State) (p : Fin 8) : KeepsBooks s (s.offPointApply p) := by
  unfold offPointApply
  exact .iteL (.refl s) <| .after (releaseHeld_keepsBooks ..) <| .after (stepConstants_keepsBooks ..) <| .after (handOverOff_keepsBooks ..) <|
    .after (clockGroups_touches ..).keepsBooks <| .after (applyPulses_keepsBooks ..) <| .after (applyConfig_keepsBooks ..) <|
    applyPlates_keepsBooks ..

section Step

variable {s : State} {p : Fin 8} {cl : Closing} (waits : s.points[p].closing = some cl) (step : cl.isStep = true)
include waits step

/-- The netting step books the amounts of the step that waits, and sets the entries that name it. -/
theorem nettingStep_books : ∃ u, Books p (decide (s.modeAt cl.sums.lastIdx = .lockdown))
      (stepDests cl (kindOf s.points[p].app.cfg) (closingQ cl (kindOf s.points[p].app.cfg))) s u ∧
    ∀ {k}, bookKey k = true → (s.nettingStep p).getN k =
      if k = K.STEP_COUNT p then ((wrapAdd 32 (u.getU k) 1 : Nat) : Int)
      else if k = K.LAST_NET p then cl.sums.f else if k = K.NET_INDEX p then (cl.bound.idx : Int) else u.getN k := by
  obtain ⟨u, books, entry⟩ := bookStep_books s p cl (closingQ cl (kindOf s.points[p].app.cfg))
  refine ⟨u, books, fun b => ?_⟩
  rw [(nettingStep_keepsBooks waits).entry b, getN_updPoint, (bookClosing_keepsBooks_step step).entry b, entry b]

/-- Each amount is in its register, with carry from the residue. -/
theorem nettingStep_registers {disputed : Bool} (set : decide (s.modeAt cl.sums.lastIdx = .lockdown) = disputed) {d : Nat × Nat}
    (hd : d ∈ stepDests cl (kindOf s.points[p].app.cfg) (closingQ cl (kindOf s.points[p].app.cfg))) :
    (s.nettingStep p).getN (registerKey disputed p d.1) =
        ((s.getU (registerKey disputed p d.1) + (s.getU (residueKey disputed p d.1) + d.2) / 2 ^ 32) % 2 ^ 64 : Nat) ∧
      (s.nettingStep p).getN (residueKey disputed p d.1) = ((s.getU (residueKey disputed p d.1) + d.2) % 2 ^ 32 : Nat) := by
  obtain ⟨u, books, entry⟩ := nettingStep_books waits step
  rw [set] at books
  have small := books.small d hd
  obtain ⟨count, last, index⟩ := registerKey_ne_names disputed p p small
  obtain ⟨count', last', index'⟩ := residueKey_ne_names disputed p p small
  rw [entry (bookKey_registerKey disputed p small), if_neg count, if_neg last, if_neg index, entry (bookKey_residueKey disputed p small),
    if_neg count', if_neg last', if_neg index']
  exact ⟨books.register d hd, books.residue d hd⟩

/-- Every other register of either set, on every point, keeps its value. -/
theorem nettingStep_otherRegister (set : Bool) (q : Fin 8) {reg : Nat} (small : reg ≤ 10)
    (other : q ≠ p ∨ (∀ d ∈ stepDests cl (kindOf s.points[p].app.cfg) (closingQ cl (kindOf s.points[p].app.cfg)), d.1 ≠ reg) ∨
      set ≠ decide (s.modeAt cl.sums.lastIdx = .lockdown)) : (s.nettingStep p).getN (registerKey set q reg) = s.getN (registerKey set q reg) := by
  obtain ⟨u, books, entry⟩ := nettingStep_books waits step
  obtain ⟨count, last, index⟩ := registerKey_ne_names set q p small
  have b := bookKey_registerKey set q small
  rw [entry b, if_neg count, if_neg last, if_neg index]
  refine books.other b fun d hd => ⟨fun e => ?_, registerKey_ne_residueKey _ _ q p small (books.small d hd)⟩
  obtain ⟨sameSet, samePoint, sameReg⟩ := registerKey_inj small (books.small d hd) e
  rcases other with h | h | h
  · exact h samePoint
  · exact h d hd sameReg.symm
  · exact h sameSet

/-- The entries that name the last step. -/
theorem nettingStep_names : (s.nettingStep p).getN (K.NET_INDEX p) = (cl.bound.idx : Nat) ∧ (s.nettingStep p).getN (K.LAST_NET p) = cl.sums.f ∧
    (s.nettingStep p).getN (K.STEP_COUNT p) = (wrapAdd 32 (s.getU (K.STEP_COUNT p)) 1 : Nat) := by
  obtain ⟨u, books, entry⟩ := nettingStep_books waits step
  have keys : ∀ p : Fin 8, bookKey (K.NET_INDEX p) = true ∧ bookKey (K.LAST_NET p) = true ∧ bookKey (K.STEP_COUNT p) = true := by decide
  have apart : ∀ p : Fin 8, K.NET_INDEX p ≠ K.STEP_COUNT p ∧ K.NET_INDEX p ≠ K.LAST_NET p ∧ K.LAST_NET p ≠ K.STEP_COUNT p := by decide
  obtain ⟨index, last, count⟩ := keys p
  obtain ⟨indexCount, indexLast, lastCount⟩ := apart p
  have before : u.getU (K.STEP_COUNT p) = s.getU (K.STEP_COUNT p) := congrArg Int.toNat <| books.other count fun d hd =>
    ⟨(registerKey_ne_names _ p p (books.small d hd)).1.symm, (residueKey_ne_names _ p p (books.small d hd)).1.symm⟩
  refine ⟨?_, ?_, ?_⟩
  · rw [entry index, if_neg indexCount, if_neg indexLast, if_pos rfl]
  · rw [entry last, if_neg lastCount, if_pos rfl]
  · rw [entry count, if_pos rfl, before]

end Step

/-- Without a step nothing is booked. -/
theorem nettingStep_entry {s : State} {p : Fin 8} {cl : Closing} (waits : s.points[p].closing = some cl) (no : cl.isStep = false) {k : Nat}
    (b : bookKey k = true) : (s.nettingStep p).getN k = s.getN k := by
  rw [(nettingStep_keepsBooks waits).entry b, getN_updPoint, (bookClosing_keepsBooks no).entry b]

end State

/-- Settles O51: the booking by the registers that the signs choose, and all that follows it, which leaves the books as they are. -/
theorem stepsBookEnergy : Obligations.StepsBookEnergy := by
  intro s p
  have booked (disputed : Bool) (q : Fin 8) (reg : Fin 10) : bookKey (State.registerKey disputed q (reg + 1)) = true :=
    State.bookKey_registerKey disputed q (by omega)
  have off := State.offPointApply_keepsBooks s p
  refine ⟨fun idle => ?_, fun cl waits => ⟨_, rfl, State.nettingStep_closing waits, (State.nettingStep_touches s p).frame,
      fun no q reg => ⟨State.nettingStep_entry waits no (booked false q reg), State.nettingStep_entry waits no (booked true q reg)⟩,
      fun step => ?_⟩,
    fun no => congrArg Host.Outcome.next (if_pos no),
    fun _ _ _ => ⟨_, rfl, fun q reg => ⟨off.entry (booked false q reg), off.entry (booked true q reg)⟩,
      (State.offPointApply_touches s p).frame⟩⟩
  · show Host.Outcome.next (s.nettingStep p) = .next s
    rw [State.nettingStep, idle]
  · rintro _ _ _ _ rfl rfl rfl rfl
    refine ⟨fun d hd normal => State.nettingStep_registers waits step (decide_eq_false normal) hd,
      fun d hd locked => State.nettingStep_registers waits step (decide_eq_true locked) hd,
      fun q reg other => State.nettingStep_otherRegister waits step false q (by omega) ?_,
      fun q reg other => State.nettingStep_otherRegister waits step true q (by omega) ?_,
      State.nettingStep_names waits step⟩
    · exact other.imp_right fun h => h.imp_right fun locked => by simp [locked]
    · exact other.imp_right fun h => h.imp_right fun normal => by simp [normal]

end Sys2Proof.Machine
end

section
/-! PROOFS. Pulse outputs rise and fall, and a demand interval ends for every point (R132 to R134, R139, R140). -/

namespace Sys2Proof.Machine

open Sys2Proof
set_option Elab.async false

namespace State

/-! ### Pulse outputs (R139, R140) -/

section Pulses

variable {s : State} {m : Fin 8}

theorem pulse_updPulse_same (f : Pulse → Pulse) : (s.updPulse m f).pulses[m] = f s.pulses[m] := by simp

theorem pulse_updPulse_other (f : Pulse → Pulse) {j : Fin 8} (h : j ≠ m) : (s.updPulse m f).pulses[j] = s.pulses[j] := by
  simp [Fin.val_ne_of_ne h.symm]

theorem startPulse_empty (h : s.getU (K.PULSE_BACKLOG (m + 1)) = 0) : s.startPulse m = s.updPulse m fun x => { x with phase := .idle } :=
  if_pos h

theorem startPulse_due (h : s.getU (K.PULSE_BACKLOG (m + 1)) ≠ 0) : s.startPulse m =
    (s.put (K.PULSE_BACKLOG (m + 1)) (s.getU (K.PULSE_BACKLOG (m + 1)) - 1 : Nat)).updPulse m
      fun x => { x with phase := .high, level := !x.activeLow, since := s.rtc } :=
  if_neg h

/-- Whether a pulse is due or not, the other outputs stay. -/
theorem startPulse_other {j : Fin 8} (h : j ≠ m) : (s.startPulse m).pulses[j] = s.pulses[j] := by
  by_cases empty : s.getU (K.PULSE_BACKLOG (m + 1)) = 0
  · rw [startPulse_empty empty, pulse_updPulse_other _ h]
  · rw [startPulse_due empty, pulse_updPulse_other _ h, put, setQ_pulses]

theorem pulseRise_idle (idle : s.pulses[m].phase = .idle) (on : s.serves = true) : s.pulseRise m = s.startPulse m := by
  simp only [pulseRise, idle, on]

theorem pulseRise_rest (h : s.pulses[m].phase ≠ .idle ∨ s.serves = false) : s.pulseRise m = s := by
  unfold pulseRise
  split
  · simp_all
  · rfl

theorem pulseGapEnd_gap (gap : s.pulses[m].phase = .gap) : s.pulseGapEnd m = s.startPulse m := by
  simp only [pulseGapEnd, gap]

theorem pulseGapEnd_rest (h : s.pulses[m].phase ≠ .gap) : s.pulseGapEnd m = s := by
  unfold pulseGapEnd
  split
  · contradiction
  · rfl

theorem pulseFall_high (high : s.pulses[m].phase = .high) : s.pulseFall m = s.updPulse m fun x => { x with
    phase := if s.getU (K.PULSE_BACKLOG (m + 1)) = 0 then .idle else .gap
    level := bit s.pulses[m].cfg 0, activeLow := bit s.pulses[m].cfg 0, since := s.rtc } := by
  unfold pulseFall
  split
  · simp
  · contradiction

theorem pulseFall_rest (h : s.pulses[m].phase ≠ .high) : s.pulseFall m = s := by
  unfold pulseFall
  split
  · contradiction
  · rfl

end Pulses

/-! ### The demand of a point (R132 to R134) -/

end State

/-- What the end of an interval turns on and changes of a point: its kind, the first index of the interval that still waits for its first step, and
the amounts of the running and of the last interval. -/
structure DemandView where
  kind : Nat
  waits : Option Nat
  running : Int × Int
  last : Int × Int

namespace DemandView

/-- The running interval is closed: its amounts become the last ones, and the next begins at 0 (R133). -/
def closed (v : DemandView) : DemandView := { v with waits := none, running := (0, 0), last := (v.running.1.toNat, v.running.2.toNat) }

/-- An interval that still waits for its last step is closed. -/
def settled (v : DemandView) : DemandView := if v.waits.isSome then v.closed else v

theorem settled_of_idle {v : DemandView} (idle : v.waits = none) : v.settled = v := if_neg (by simp [idle])

/-- An interval begins at index `n`: a point of kind OFF closes the one before, every other point waits for its first step. -/
def begun (n : Nat) (v : DemandView) : DemandView := if v.kind = 0 then v.closed else { v with waits := some n }

end DemandView

namespace State

/-- The demand of a point in a state, read from the point and from its demand entries. -/
def demandView (s : State) (p : Fin 8) : DemandView where
  kind := kindOf s.points[p].app.cfg
  waits := s.points[p].dmdFrom
  running := (s.getN (K.DMD_IMPORT p), s.getN (K.DMD_EXPORT p))
  last := (s.getN (K.DMD_IMPORT_LAST p), s.getN (K.DMD_EXPORT_LAST p))

theorem dmdFrom_of_demandView {s : State} {p : Fin 8} {v : DemandView} (h : s.demandView p = v) : s.points[p].dmdFrom = v.waits := by
  rw [← h, demandView]

theorem running_of_demandView {s : State} {p : Fin 8} {v : DemandView} (h : s.demandView p = v) :
    s.getN (K.DMD_IMPORT p) = v.running.1 ∧ s.getN (K.DMD_EXPORT p) = v.running.2 := by
  rw [← h, demandView]
  exact ⟨rfl, rfl⟩

theorem last_of_demandView {s : State} {p : Fin 8} {v : DemandView} (h : s.demandView p = v) :
    s.getN (K.DMD_IMPORT_LAST p) = v.last.1 ∧ s.getN (K.DMD_EXPORT_LAST p) = v.last.2 := by
  rw [← h, demandView]
  exact ⟨rfl, rfl⟩

/-- The index of the demand entries of point `p`, 0x4010 on the first (Table 04.8). -/
def demandIdx (p : Fin 8) : Nat := 0x4010 + 0x100 * p

/-- The closing of a point's interval writes demand entries of this point alone. -/
theorem getN_finishDemand_other (s : State) (p : Fin 8) (n : Nat) {k : Nat} (no : k / 256 ≠ demandIdx p) :
    (s.finishDemand p n).getN k = s.getN k := by
  have own {d : Nat} (small : d < 256) : k ≠ demandIdx p * 256 + d := by omega
  have keys : k ≠ K.DMD_IMPORT p ∧ k ≠ K.DMD_EXPORT p ∧ k ≠ K.DMD_IMPORT_LAST p ∧ k ≠ K.DMD_EXPORT_LAST p ∧
      k ≠ K.DMD_P_IMPORT_LAST p ∧ k ≠ K.DMD_P_EXPORT_LAST p ∧ k ≠ K.DMD_STATUS_LAST p ∧ k ≠ K.DMD_STATUS_NOW p ∧ k ≠ K.MAX_DMD_IMPORT p ∧
      k ≠ K.MAX_DMD_IMPORT_TIME p ∧ k ≠ K.MAX_DMD_EXPORT p ∧ k ≠ K.MAX_DMD_EXPORT_TIME p ∧ k ≠ K.PEAK_STEP_P p := by
    refine ⟨?_, ?_, ?_, ?_, ?_, ?_, ?_, ?_, ?_, ?_, ?_, ?_, ?_⟩ <;> exact own (by decide)
  simp [finishDemand, keys, apply_ite State.getN, ite_apply]

/-- The closing of a point's interval moves its amounts to the last ones and begins the next at 0 (R133). -/
theorem getN_finishDemand_amounts (s : State) (p : Fin 8) (n : Nat) :
    (s.finishDemand p n).getN (K.DMD_IMPORT p) = 0 ∧ (s.finishDemand p n).getN (K.DMD_EXPORT p) = 0 ∧
    (s.finishDemand p n).getN (K.DMD_IMPORT_LAST p) = s.getU (K.DMD_IMPORT p) ∧
    (s.finishDemand p n).getN (K.DMD_EXPORT_LAST p) = s.getU (K.DMD_EXPORT p) := by
  refine ⟨?_, ?_, ?_, ?_⟩ <;>
  simp [finishDemand, K.DMD_IMPORT, K.DMD_EXPORT, K.DMD_IMPORT_LAST, K.DMD_EXPORT_LAST, K.DMD_P_IMPORT_LAST, K.DMD_P_EXPORT_LAST,
    K.DMD_STATUS_LAST, K.DMD_STATUS_NOW, K.MAX_DMD_IMPORT, K.MAX_DMD_IMPORT_TIME, K.MAX_DMD_EXPORT, K.MAX_DMD_EXPORT_TIME,
    K.PEAK_STEP_P, apply_ite State.getN, ite_apply]

theorem finishDemand_points (s : State) (p : Fin 8) (n : Nat) :
    (s.finishDemand p n).points = s.points.set p { s.points[p] with
      dmdResImport := 0, dmdResExport := 0, dmdFrom := none, dmdNext := 0, dmdImported := false, dmdExported := false
      peakLast := s.points[p].peakRun, peakRun := 0 } := by
  simp [finishDemand, apply_ite State.points]

/-- The view of a point depends on the point and on its demand entries alone. -/
theorem demandView_congr {s t : State} {p : Fin 8} (hp : t.points[p] = s.points[p])
    (hk : ∀ {k}, k / 256 = demandIdx p → t.getN k = s.getN k) : t.demandView p = s.demandView p := by
  have entry {d : Nat} (small : d < 256) : t.getN (demandIdx p * 256 + d) = s.getN (demandIdx p * 256 + d) := hk (by omega)
  have imp : t.getN (K.DMD_IMPORT p) = s.getN (K.DMD_IMPORT p) := entry (by decide)
  have exp : t.getN (K.DMD_EXPORT p) = s.getN (K.DMD_EXPORT p) := entry (by decide)
  have impLast : t.getN (K.DMD_IMPORT_LAST p) = s.getN (K.DMD_IMPORT_LAST p) := entry (by decide)
  have expLast : t.getN (K.DMD_EXPORT_LAST p) = s.getN (K.DMD_EXPORT_LAST p) := entry (by decide)
  rw [demandView, demandView, hp, imp, exp, impLast, expLast]

theorem demandIdx_inj {p q : Fin 8} (h : demandIdx p = demandIdx q) : p = q := by
  unfold demandIdx at h
  omega

theorem demandView_finishDemand_same (s : State) (p : Fin 8) (n : Nat) :
    (s.finishDemand p n).demandView p = (s.demandView p).closed := by
  obtain ⟨imp, exp, impLast, expLast⟩ := getN_finishDemand_amounts s p n
  simp [demandView, DemandView.closed, imp, exp, impLast, expLast, finishDemand_points, getU]

theorem demandView_finishDemand_other (s : State) {p q : Fin 8} (h : q ≠ p) (n : Nat) :
    (s.finishDemand q n).demandView p = s.demandView p := by
  refine demandView_congr ?_ fun hk => getN_finishDemand_other s q n fun e => h (demandIdx_inj (e.symm.trans hk))
  simp [finishDemand_points, Fin.val_ne_of_ne h]

theorem demandView_updPoint_other (s : State) {p q : Fin 8} (h : q ≠ p) (f : Point → Point) :
    (s.updPoint q f).demandView p = s.demandView p :=
  demandView_congr (by simp [Fin.val_ne_of_ne h]) fun _ => rfl

/-! ### The end of an interval (R132 to R135) -/

/-- A point that still waits to close the interval before closes it. -/
def settleDemand (n : Nat) (p : Fin 8) (s : State) : State := if s.points[p].dmdFrom.isSome then s.finishDemand p n else s

/-- The interval that begins at index `n`, with stamp `start`, is the running one of the device. -/
def newInterval (n start : Nat) (s : State) : State :=
  let s := { s with demand := ⟨demandLen (s.getU K.DMD_CFG), s.getU K.DMD_START, s.demand.len⟩ }
  (s.setQ n K.DMD_START (start : Nat)).setQ n K.DMD_INDEX (n : Nat)

/-- The interval that begins at index `n` is the running one of the point. -/
def beginDemand (n : Nat) (p : Fin 8) (s : State) : State :=
  if kindOf s.points[p].app.cfg = 0 then s.finishDemand p n else s.updPoint p fun x => { x with dmdFrom := some n }

theorem demandEnd_eq (s : State) (n start : Nat) :
    s.demandEnd n start = forEach allPoints (beginDemand n) (newInterval n start (forEach allPoints (settleDemand n) s)) := by
  unfold demandEnd settleDemand beginDemand newInterval
  with_reducible rfl

/-- What the closing of a point's interval leaves, its settling leaves. -/
theorem settleDemand_field {α : Type} (g : State → α) {p : Fin 8} {n : Nat} (closes : ∀ u, g (finishDemand u p n) = g u) (s : State) :
    g (settleDemand n p s) = g s := by
  unfold settleDemand
  split
  · exact closes s
  · rfl

/-- What the closing of a point's interval and a change of the point leave, the begin of an interval leaves. -/
theorem beginDemand_field {α : Type} (g : State → α) {p : Fin 8} {n : Nat} (closes : ∀ u, g (finishDemand u p n) = g u)
    (waits : ∀ u f, g (updPoint u p f) = g u) (s : State) : g (beginDemand n p s) = g s := by
  unfold beginDemand
  split
  · exact closes s
  · exact waits s _

theorem demandView_settleDemand_same (s : State) (p : Fin 8) (n : Nat) : (settleDemand n p s).demandView p = (s.demandView p).settled := by
  unfold settleDemand DemandView.settled
  by_cases h : s.points[p].dmdFrom.isSome
  · rw [if_pos h, demandView_finishDemand_same]
    exact (if_pos h).symm
  · rw [if_neg h]
    exact (if_neg h).symm

theorem demandView_settleDemand_other (s : State) {p q : Fin 8} (h : q ≠ p) (n : Nat) :
    (settleDemand n q s).demandView p = s.demandView p :=
  settleDemand_field (demandView · p) (demandView_finishDemand_other · h n) s

theorem demandView_beginDemand_same (s : State) (p : Fin 8) (n : Nat) : (beginDemand n p s).demandView p = (s.demandView p).begun n := by
  unfold beginDemand DemandView.begun
  by_cases h : kindOf s.points[p].app.cfg = 0
  · rw [if_pos h, demandView_finishDemand_same]
    exact (if_pos h).symm
  · rw [if_neg h]
    refine .trans ?_ (if_neg h).symm
    simp [demandView]

theorem demandView_beginDemand_other (s : State) {p q : Fin 8} (h : q ≠ p) (n : Nat) :
    (beginDemand n q s).demandView p = s.demandView p :=
  beginDemand_field (demandView · p) (demandView_finishDemand_other · h n) (demandView_updPoint_other · h) s

theorem demandView_newInterval (s : State) (p : Fin 8) (n start : Nat) : (newInterval n start s).demandView p = s.demandView p := by
  refine demandView_congr (by simp [newInterval]) fun {k} hk => ?_
  have device : k ≠ K.DMD_START ∧ k ≠ K.DMD_INDEX := by
    simp only [demandIdx, K.DMD_START, K.DMD_INDEX] at *
    omega
  simp only [newInterval, getN_setQ, if_neg device.1, if_neg device.2]
  rfl

/-- Every point settles the interval that waits and then begins the new one. -/
theorem demandView_demandEnd (s : State) (p : Fin 8) (n start : Nat) :
    (s.demandEnd n start).demandView p = (s.demandView p).settled.begun n := by
  have nodup : allPoints.Nodup := by decide
  have mem : p ∈ allPoints := by revert p; decide
  have settles (u : State) : (forEach allPoints (settleDemand n) u).demandView p = (u.demandView p).settled :=
    forEach_once (g := (demandView · p)) nodup mem (demandView_settleDemand_same · p n) (fun _ _ h u => demandView_settleDemand_other u h n) u
  have begins (u : State) : (forEach allPoints (beginDemand n) u).demandView p = (u.demandView p).begun n :=
    forEach_once (g := (demandView · p)) nodup mem (demandView_beginDemand_same · p n) (fun _ _ h u => demandView_beginDemand_other u h n) u
  rw [demandEnd_eq, begins, demandView_newInterval, settles]

/-- The entries of the whole device, 0x48xx, are none of a point's demand entries (Tables 04.8 and 04.9). -/
theorem getN_finishDemand_device (s : State) (p : Fin 8) (n : Nat) {k : Nat} (device : k / 256 / 256 = 0x48) :
    (s.finishDemand p n).getN k = s.getN k :=
  getN_finishDemand_other s p n (by unfold demandIdx; omega)

theorem finishDemand_demand (s : State) (p : Fin 8) (n : Nat) : (s.finishDemand p n).demand = s.demand :=
  (finishDemand_touches s p n).demand (by decide)

/-- DMD_START and DMD_INDEX name the interval that begins (R132). -/
theorem getN_demandEnd_names (s : State) (n start : Nat) :
    (s.demandEnd n start).getN K.DMD_START = (start : Nat) ∧ (s.demandEnd n start).getN K.DMD_INDEX = (n : Nat) := by
  have later {k : Nat} (device : k / 256 / 256 = 0x48) (u : State) : (forEach allPoints (beginDemand n) u).getN k = u.getN k :=
    forEach_field (getN · k) _ _ u fun p _ =>
      beginDemand_field (getN · k) (getN_finishDemand_device · p n device) fun u f => getN_updPoint u p f k
  rw [demandEnd_eq, later (by decide), later (by decide)]
  exact ⟨by simp [newInterval, K.DMD_START, K.DMD_INDEX], by simp [newInterval]⟩

/-- The new interval has the length in force, and the one before its start and its own length (R133, R135). -/
theorem demandEnd_demand (s : State) (n start : Nat) :
    (s.demandEnd n start).demand = ⟨demandLen (s.getU K.DMD_CFG), s.getU K.DMD_START, s.demand.len⟩ := by
  have settled {k : Nat} (device : k / 256 / 256 = 0x48) : (forEach allPoints (settleDemand n) s).getU k = s.getU k :=
    congrArg Int.toNat <| forEach_field (getN · k) _ _ s fun p _ => settleDemand_field (getN · k) (getN_finishDemand_device · p n device)
  have before : (forEach allPoints (settleDemand n) s).demand = s.demand :=
    forEach_field State.demand _ _ s fun p _ => settleDemand_field State.demand (finishDemand_demand · p n)
  have later (u : State) : (forEach allPoints (beginDemand n) u).demand = u.demand :=
    forEach_field State.demand _ _ u fun p _ => beginDemand_field State.demand (finishDemand_demand · p n) (updPoint_demand · p)
  rw [demandEnd_eq, later, newInterval, setQ_demand, setQ_demand, settled (by decide), settled (by decide), before]

/-- A point of kind OFF that has no interval left to close closes the one that ends (R134). -/
theorem demandView_demandEnd_off {s : State} {p : Fin 8} (off : kindOf s.points[p].app.cfg = 0) (idle : s.points[p].dmdFrom = none)
    (n start : Nat) : (s.demandEnd n start).demandView p = (s.demandView p).closed := by
  rw [demandView_demandEnd, DemandView.settled_of_idle idle]
  exact if_pos off

/-- A point that measures waits for its first step of the new interval (R132). -/
theorem demandView_demandEnd_on {s : State} {p : Fin 8} (on : kindOf s.points[p].app.cfg ≠ 0) (n start : Nat) :
    (s.demandEnd n start).demandView p = { (s.demandView p).settled with waits := some n } := by
  have kind : (s.demandView p).settled.kind ≠ 0 := by
    unfold DemandView.settled
    split <;> exact on
  rw [demandView_demandEnd]
  exact if_neg kind

end State

/-- Settles O53: the start of a pulse and the new interval by their rules, and what an interval's end does to each point by the point's view. -/
theorem pulsesAndDemandRun : Obligations.PulsesAndDemandRun := by
  intro s
  refine ⟨fun m => ⟨fun c starts => ?_, fun h => congrArg Host.Outcome.next (State.pulseRise_rest h),
      fun h => congrArg Host.Outcome.next (State.pulseGapEnd_rest h),
      fun high => ⟨_, rfl, ?_, fun j hj => ?_, (State.pulseFall_touches s m).frame⟩,
      fun h => congrArg Host.Outcome.next (State.pulseFall_rest h)⟩,
    fun no => congrArg Host.Outcome.next (if_neg no),
    fun ends => ⟨_, congrArg Host.Outcome.next (if_pos ends), (State.getN_demandEnd_names ..).1, (State.getN_demandEnd_names ..).2,
      State.demandEnd_demand .., fun p off idle => ?_, fun p on => ?_, (State.demandEnd_touches ..).frame⟩⟩
  · have runs : exec c s = .next (s.startPulse m) := by
      rcases starts with ⟨rfl, idle, on⟩ | ⟨rfl, gap⟩
      · exact congrArg Host.Outcome.next (State.pulseRise_idle idle on)
      · exact congrArg Host.Outcome.next (State.pulseGapEnd_gap gap)
    refine ⟨_, runs, fun empty => ?_, fun due => ?_, fun j hj => State.startPulse_other hj, (State.startPulse_touches s m).frame⟩
    · rw [State.startPulse_empty empty]
      exact ⟨State.pulse_updPulse_same _, rfl⟩
    · rw [State.startPulse_due due]
      refine ⟨?_, ?_, fun k hk => ?_⟩
      · rw [State.pulse_updPulse_same, State.put, State.setQ_pulses]
      · rw [State.getN_updPulse, State.getN_put, if_pos rfl]
      · rw [State.getN_updPulse, State.getN_put, if_neg hk]
  · rw [State.pulseFall_high high, State.pulse_updPulse_same]
  · rw [State.pulseFall_high high, State.pulse_updPulse_other _ hj]
  · have view := State.demandView_demandEnd_off off idle s.index (s.stamp s.index)
    obtain ⟨impLast, expLast⟩ := State.last_of_demandView view
    exact ⟨impLast, expLast, State.running_of_demandView view⟩
  · have view := State.demandView_demandEnd_on on s.index (s.stamp s.index)
    refine ⟨State.dmdFrom_of_demandView view, fun idle => ?_⟩
    rw [DemandView.settled_of_idle idle] at view
    exact State.running_of_demandView view

end Sys2Proof.Machine
end

section
/-! PROOFS. Writes of the stored settings of the auxiliary couples, the sessions, the display, the draft coefficients and the time zone (R160, R189,
R269, R377, R378). -/

namespace Sys2Proof.Machine

open Sys2Proof

/-! ### Signed values (R13) -/

/-- A value that is not negative is its own two's complement. -/
theorem ofSigned_natCast {n w : Nat} (fits : w < 2 ^ n) : ofSigned n (w : Int) = w := by
  unfold ofSigned
  rw [← Int.natCast_emod, Nat.mod_eq_of_lt fits, Int.toNat_natCast]

theorem ofSigned_lt (n : Nat) (v : Int) : ofSigned n v < 2 ^ n := by
  have pos : (0 : Int) < ((2 ^ n : Nat) : Int) := by exact_mod_cast Nat.two_pow_pos n
  unfold ofSigned
  have := Int.emod_lt_of_pos v pos
  have := Int.emod_nonneg v pos.ne'
  omega

/-- A value within the range of a width reads back from its two's complement. -/
theorem toSigned_ofSigned {n : Nat} {v : Int} (lo : -((2 ^ n : Nat) : Int) ≤ v) (hi : v < ((2 ^ n : Nat) : Int)) :
    toSigned (n + 1) (ofSigned (n + 1) v) = v := by
  have twice : (2 : Nat) ^ (n + 1) = 2 * 2 ^ n := Nat.pow_succ'
  have code : ((ofSigned (n + 1) v : Nat) : Int) = if 0 ≤ v then v else v + 2 * ((2 ^ n : Nat) : Int) := by
    unfold ofSigned
    rw [twice, Int.toNat_of_nonneg (Int.emod_nonneg _ (by omega))]
    split
    · exact Int.emod_eq_of_lt ‹_› (by omega)
    · rw [← Int.add_emod_right, Int.emod_eq_of_lt (by omega) (by omega)]
      omega
  unfold toSigned
  rw [Nat.mod_eq_of_lt (ofSigned_lt (n + 1) v), Nat.add_sub_cancel, twice]
  dsimp only
  split_ifs at code ⊢ <;> omega

namespace State

/-! ### Stored values -/

/-- A stored write of a signed number that fits its type, by the class, the state and the value (R377). -/
theorem hostWrite_signed {s : State} {h : Requester} (r : s.Ready h) {idx sub n m : Nat} {v : Int} {d : Desc} (hd : findDesc idx sub = some d)
    (ht : d.ty = .i (m + 1)) (bytes : n * 8 = m + 1) (lo : -((2 ^ m : Nat) : Int) ≤ v) (hi : v < ((2 ^ m : Nat) : Int)) (hc : d.acc ≠ .wo)
    (cls : s.classStatus d = .ok) (st : s.stateRefuses idx sub = false) (val : (s.foreseen []).valueOk d idx sub (.num v) = true)
    (below : idx < 0xF000) (hf : isFlagEntry idx = false) (hv : isVolatileEntry idx = false) :
    s.hostWrite h idx sub (leBytes n (ofSigned (m + 1) v)) = s.storedWrite h idx sub (leBytes n (ofSigned (m + 1) v)) (.num v) := by
  have fits : ofSigned (m + 1) v < 256 ^ n := by
    have range : 256 ^ n = 2 ^ (m + 1) := by rw [← bytes, Nat.mul_comm, Nat.pow_mul]
    exact range ▸ ofSigned_lt (m + 1) v
  have dec : d.ty.decode (leBytes n (ofSigned (m + 1) v)) = .num v := by
    rw [ht, Ty.decode, leNat_leBytes n _ fits, toSigned_ofSigned lo hi]
  refine hostWrite_accepted r hd hc (writeStatus_ok cls st ?_ ?_) below hf hv dec
  · rw [entryLenOk, if_neg (by omega), ht, leBytes_length]
    exact decide_eq_true bytes
  · rw [entryValueOk, if_neg (by omega), dec, val, ht]
    rfl

/-- The entries of calibration and of the auxiliary bank are no point's (R374). -/
theorem baseIdx_auxBank {idx : Nat} (bank : 0x6800 ≤ idx ∧ idx < 0x8000) : baseIdx idx = idx := by
  have device : isPointIdx idx = false := by
    obtain six | seven : idx / 0x1000 = 6 ∨ idx / 0x1000 = 7 := by omega
    · have : 0x800 ≤ idx % 0x1000 := by omega
      simp [isPointIdx]; omega
    · simp [isPointIdx, seven, pointRange]
  simp [baseIdx, pointOfIdx, device]

/-- A draft coefficient takes a write while CAL_STATE is OPEN (R160). -/
theorem stateRefuses_draft {s : State} {idx sub : Nat} (draft : 0x6808 ≤ idx ∧ idx ≤ 0x680A) (isOpen : s.getN K.CAL_STATE = 1) :
    s.stateRefuses idx sub = false := by
  have base : baseIdx idx = idx := baseIdx_auxBank (by omega)
  unfold stateRefuses
  dsimp only
  rw [if_neg (by simp [base]; omega), if_pos draft, isOpen]
  rfl

/-- The tables of the auxiliary couples take a write in every state (R189). -/
theorem stateRefuses_couple {s : State} {idx sub : Nat} (table : 0x7000 < idx ∧ idx < 0x7060) : s.stateRefuses idx sub = false := by
  have base : baseIdx idx = idx := baseIdx_auxBank (by omega)
  unfold stateRefuses
  dsimp only
  rw [if_neg (by simp [base]; omega), if_neg (by omega), if_neg (by omega), if_neg (by simp; omega)]

/-- HOST_DATA takes a write outside a session (R269). -/
theorem stateRefuses_hostData {s : State} (p : Fin 8) {sub : Nat} (off : s.sessionOn p = false) :
    s.stateRefuses (0xC003 + 0x100 * p.val) sub = false := by
  have hp : (⟨p.val % 8, by omega⟩ : Fin 8) = p := fin_mk_mod p _
  unfold stateRefuses
  simp only [baseIdx_add (b := 0xC003) rfl (by decide), pointOfIdx_add (b := 0xC003) rfl (by decide), hp, off]
  rfl

/-! ### The value rules (R375) -/

theorem specialOk_coupleCfg (u : State) (sub w : Nat) : u.specialOk 0x7011 sub (.num w) = inMask w 0xF3 := rfl

theorem specialOk_entry (u : State) (l : Fin 3) (sub w : Nat) :
    u.specialOk (0x7020 + l.val) sub (.num w) = (inMask w 0xFFFF80FF0FF7DF1F && u.entryOk w) := by
  revert l
  exact Fin.forall_fin_succ.2 ⟨rfl, Fin.forall_fin_succ.2 ⟨rfl, Fin.forall_fin_succ.2 ⟨rfl, nofun⟩⟩⟩

theorem specialOk_hostData (u : State) (p : Fin 8) (v : Val) : u.specialOk (0xC003 + 0x100 * p.val) 0 v = true := by
  unfold specialOk
  simp only [baseIdx_add (b := 0xC003) rfl (by decide)]
  rw [if_neg (by omega)]
  simp +decide only [if_false]
  repeat rw [if_neg (by omega)]

theorem specialOk_ringAck (u : State) (sub w : Nat) : u.specialOk 0xC810 sub (.num w) = u.ringAckOk w := by
  unfold specialOk
  simp +decide only [if_false, if_true]
  rfl

theorem specialOk_draftGain (u : State) (sub w : Nat) : u.specialOk 0x6808 sub (.num w) = (decide (0x200000 ≤ w) && decide (w ≤ 0x800000)) := rfl

theorem specialOk_draftOffset (u : State) (sub : Nat) (v : Int) : u.specialOk 0x6809 sub (.num v) = decide (v.natAbs ≤ 1342208) := rfl

/-! ### The rows -/

section Rows

variable {s : State} {h : Requester} {w : Nat} {v : Int}

theorem coupleCfg_write (r : s.Ready h) (l : Fin 3) (fits : w < 256) (run : w % 16 ≤ 3) :
    s.hostWrite h 0x7011 (l.val + 1) (leBytes 2 w) = s.storedWrite h 0x7011 (l.val + 1) (leBytes 2 w) (.num w) := by
  have hd : ∀ l : Fin 3, findDesc 0x7011 (l.val + 1) = some ⟨0x7011, 1, 1, 1, 3, .u 16, .rw, 0, [], .special⟩ := by decide +kernel
  have mask : ∀ w < 256, w % 16 ≤ 3 → inMask w 0xF3 = true := by decide +kernel
  refine hostWrite_number r (hd l) rfl (by omega) (by decide) (classStatus_rw rfl) (stateRefuses_couple (by decide)) ?_
    (by decide) (by decide) (by decide)
  rw [valueOk_special rfl (by decide) (by decide), specialOk_coupleCfg]
  exact mask w fits run

theorem entry_write (r : s.Ready h) (l : Fin 3) (e : Fin 16) (fits : w < 2 ^ 64) (mask : inMask w 0xFFFF80FF0FF7DF1F = true)
    (ok : (s.foreseen []).entryOk w = true) :
    s.hostWrite h (0x7020 + l.val) (e.val + 1) (leBytes 8 w) = s.storedWrite h (0x7020 + l.val) (e.val + 1) (leBytes 8 w) (.num w) := by
  have hd : ∀ (l : Fin 3) (e : Fin 16), findDesc (0x7020 + l.val) (e.val + 1) = some ⟨0x7020, 3, 1, 1, 16, .u 64, .rw, 0, [], .special⟩ := by
    decide +kernel
  have base : baseIdx (0x7020 + l.val) = 0x7020 + l.val := baseIdx_auxBank (by omega)
  refine hostWrite_number r (hd l e) rfl (by omega) (by decide) (classStatus_rw rfl) (stateRefuses_couple (by omega)) ?_
    (by omega) ?_ ?_
  · rw [valueOk_special rfl (by rw [base]; omega) (by omega), specialOk_entry, mask, ok]
    rfl
  · simp [isFlagEntry, base]; omega
  · simp [isVolatileEntry]; omega

theorem hostData_write (r : s.Ready h) (p : Fin 8) {data : List Byte} (off : s.sessionOn p = false) (len : data.length ≤ 256) :
    s.hostWrite h (0xC003 + 0x100 * p.val) 0 data = s.storedWrite h (0xC003 + 0x100 * p.val) 0 data (.bytes data) := by
  have hd : ∀ p : Fin 8, findDesc (0xC003 + 0x100 * p.val) 0 = some ⟨0xC003, 1, 1, 0, 0, .blobUpTo 256, .rw, 0, [], .special⟩ := by decide +kernel
  have base := baseIdx_add (b := 0xC003) rfl (by decide) p
  refine hostWrite_accepted r (hd p) (by decide) (writeStatus_ok (classStatus_rw rfl) (stateRefuses_hostData p off) ?_ ?_)
    (by omega) ?_ ?_ rfl
  · rw [entryLenOk, if_neg (by omega)]
    exact decide_eq_true len
  · rw [entryValueOk, if_neg (by omega), valueOk_special rfl (by simp [base]) (by omega), specialOk_hostData]
    rfl
  · simp [isFlagEntry, base]; omega
  · simp [isVolatileEntry]; omega

theorem ringAck_write (r : s.Ready h) (fits : w < 2 ^ 32) (ok : (s.foreseen []).ringAckOk w = true) :
    s.hostWrite h 0xC810 2 (leBytes 4 w) = s.storedWrite h 0xC810 2 (leBytes 4 w) (.num w) := by
  have hd : findDesc 0xC810 2 = some ⟨0xC810, 1, 1, 2, 2, .u 32, .rw, 4294967295, [], .special⟩ := by decide +kernel
  refine hostWrite_number r hd rfl (by omega) (by decide) (classStatus_rw rfl) (stateRefuses_free (by decide) (by decide)) ?_
    (by decide) (by decide) (by decide)
  rw [valueOk_special rfl (by decide) (by decide), specialOk_ringAck]
  exact ok

theorem dispPoint_write (r : s.Ready h) (point : w ≤ 7) :
    s.hostWrite h 0x8005 0 (leBytes 1 w) = s.storedWrite h 0x8005 0 (leBytes 1 w) (.num w) := by
  have hd : findDesc 0x8005 0 = some ⟨0x8005, 1, 1, 0, 0, .u 8, .rw, 0, [], .within (0) (7)⟩ := by decide +kernel
  refine hostWrite_number r hd rfl (by omega) (by decide) (classStatus_rw rfl) (stateRefuses_free (by decide) (by decide)) ?_
    (by decide) (by decide) (by decide)
  rw [valueOk_table (by decide) (by decide) (by decide)]
  show (decide ((0 : Int) ≤ w) && decide ((w : Int) ≤ 7)) = true
  simp
  omega

theorem draftGain_write (r : s.Ready h) (c : Fin 7) (on : s.inService = true) (isOpen : s.getN K.CAL_STATE = 1) (lo : 0x200000 ≤ v)
    (hi : v ≤ 0x800000) : s.hostWrite h 0x6808 (c.val + 1) (leBytes 4 (ofSigned 32 v)) =
      s.storedWrite h 0x6808 (c.val + 1) (leBytes 4 (ofSigned 32 v)) (.num v) := by
  have hd : ∀ c : Fin 7, findDesc 0x6808 (c.val + 1) = some ⟨0x6808, 1, 1, 1, 7, .u 32, .rws, 4194304, [], .special⟩ := by decide +kernel
  obtain ⟨w, rfl⟩ := Int.eq_ofNat_of_zero_le (a := v) (by omega)
  rw [ofSigned_natCast (by omega)]
  refine hostWrite_number r (hd c) rfl (by omega) (by decide) (classStatus_rws rfl on) (stateRefuses_draft (by decide) isOpen) ?_
    (by decide) (by decide) (by decide)
  rw [valueOk_special rfl (by decide) (by decide), specialOk_draftGain]
  simp
  omega

theorem draftOffset_write (r : s.Ready h) (c : Fin 7) (on : s.inService = true) (isOpen : s.getN K.CAL_STATE = 1) (size : v.natAbs ≤ 1342208) :
    s.hostWrite h 0x6809 (c.val + 1) (leBytes 4 (ofSigned 32 v)) =
      s.storedWrite h 0x6809 (c.val + 1) (leBytes 4 (ofSigned 32 v)) (.num v) := by
  have hd : ∀ c : Fin 7, findDesc 0x6809 (c.val + 1) = some ⟨0x6809, 1, 1, 1, 7, .i 32, .rws, 0, [], .special⟩ := by decide +kernel
  refine hostWrite_signed (m := 31) r (hd c) rfl rfl (by omega) (by omega) (by decide) (classStatus_rws rfl on)
    (stateRefuses_draft (by decide) isOpen) ?_ (by decide) (by decide) (by decide)
  rw [valueOk_special rfl (by decide) (by decide), specialOk_draftOffset]
  exact decide_eq_true size

theorem draftTrim_write (r : s.Ready h) (c : Fin 7) (on : s.inService = true) (isOpen : s.getN K.CAL_STATE = 1) (lo : 0 ≤ v) (hi : v ≤ 256) :
    s.hostWrite h 0x680A (c.val + 1) (leBytes 2 (ofSigned 16 v)) =
      s.storedWrite h 0x680A (c.val + 1) (leBytes 2 (ofSigned 16 v)) (.num v) := by
  have hd : ∀ c : Fin 7, findDesc 0x680A (c.val + 1) = some ⟨0x680A, 1, 1, 1, 7, .u 16, .rws, 0, [], .within (0) (256)⟩ := by decide +kernel
  obtain ⟨w, rfl⟩ := Int.eq_ofNat_of_zero_le lo
  rw [ofSigned_natCast (by omega)]
  refine hostWrite_number r (hd c) rfl (by omega) (by decide) (classStatus_rws rfl on) (stateRefuses_draft (by decide) isOpen) ?_
    (by decide) (by decide) (by decide)
  rw [valueOk_table (by decide) (by decide) (by decide)]
  show (decide ((0 : Int) ≤ w) && decide ((w : Int) ≤ 256)) = true
  simp
  omega

theorem utcOffset_write (r : s.Ready h) (size : v.natAbs ≤ 1000) :
    s.hostWrite h 0x1032 0 (leBytes 2 (ofSigned 16 v)) = s.storedWrite h 0x1032 0 (leBytes 2 (ofSigned 16 v)) (.num v) := by
  have hd : findDesc 0x1032 0 = some ⟨0x1032, 1, 1, 0, 0, .i 16, .rw, 0, [], .within (-1000) (1000)⟩ := by decide +kernel
  refine hostWrite_signed (m := 15) r hd rfl rfl (by omega) (by omega) (by decide) (classStatus_rw rfl)
    (stateRefuses_free (by decide) (by decide)) ?_ (by decide) (by decide) (by decide)
  rw [valueOk_table (by decide) (by decide) (by decide)]
  show (decide (-1000 ≤ v) && decide (v ≤ 1000)) = true
  simp
  omega

end Rows

end State

/-- Settles O30: each row is a stored write of a value that fits its type, its class, its state and its value rule. -/
theorem settingWritesQueueUnits : Obligations.SettingWritesQueueUnits := by
  intro s h r
  refine ⟨fun l w fits run => congrArg Host.Outcome.next (State.coupleCfg_write r l fits run),
    fun l e w fits mask ok => congrArg Host.Outcome.next (State.entry_write r l e fits mask ok),
    fun p data off len => congrArg Host.Outcome.next (State.hostData_write r p off len),
    fun w fits ok => congrArg Host.Outcome.next (State.ringAck_write r fits ok),
    fun w point => congrArg Host.Outcome.next (State.dispPoint_write r point),
    fun c v on isOpen => ⟨fun lo hi => congrArg Host.Outcome.next (State.draftGain_write r c on isOpen lo hi),
      fun size => congrArg Host.Outcome.next (State.draftOffset_write r c on isOpen size),
      fun lo hi => congrArg Host.Outcome.next (State.draftTrim_write r c on isOpen lo hi)⟩,
    fun v size => congrArg Host.Outcome.next (State.utcOffset_write r size)⟩

end Sys2Proof.Machine
end

section
/-! PROOFS. CAL_CMD: what it refuses, and what BEGIN, the measurements, DROP, COMMIT and ABORT do (R158 to R162, R167, R170). -/

namespace Sys2Proof.Machine

open Sys2Proof

namespace State

/-! ### The command (R158, R377) -/

/-- The row of CAL_CMD in the entry table. -/
def calDesc : Desc := ⟨0x6800, 1, 1, 0, 0, .u 32, .wo, 0, [], .special⟩

theorem findDesc_calCmd : findDesc 0x6800 0 = some calDesc := by decide +kernel

/-- The value rule of CAL_CMD: its field map and its seven operations (Table 05.10). -/
def calWordOk (w : Nat) : Bool := inMask w 0x037F07FF && decide (1 ≤ w % 256) && decide (w % 256 ≤ 7)

theorem specialOk_calCmd (u : State) (w : Nat) : u.specialOk 0x6800 0 (.num w) = calWordOk w := rfl

/-- A word whose operation is busy, or that comes outside SERVICE, is in the wrong state; every other word is judged as a command (R158, R377). -/
theorem command_calCmd (s : State) (h : Requester) {w : Nat} (fits : w < 2 ^ 32) : s.command h calDesc 0x6800 0 (leBytes 4 w) =
    if s.calBusy (w % 256) = true ∨ s.inService = false then (some .wrongState, s) else s.calWrite w (calWordOk w) := by
  have val : leNat (leBytes 4 w) = w := leNat_leBytes 4 w (by omega)
  have ok : s.entryValueOk [] calDesc 0x6800 0 (leBytes 4 w) = calWordOk w := by
    have dec : calDesc.ty.decode (leBytes 4 w) = .num w := by rw [calDesc, Ty.decode, val]
    rw [entryValueOk, if_neg (by decide), dec, valueOk_special rfl (by decide) (by decide), specialOk_calCmd]
    rfl
  have len : entryLenOk calDesc 0x6800 0 (leBytes 4 w).length = true := by rw [leBytes_length]; rfl
  have refuses : s.stateRefuses 0x6800 0 = !s.inService := rfl
  unfold command
  simp only [val, ok, len, refuses]
  rw [if_neg (by decide)]
  by_cases busy : s.calBusy (w % 256) = true
  · rw [if_pos ⟨trivial, busy⟩, if_pos (.inl busy)]
  · rw [if_neg fun b => busy b.2]
    cases on : s.inService
    · rw [if_pos (by decide), if_pos (.inr rfl)]
    · rw [if_neg (by decide), if_neg (by simp), if_neg (by decide), if_neg (by decide), if_neg (by decide), if_neg (by decide), if_pos trivial,
        if_neg (by simp [busy])]

theorem calBusy_taken (s : State) (h : Requester) (op idx sub : Nat) (b : List Byte) (o : Nat) :
    (s.taken h op idx sub b).calBusy o = s.calBusy o := by simp [calBusy]

theorem inService_taken (s : State) (h : Requester) (op idx sub : Nat) (b : List Byte) : (s.taken h op idx sub b).inService = s.inService := by
  unfold taken
  cases h.link <;> rfl

/-- No other operation than ABORT is taken while a step measures, and none while a commit runs (R158). -/
theorem calBusy_of_state {s : State} {op : Nat} (busy : s.getN K.CAL_STATE = 3 ∨ (s.getN K.CAL_STATE = 2 ∧ op ≠ 7)) : s.calBusy op = true := by
  rcases busy with st | ⟨st, no⟩
  · simp [calBusy, st]
  · simp [calBusy, st, no]

/-- An idle or open run lets every operation through (R158). -/
theorem calBusy_free {s : State} (op : Nat) (idle : s.getN K.CAL_STATE = 0 ∨ s.getN K.CAL_STATE = 1) : s.calBusy op = false := by
  rcases idle with st | st <;> simp [calBusy, st]

theorem calCmd_refused {s : State} {h : Requester} (r : s.Ready h) {w : Nat} (fits : w < 2 ^ 32)
    (no : s.calBusy (w % 256) = true ∨ s.inService = false) :
    s.hostWrite h 0x6800 0 (leBytes 4 w) = s.answered h opWrite 0x6800 0 .wrongState [] := by
  rw [hostWrite_command r findDesc_calCmd rfl ((command_calCmd _ h fits).trans (if_pos ?_)), reply_taken r]
  rwa [calBusy_taken, inService_taken]

/-- A command that its state accepts is answered OK at once (R158). -/
theorem calCmd_accepted {s u : State} {h : Requester} (r : s.Ready h) {w : Nat} (fits : w < 2 ^ 32) (word : calWordOk w = true)
    (on : s.inService = true) (free : s.calBusy (w % 256) = false) (runs : (s.taken h opWrite 0x6800 0 (leBytes 4 w)).calCommand w = some u) :
    s.hostWrite h 0x6800 0 (leBytes 4 w) = u.withLinksOf (s.answered h opWrite 0x6800 0 .ok []) := by
  have op : ¬ (w % 256 = 0 ∨ 8 ≤ w % 256) := by
    simp only [calWordOk, Bool.and_eq_true, decide_eq_true_eq] at word
    omega
  have k := calCommand_touches _ _ runs
  have cmd : (s.taken h opWrite 0x6800 0 (leBytes 4 w)).command h calDesc 0x6800 0 (leBytes 4 w) = (some .ok, u) := by
    rw [command_calCmd _ h fits, if_neg (by simp [calBusy_taken, inService_taken, free, on]), calWrite, if_neg op, runs, word]
    rfl
  rw [hostWrite_command r findDesc_calCmd rfl cmd]
  refine reply_done r ?_ (k.spi (by decide)) (k.can (by decide)) ..
  rw [serves, k.mode (by decide), taken_mode]
  exact r.1

/-! ### What each operation runs (Table 05.10) -/

section Runs

variable {s : State} {r : CalRun} (mode : s.mode = .service)
include mode

theorem calCommand_begin (p : Fin 8) (q : Fin 4) (none : s.cal = none) (idle : s.getN K.CAL_STATE = 0) (on : kindOf s.points[p].app.cfg ≠ 0) :
    s.calCommand (1 + 256 * p.val + 2 ^ 24 * q.val) = some (s.calBegin p q) := by
  have op : field (1 + 256 * p.val + 2 ^ 24 * q.val) 7 0 = 1 := by unfold field; omega
  have hp : (⟨field (1 + 256 * p.val + 2 ^ 24 * q.val) 10 8 % 8, by omega⟩ : Fin 8) = p := Fin.ext (by unfold field; dsimp only; omega)
  have hq : (⟨field (1 + 256 * p.val + 2 ^ 24 * q.val) 25 24 % 4, by omega⟩ : Fin 4) = q := Fin.ext (by unfold field; dsimp only; omega)
  unfold calCommand
  simp only [mode, op, none, hp, hq, idle]
  rw [if_neg (by simp), if_neg (by simpa using on)]

variable (run : s.cal = some r) (isOpen : s.getN K.CAL_STATE = 1)
include run

theorem calCommand_abort (going : s.getN K.CAL_STATE ≠ 3) (kept : r.committed = false) : s.calCommand 7 = some s.calAbort := by
  unfold calCommand
  simp only [run, show field 7 7 0 = 7 from rfl, kept]
  exact (if_neg (not_not.2 mode)).trans (if_neg going)

include isOpen

theorem calCommand_zero (mask : Fin 128) : s.calCommand (2 + 2 ^ 16 * mask.val) = some (s.calStep r 2 mask.val) := by
  have op : field (2 + 2 ^ 16 * mask.val) 7 0 = 2 := by unfold field; omega
  have chs : field (2 + 2 ^ 16 * mask.val) 22 16 = mask.val := by unfold field; omega
  unfold calCommand
  simp only [run, op, chs]
  exact (if_neg (not_not.2 mode)).trans (if_pos isOpen)

theorem calCommand_gain (mask : Fin 128) : s.calCommand (3 + 2 ^ 16 * mask.val) = some (s.calStep r 3 mask.val) := by
  have op : field (3 + 2 ^ 16 * mask.val) 7 0 = 3 := by unfold field; omega
  have chs : field (3 + 2 ^ 16 * mask.val) 22 16 = mask.val := by unfold field; omega
  unfold calCommand
  simp only [run, op, chs]
  exact (if_neg (not_not.2 mode)).trans (if_pos isOpen)

theorem calCommand_phase : s.calCommand 4 = some (s.calStep r 4 0) := by
  unfold calCommand
  simp only [run, show field 4 7 0 = 4 from rfl]
  exact (if_neg (not_not.2 mode)).trans (if_pos isOpen)

theorem calCommand_drop (q : Fin 4) :
    s.calCommand (5 + 2 ^ 24 * q.val) = some { s with cal := some { r with valid := clearBit r.valid q } } := by
  have op : field (5 + 2 ^ 24 * q.val) 7 0 = 5 := by unfold field; omega
  have slot : field (5 + 2 ^ 24 * q.val) 25 24 = q.val := by unfold field; omega
  unfold calCommand
  simp only [run, op, slot]
  exact (if_neg (not_not.2 mode)).trans (if_pos isOpen)

theorem calCommand_commit : s.calCommand 6 = some (s.calCommit r) := by
  unfold calCommand
  simp only [run, show field 6 7 0 = 6 from rfl]
  exact (if_neg (not_not.2 mode)).trans (if_pos isOpen)

end Runs

/-! ### What they do -/

theorem calBegin_opens (s : State) (p : Fin 8) (q : Fin 4) : (s.calBegin p q).getN K.CAL_STATE = 1 ∧ (s.calBegin p q).getN K.CAL_POINT = p.val ∧
    (s.calBegin p q).getN K.CAL_SLOT = q.val ∧ (s.calBegin p q).getN K.CAL_DONE = 0 ∧ (s.calBegin p q).cal.isSome = true := by
  simp +decide [calBegin]

/-- A step that its point allows waits for the point's next boundary (R162). -/
theorem calStep_starts {s : State} {r : CalRun} {op mask : Nat} (ac : op = 4 → isAc (kindOf s.points[r.point].app.cfg) = true)
    (used : op ≠ 4 → mask &&& ((maskOf allChans fun c => s.points[r.point].app.uses c) ^^^ 127) = 0) :
    (s.calStep r op mask).getN K.CAL_STATE = 2 ∧
      ∃ st : CalStep, (s.calStep r op mask).cal = some { r with step := some st } ∧ st.op = op ∧ (op ≠ 4 → st.mask = mask) ∧ st.blocks = [] := by
  have point : ¬ (op = 4 ∧ isAc (kindOf s.points[r.point].app.cfg) = false) := by
    rintro ⟨phase, dc⟩
    exact absurd (ac phase) (by rw [dc]; decide)
  have channels : ¬ (op ≠ 4 ∧ mask &&& ((maskOf allChans fun c => s.points[r.point].app.uses c) ^^^ 127) ≠ 0) := fun ⟨no, bad⟩ => bad (used no)
  unfold calStep
  dsimp only
  rw [if_neg point, if_neg channels]
  refine ⟨by simp +decide, _, by simp; rfl, rfl, fun no => if_neg no, rfl⟩

/-- A commit that passes its first checks waits for its twin decision, and the run itself stays as it is (R167, R168). -/
theorem calCommit_waits {s : State} {r : CalRun} (shut : s.getN (K.SESSION_STATE r.point) = 0) (slots : r.valid % 16 ≠ 0)
    (clean : r.tainted = false) : (s.calCommit r).getN K.CAL_STATE = 3 ∧
      (s.calCommit r).twins = s.twins ++ [.calCommit (s.twinChecks r).1 (s.twinChecks r).2] ∧ Touches 1099511631873 s (s.calCommit r) := by
  unfold calCommit
  rw [if_neg (not_not.2 shut), if_neg slots, if_neg (by simp [clean])]
  exact ⟨(getN_put s K.CAL_STATE K.CAL_STATE 3).trans (if_pos rfl), rfl, .upd ((put_touches ..).mono rfl)⟩

theorem calAbort_ends {s : State} {r : CalRun} (run : s.cal = some r) (kept : r.committed = false) : s.calAbort.getN K.CAL_STATE = 0 ∧
    s.calAbort.getN K.CAL_REASON = 18 ∧ s.calAbort.getN K.CAL_POINT = 0xFF ∧ s.calAbort.getN K.CAL_SLOT = 0xFF ∧ s.calAbort.cal = none := by
  have cal (u : State) : (forEach allChans (fun c s =>
      ((s.put (K.DRAFT_GAIN (c + 1)) 4194304).put (K.DRAFT_OFFSET (c + 1)) 0).put (K.DRAFT_TRIM (c + 1)) 0) u).cal = u.cal :=
    forEach_field (fun u => u.cal) _ _ u fun _ _ _ => by simp
  unfold calAbort
  simp +decide only [run, kept]
  simp +decide [cal]

theorem twinChecks_taken (s : State) (h : Requester) (op idx sub : Nat) (b : List Byte) (r : CalRun) :
    (s.taken h op idx sub b).twinChecks r = s.twinChecks r := by
  unfold taken
  cases h.link <;> rfl

/-! ### The rows -/

section Rows

variable {s : State} {h : Requester} {r : CalRun} (ready : s.Ready h)
include ready

theorem calCmds_refused (p : Fin 8) (q : Fin 4) (mask : Fin 128)
    (no : s.inService = false ∨ s.getN K.CAL_STATE = 3 ∨ s.getN K.CAL_STATE = 2) :
    exec (.calBegin h p q) s = .next (s.answered h opWrite 0x6800 0 .wrongState []) ∧
    exec (.calZero h mask) s = .next (s.answered h opWrite 0x6800 0 .wrongState []) ∧
    exec (.calGain h mask) s = .next (s.answered h opWrite 0x6800 0 .wrongState []) ∧
    exec (.calPhase h) s = .next (s.answered h opWrite 0x6800 0 .wrongState []) ∧
    exec (.calDrop h q) s = .next (s.answered h opWrite 0x6800 0 .wrongState []) ∧
    exec (.calCommit h) s = .next (s.answered h opWrite 0x6800 0 .wrongState []) ∧
    (s.inService = false ∨ s.getN K.CAL_STATE = 3 → exec (.calAbort h) s = .next (s.answered h opWrite 0x6800 0 .wrongState [])) := by
  have refused {w : Nat} (fits : w < 2 ^ 32) (op : w % 256 ≠ 7) : s.hostWrite h 0x6800 0 (leBytes 4 w) = s.answered h opWrite 0x6800 0 .wrongState [] :=
    calCmd_refused ready fits (no.elim .inr fun busy => .inl (calBusy_of_state (busy.imp_right fun st => ⟨st, op⟩)))
  refine ⟨congrArg Host.Outcome.next (refused (by omega) (by omega)), congrArg Host.Outcome.next (refused (by omega) (by omega)),
    congrArg Host.Outcome.next (refused (by omega) (by omega)), congrArg Host.Outcome.next (refused (by omega) (by omega)),
    congrArg Host.Outcome.next (refused (by omega) (by omega)), congrArg Host.Outcome.next (refused (by omega) (by omega)),
    fun no => congrArg Host.Outcome.next (calCmd_refused ready (by omega) ?_)⟩
  exact no.elim .inr fun st => .inl (calBusy_of_state (.inl st))

variable (on : s.inService = true)
include on

/-- A measurement of an open run: the operation's step waits in the run, and CAL_STATE is MEASURING (R161, R162). -/
theorem calMeasure_row {w op mask : Nat} (fits : w < 2 ^ 32) (word : calWordOk w = true) (isOpen : s.getN K.CAL_STATE = 1)
    (runs : (s.taken h opWrite 0x6800 0 (leBytes 4 w)).calCommand w = some ((s.taken h opWrite 0x6800 0 (leBytes 4 w)).calStep r op mask))
    (ac : op = 4 → isAc (kindOf s.points[r.point].app.cfg) = true)
    (used : op ≠ 4 → mask &&& ((maskOf allChans fun c => s.points[r.point].app.uses c) ^^^ 127) = 0) :
    ∃ (t : State) (st : CalStep), s.hostWrite h 0x6800 0 (leBytes 4 w) = t ∧ Answered s t h opWrite 0x6800 0 .ok [] ∧ t.getN K.CAL_STATE = 2 ∧
      t.cal = some { r with step := some st } ∧ st.op = op ∧ (op ≠ 4 → st.mask = mask) ∧ st.blocks = [] ∧
      { t with nums := s.nums, tab := s.tab, cal := s.cal, spi := s.spi, can := s.can } = s := by
  obtain ⟨state, st, cal, hop, hmask, blocks⟩ := calStep_starts (s := s.taken h opWrite 0x6800 0 (leBytes 4 w)) (r := r) (op := op) (mask := mask)
    (by simpa using ac) (by simpa using used)
  exact ⟨_, st, calCmd_accepted ready fits word on (calBusy_free _ (.inr isOpen)) runs, answered_links .., state, cal, hop, hmask, blocks,
    (Touches.answered (n := 10101763080193) (calStep_touches ..)).frame⟩

variable (mode : s.mode = .service)
include mode

theorem calBegin_row (p : Fin 8) (q : Fin 4) (none : s.cal = none) (idle : s.getN K.CAL_STATE = 0) (kind : kindOf s.points[p].app.cfg ≠ 0) :
    ∃ t, exec (.calBegin h p q) s = .next t ∧ Answered s t h opWrite 0x6800 0 .ok [] ∧ t.getN K.CAL_STATE = 1 ∧ t.getN K.CAL_POINT = p.val ∧
      t.getN K.CAL_SLOT = q.val ∧ t.getN K.CAL_DONE = 0 ∧ t.cal.isSome = true ∧
      { t with nums := s.nums, tab := s.tab, cal := s.cal, spi := s.spi, can := s.can } = s := by
  have words : ∀ (p : Fin 8) (q : Fin 4), calWordOk (1 + 256 * p.val + 2 ^ 24 * q.val) = true := by decide +kernel
  have runs := calCmd_accepted ready (by omega) (words p q) on (calBusy_free _ (.inl idle))
    (calCommand_begin (by simpa using mode) p q (by simpa using none) (by simpa using idle) (by simpa using kind))
  obtain ⟨state, point, slot, done, isSome⟩ := calBegin_opens (s.taken h opWrite 0x6800 0 (leBytes 4 (1 + 256 * p.val + 2 ^ 24 * q.val))) p q
  exact ⟨_, congrArg Host.Outcome.next runs, answered_links .., state, point, slot, done, isSome,
    (Touches.answered (n := 10101763080193) (calBegin_touches ..)).frame⟩

variable (run : s.cal = some r)
include run

theorem calAbort_row (going : s.getN K.CAL_STATE ≠ 3) (kept : r.committed = false) :
    ∃ t, exec (.calAbort h) s = .next t ∧ Answered s t h opWrite 0x6800 0 .ok [] ∧ t.getN K.CAL_STATE = 0 ∧ t.getN K.CAL_REASON = 18 ∧
      t.getN K.CAL_POINT = 0xFF ∧ t.getN K.CAL_SLOT = 0xFF ∧ t.cal = none ∧
      { t with nums := s.nums, tab := s.tab, cal := s.cal, journal := s.journal, twins := s.twins, spi := s.spi, can := s.can } = s := by
  have free : s.calBusy (7 % 256) = false := by simp [calBusy, going]
  have runs := calCmd_accepted ready (by omega) (by decide) on free
    (calCommand_abort (r := r) (by simpa using mode) (by simpa using run) (by simpa using going) kept)
  obtain ⟨state, reason, point, slot, cal⟩ := calAbort_ends (s := s.taken h opWrite 0x6800 0 (leBytes 4 7)) (by simpa using run) kept
  exact ⟨_, congrArg Host.Outcome.next runs, answered_links .., state, reason, point, slot, cal,
    (Touches.answered (n := 10106058051585) (calAbort_touches ..)).frame⟩

variable (isOpen : s.getN K.CAL_STATE = 1)
include isOpen

theorem calDrop_row (q : Fin 4) :
    exec (.calDrop h q) s = .next { s.answered h opWrite 0x6800 0 .ok [] with cal := some { r with valid := clearBit r.valid q } } := by
  have words : ∀ q : Fin 4, calWordOk (5 + 2 ^ 24 * q.val) = true := by decide +kernel
  have runs := calCmd_accepted ready (by omega) (words q) on (calBusy_free _ (.inr isOpen))
    (calCommand_drop (by simpa using mode) (by simpa using run) (by simpa using isOpen) q)
  refine congrArg Host.Outcome.next (runs.trans ?_)
  unfold taken answered
  cases h.link <;> rfl

theorem calCommit_row (shut : s.getN (K.SESSION_STATE r.point) = 0) (slots : r.valid % 16 ≠ 0) (clean : r.tainted = false) :
    ∃ t, exec (.calCommit h) s = .next t ∧ Answered s t h opWrite 0x6800 0 .ok [] ∧ t.getN K.CAL_STATE = 3 ∧
      t.twins = s.twins ++ [.calCommit (s.twinChecks r).1 (s.twinChecks r).2] ∧
      { t with nums := s.nums, tab := s.tab, twins := s.twins, spi := s.spi, can := s.can } = s := by
  obtain ⟨state, twins, k⟩ := calCommit_waits (s := s.taken h opWrite 0x6800 0 (leBytes 4 6)) (by simpa using shut) slots clean
  have runs := calCmd_accepted ready (by omega) (by decide) on (calBusy_free _ (.inr isOpen))
    (calCommand_commit (by simpa using mode) (by simpa using run) (by simpa using isOpen))
  refine ⟨_, congrArg Host.Outcome.next runs, answered_links .., state, ?_, (Touches.answered (n := 1305670062081) k).frame⟩
  rw [withLinksOf_twins, twins, twinChecks_taken, taken_twins]

end Rows

end State

/-- Settles O36: a word is refused by its operation and the state of the run, and each accepted operation by what it does to the run. -/
theorem calibrationCommandsAct : Obligations.CalibrationCommandsAct := by
  intro s h ready
  refine ⟨fun no p q mask => State.calCmds_refused ready p q mask no, fun on mode => ⟨fun p q none idle kind =>
    State.calBegin_row ready on mode p q none idle kind, fun r mask run isOpen used => ⟨?_, ?_⟩, fun r run isOpen ac => ?_,
    fun r q run isOpen => State.calDrop_row ready on mode run isOpen q,
    fun r run isOpen shut slots clean => State.calCommit_row ready on mode run isOpen shut slots clean,
    fun r run going kept => State.calAbort_row ready on mode run going kept⟩⟩
  · have words : ∀ mask : Fin 128, State.calWordOk (2 + 2 ^ 16 * mask.val) = true := by decide +kernel
    obtain ⟨t, st, runs, ans, state, cal, op, chs, blocks, frame⟩ := State.calMeasure_row ready on (by omega) (words mask) isOpen
      (State.calCommand_zero (by simpa using mode) (by simpa using run) (by simpa using isOpen) mask) nofun fun _ => used
    exact ⟨t, st, congrArg Host.Outcome.next runs, ans, state, cal, op, chs (by decide), blocks, frame⟩
  · have words : ∀ mask : Fin 128, State.calWordOk (3 + 2 ^ 16 * mask.val) = true := by decide +kernel
    obtain ⟨t, st, runs, ans, state, cal, op, chs, blocks, frame⟩ := State.calMeasure_row ready on (by omega) (words mask) isOpen
      (State.calCommand_gain (by simpa using mode) (by simpa using run) (by simpa using isOpen) mask) nofun fun _ => used
    exact ⟨t, st, congrArg Host.Outcome.next runs, ans, state, cal, op, chs (by decide), blocks, frame⟩
  · obtain ⟨t, st, runs, ans, state, cal, op, _, blocks, frame⟩ := State.calMeasure_row ready on (by omega) (by decide) isOpen
      (State.calCommand_phase (by simpa using mode) (by simpa using run) (by simpa using isOpen)) (fun _ => ac) (absurd rfl)
    exact ⟨t, st, congrArg Host.Outcome.next runs, ans, state, cal, op, blocks, frame⟩

end Sys2Proof.Machine
end

section
/-! PROOFS. TI follows its temperature source (R155), and a measuring step of 20 blocks ends (R163, R166). -/

namespace Sys2Proof.Machine

open Sys2Proof

/-! ### Cleared bits (R12) -/

/-- T_FALLBACK, bit 2 of ACTIVE_STATUS, after a clearing of it or of T_STALE, bit 3 (Table 05.9). -/
theorem bit_two_clearBit (w : Nat) {i : Nat} (hi : i = 2 ∨ i = 3) : bit (clearBit w i) 2 = (bit w 2 && decide (2 ≠ i)) := by
  have place (v : Nat) : bit v 2 = decide (v / 4 % 2 = 1) := Nat.testBit_eq_decide_div_mod_eq
  have set : w.testBit i = decide (w / 2 ^ i % 2 = 1) := Nat.testBit_eq_decide_div_mod_eq
  rw [place, place, clearBit, set, Bool.eq_iff_iff]
  rcases hi with rfl | rfl <;> simp <;> split <;> omega

namespace State

/-! ### TI (R155) -/

/-- T_STALE or T_FALLBACK cleared: every entry but ACTIVE_STATUS stays. -/
theorem getN_setTFlag (s : State) (n : Nat) (p : Fin 8) (b k : Nat) (no : k ≠ K.ACTIVE_STATUS p) : (s.setTFlag n p b false).getN k = s.getN k := by
  rw [setTFlag, getN_setQ, if_neg no]

theorem tFallback_setTFlag (s : State) (n : Nat) (p : Fin 8) {b : Nat} (hb : b = 2 ∨ b = 3) :
    (s.setTFlag n p b false).tFallback p = (s.tFallback p && decide (2 ≠ b)) := by
  unfold tFallback setTFlag
  rw [getU, getN_setQ, if_pos rfl]
  exact bit_two_clearBit _ hb

theorem activeT_ne_status (p : Fin 8) : K.ACTIVE_T p ≠ K.ACTIVE_STATUS p := by unfold K.ACTIVE_T K.ACTIVE_STATUS; omega

/-- TI takes a value, and new coefficients are due where it changed (R157). -/
theorem setTi_takes (s : State) (n : Nat) (p : Fin 8) (t : Int) : (s.setTi n p t).getN (K.ACTIVE_T p) = t ∧
    (s.setTi n p t).tFallback p = s.tFallback p ∧
    (s.setTi n p t).plateUse[p] = ⟨s.plateUse[p].due || decide (t ≠ s.getN (K.ACTIVE_T p)), s.plateUse[p].lastValid⟩ := by
  unfold setTi
  by_cases same : s.getN (K.ACTIVE_T p) = t
  · rw [if_pos same]
    exact ⟨same, rfl, by simp [same]⟩
  · rw [if_neg same]
    refine ⟨(getN_setQ s n _ _ t).trans (if_pos rfl), ?_, ?_⟩
    · unfold tFallback
      exact congrArg (fun v : Int => bit v.toNat 2) ((getN_setQ s n _ _ t).trans (if_neg (activeT_ne_status p).symm))
    · simp [coefDue, Ne.symm same]

/-- A valid temperature at a boundary: its instant is kept, and T_STALE is clear. -/
def tempSeen (s : State) (p : Fin 8) (n : Nat) : State :=
  { s with plateUse := s.plateUse.set p { s.plateUse[p] with lastValid := n } }.setTFlag n p 3 false

theorem tempSeen_facts (s : State) (p : Fin 8) (n : Nat) : (s.tempSeen p n).getN (K.ACTIVE_T p) = s.getN (K.ACTIVE_T p) ∧
    (s.tempSeen p n).tFallback p = s.tFallback p ∧ (s.tempSeen p n).plateUse[p] = ⟨s.plateUse[p].due, n⟩ := by
  refine ⟨getN_setTFlag _ _ _ _ _ (activeT_ne_status p), ?_, ?_⟩
  · rw [tempSeen, tFallback_setTFlag _ _ _ (.inr rfl)]
    simp [tFallback, getU, getN]
  · simp [tempSeen, setTFlag]

theorem tempBoundary_valid {s : State} {p : Fin 8} {n : Nat} {T : Int} (src : s.getU (K.PLATE_TEMP_SRC p) < 32)
    (valid : s.validTemp (s.getU (K.PLATE_TEMP_SRC p)) n = some T) : s.tempBoundary p n =
      if s.tFallback p then ((s.tempSeen p n).setTFlag n p 2 false).setTi n p T else s.tempSeen p n := by
  unfold tempBoundary
  rw [if_neg (by omega)]
  simp only [valid]
  rw [← tempSeen, (tempSeen_facts s p n).2.1]

/-- A point without a temperature source takes none (R155). -/
theorem tiUpdate_none {s : State} {p : Fin 8} {n : Nat} (src : 32 ≤ s.getU (K.PLATE_TEMP_SRC p)) : s.tiUpdate p n = s := by
  unfold tiUpdate
  rw [if_pos (.inl src), tempBoundary, if_pos src]

theorem tiUpdate_valid {s : State} {p : Fin 8} {n : Nat} {T : Int} (src : s.getU (K.PLATE_TEMP_SRC p) < 32)
    (valid : s.validTemp (s.getU (K.PLATE_TEMP_SRC p)) n = some T) : s.tiUpdate p n =
      if s.tFallback p then ((s.tempSeen p n).setTFlag n p 2 false).setTi n p T
      else if s.getU (K.PLATE_T_HYST p) ≤ (T - s.getN (K.ACTIVE_T p)).natAbs then (s.tempSeen p n).setTi n p T else s.tempSeen p n := by
  unfold tiUpdate
  cases fallback : s.tFallback p
  · have hyst : K.PLATE_T_HYST p ≠ K.ACTIVE_STATUS p := by unfold K.PLATE_T_HYST K.ACTIVE_STATUS; omega
    have kept : (s.tempSeen p n).getU (K.PLATE_T_HYST p) = s.getU (K.PLATE_T_HYST p) :=
      congrArg Int.toNat (getN_setTFlag _ _ _ _ _ hyst)
    rw [if_neg (by simp; omega)]
    simp only [valid, tempBoundary_valid src valid, fallback, Bool.false_eq_true, if_false, kept, (tempSeen_facts s p n).1]
  · rw [if_pos (by simp), tempBoundary_valid src valid, fallback, if_pos rfl, if_pos rfl]

/-- TI takes a valid temperature by the hysteresis, and the first one after a fallback at once (R155, R157). -/
theorem tiUpdate_takes {s : State} {p : Fin 8} {n : Nat} {T : Int} (src : s.getU (K.PLATE_TEMP_SRC p) < 32)
    (valid : s.validTemp (s.getU (K.PLATE_TEMP_SRC p)) n = some T) :
    (s.tiUpdate p n).getN (K.ACTIVE_T p) =
      (if s.tFallback p = true ∨ s.getU (K.PLATE_T_HYST p) ≤ (T - s.getN (K.ACTIVE_T p)).natAbs then T else s.getN (K.ACTIVE_T p)) ∧
    (s.tiUpdate p n).tFallback p = false ∧
    (s.tiUpdate p n).plateUse[p] = ⟨s.plateUse[p].due || decide ((s.tiUpdate p n).getN (K.ACTIVE_T p) ≠ s.getN (K.ACTIVE_T p)), n⟩ := by
  obtain ⟨seenT, seenF, seenU⟩ := tempSeen_facts s p n
  rw [tiUpdate_valid src valid]
  cases fallback : s.tFallback p
  · by_cases far : s.getU (K.PLATE_T_HYST p) ≤ (T - s.getN (K.ACTIVE_T p)).natAbs
    · obtain ⟨t, f, u⟩ := setTi_takes (s.tempSeen p n) n p T
      simp [far, t, f, u, seenT, seenF, seenU, fallback]
    · simp [far, seenT, seenF, seenU, fallback]
  · obtain ⟨t, f, u⟩ := setTi_takes ((s.tempSeen p n).setTFlag n p 2 false) n p T
    have kept := getN_setTFlag (s.tempSeen p n) n p 2 _ (activeT_ne_status p)
    have plate : ((s.tempSeen p n).setTFlag n p 2 false).plateUse = (s.tempSeen p n).plateUse := by simp [setTFlag]
    simp [t, f, u, kept, plate, seenT, seenU, tFallback_setTFlag _ _ _ (.inl rfl)]

/-! ### The end of a step (R163, R166) -/

/-- A step or a commit that ends leaves the run open, with its reason, and without a step. -/
theorem calReason_ends (s : State) (reason chs : Nat) : (s.calReason reason chs).getN K.CAL_STATE = 1 ∧
    (s.calReason reason chs).getN K.CAL_REASON = (reason : Nat) ∧ (s.calReason reason chs).getN K.CAL_REASON_CH = (chs : Nat) ∧
    ∀ r, (s.calReason reason chs).cal = some r → r.step = none := by
  have puts (k : Nat) : (s.calReason reason chs).getN k =
      (((s.put K.CAL_REASON (reason : Nat)).put K.CAL_REASON_CH (chs : Nat)).put K.CAL_STATE 1).getN k := rfl
  refine ⟨by simp [puts], by simp +decide [puts], by simp +decide [puts], fun r run => ?_⟩
  · simp only [calReason, Option.map_eq_some_iff] at run
    obtain ⟨_, _, rfl⟩ := run
    rfl

/-- While no step has its 20 blocks, none ends. -/
theorem calStepEnd_early {s : State} (early : ∀ r st, s.cal = some r → r.step = some st → st.blocks.length < 20) : s.calStepEnd = s := by
  unfold calStepEnd
  split
  · split
    · exact if_pos (early _ _ ‹_› ‹_›)
    · rfl
  · rfl

/-- How a step may end: with a reason; PHASE on a substitute boundary with 4, else a missing temperature with 5 (Table 05.2). -/
def EndsStep (st : CalStep) (t : State) : Prop := ∃ u reason chs, t = calReason u reason chs ∧
  (st.op = 4 → (∃ b ∈ st.blocks, b.substitute = true) → reason = 4 ∧ chs = st.mask) ∧
  (st.op ≠ 4 → none ∈ st.temps → reason = 5 ∧ chs = st.mask)

/-- A check that fails ends the step; one that passes leaves it to the later ones. -/
theorem EndsStep.ite {st : CalStep} {c : Prop} [Decidable c] {t u : State} (fails : c → EndsStep st t) (passes : ¬ c → EndsStep st u) :
    EndsStep st (if c then t else u) := by
  split
  · exact fails ‹_›
  · exact passes ‹_›

/-- The checks of a step with its 20 blocks, in their order. -/
theorem calStepEnd_ends {s : State} {r : CalRun} {st : CalStep} (run : s.cal = some r) (step : r.step = some st) (full : 20 ≤ st.blocks.length) :
    EndsStep st s.calStepEnd := by
  unfold calStepEnd
  rw [run]
  dsimp -zeta only
  rw [step]
  refine .ite (fun short => absurd full (by omega)) fun _ => ?_
  refine .ite (fun sub => ⟨_, _, _, rfl, fun _ _ => ⟨rfl, rfl⟩, fun no => absurd sub.1 no⟩) fun sub => ?_
  have noSub : st.op = 4 → ¬ ∃ b ∈ st.blocks, b.substitute = true := fun op ⟨b, inside, bad⟩ => sub ⟨op, List.any_eq_true.2 ⟨b, inside, bad⟩⟩
  refine .ite (fun _ => ⟨_, _, _, rfl, fun op bad => absurd bad (noSub op), fun _ _ => ⟨rfl, rfl⟩⟩) fun warm => ?_
  have noGap : none ∉ st.temps := fun inside => warm (List.any_eq_true.2 ⟨none, inside, rfl⟩)
  have later (u : State) (reason chs : Nat) : EndsStep st (u.calReason reason chs) :=
    ⟨u, reason, chs, rfl, fun op bad => absurd bad (noSub op), fun _ bad => absurd bad noGap⟩
  exact .ite (fun _ => later ..) fun _ => .ite (fun _ => later ..) fun _ => .ite (fun _ => later ..) fun _ => .ite (fun _ => later ..) fun _ => later ..

end State

end Sys2Proof.Machine
end

section
/-! PROOFS. What the auxiliary bank leaves as it is while its couples work: the count of waits, the checks' worst deviations, the converters that are
up, and the settings of the couples (R182 to R203). -/

namespace Sys2Proof.Machine

open Sys2Proof
set_option Elab.async false

/-! ### What the work of a couple keeps -/

/-- MUX_WAIT and CHECK_WORST. -/
def bankKey (k : Nat) : Bool := decide (k / 256 = 0x7014) || decide (k / 256 = 0x7072)

/-- From `s` to `t` couples of the bank worked: MUX_WAIT stands, a self-check that was due is still due or stands in CHECK_WORST, which only grows,
and a converter that was up is up (R183, R185, R201). -/
structure Works (s t : State) : Prop where
  wait : t.getN K.MUX_WAIT = s.getN K.MUX_WAIT
  worst : ∀ a : Fin 8, s.getU (K.CHECK_WORST (a + 1)) ≤ t.getU (K.CHECK_WORST (a + 1))
  check : ∀ a : Fin 8, t.convs[a].check = s.convs[a].check ∨
    (t.convs[a].check = none ∧ ∀ d, s.convs[a].check = some d → min d 65535 ≤ t.getU (K.CHECK_WORST (a + 1)))
  up : ∀ a : Fin 8, s.convs[a].off = false ∧ s.convs[a].starting = false → t.convs[a].off = false ∧ t.convs[a].starting = false

namespace Works

variable {s t u : State}

theorem refl (s : State) : Works s s := ⟨rfl, fun _ => le_rfl, fun _ => .inl rfl, fun _ => id⟩

theorem trans (h : Works s t) (g : Works t u) : Works s u where
  wait := g.wait.trans h.wait
  worst a := (h.worst a).trans (g.worst a)
  up a := g.up a ∘ h.up a
  check a := by
    rcases g.check a with same | ⟨gone, seen⟩
    · rcases h.check a with still | ⟨gone, seen⟩
      · exact .inl (same.trans still)
      · exact .inr ⟨same.trans gone, fun d due => (seen d due).trans (g.worst a)⟩
    · rcases h.check a with still | ⟨_, before⟩
      · exact .inr ⟨gone, fun d due => seen d (still.trans due)⟩
      · exact .inr ⟨gone, fun d due => (before d due).trans (g.worst a)⟩

/-- A change that leaves the numbers of `bankKey` and the converters. -/
theorem keep (h : Works s t) (nums : ∀ k, bankKey k = true → u.getN k = t.getN k) (convs : u.convs = t.convs) : Works s u := by
  have worst (a : Fin 8) : u.getN (K.CHECK_WORST (a + 1)) = t.getN (K.CHECK_WORST (a + 1)) := nums _ (by clear * -; decide +revert)
  refine h.trans ⟨nums _ (by decide), fun a => ?_, fun a => .inl (by rw [convs]), fun a => by rw [convs]; exact id⟩
  rw [State.getU, State.getU, worst]

theorem other {m : Nat} (h : Works s t) (k : Touches m t u) (hn : Nat.land m 1 ≠ 1 := by decide)
    (hc : Nat.land m 70368744177664 ≠ 70368744177664 := by decide) : Works s u :=
  h.keep (fun _ _ => State.getN_congr (k.nums hn) _) (k.convs hc)

theorem setN {k : Nat} {v : Int} (h : Works s t) (no : bankKey k = false := by clear * -; decide +revert) : Works s (t.setN k v) :=
  h.keep (fun j b => State.getN_setN_other _ (fun e => by simp [e, no] at b) _) rfl

theorem put {k : Nat} {v : Int} (h : Works s t) (no : bankKey k = false := by clear * -; decide +revert) : Works s (t.put k v) := by
  refine h.keep (fun j b => ?_) (State.put_convs ..)
  have apart : j ≠ k := fun e => by simp [e, no] at b
  rw [State.getN_put, if_neg apart]

theorem addSat {w k d : Nat} (h : Works s t) (no : bankKey k = false := by clear * -; decide +revert) : Works s (t.addSat w k d) := h.put no

/-- A converter changes, but not in a check that is due, and stays up where it is. -/
theorem updConv {a : Fin 8} {f : Conv → Conv} (h : Works s t) (check : ∀ x, (f x).check = x.check := by exact fun _ => rfl)
    (up : ∀ x, x.off = false ∧ x.starting = false → (f x).off = false ∧ (f x).starting = false) : Works s (t.updConv a f) := by
  have at' (b : Fin 8) : (t.updConv a f).convs[b] = if b = a then f t.convs[b] else t.convs[b] := by
    by_cases e : b = a
    · subst e; simp [State.updConv]
    · simp [State.updConv, e, Fin.val_ne_of_ne (Ne.symm e)]
  refine h.trans ⟨rfl, fun _ => le_rfl, fun b => .inl ?_, fun b => ?_⟩
  · rw [at']
    split
    · exact check _
    · rfl
  · rw [at']
    split
    · exact up _
    · exact id

theorem auxRun {v : Option AuxRun} (h : Works s t) : Works s { t with auxRun := v } := h.keep (fun _ _ => rfl) rfl

theorem ite {c : Prop} [Decidable c] (ht : Works s t) (hu : Works s u) : Works s (if c then t else u) := by
  split <;> assumption

theorem forEach {α : Type} {l : List α} {f : α → State → State} (h : Works s t) (hf : ∀ a ∈ l, ∀ u, Works u (f a u)) :
    Works s (Machine.forEach l f t) :=
  forEach_ind (Works s) l f t h fun a ha u hu => hu.trans (hf a ha u)

end Works

namespace State

/-! ### Starts (R182 to R185, R197, R202) -/

theorem acquire_works (s : State) (a : Fin 8) (input : Nat) (wait : List (Fin 8)) : Works s (s.acquire a input wait) := by
  unfold acquire
  exact .updConv (.refl s) (fun _ => rfl) fun _ up => up

theorem startConvs_works (s : State) (st : List (Fin 8 × Nat)) (both : Bool) : Works s (s.startConvs st both) := by
  unfold startConvs
  refine .ite (.forEach (.refl s) fun e _ u => .updConv (.refl u) (fun x => ?_) fun x up => ?_) (.forEach (.refl s) fun _ _ _ => acquire_works ..)
  · split <;> rfl
  · rwa [if_neg (by simp [up.1])]

theorem injectStart_works (s : State) (l : Fin 3) : Works s (s.injectStart l) := by
  unfold injectStart
  exact .ite (.refl s) (.ite (startConvs_works ..) (.put (.other (startConvs_works ..) (updCouple_touches ..))))

theorem setCouple_works (s : State) (c : Fin 4) (logical st : Nat) (noSpare : Bool) : Works s (s.setCouple c logical st noSpare) :=
  .setN (.refl s)

theorem noSpareLeft_works (s : State) : Works s s.noSpareLeft :=
  .forEach (.refl s) fun _ _ u => .ite (setCouple_works ..) (.refl u)

theorem coupleHandover_works (s : State) (l : Fin 3) : Works s (s.coupleHandover l) := by
  have swapped (u : State) (c : Fin 4) : Works u ((u.setCouple c 3 3 false).setCouple 3 l 1 false) := (setCouple_works ..).trans (setCouple_works ..)
  unfold coupleHandover
  refine .ite (.other (m := 4294967296) (.auxRun <| .trans ?_ (noSpareLeft_works _)) (recordDevice_touches ..)) (.refl s)
  exact .other (.setN (swapped ..)) (health_touches ..)

theorem tableStart_works (s : State) (l : Fin 3) : Works s (s.tableStart l) := by
  have handed : Works s (if s.couples[l].startedA = 0 then s.coupleHandover l else s) := .ite (coupleHandover_works ..) (.refl s)
  unfold tableStart
  exact .ite (.refl s) (.ite (.refl s) (.ite (handed.trans (startConvs_works ..))
    (.other (handed.trans (startConvs_works ..)) (updCouple_touches ..))))

/-! ### Interruptions (R195, R199, R201) -/

theorem auxReason_works (s : State) (r : Nat) : Works s (s.auxReason r) := .auxRun <| .put <| .put <| .refl s

theorem runBurst_works (s : State) (r : AuxRun) (codes : List Int) : Works s (s.runBurst r codes) := by
  have up (a : Fin 8) (n : Nat) : Works s (s.updConv a fun x => { x with settle := n, off := false, starting := false }) :=
    .updConv (.refl s) (fun _ => rfl) fun _ _ => ⟨rfl, rfl⟩
  unfold runBurst
  split
  · exact .refl s
  · refine .ite (.auxRun (up ..)) (.ite ?_ ?_)
    · exact .trans (.put <| .put <| .put <| .auxRun (up ..)) (auxReason_works ..)
    · exact .trans (.put <| .auxRun <| .put <| .put <| .put <| .auxRun (up ..)) (auxReason_works ..)

theorem coupleWorn_works (s : State) (a : Fin 8) : Works s (s.coupleWorn a) := by
  unfold coupleWorn
  dsimp only
  split
  · exact .other (.trans (setCouple_works ..) (noSpareLeft_works _)) (health_touches ..)
  · exact .other (setCouple_works ..) (health_touches ..)
  · exact .refl s

theorem getU_raise (s : State) (k v j : Nat) : (s.raise k v).getU j = if j = k then max (s.getU k) v else s.getU j := by
  unfold raise
  by_cases e : j = k
  · subst e
    rw [if_pos rfl]
    split
    · rw [getU, getN_put, if_pos rfl]
      omega
    · omega
  · rw [if_neg e]
    split
    · rw [getU, getN_put, if_neg e]
      rfl
    · rfl

/-- A check that is due runs: its deviation stands in CHECK_WORST, and its converter is up (R201). -/
theorem checkConv_works (s : State) (a : Fin 8) : Works s (s.checkConv a) := by
  unfold checkConv
  split
  · exact .refl s
  · next d due =>
    have checked : Works s ((s.raise (K.CHECK_WORST (a + 1)) (min d 65535)).updConv a fun x => { x with
        settle := x.settle - 3, failed := decide (33 < d), check := none, off := false, starting := false }) := by
      have raised : (s.raise (K.CHECK_WORST (a + 1)) (min d 65535)).convs = s.convs := (raise_touches ..).convs (by decide)
      have wait : K.MUX_WAIT ≠ K.CHECK_WORST (a + 1) := by unfold K.MUX_WAIT K.CHECK_WORST; omega
      have getU' (u : State) (f : Conv → Conv) (k : Nat) : (u.updConv a f).getU k = u.getU k := rfl
      refine ⟨?_, fun b => ?_, fun b => ?_, fun b => ?_⟩
      · show (s.raise _ _).getN _ = _
        unfold raise
        split
        · rw [getN_put, if_neg wait]
        · rfl
      · rw [getU', getU_raise]
        split
        · next e => rw [e]; exact le_max_left ..
        · exact le_rfl
      · by_cases e : b = a
        · subst e
          refine .inr ⟨by simp [updConv], fun d' due' => ?_⟩
          rw [getU', getU_raise, if_pos rfl, Option.some.inj (due'.symm.trans due)]
          exact le_max_right ..
        · exact .inl (by simp [updConv, raised, Fin.val_ne_of_ne (Ne.symm e)])
      · by_cases e : b = a
        · subst e
          exact fun _ => by simp [updConv]
        · simp [updConv, raised, Fin.val_ne_of_ne (Ne.symm e)]
    exact .ite (.ite (.trans (.addSat checked) (coupleWorn_works ..)) (.addSat checked)) checked

theorem checkCouple_works (s : State) (c : Fin 4) : Works s (s.checkCouple c) := by
  unfold checkCouple
  exact .ite (.refl s) ((checkConv_works ..).trans (checkConv_works ..))

/-- A burst that is due runs on the run as it stands, the first of those that wait. -/
def dueBurst (codes : List Int) (s : State) : State :=
  match s.auxRun with
  | some r => s.runBurst { r with due := r.due.drop 1 } codes
  | none => s

theorem dueBurst_works (codes : List Int) (s : State) : Works s (dueBurst codes s) := by
  unfold dueBurst
  split
  · exact runBurst_works ..
  · exact .refl s

/-- The bursts that are due on a couple run where its lead converter is free. -/
def serveBursts (s : State) (l : Fin 3) : State :=
  match s.burstDue l with
  | some r => if s.convs[s.leadOf l].busy then s else forEach r.due dueBurst s
  | none => s

theorem serveCouple_eq (s : State) (l : Fin 3) : s.serveCouple l =
    if s.injecting l then s else if ((s.serveBursts l).burstDue l).isSome then s.serveBursts l
    else (s.serveBursts l).checkCouple ((s.serveBursts l).carrier l) := rfl

theorem serveBursts_works (s : State) (l : Fin 3) : Works s (s.serveBursts l) := by
  unfold serveBursts
  split
  · exact .ite (.refl s) (.forEach (.refl s) fun codes _ u => dueBurst_works codes u)
  · exact .refl s

theorem serveCouple_works (s : State) (l : Fin 3) : Works s (s.serveCouple l) := by
  rw [serveCouple_eq]
  exact .ite (.refl s) (.ite (serveBursts_works ..) ((serveBursts_works ..).trans (checkCouple_works ..)))

/-! ### The couple's order of starts (R195, R196) -/

theorem kick_works (s : State) (l : Fin 3) : Works s (s.kick l) := by
  unfold kick
  exact .ite ((serveCouple_works ..).trans (injectStart_works ..)) (.ite (serveCouple_works ..) ((serveCouple_works ..).trans (tableStart_works ..)))

theorem nextResult_works (s : State) (l : Fin 3) (fuel : Nat) (delayed : Bool) : Works s (s.nextResult l fuel delayed) := by
  induction fuel generalizing s delayed with
  | zero => exact .other (.refl s) (updCouple_touches ..)
  | succ f ih =>
    unfold nextResult
    exact .ite (.other (.refl s) (updCouple_touches ..)) (.ite (.trans (.other (.refl s) (updCouple_touches ..)) (ih ..))
      (.ite (.other (.refl s) (updCouple_touches ..)) (.trans (.other (.refl s) (updCouple_touches ..)) (kick_works ..))))

theorem sumConversion_works (s : State) (l : Fin 3) (lead : Bool) (put : AuxSum → AuxSum) (edge : Nat) :
    Works s (s.sumConversion l lead put edge) := by
  have upd {u : State} (h : Works s u) (f : Couple → Couple) : Works s (u.updCouple l f) := h.other (updCouple_touches ..)
  unfold sumConversion
  exact .ite (.ite (upd (upd (.refl s) _) _) (upd (.refl s) _)) (.ite (.ite (.ite (upd (upd (upd (.refl s) _) _) _)
    ((upd (upd (.refl s) _) _).trans (nextResult_works ..))) (upd (.refl s) _)) (.refl s))

end State

/-! ### The settings of the couples -/

/-- A couple but for its counts of the conversions started. -/
def Couple.apartStarts (x : Couple) : Couple := { x with startedA := 0, startedB := 0, injStarted := 0 }

/-- From `s` to `t` the couples started conversions: no setting, sum or place of a couple changed by it. -/
structure StartsOnly (s t : State) : Prop where
  same : ∀ m : Fin 3, t.couples[m].apartStarts = s.couples[m].apartStarts

namespace State

theorem couples_updCouple_same (s : State) (l : Fin 3) (f : Couple → Couple) : (s.updCouple l f).couples[l] = f s.couples[l] := by
  simp [updCouple]

theorem couples_updCouple_other (s : State) {l m : Fin 3} (h : m ≠ l) (f : Couple → Couple) : (s.updCouple l f).couples[m] = s.couples[m] := by
  simp [updCouple, Fin.val_ne_of_ne (Ne.symm h)]

end State

namespace StartsOnly

variable {s t u : State}

theorem refl (s : State) : StartsOnly s s := ⟨fun _ => rfl⟩

theorem trans (h : StartsOnly s t) (g : StartsOnly t u) : StartsOnly s u := ⟨fun m => (g.same m).trans (h.same m)⟩

/-- What does not touch the couples. -/
theorem other {n : Nat} (h : StartsOnly s t) (k : Touches n t u) (hc : Nat.land n 140737488355328 ≠ 140737488355328 := by decide) :
    StartsOnly s u := ⟨fun m => by rw [k.couples hc]; exact h.same m⟩

theorem updCouple {l : Fin 3} {f : Couple → Couple} (h : StartsOnly s t) (hf : ∀ x, (f x).apartStarts = x.apartStarts := by exact fun _ => rfl) :
    StartsOnly s (t.updCouple l f) := by
  refine h.trans ⟨fun m => ?_⟩
  by_cases e : m = l
  · rw [e, State.couples_updCouple_same, hf]
  · rw [State.couples_updCouple_other _ e]

theorem ite {c : Prop} [Decidable c] (ht : StartsOnly s t) (hu : StartsOnly s u) : StartsOnly s (if c then t else u) := by
  split <;> assumption

end StartsOnly

namespace State

theorem injectStart_startsOnly (s : State) (l : Fin 3) : StartsOnly s (s.injectStart l) := by
  have started : StartsOnly s (s.startConvs [(s.leadOf l, entInputA s.couples[l].injWord)] false) := .other (.refl s) (startConvs_touches ..)
  unfold injectStart
  exact .ite (.refl s) (.ite started (.other (.updCouple started) (put_touches ..)))

theorem tableStart_startsOnly (s : State) (l : Fin 3) : StartsOnly s (s.tableStart l) := by
  have handed : StartsOnly s (if s.couples[l].startedA = 0 then s.coupleHandover l else s) :=
    .ite (.other (.refl s) (coupleHandover_touches ..)) (.refl s)
  unfold tableStart
  exact .ite (.refl s) (.ite (.refl s) (.ite (.other handed (startConvs_touches ..)) (.updCouple (.other handed (startConvs_touches ..)))))

/-- What is due on a couple starts, and no more. -/
theorem kick_startsOnly (s : State) (l : Fin 3) : StartsOnly s (s.kick l) := by
  have served : StartsOnly s (s.serveCouple l) := .other (.refl s) (serveCouple_touches ..)
  unfold kick
  exact .ite (served.trans (injectStart_startsOnly ..)) (.ite served (served.trans (tableStart_startsOnly ..)))

/-- A result begins at the couple's place with its settings, and the pass stays what it is (R187). -/
theorem beginResult_begins (s : State) (l : Fin 3) : (s.beginResult l).couples[l].phase = .convert ∧
    (s.beginResult l).couples[l].word = s.getU (K.ENTRY l (s.couples[l].entry + 1)) ∧
    (s.beginResult l).couples[l].last = s.couples[l].last ∧ (s.beginResult l).couples[l].late = s.couples[l].late := by
  have kept := (kick_startsOnly (s.updCouple l fun x => { x with
    phase := .convert, word := s.getU (K.ENTRY l (s.couples[l].entry + 1)), a := AuxSum.zero, b := AuxSum.zero, startedA := 0, startedB := 0 }) l).same l
  rw [couples_updCouple_same] at kept
  have phase := congrArg Couple.phase kept
  have word := congrArg Couple.word kept
  have last := congrArg Couple.last kept
  have late := congrArg Couple.late kept
  exact ⟨phase, word, last, late⟩

/-- A pass goes on with its LAST, and a grid point that it missed stays counted (R187, R188). -/
theorem pass_nextResult (s : State) (l : Fin 3) (fuel : Nat) (delayed : Bool) :
    (s.nextResult l fuel delayed).couples[l].last = s.couples[l].last ∧ (s.nextResult l fuel delayed).couples[l].late = s.couples[l].late := by
  have upd (s : State) {f : Couple → Couple} (hf : ∀ x, (f x).last = x.last ∧ (f x).late = x.late) :
      (s.updCouple l f).couples[l].last = s.couples[l].last ∧ (s.updCouple l f).couples[l].late = s.couples[l].late := by
    rw [couples_updCouple_same]
    exact hf _
  induction fuel generalizing s delayed with
  | zero => exact upd s fun _ => ⟨rfl, rfl⟩
  | succ f ih =>
    unfold nextResult
    dsimp only
    split
    · exact upd s fun _ => ⟨rfl, rfl⟩
    split
    · obtain ⟨last, late⟩ := upd s (f := fun x => { x with entry := x.entry + 1, k := 0 }) fun _ => ⟨rfl, rfl⟩
      obtain ⟨last', late'⟩ := ih (s.updCouple l fun x => { x with entry := x.entry + 1, k := 0 }) false
      exact ⟨last'.trans last, late'.trans late⟩
    split
    · exact upd s fun _ => ⟨rfl, rfl⟩
    · obtain ⟨-, -, last, late⟩ := beginResult_begins s l
      exact ⟨last, late⟩

end State

end Sys2Proof.Machine
end

section
/-! PROOFS. The occurrences of the auxiliary bank: passes and delays, results, converters, self-checks and bursts (R183 to R201). -/

namespace Sys2Proof.Machine

open Sys2Proof
set_option Elab.async false

namespace State

/-! ### Passes (R187, R188) -/

section Passes

variable {s : State} {l : Fin 3}

/-- A pass runs to the LAST of its couple's configuration, and no grid point is missed yet (R188). -/
theorem passStart_pass (s : State) (l : Fin 3) : (s.passStart l).couples[l].last = field (s.getU (K.COUPLE_CFG (l + 1))) 7 4 ∧
    (s.passStart l).couples[l].late = false := by
  obtain ⟨last, late⟩ := pass_nextResult (s.updCouple l fun x => { x with
    entry := 0, k := 0, last := field (s.getU (K.COUPLE_CFG (l + 1))) 7 4, spin := false, late := false }) l 20 false
  rw [couples_updCouple_same] at last late
  have ended (u : State) : (u.updCouple l fun x => { x with phase := .idle, spin := decide (u.runOf l = 1), shot := false }).couples[l] =
      { u.couples[l] with phase := .idle, spin := decide (u.runOf l = 1), shot := false } := couples_updCouple_same ..
  unfold passStart
  dsimp only
  split
  · split
    · simp only [put_couples, ended]
      exact ⟨last, late⟩
    · rw [ended]
      exact ⟨last, late⟩
  · exact ⟨last, late⟩

theorem auxPassStart_rest (no : s.runOf l ≠ 2 ∨ s.auxRuns = false) : s.auxPassStart l = s := if_pos no

theorem auxPassStart_on (run : s.runOf l = 2) (on : s.auxRuns = true) : s.auxPassStart l =
    if s.couples[l].phase = .idle then s.passStart l
    else if s.couples[l].late then s
    else (s.updCouple l fun x => { x with late := true }).addSat 32 (K.OVERRUN (l + 1)) 1 := if_neg (by simp [run, on])

theorem auxDelayEnd_rest (no : s.couples[l].phase ≠ .delay) : s.auxDelayEnd l = s := if_neg no

theorem auxDelayEnd_off (delay : s.couples[l].phase = .delay) (off : s.runOf l = 0) :
    s.auxDelayEnd l = { s with couples := s.couples.set l { s.couples[l] with phase := .idle } } := (if_pos delay).trans (if_pos off)

/-- A result that is neither skipped nor past LAST begins after its wait (R187). -/
theorem nextResult_begins {f : Nat} (inside : s.couples[l].entry ≤ s.couples[l].last) (on : s.auxRuns = true)
    (again : s.couples[l].k ≤ entRepeat (s.getU (K.ENTRY l (s.couples[l].entry + 1))))
    (unmasked : s.entryOpen (s.getU (K.ENTRY l (s.couples[l].entry + 1))) = true) : s.nextResult l (f + 1) true = s.beginResult l := by
  unfold nextResult
  rw [if_neg (not_or.2 ⟨not_lt.2 inside, by simp [on]⟩), if_neg (not_or.2 ⟨not_lt.2 again, by rw [unmasked]; decide⟩), if_neg (by simp)]

theorem auxDelayEnd_begins (delay : s.couples[l].phase = .delay) (run : s.runOf l ≠ 0) (inside : s.couples[l].entry ≤ s.couples[l].last)
    (on : s.auxRuns = true) (again : s.couples[l].k ≤ entRepeat (s.getU (K.ENTRY l (s.couples[l].entry + 1))))
    (unmasked : s.entryOpen (s.getU (K.ENTRY l (s.couples[l].entry + 1))) = true) : s.auxDelayEnd l = s.beginResult l := by
  have converts := (beginResult_begins s l).1
  unfold auxDelayEnd
  rw [if_pos delay, if_neg run, nextResult_begins inside on again unmasked]
  exact if_neg fun tail => by
    rw [converts] at tail
    exact absurd tail.1 (by decide)

end Passes

/-! ### Results (R193, R197, R310) -/

section Results

variable {s : State} {l : Fin 3}

theorem clearBand_rest (no : s.disp.clear ≠ .wantBand) : s.clearBand = s := if_neg no

/-- The input entries are those of the input alone. -/
theorem getN_writeInput (s : State) (at' : Nat) {input k : Nat} (x : AuxSum) (avg shift : Nat) (degraded : Bool) (low : input < 32)
    (other : 0x7007 * 256 ≤ k) : (s.writeInput at' input x avg shift degraded).getN k = s.getN k := by
  have latest : k ≠ K.INPUT_LATEST (input + 1) := by unfold K.INPUT_LATEST; omega
  have index : k ≠ K.INPUT_INDEX (input + 1) := by unfold K.INPUT_INDEX; omega
  have value : k ≠ K.INPUT_VALUE (input + 1) := by unfold K.INPUT_VALUE; omega
  have temp : k ≠ K.INPUT_TEMP (input + 1) := by unfold K.INPUT_TEMP; omega
  have seen (u : State) (v : Vector Nat 32) : State.getN { u with inputAt := v } k = u.getN k := rfl
  unfold writeInput
  dsimp only
  rw [getN_setQ, if_neg temp, getN_setQ, if_neg value]
  rw [dif_pos low, seen, getN_setQ, if_neg index, getN_setQ, if_neg latest]

theorem entInputA_lt (w : Nat) : entInputA w < 32 := Nat.mod_lt _ (by decide)
theorem entInputB_lt (w : Nat) : entInputB w < 32 := Nat.mod_lt _ (by decide)

/-- The entries of a finished result: its words, its index and those of its inputs (R193). -/
def resultEntries (s : State) (l : Fin 3) (d : AuxDue) : State :=
  let avg := entAvg d.word
  let sh := entShift d.word
  let deg := s.degraded l
  let ka := K.RESULT_A l (d.entry + 1)
  let s := s.setQ (firstAfter d.idx) ka (s.resultWord ka (entInputA d.word) d.a avg sh deg : Nat)
  let s := if entKind d.word = 1 then
      let kb := K.RESULT_B l (d.entry + 1)
      s.setQ (firstAfter d.idx) kb (s.resultWord kb (entInputB d.word) d.b avg sh deg : Nat)
    else s
  let s := s.setQ (firstAfter d.idx) (K.RES_INDEX l (d.entry + 1)) (d.idx / 500 : Nat)
  let s := s.writeInput d.idx (entInputA d.word) d.a avg sh deg
  if entKind d.word = 1 then s.writeInput d.idx (entInputB d.word) d.b avg sh deg else s

theorem resultEntries_touches (s : State) (l : Fin 3) (d : AuxDue) : Touches 282574488338433 s (s.resultEntries l d) := by
  have set (u : State) (n k : Nat) (v : Int) : Touches 282574488338433 u (u.setQ n k v) := (setQ_touches ..).mono rfl
  unfold resultEntries
  exact .iteR (.trans (.trans (.iteR (set ..) (set ..)) (set ..)) (writeInput_touches ..)) (writeInput_touches ..)

theorem getN_resultEntries (s : State) (l : Fin 3) (d : AuxDue) :
    (s.resultEntries l d).getN (K.RES_INDEX l (d.entry + 1)) = (d.idx / 500 : Nat) := by
  have high : 0x7007 * 256 ≤ K.RES_INDEX l (d.entry + 1) := by unfold K.RES_INDEX; omega
  have inputA (u : State) (avg sh : Nat) (deg : Bool) := getN_writeInput u d.idx d.a avg sh deg (entInputA_lt d.word) high
  have inputB (u : State) (avg sh : Nat) (deg : Bool) := getN_writeInput u d.idx d.b avg sh deg (entInputB_lt d.word) high
  unfold resultEntries
  dsimp only
  split
  · rw [inputB, inputA, getN_setQ, if_pos rfl]
  · rw [inputA, getN_setQ, if_pos rfl]

/-- The oldest finished result of a couple whose pass goes on is written, and waits no more (R193). -/
theorem writeResult_due {d : AuxDue} {r : List AuxDue} (due : s.couples[l].due = d :: r) (going : s.couples[l].phase ≠ .tail) :
    s.writeResult l = (s.resultEntries l d).updCouple l fun x => { x with due := r } := by
  have couples : (s.resultEntries l d).couples = s.couples := (resultEntries_touches ..).couples (by decide)
  have open' : ¬ (r = [] ∧ ((s.resultEntries l d).updCouple l fun x => { x with due := r }).couples[l].phase = .tail) := by
    rintro ⟨-, tail⟩
    rw [couples_updCouple_same] at tail
    simp only [couples] at tail
    exact going tail
  unfold writeResult
  rw [due]
  exact if_neg open'

theorem writeResult_none (none : s.couples[l].due = []) : s.writeResult l = s := by
  unfold writeResult
  rw [none]

/-- With no result of the couple finished and no band to write, AUX_RESULT_WRITE writes nothing. -/
theorem auxWritten_rest (none : s.couples[l].due = []) (band : s.disp.clear ≠ .wantBand) : s.auxWritten l false = s :=
  (congrArg clearBand (writeResult_none none)).trans (clearBand_rest band)

theorem auxWritten_noInjection (none : s.couples[l].injDue = false) (band : s.disp.clear ≠ .wantBand) : s.auxWritten l true = s :=
  (congrArg clearBand (show s.writeInjection l = s from if_pos none)).trans (clearBand_rest band)

theorem updCouple_couples {u : State} (same : u.couples = s.couples) (f : Couple → Couple) :
    (u.updCouple l f).couples = s.couples.set l (f s.couples[l]) := by
  show u.couples.set l (f u.couples[l]) = _
  simp only [same]

/-- AUX_RESULT_WRITE of the table (R193). -/
theorem auxWritten_result {d : AuxDue} {r : List AuxDue} (due : s.couples[l].due = d :: r) (going : s.couples[l].phase ≠ .tail) :
    (s.auxWritten l false).getN (K.RES_INDEX l (d.entry + 1)) = (d.idx / 500 : Nat) ∧
    (s.auxWritten l false).couples = s.couples.set l { s.couples[l] with due := r } ∧ Touches 288653688128405505 s (s.auxWritten l false) := by
  have run : s.auxWritten l false = ((s.resultEntries l d).updCouple l fun x => { x with due := r }).clearBand :=
    congrArg clearBand (writeResult_due due going)
  have band := clearBand_touches ((s.resultEntries l d).updCouple l fun x => { x with due := r })
  rw [run]
  refine ⟨?_, ?_, ?_⟩
  · rw [getN_congr (band.nums (by decide))]
    exact getN_resultEntries s l d
  · rw [band.couples (by decide)]
    exact updCouple_couples ((resultEntries_touches ..).couples (by decide)) _
  · exact (((resultEntries_touches ..).mono rfl).trans ((updCouple_touches ..).mono rfl)).trans (band.mono rfl)

/-- The entries of a finished injection (R193, R197). -/
def injectionEntries (s : State) (l : Fin 3) : State :=
  let x := s.couples[l]
  let avg := entAvg x.injWord
  let sh := entShift x.injWord
  let deg := s.degraded l
  let k := K.INJ_RESULT (l + 1)
  let n := firstAfter x.injIdx
  let s := s.setQ n k (s.resultWord k (entInputA x.injWord) x.inj avg sh deg : Nat)
  let s := (s.setQ n (K.INJ_INDEX (l + 1)) (x.injIdx / 500 : Nat)).setQ n (K.INJ_STATE (l + 1)) 3
  s.writeInput x.injIdx (entInputA x.injWord) x.inj avg sh deg

theorem injectionEntries_touches (s : State) (l : Fin 3) : Touches 282574488338433 s (s.injectionEntries l) := by
  have set (u : State) (n k : Nat) (v : Int) : Touches 282574488338433 u (u.setQ n k v) := (setQ_touches ..).mono rfl
  exact (((set ..).trans (set ..)).trans (set ..)).trans (writeInput_touches ..)

theorem getN_injectionEntries (s : State) (l : Fin 3) : (s.injectionEntries l).getN (K.INJ_STATE (l + 1)) = 3 ∧
    (s.injectionEntries l).getN (K.INJ_INDEX (l + 1)) = (s.couples[l].injIdx / 500 : Nat) := by
  have state : 0x7007 * 256 ≤ K.INJ_STATE (l + 1) := by unfold K.INJ_STATE; omega
  have index : 0x7007 * 256 ≤ K.INJ_INDEX (l + 1) := by unfold K.INJ_INDEX; omega
  have apart : K.INJ_INDEX (l + 1) ≠ K.INJ_STATE (l + 1) := by unfold K.INJ_INDEX K.INJ_STATE; omega
  have input {k : Nat} (high : 0x7007 * 256 ≤ k) (u : State) (avg sh : Nat) (deg : Bool) :=
    getN_writeInput u s.couples[l].injIdx s.couples[l].inj avg sh deg (entInputA_lt s.couples[l].injWord) high
  unfold injectionEntries
  dsimp only
  rw [input state, input index, getN_setQ, if_pos rfl, getN_setQ, if_neg apart, getN_setQ, if_pos rfl]
  exact ⟨rfl, rfl⟩

/-- AUX_RESULT_WRITE of an injection (R193, R197). -/
theorem auxWritten_injection (due : s.couples[l].injDue = true) : (s.auxWritten l true).getN (K.INJ_STATE (l + 1)) = 3 ∧
    (s.auxWritten l true).getN (K.INJ_INDEX (l + 1)) = (s.couples[l].injIdx / 500 : Nat) ∧
    (s.auxWritten l true).couples = s.couples.set l { s.couples[l] with injDue := false } ∧ Touches 288653688128405505 s (s.auxWritten l true) := by
  have written : s.writeInjection l = (s.injectionEntries l).updCouple l fun x => { x with injDue := false } := if_neg (by simpa using due)
  have run : s.auxWritten l true = ((s.injectionEntries l).updCouple l fun x => { x with injDue := false }).clearBand := congrArg clearBand written
  have band := clearBand_touches ((s.injectionEntries l).updCouple l fun x => { x with injDue := false })
  obtain ⟨state, index⟩ := getN_injectionEntries s l
  rw [run, getN_congr (band.nums (by decide)), getN_congr (band.nums (by decide)), band.couples (by decide)]
  exact ⟨state, index, updCouple_couples ((injectionEntries_touches ..).couples (by decide)) _,
    (((injectionEntries_touches ..).mono rfl).trans ((updCouple_touches ..).mono rfl)).trans (band.mono rfl)⟩

end Results

/-! ### Converters (R183, R185, R190) -/

section Converters

variable {s : State} {a : Fin 8}

theorem convs_updConv_same (s : State) (a : Fin 8) (f : Conv → Conv) : (s.updConv a f).convs[a] = f s.convs[a] := by simp [updConv]

theorem convs_updConv_other (s : State) {a b : Fin 8} (h : b ≠ a) (f : Conv → Conv) : (s.updConv a f).convs[b] = s.convs[b] := by
  simp [updConv, Fin.val_ne_of_ne (Ne.symm h)]

theorem startupDone_rest (no : s.convs[a].starting = false) : s.startupDone a = s := if_neg (by simpa using no)

/-- A converter that started up is up, whatever its couple starts then (R185). -/
theorem startupDone_up (starting : s.convs[a].starting = true) :
    (s.startupDone a).convs[a].starting = false ∧ (s.startupDone a).convs[a].off = false := by
  have up : (s.updConv a fun x => { x with starting := false, off := false }).convs[a].off = false ∧
      (s.updConv a fun x => { x with starting := false, off := false }).convs[a].starting = false := by
    rw [convs_updConv_same]
    exact ⟨rfl, rfl⟩
  unfold startupDone
  rw [if_pos starting]
  dsimp only
  split
  · exact ((kick_works ..).up a up).symm
  · exact up.symm

theorem convPowerDown_rest (no : s.convs[a].busy = true ∨ s.convs[a].starting = true) : s.convPowerDown a = s := if_pos no

theorem convPowerDown_off (free : s.convs[a].busy = false) (up : s.convs[a].starting = false) :
    s.convPowerDown a = { s with convs := s.convs.set a { s.convs[a] with off := true } } :=
  if_neg (not_or.2 ⟨by rw [free]; decide, by rw [up]; decide⟩)

/-- No acquisition waits behind the converter's any more. -/
def unblock (a : Fin 8) (s : State) : State := forEach allConvs (fun b s => s.updConv b fun x => { x with behind := x.behind.filter fun c => c ≠ a }) s

theorem getN_unblock (a : Fin 8) (s : State) (k : Nat) : (unblock a s).getN k = s.getN k :=
  forEach_field (fun u => u.getN k) _ _ s fun _ _ _ => rfl

theorem unblock_couples (a : Fin 8) (s : State) : (unblock a s).couples = s.couples :=
  forEach_field (fun u => u.couples) _ _ s fun _ _ _ => rfl

/-- The waits that a conversion caused are counted, and nothing is behind it (R183). -/
def waited (s : State) (a : Fin 8) (waits : Nat) : State :=
  unblock a (s.addSat 32 K.MUX_WAIT (min waits (allConvs.filter fun b => s.convs[b].behind.contains a).length))

/-- The converter is free after its conversion, and SETTLE goes on (R191). -/
def freed (s : State) (a : Fin 8) (code : Int) (waits : Nat) : State :=
  (s.waited a waits).updConv a fun x => { x with
    busy := false
    settle := if decide (code < (s.waited a waits).codeLow s.convs[a].input) || decide ((s.waited a waits).codeHigh s.convs[a].input < code) then 2
      else x.settle - 1 }

theorem getN_waited (s : State) (a : Fin 8) (waits k : Nat) : (s.waited a waits).getN k =
    if k = K.MUX_WAIT then ((satAdd 32 (s.getU K.MUX_WAIT) (min waits (allConvs.filter fun b => s.convs[b].behind.contains a).length) : Nat) : Int)
    else s.getN k := by
  rw [waited, getN_unblock, getN_addSat]

theorem getU_waited {s : State} {a : Fin 8} {waits k : Nat} (other : k ≠ K.MUX_WAIT) : (s.waited a waits).getU k = s.getU k := by
  rw [getU, getN_waited, if_neg other, getU]

theorem waited_couples (s : State) (a : Fin 8) (waits : Nat) : (s.waited a waits).couples = s.couples := by
  rw [waited, unblock_couples]
  exact (addSat_touches ..).couples (by decide)

theorem getN_freed (s : State) (a : Fin 8) (code : Int) (waits k : Nat) : (s.freed a code waits).getN k = (s.waited a waits).getN k :=
  getN_congr ((updConv_touches ..).nums (by decide)) k

theorem getU_freed {s : State} {a : Fin 8} {code : Int} {waits k : Nat} (other : k ≠ K.MUX_WAIT) : (s.freed a code waits).getU k = s.getU k := by
  rw [getU, getN_freed]
  exact getU_waited other

/-- The couples' carriers and leads do not depend on MUX_WAIT. -/
theorem carrier_freed (s : State) (a : Fin 8) (code : Int) (waits : Nat) (l : Fin 3) : (s.freed a code waits).carrier l = s.carrier l := by
  have state (c : Fin 4) : (s.freed a code waits).coupleLogical c = s.coupleLogical c := by
    rw [coupleLogical, getU_freed (by unfold K.COUPLE_STATE K.MUX_WAIT; omega), coupleLogical]
  unfold carrier
  simp only [state]

theorem leadOf_freed (s : State) (a : Fin 8) (code : Int) (waits : Nat) (l : Fin 3) : (s.freed a code waits).leadOf l = s.leadOf l := by
  unfold leadOf
  simp only [carrier_freed]

/-- Nor do the ranges of the inputs. -/
theorem isDiff_waited (s : State) (a : Fin 8) (waits n : Nat) : (s.waited a waits).isDiff n = s.isDiff n := by
  unfold isDiff
  by_cases even : n % 2 = 0
  · rw [getU_waited (by unfold K.INPUT_CFG K.MUX_WAIT; omega)]
  · simp [even]

theorem codeLow_waited (s : State) (a : Fin 8) (waits n : Nat) : (s.waited a waits).codeLow n = s.codeLow n := by
  rw [codeLow, isDiff_waited, codeLow]

theorem codeHigh_waited (s : State) (a : Fin 8) (waits n : Nat) : (s.waited a waits).codeHigh n = s.codeHigh n := by
  rw [codeHigh, isDiff_waited, codeHigh]

theorem conversionEnd_rest {code : Int} {edge waits : Nat} (no : s.convs[a].busy = false ∨ s.convs[a].behind ≠ []) :
    s.conversionEnd a code edge waits = s := if_pos no

/-- The sum of the table's result, or of the injection, takes the code of the couple's conversion, and what is due on the couple starts (R186, R190). -/
def converted (s : State) (a : Fin 8) (code : Int) (edge waits : Nat) (l : Fin 3) : State :=
  ((s.freed a code waits).sumConversion l (decide (a = (s.freed a code waits).leadOf l)) (fun x => x.add code
    ((s.waited a waits).codeLow s.convs[a].input) ((s.waited a waits).codeHigh s.convs[a].input) s.convs[a].gain s.convs[a].zero
    (decide (0 < s.convs[a].settle))) edge).kick l

section Ends

variable {code : Int} {edge waits : Nat} (busy : s.convs[a].busy = true) (first : s.convs[a].behind = [])
include busy first

theorem conversionEnd_elim : s.conversionEnd a code edge waits =
    (allCouples.find? fun l => ((s.freed a code waits).carrier l).val = a.val / 2).elim (s.freed a code waits) (s.converted a code edge waits) := by
  have runs : ¬ (s.convs[a].busy = false ∨ s.convs[a].behind ≠ []) := not_or.2 ⟨by rw [busy]; decide, not_not.2 first⟩
  refine (if_neg runs).trans ?_
  show (match allCouples.find? fun l => ((s.freed a code waits).carrier l).val = a.val / 2 with
    | none => s.freed a code waits
    | some l => s.converted a code edge waits l) = _
  cases allCouples.find? fun l => ((s.freed a code waits).carrier l).val = a.val / 2 <;> rfl

/-- The work that follows a conversion leaves the wait counted for it. -/
theorem conversionEnd_works : Works (s.freed a code waits) (s.conversionEnd a code edge waits) := by
  rw [conversionEnd_elim busy first]
  cases allCouples.find? fun l => ((s.freed a code waits).carrier l).val = a.val / 2 with
  | none => exact .refl _
  | some l => exact (sumConversion_works ..).trans (kick_works ..)

theorem conversionEnd_wait : (s.conversionEnd a code edge waits).getN K.MUX_WAIT =
    (satAdd 32 (s.getU K.MUX_WAIT) (min waits (allConvs.filter fun b => s.convs[b].behind.contains a).length) : Nat) :=
  (conversionEnd_works busy first).wait.trans (((getN_freed ..).trans (getN_waited s a waits K.MUX_WAIT)).trans (if_pos rfl))

/-- A converter of no table is free after its conversion, and a code out of range makes the next two settle (R186, R191). -/
theorem conversionEnd_none (none : ∀ l : Fin 3, (s.carrier l).val ≠ a.val / 2) : s.conversionEnd a code edge waits = s.freed a code waits := by
  have no : (allCouples.find? fun l => ((s.freed a code waits).carrier l).val = a.val / 2) = Option.none :=
    List.find?_eq_none.2 fun l _ found => none l (by simpa only [carrier_freed, decide_eq_true_eq] using found)
  rw [conversionEnd_elim busy first, no, Option.elim_none]

/-- A converter of one table hands its code to that table's couple. -/
theorem conversionEnd_lead {l : Fin 3} (lead : a = s.leadOf l) (one : ∀ m : Fin 3, s.carrier m = s.carrier l → m = l) :
    s.conversionEnd a code edge waits = s.converted a code edge waits l := by
  have half : a.val / 2 = (s.carrier l).val := by rw [lead]; show 2 * _ / 2 = _; omega
  rw [conversionEnd_elim busy first]
  cases found : allCouples.find? fun l => ((s.freed a code waits).carrier l).val = a.val / 2 with
  | none =>
    have no := List.find?_eq_none.1 found l (by clear * -; decide +revert)
    simp only [carrier_freed, decide_eq_true_eq] at no
    exact absurd half.symm no
  | some m =>
    have carries := List.find?_some found
    simp only [carrier_freed, decide_eq_true_eq] at carries
    rw [one m (Fin.ext (carries.trans half)), Option.elim_some]

end Ends

theorem freed_convs (s : State) (a : Fin 8) (code : Int) (waits : Nat) : (s.freed a code waits).convs[a].busy = false ∧
    (code < s.codeLow s.convs[a].input ∨ s.codeHigh s.convs[a].input < code → (s.freed a code waits).convs[a].settle = 2) := by
  rw [freed, convs_updConv_same, codeLow_waited, codeHigh_waited]
  exact ⟨rfl, fun beyond => if_pos (by simpa using beyond)⟩

/-- A conversion of the table's lead joins the sum, while no injection runs and the sum is not full (R190). -/
theorem sumConversion_table {l : Fin 3} {put : AuxSum → AuxSum} {edge : Nat} (idle : s.getN (K.INJ_STATE (l + 1)) ≠ 2)
    (table : s.couples[l].phase = .convert) (goes : (put s.couples[l].a).n ≠ 2 ^ entAvg s.couples[l].word) :
    s.sumConversion l true put edge = s.updCouple l fun x => { x with a := put x.a, idx := edge } := by
  have injection : ¬ (true && decide (s.getN (K.INJ_STATE (l + 1)) = 2) && decide (s.couples[l].inj.n < s.couples[l].injStarted)) = true := by
    rw [decide_eq_false idle]
    simp
  have summed : (s.updCouple l fun x => if decide (entKind s.couples[l].word = 1) && !true then { x with b := put x.b, idx := edge }
      else { x with a := put x.a, idx := edge }) = s.updCouple l fun x => { x with a := put x.a, idx := edge } := by
    simp only [Bool.not_true, Bool.and_false, Bool.false_eq_true, if_false]
  unfold sumConversion
  dsimp only
  rw [if_neg injection, if_pos table, summed, couples_updCouple_same]
  exact if_neg fun full => goes full.1

/-- The sum of the result takes the code, clamped and corrected as its converter was (R190, R191). -/
theorem converted_sum {code : Int} {edge waits : Nat} {l : Fin 3} (lead : a = s.leadOf l) (idle : s.getN (K.INJ_STATE (l + 1)) ≠ 2)
    (table : s.couples[l].phase = .convert) (goes : s.couples[l].a.n + 1 ≠ 2 ^ entAvg s.couples[l].word) :
    (s.converted a code edge waits l).couples[l].a = s.couples[l].a.add code (s.codeLow s.convs[a].input) (s.codeHigh s.convs[a].input)
      s.convs[a].gain s.convs[a].zero (decide (0 < s.convs[a].settle)) := by
  have leads : decide (a = (s.freed a code waits).leadOf l) = true :=
    decide_eq_true (lead.trans (leadOf_freed s a code waits l).symm)
  have couple : (s.freed a code waits).couples[l] = s.couples[l] := by
    have kept : (s.freed a code waits).couples = s.couples := ((updConv_touches ..).couples (by decide)).trans (waited_couples s a waits)
    simp only [kept]
  have inj : (s.freed a code waits).getN (K.INJ_STATE (l + 1)) = s.getN (K.INJ_STATE (l + 1)) :=
    ((getN_freed ..).trans (getN_waited s a waits _)).trans (if_neg (by unfold K.INJ_STATE K.MUX_WAIT; omega))
  rw [converted, leads, sumConversion_table (by rw [inj]; exact idle) (by rw [couple]; exact table) (by rw [couple]; exact goes)]
  refine (congrArg Couple.a ((kick_startsOnly _ l).same l)).trans ?_
  rw [couples_updCouple_same, couple, codeLow_waited, codeHigh_waited]
  rfl

end Converters

end State

end Sys2Proof.Machine
end

section
/-! PROOFS. Self-checks and calibration bursts (R199, R201), and the temperature, calibration and auxiliary occurrences together. -/

namespace Sys2Proof.Machine

open Sys2Proof
set_option Elab.async false

namespace State

/-! ### Self-checks (R201) -/

/-- Every converter's check is due, with the deviation that it will show. -/
def checksDue (s : State) (dev : List Nat) : State :=
  forEach allConvs (fun a s => s.updConv a fun x => { x with check := some (dev.getD a 0) }) s

theorem checksDue_check (s : State) (dev : List Nat) (a : Fin 8) : (s.checksDue dev).convs[a].check = some (dev.getD a 0) := by
  refine forEach_reach (fun u => u.convs[a].check = some (dev.getD a 0)) (a := a) (by clear * -; decide +revert) (fun u => ?_) (fun b _ u due => ?_) s
  · rw [convs_updConv_same]
  · by_cases e : a = b
    · rw [← e, convs_updConv_same]
    · rwa [convs_updConv_other _ e]

theorem selfCheck_rest {s : State} {dev : List Nat} (off : s.auxRuns = false) : s.selfCheck dev = s := if_pos off

theorem selfCheck_works {s : State} {dev : List Nat} (on : s.auxRuns = true) : Works (s.checksDue dev) (s.selfCheck dev) := by
  unfold selfCheck
  rw [if_neg (by rw [on]; decide)]
  exact .forEach (.forEach (.refl _) fun l _ u => kick_works u l) fun c _ u => .ite (checkCouple_works ..) (.refl u)

/-- A converter is checked, or its check is due. -/
theorem selfCheck_check {s : State} {dev : List Nat} (on : s.auxRuns = true) (a : Fin 8) :
    (s.selfCheck dev).convs[a].check = some (dev.getD a 0) ∨
      ((s.selfCheck dev).convs[a].check = none ∧ min (dev.getD a 0) 65535 ≤ (s.selfCheck dev).getU (K.CHECK_WORST (a + 1))) :=
  ((selfCheck_works on).check a).imp (fun same => same.trans (checksDue_check s dev a))
    fun ⟨checked, seen⟩ => ⟨checked, seen _ (checksDue_check s dev a)⟩

/-! ### Bursts (R199) -/

/-- The bursts that the auxiliary calibration run has, and those that wait. -/
def burstsOf (s : State) : Option (List (Int × Nat) × List (List Int)) := s.auxRun.map fun r => (r.bursts, r.due)

theorem burstsOf_congr {s t : State} (h : t.auxRun = s.auxRun) : t.burstsOf = s.burstsOf := by rw [burstsOf, h, burstsOf]

/-- A burst that does not end its step is one burst more. -/
theorem runBurst_more {s : State} {r : AuxRun} {codes : List Int} (step : r.step ≠ none) (few : r.bursts.length + 1 < 16) :
    ∃ b clean, (s.runBurst r codes).auxRun = some { r with bursts := r.bursts ++ [b], clean } := by
  obtain ⟨⟨op, l⟩, is⟩ := Option.ne_none_iff_exists'.1 step
  unfold runBurst
  simp only [is]
  refine ⟨_, _, (congrArg State.auxRun (if_pos ?_)).trans rfl⟩
  simpa using few

/-- The bursts that wait run one after the other, and end no step while they are few. -/
theorem dueBursts_run (l : List (List Int)) : ∀ {s : State} {r : AuxRun}, s.auxRun = some r → r.step ≠ none → r.bursts.length + l.length < 16 →
    r.due.length = l.length → ∃ r', (forEach l dueBurst s).auxRun = some r' ∧ r'.bursts.length = r.bursts.length + l.length ∧ r'.due = [] := by
  induction l with
  | nil => exact fun {_ r} run _ _ due => ⟨r, run, rfl, List.length_eq_zero_iff.1 due⟩
  | cons codes l ih =>
    intro s r run step few due
    simp only [List.length_cons] at few due
    obtain ⟨b, clean, ran⟩ := runBurst_more (s := s) (r := { r with due := r.due.drop 1 }) (codes := codes) step (by simp only; omega)
    have first : (dueBurst codes s).auxRun = some { r with bursts := r.bursts ++ [b], clean, due := r.due.drop 1 } := by
      unfold dueBurst
      rw [run]
      exact ran
    obtain ⟨r', run', bursts, none⟩ := ih first step (by simp; omega) (by simp; omega)
    exact ⟨r', run', by rw [bursts]; simp; omega, none⟩

/-- A handover changes only whether the run's step is clean. -/
theorem coupleHandover_burstsOf (s : State) (l : Fin 3) : (s.coupleHandover l).burstsOf = s.burstsOf := by
  have marked (u : State) : State.burstsOf { u with auxRun := u.auxRun.map fun (r : AuxRun) =>
      if r.couple = l ∧ r.step.isSome then { r with clean := false } else r } = u.burstsOf := by
    cases h : u.auxRun with
    | none => simp [burstsOf, h]
    | some r => simp only [burstsOf, h, Option.map_some]; split <;> rfl
  unfold coupleHandover
  dsimp only
  split
  · rw [burstsOf_congr ((recordDevice_touches ..).auxRun (by decide)), marked, burstsOf_congr ((noSpareLeft_touches ..).auxRun (by decide)),
      burstsOf_congr ((health_touches ..).auxRun (by decide))]
    rfl
  · rfl

theorem burstsOf_ite {s t u : State} {c : Prop} [Decidable c] (ht : t.burstsOf = s.burstsOf) (hu : u.burstsOf = s.burstsOf) :
    (if c then t else u).burstsOf = s.burstsOf := by
  split <;> assumption

theorem tableStart_burstsOf (s : State) (l : Fin 3) : (s.tableStart l).burstsOf = s.burstsOf := by
  have handed : (if s.couples[l].startedA = 0 then s.coupleHandover l else s).burstsOf = s.burstsOf := burstsOf_ite (coupleHandover_burstsOf s l) rfl
  have started (st : List (Fin 8 × Nat)) (both : Bool) := (burstsOf_congr ((startConvs_touches
    (if s.couples[l].startedA = 0 then s.coupleHandover l else s) st both).auxRun (by decide))).trans handed
  unfold tableStart
  exact burstsOf_ite rfl (burstsOf_ite rfl (burstsOf_ite (started ..) ((burstsOf_congr ((updCouple_touches ..).auxRun (by decide))).trans (started ..))))

/-- What starts on a couple that is served leaves the bursts of the run. -/
theorem kick_burstsOf {s : State} {l : Fin 3} : (s.kick l).burstsOf = (s.serveCouple l).burstsOf := by
  unfold kick
  exact burstsOf_ite (burstsOf_congr ((injectStart_touches ..).auxRun (by decide))) (burstsOf_ite rfl (tableStart_burstsOf ..))

section Burst

variable {s : State} {r : AuxRun} {codes : List Int}

/-- The burst waits with the run's others. -/
def burstWaits (s : State) (r : AuxRun) (codes : List Int) : State := { s with auxRun := some { r with due := r.due ++ [codes] } }

theorem burstDue_waits (step : r.step ≠ none) : (s.burstWaits r codes).burstDue r.couple = some { r with due := r.due ++ [codes] } := by
  have isSome : r.step.isSome = true := Option.isSome_iff_ne_none.2 step
  simp [burstDue, burstWaits, isSome, Option.filter]

/-- Without a run, a step or a place for it, a burst is nothing. -/
theorem auxBurst_rest (no : ∀ r, s.auxRun = some r → r.step = none ∨ 16 ≤ r.bursts.length + r.due.length) : s.auxBurst codes = s := by
  unfold auxBurst
  split
  · next r run =>
    refine if_neg fun ⟨step, few⟩ => ?_
    rcases no r run with none | full
    · rw [none] at step
      exact absurd step (by decide)
    · omega
  · rfl

theorem auxBurst_kick (run : s.auxRun = some r) (step : r.step ≠ none) (few : r.bursts.length + r.due.length < 16) :
    s.auxBurst codes = (s.burstWaits r codes).kick r.couple := by
  unfold auxBurst
  rw [run]
  exact if_pos ⟨Option.isSome_iff_ne_none.2 step, few⟩

/-- The couple's injection does not depend on the run. -/
theorem injecting_burstWaits (l : Fin 3) : (s.burstWaits r codes).injecting l = s.injecting l := rfl

/-- A burst waits for a busy lead converter. -/
theorem auxBurst_waits (run : s.auxRun = some r) (step : r.step ≠ none) (few : r.bursts.length + r.due.length < 16)
    (busy : s.convs[s.leadOf r.couple].busy = true) (calm : s.injecting r.couple = false) : s.auxBurst codes = s.burstWaits r codes := by
  have injecting := injecting_burstWaits (s := s) (r := r) (codes := codes) r.couple
  have due := burstDue_waits (s := s) (codes := codes) step
  have isDue : ((s.burstWaits r codes).burstDue r.couple).isSome = true := by rw [due]; rfl
  have waits : (s.burstWaits r codes).serveBursts r.couple = s.burstWaits r codes := by
    unfold serveBursts
    rw [due]
    exact if_pos busy
  have served : (s.burstWaits r codes).serveCouple r.couple = s.burstWaits r codes := by
    rw [serveCouple_eq, injecting, calm, if_neg (by decide), waits, if_pos isDue]
  rw [auxBurst_kick run step few]
  unfold kick
  rw [served]
  exact (if_neg (by rw [injecting, calm]; decide)).trans (if_pos (by rw [isDue]; rfl))

/-- On a free lead converter the bursts that wait run at once (R199). -/
theorem auxBurst_runs (run : s.auxRun = some r) (step : r.step ≠ none) (few : r.bursts.length + r.due.length + 1 < 16)
    (free : s.convs[s.leadOf r.couple].busy = false) (calm : s.injecting r.couple = false) : ∃ r', (s.auxBurst codes).auxRun = some r' ∧
      r'.bursts.length = r.bursts.length + r.due.length + 1 ∧ r'.due = [] := by
  have injecting := injecting_burstWaits (s := s) (r := r) (codes := codes) r.couple
  have serves : (s.burstWaits r codes).serveBursts r.couple = forEach (r.due ++ [codes]) dueBurst (s.burstWaits r codes) := by
    unfold serveBursts
    rw [burstDue_waits step]
    exact if_neg (Bool.eq_false_iff.1 free)
  obtain ⟨r', ran, bursts, none⟩ := dueBursts_run (r.due ++ [codes]) (s := s.burstWaits r codes) rfl step (by simp; omega) rfl
  rw [← serves] at ran
  have noneDue : ¬ (((s.burstWaits r codes).serveBursts r.couple).burstDue r.couple).isSome = true := by
    simp [burstDue, ran, none]
  have served : ((s.burstWaits r codes).serveCouple r.couple).auxRun = some r' := by
    rw [serveCouple_eq, injecting, calm, if_neg (by decide), if_neg noneDue, (checkCouple_touches ..).auxRun (by decide), ran]
  have kicked := kick_burstsOf (s := s.burstWaits r codes) (l := r.couple)
  rw [← auxBurst_kick run step (by omega), burstsOf, burstsOf, served] at kicked
  obtain ⟨r'', run'', same⟩ := Option.map_eq_some_iff.1 kicked
  obtain ⟨sameBursts, sameDue⟩ := Prod.mk.inj same
  exact ⟨r'', run'', by rw [sameBursts, bursts]; simp; omega, by rw [sameDue, none]⟩

end Burst

/-- A grid point that a busy couple misses is counted once (R188). -/
theorem auxPassStart_misses {s : State} {l : Fin 3} (run : s.runOf l = 2) (on : s.auxRuns = true) (busy : s.couples[l].phase ≠ .idle)
    (first : s.couples[l].late = false) : (s.auxPassStart l).couples = s.couples.set l { s.couples[l] with late := true } ∧
    (s.auxPassStart l).getN (K.OVERRUN (l + 1)) = (satAdd 32 (s.getU (K.OVERRUN (l + 1))) 1 : Nat) ∧
    (∀ k, k ≠ K.OVERRUN (l + 1) → (s.auxPassStart l).getN k = s.getN k) ∧ Touches 141836999983105 s (s.auxPassStart l) := by
  have counts (u : State) := u.addSat_touches 32 (K.OVERRUN (l + 1)) 1
  rw [auxPassStart_on run on, if_neg busy, if_neg (by simpa using first)]
  refine ⟨(counts _).couples (by decide), (getN_addSat ..).trans (if_pos rfl), fun k other => (getN_addSat ..).trans (if_neg other),
    ((updCouple_touches ..).mono rfl).trans ((counts _).mono rfl)⟩

end State

/-- Settles O56: each occurrence at rest by the branch that it takes, at work by what it writes, and its frame by what it may touch. -/
theorem auxiliaryBankRuns : Obligations.AuxiliaryBankRuns := by
  intro s
  refine ⟨fun p => ⟨fun none => congrArg Host.Outcome.next (State.tiUpdate_none none), fun T src valid => ?_⟩,
    fun early => congrArg Host.Outcome.next (State.calStepEnd_early early), fun r st run step full => ?_,
    fun l => ⟨fun no => congrArg Host.Outcome.next (State.auxPassStart_rest no), fun run on idle => ?_, fun run on busy late => ?_,
      fun run on busy first => ?_, fun no => congrArg Host.Outcome.next (State.auxDelayEnd_rest no),
      fun delay off => congrArg Host.Outcome.next (State.auxDelayEnd_off delay off), fun w hw delay run inside on again unmasked => ?_,
      fun none band => congrArg Host.Outcome.next (State.auxWritten_rest none band),
      fun none band => congrArg Host.Outcome.next (State.auxWritten_noInjection none band), fun d r due going => ?_, fun due => ?_⟩,
    fun a => ⟨fun no => congrArg Host.Outcome.next (State.startupDone_rest no), fun starting => ?_,
      fun no => congrArg Host.Outcome.next (State.convPowerDown_rest no),
      fun free up => congrArg Host.Outcome.next (State.convPowerDown_off free up),
      fun code edge waits => ⟨fun no => congrArg Host.Outcome.next (State.conversionEnd_rest no), fun busy first => ?_⟩⟩,
    fun dev => ⟨fun off => congrArg Host.Outcome.next (State.selfCheck_rest off),
      fun on => ⟨_, rfl, State.selfCheck_check on, (State.selfCheck_touches s dev).frame⟩⟩,
    fun codes => ⟨fun no => congrArg Host.Outcome.next (State.auxBurst_rest no),
      fun r run step few busy calm => congrArg Host.Outcome.next (State.auxBurst_waits run step few busy calm),
      fun r run step few free calm => ?_⟩⟩
  · obtain ⟨ti, fallback, plate⟩ := State.tiUpdate_takes src valid
    exact ⟨_, rfl, ti, fallback, plate, (State.tiUpdate_touches s p s.index).frame⟩
  · obtain ⟨u, reason, chs, ends, phase, gap⟩ := State.calStepEnd_ends run step full
    obtain ⟨state, reasons, channels, idle⟩ := State.calReason_ends u reason chs
    have frame := (State.calStepEnd_touches s).frame
    refine ⟨s.calStepEnd, rfl, ?_⟩
    rw [ends] at frame ⊢
    rw [reasons, channels]
    refine ⟨state, idle, fun op sub => ?_, fun op none => ?_, frame⟩
    · obtain ⟨rfl, rfl⟩ := phase op sub
      exact ⟨rfl, rfl⟩
    · obtain ⟨rfl, rfl⟩ := gap op none
      exact ⟨rfl, rfl⟩
  · obtain ⟨last, late⟩ := s.passStart_pass l
    have starts : s.auxPassStart l = s.passStart l := (State.auxPassStart_on run on).trans (if_pos idle)
    exact ⟨_, congrArg Host.Outcome.next starts, last, late, (State.passStart_touches s l).frame⟩
  · exact congrArg Host.Outcome.next ((State.auxPassStart_on run on).trans ((if_neg busy).trans (if_pos late)))
  · obtain ⟨couples, overrun, others, k⟩ := State.auxPassStart_misses run on busy first
    exact ⟨_, rfl, couples, overrun, others, k.frame⟩
  · subst hw
    obtain ⟨converts, word, -⟩ := s.beginResult_begins l
    exact ⟨_, congrArg Host.Outcome.next (State.auxDelayEnd_begins delay run inside on again unmasked), converts, word,
      (State.beginResult_touches s l).frame⟩
  · obtain ⟨index, couples, k⟩ := State.auxWritten_result due going
    exact ⟨_, rfl, index, couples, k.frame⟩
  · obtain ⟨state, index, couples, k⟩ := State.auxWritten_injection due
    exact ⟨_, rfl, state, index, couples, k.frame⟩
  · obtain ⟨up, on⟩ := State.startupDone_up starting
    exact ⟨_, rfl, up, on, (State.startupDone_touches s a).frame⟩
  · refine ⟨_, rfl, State.conversionEnd_wait busy first, fun none => ?_, fun l lead one idle table goes => ?_,
      (State.conversionEnd_touches s a code edge waits).frame⟩
    · rw [State.conversionEnd_none busy first none]
      exact s.freed_convs a code waits
    · rw [State.conversionEnd_lead busy first lead one]
      exact State.converted_sum lead idle table goes
  · obtain ⟨r', ran, bursts, none⟩ := State.auxBurst_runs run step few free calm
    exact ⟨_, r', rfl, ran, bursts, none, (State.auxBurst_touches s codes).frame⟩

end Sys2Proof.Machine
end

section
/-! PROOFS. INJECT: the word that a couple takes, and what it does where the couple has no injection and where it has one (R197). -/

namespace Sys2Proof.Machine

open Sys2Proof
set_option Elab.async false

namespace State

/-! ### The word written (Table 06.13) -/

/-- `w` with its couple field replaced. -/
def injectWord (l : Fin 3) (w : Nat) : Nat := w - 256 * field w 9 8 + 256 * l.val

theorem injectWord_couple (l : Fin 3) (w : Nat) : field (injectWord l w) 9 8 = l.val := by
  unfold injectWord field
  omega

theorem injectWord_fits {w : Nat} (fits : w < 2 ^ 32) (l : Fin 3) : injectWord l w < 2 ^ 32 := by
  unfold injectWord field
  omega

/-! ### The command (R197, R377) -/

/-- The row of INJECT in the entry table. -/
def injectDesc : Desc := ⟨0x7040, 1, 1, 0, 0, .u 32, .wo, 0, [], .special⟩

theorem findDesc_inject : findDesc 0x7040 0 = some injectDesc := by decide +kernel

/-- The value rule of INJECT: its field map, and the rules of the bank beside the writes that wait. -/
def injectValueOk (s : State) (v : Nat) : Bool := inMask v 0x00FF731F && (s.foreseen []).injectOk v

theorem specialOk_inject (u : State) (v : Nat) : u.specialOk 0x7040 0 (.num v) = (inMask v 0x00FF731F && u.injectOk v) := rfl

theorem injectValueOk_taken (s : State) (h : Requester) (op idx sub : Nat) (b : List Byte) (v : Nat) :
    (s.taken h op idx sub b).injectValueOk v = s.injectValueOk v := by
  unfold injectValueOk taken
  rw [foreseen_setLink]
  cases h.link <;> rfl

/-- No mode refuses INJECT: every word of four bytes is judged as a command. -/
theorem command_inject (s : State) (h : Requester) {v : Nat} (fits : v < 2 ^ 32) :
    s.command h injectDesc 0x7040 0 (leBytes 4 v) = s.injectWrite v (s.injectValueOk v) := by
  have val : leNat (leBytes 4 v) = v := leNat_leBytes 4 v (by omega)
  have ok : s.entryValueOk [] injectDesc 0x7040 0 (leBytes 4 v) = s.injectValueOk v := by
    have dec : injectDesc.ty.decode (leBytes 4 v) = .num v := by rw [injectDesc, Ty.decode, val]
    rw [entryValueOk, if_neg (by decide), dec, valueOk_special rfl (by decide) (by decide), specialOk_inject]
    rfl
  have len : entryLenOk injectDesc 0x7040 0 (leBytes 4 v).length = true := by rw [leBytes_length]; rfl
  have refuses : s.stateRefuses 0x7040 0 = false := rfl
  unfold command
  simp only [val, ok, len, refuses]
  rfl

/-- A couple whose injection waits or runs refuses another, whatever its value (R197). -/
theorem injectWrite_busy {s : State} {l : Fin 3} {v : Nat} (couple : field v 9 8 = l.val)
    (busy : s.getN (K.INJ_STATE (l + 1)) = 1 ∨ s.getN (K.INJ_STATE (l + 1)) = 2) (ok : Bool) : s.injectWrite v ok = (some .wrongState, s) := by
  unfold injectWrite
  simp only [couple]
  rw [if_neg (by omega), if_pos busy]

/-- A couple with none takes a word that keeps the rules (R197). -/
theorem injectWrite_free {s : State} {l : Fin 3} {v : Nat} (couple : field v 9 8 = l.val)
    (free : ¬ (s.getN (K.INJ_STATE (l + 1)) = 1 ∨ s.getN (K.INJ_STATE (l + 1)) = 2)) : s.injectWrite v true = (some .ok, s.inject l v) := by
  unfold injectWrite
  simp only [couple, fin_mk_mod]
  rw [if_neg (by omega), if_neg free, if_pos trivial]

/-! ### What an accepted injection does -/

/-- The couple's injection waits with its word. -/
def injectWaits (s : State) (l : Fin 3) (v : Nat) : State :=
  (s.put (K.INJ_STATE (l + 1)) 1).updCouple l fun x => { x with injWord := injEntry v, inj := AuxSum.zero, injStarted := 0 }

theorem getN_injectWaits (s : State) (l : Fin 3) (v : Nat) : (s.injectWaits l v).getN (K.INJ_STATE (l + 1)) = 1 :=
  (getN_put s (K.INJ_STATE (l + 1)) (K.INJ_STATE (l + 1)) 1).trans (if_pos rfl)

theorem injectWaits_word (s : State) (l : Fin 3) (v : Nat) : (s.injectWaits l v).couples[l].injWord = injEntry v :=
  congrArg Couple.injWord (couples_updCouple_same ..)

/-- Nothing else of the couple starts before the injection (R195). -/
theorem inject_eq (s : State) (l : Fin 3) (v : Nat) : s.inject l v = (s.injectWaits l v).injectStart l :=
  AuxOnly.kick_pending (s.getN_injectWaits l v)

/-- An accepted injection is WAITING, or RUNNING at once, with its word (R197). -/
theorem inject_takes (s : State) (l : Fin 3) (v : Nat) :
    ((s.inject l v).getN (K.INJ_STATE (l + 1)) = 1 ∨ (s.inject l v).getN (K.INJ_STATE (l + 1)) = 2) ∧
      (s.inject l v).couples[l].injWord = injEntry v := by
  obtain ⟨only, state⟩ := AuxOnly.injectStart (s.injectWaits l v) l
  rw [getN_injectWaits] at state
  rw [inject_eq]
  exact ⟨state, (only.words l).trans (s.injectWaits_word l v)⟩

/-- It touches no more than the entries, the converters and the couples. -/
theorem inject_touches_bank (s : State) (l : Fin 3) (v : Nat) : Touches 212205744160769 s (s.inject l v) := by
  rw [inject_eq]
  exact (((put_touches ..).mono rfl).trans ((updCouple_touches ..).mono rfl)).trans (injectStart_touches ..)

/-! ### The write -/

section Writes

variable {s : State} {h : Requester} (r : s.Ready h) {l : Fin 3} {v : Nat} (fits : v < 2 ^ 32) (couple : field v 9 8 = l.val)
include r fits couple

theorem inject_refused (busy : s.getN (K.INJ_STATE (l + 1)) = 1 ∨ s.getN (K.INJ_STATE (l + 1)) = 2) :
    s.hostWrite h 0x7040 0 (leBytes 4 v) = s.answered h opWrite 0x7040 0 .wrongState [] := by
  rw [hostWrite_command r findDesc_inject rfl ((command_inject _ h fits).trans (injectWrite_busy couple (by simpa using busy) _)), reply_taken r]

theorem inject_accepted (free : ¬ (s.getN (K.INJ_STATE (l + 1)) = 1 ∨ s.getN (K.INJ_STATE (l + 1)) = 2)) (ok : s.injectValueOk v = true) :
    s.hostWrite h 0x7040 0 (leBytes 4 v) =
      ((s.taken h opWrite 0x7040 0 (leBytes 4 v)).inject l v).withLinksOf (s.answered h opWrite 0x7040 0 .ok []) := by
  have k := (s.taken h opWrite 0x7040 0 (leBytes 4 v)).inject_touches_bank l v
  have cmd := command_inject (s.taken h opWrite 0x7040 0 (leBytes 4 v)) h fits
  rw [injectValueOk_taken, ok, injectWrite_free couple (by simpa using free)] at cmd
  rw [hostWrite_command r findDesc_inject rfl cmd]
  refine reply_done r ?_ (k.spi (by decide)) (k.can (by decide)) ..
  rw [serves, k.mode (by decide), taken_mode]
  exact r.1

end Writes

end State

/-- Settles O38: the couple's INJ_STATE decides between refusal and the injection's start, which changes the bank alone. -/
theorem injectionAccepted : Obligations.InjectionAccepted := by
  intro s h l w ready fits
  have fits' := State.injectWord_fits fits l
  have couple := State.injectWord_couple l w
  refine ⟨fun busy => congrArg Host.Outcome.next (State.inject_refused ready fits' couple busy), fun waits runs mask rules => ?_⟩
  have ok : s.injectValueOk (State.injectWord l w) = true := Bool.and_eq_true_iff.2 ⟨mask, rules⟩
  obtain ⟨state, word⟩ := State.inject_takes (s.taken h opWrite 0x7040 0 (leBytes 4 (State.injectWord l w))) l (State.injectWord l w)
  exact ⟨_, congrArg Host.Outcome.next (State.inject_accepted ready fits' couple (not_or.2 ⟨waits, runs⟩) ok), State.answered_links ..,
    state, word, (Touches.answered (n := 212411902590977) (State.inject_touches_bank ..)).frame⟩

end Sys2Proof.Machine
end

section
/-! PROOFS. The scratch memory in a step: which commands leave it as it is, and that the others keep its canonical form (R237, R240). -/

namespace Sys2Proof.Machine

open Sys2Proof
set_option Elab.async false

/-! ### What a command leaves of the queue and the scratch memory -/

/-- A frame of a Thiber port leaves what its handler leaves. -/
theorem State.receive_same (s : State) (k : Fin 4) (seq : Nat) (up : Bool) {f : State → State} (hf : ∀ u, Same u (f u)) :
    Same s (s.receive k seq up f) := by
  unfold State.receive
  dsimp only
  refine .ite (.refl s) (.iteL (State.takeSeq_touches ..).same (.ite ?_ ?_))
  · exact (State.intrusion_touches ..).same.trans (State.discard_touches ..).same
  · exact hf _

/-- The outcome is a next state with the queue and the scratch memory of `s`. -/
def NextSame (s : State) (o : Host.Outcome State Fault Refusal) : Prop := ∃ t, o = .next t ∧ Same s t

theorem Same.next {s t : State} (h : Same s t) : NextSame s (.next t) := ⟨t, rfl, h⟩

theorem Touches.next {m : Nat} {s t : State} (h : Touches m s t) (h1 : Nat.land m 4 ≠ 4 := by decide)
    (h2 : Nat.land m 34359738368 ≠ 34359738368 := by decide) : NextSame s (.next t) := (h.same h1 h2).next

theorem State.hostWrite_next {s : State} {h : Requester} {idx sub : Nat} {data : List Byte} (below : idx < 0xF000) :
    NextSame s (.next (s.hostWrite h idx sub data)) := (s.hostWrite_same h below sub data).next

/-- Batches that were held run no write of the scratch area (R394). -/
theorem Same.runHeld {s t : State} (h : Same s t) : Same s t.runHeld := h.trans (State.runHeld_touches t).same

/-- A command that stores nothing to the scratch area leaves it and the queue as they are: the writes of entries below the area by their index, every
other command by what its operation touches. -/
theorem exec_nextSame (s : State) {c : Instr} (quiet : storesScratch c = false) : NextSame s (exec c s) := by
  cases c with
  | portStatus | portCfg | decConfig | pointCfg | evStatus | latClear | laneMap | pulseCfg | meterConst | mdReset | dmdCfg | calBegin |
    calZero | calGain | calPhase | calDrop | calCommit | calAbort | inject | coupleCfg | entry | auxCalBegin | auxCalZero | auxCalFull |
    auxCalCommit | auxCalAbort | counterClear | sessionOpen | sessionClose | hostData | ringAck | hostImage | dispPoint | drvFault |
    tamperStatus | clearMarks | clearLockdown | blowFuse | enterService | sealCmd | serviceExit | timeStep | utcOffset | stringCfg |
    stringClear | substitute | restore =>
    exact State.hostWrite_next (by omega)
  | powerGood => exact (State.powerGood_touches ..).next
  | recallBegin => exact (State.recallBegin_touches ..).next
  | privilegedResolved => exact (State.privilegedStep_touches ..).next
  | ordinaryResolved => exact (State.ordinaryResolved_touches ..).next
  | selfTestsDone => exact (State.selfTestsDone_touches ..).next
  | recallEnd => exact ((State.recallEnd_touches ..).same.trans (State.censusCheck_touches ..).same).next
  | recallTimeout => exact ((State.recallTimeout_touches ..).same.trans (State.censusCheck_touches ..).same).next
  | powerFailDetect => exact (State.powerFail_touches ..).next
  | forcedStep => exact (State.forcedStep_touches ..).next
  | holdupSaveComplete => exact (State.saveComplete_touches ..).next
  | writeInhibit => exact (State.writeInhibited_touches ..).next
  | samplePeriod => exact (State.period_touches ..).next
  | sampleRelease => exact (State.sampleRelease_touches ..).next
  | laneCheckVector => exact (State.laneCheckVector_touches ..).next
  | shadowWarm => exact (State.shadowWarm_touches ..).next
  | latencyInterval => exact (State.latencyInterval_touches ..).next
  | substituteBoundary => exact (State.substituteBoundary_touches ..).next
  | nettingStep => exact (State.nettingStep_touches ..).next
  | offPointApply => exact (State.offPointApply_touches ..).next
  | windowPublish => exact (State.publish_touches ..).next
  | eventRecord => exact (State.recordEvent_touches ..).next
  | blockEnd => exact (State.blockEnds_touches ..).next
  | linkCheckFail => exact (State.linkCheckFail_touches ..).next
  | pulseRise => exact (State.pulseRise_touches ..).next
  | pulseFall => exact (State.pulseFall_touches ..).next
  | pulseGapEnd => exact (State.pulseGapEnd_touches ..).next
  | demandIntervalEnd => exact (State.demandIntervalEnd_touches ..).next
  | checkpointDue => exact (State.ckptDue_touches ..).next
  | checkpointWritten => exact (State.checkpointWritten_touches ..).next
  | tiUpdate => exact (State.tiUpdate_touches ..).next
  | calStepEnd => exact (State.calStepEnd_touches ..).next
  | draftCoefficients => exact (State.draftWrite_same ..).next
  | twinEvaluation => exact (State.twinEvaluation_touches ..).next
  | auxPassStart => exact (State.auxPassStart_touches ..).next
  | auxDelayEnd => exact (State.auxDelayEnd_touches ..).next
  | auxStartupDone => exact (State.startupDone_touches ..).next
  | auxPowerDown => exact (State.convPowerDown_touches ..).next
  | auxConversionEnd => exact (State.conversionEnd_touches ..).next
  | auxResultWrite => exact (State.auxWritten_touches ..).next
  | auxSelfCheck => exact (State.selfCheck_touches ..).next
  | auxCalBurst => exact (State.auxBurst_touches ..).next
  | sramAccess => exact (State.sramAccess_touches ..).next
  | scrubWriteback => exact (State.scrub_touches ..).next
  | marchStart => exact (State.marchStart_touches ..).next
  | marchPhaseEnd => exact (State.marchPhaseEnd_touches ..).next
  | marchRetry => exact (State.marchRetry_touches ..).next
  | bankSubRegionDone => exact (State.bankRegionDone_touches ..).next
  | sweepRead => exact (State.sweepWord_touches ..).next
  | nvmCycleEnd => exact (State.nvmCycle_same _ quiet).next
  | patrolRead => exact (State.patrolRead_same _ quiet ..).next
  | journalUnitStart => exact (State.unitStart_touches ..).next
  | journalCommit => exact (State.unitCommit_touches ..).next
  | journalRetire => exact (State.unitRetire_touches ..).next
  | recordCopyWritten => exact (State.recordCopy_touches ..).next
  | scratchPage | scratchGroup => cases quiet
  | signStart => exact (State.signStart_touches ..).next
  | signatureDone => exact (State.signatureDone_touches ..).next
  | signWaitTimeout => exact (State.signTimeout_touches ..).next
  | rngFailure => exact (State.rngFailed_touches ..).next
  | rngStartupDone => exact (State.rngReady_touches ..).next
  | frameBoundary => exact (State.frameBoundary_touches ..).next
  | compensationEnd => exact (State.compensationEnd_touches ..).next
  | readback => exact (State.readBack_touches ..).next
  | pumpRegulated => exact (State.pumpReady_touches ..).next
  | pumpOvervoltage => exact (State.pumpOver_touches ..).next
  | displayWake => exact (State.displayWake_touches ..).next
  | bandTimeout => exact (State.bandTimeout_touches ..).next
  | tamperStrobe => exact (State.strobes_touches ..).next
  | light => exact (State.lightRise_touches ..).next
  | glitch => exact (State.glitchAt_touches ..).next
  | refClock => exact (State.refClock_touches ..).next
  | rtcClock => exact (State.rtcClock_touches ..).next
  | vbatCheck => exact (State.vbatCheck_touches ..).next
  | dieTempCheck => exact (State.dieTempCheck_touches ..).next
  | svcStrap => exact (State.svcStrap_touches ..).next
  | tamperWindowExpiry => exact ((State.at'_touches ..).same.trans (State.windowOver_touches ..).same).next
  | tamperDecision => exact (State.beginDecision_touches ..).next
  | sealKeygenDone => exact (State.keygenDone_touches ..).next
  | sealFuseSet => exact (State.sealFuse_touches ..).next
  | svcChange => exact (State.svcChange_touches ..).next
  | serviceMaxExpiry => exact (State.serviceEnd_touches ..).next
  | authChallenge => exact (State.hostRead_touches ..).next
  | authChallengeExpiry => exact (State.challengeOver_touches ..).next
  | spiSend => exact (State.spiSend_touches ..).next
  | spiFetch => exact (State.spiFetch_touches ..).next
  | canFrame => exact (State.canFrame_touches ..).next
  | canReassemblyTimeout => exact (State.canTimeout_touches ..).next
  | canTransmit => exact (State.canTransmit_touches ..).next
  | canBusoffRecovery => exact (State.canRecover_touches ..).next
  | read => exact (State.hostRead_touches ..).next
  | write h index => exact (State.hostWrite_same _ _ (by simpa [storesScratch] using quiet) ..).runHeld.next
  | tableauOpen => exact (State.tableauOpen_touches ..).next
  | tableauRead => exact (State.tableauRead_touches ..).next
  | tableauClose => exact (State.tableauClose_touches ..).next
  | tableauComplete => exact (State.tableauComplete_touches ..).next
  | tableauTimeout => exact (State.tableauTimeout_touches ..).next
  | batch => exact (State.hostBatch_touches ..).next
  | streamStart => exact (State.streamStart_touches ..).next
  | streamStop => exact (State.streamStop_touches ..).next
  | streamFrameReady => exact (State.streamFrame_touches ..).next
  | train => exact (State.train_touches ..).next
  | trainSend => exact (State.trainSend_touches ..).next
  | linkDown => exact (State.linkDown_touches ..).next
  | pending => exact (State.receive_same _ _ _ _ fun _ => (State.pendingFrom_touches ..).same).next
  | pendingSend => exact (State.pendingSend_touches ..).next
  | census => exact (State.receive_same _ _ _ _ fun _ => (State.census_touches ..).same).next
  | censusSend => exact (State.censusSend_touches ..).next
  | censusTimeout => exact (State.censusTimeout_touches ..).next
  | numbering => exact (State.receive_same _ _ _ _ fun _ => (State.numbering_touches ..).same).next
  | sync => exact (State.receive_same _ _ _ _ fun _ => (State.syncFrom_touches ..).same).next
  | syncSend => exact (State.syncSend_touches ..).next
  | delayReq => exact (State.receive_same _ _ _ _ fun _ => (State.delayReqFrom_touches ..).same).next
  | delayReqSend => exact (State.delayReqSend_touches ..).next
  | delayResp => exact (State.receive_same _ _ _ _ fun _ => (State.delayRespFrom_touches ..).same).next
  | indexAdopt => exact (State.indexAdopt_touches ..).same.runHeld.next
  | holdoverExpiry => exact (State.holdoverExpiry_touches ..).next
  | tstep => exact (State.receive_same _ _ _ _ fun _ => (State.tstepFrom_touches ..).same).next
  | vpReport => exact (State.receive_same _ _ _ _ fun _ => (State.vpReportFrom_touches ..).same).next
  | vpReportSend => exact (State.vpReportSend_touches ..).next
  | siteOpen | siteClose => exact (State.hostWrite_same _ _ (by omega) ..).runHeld.next
  | site => exact (State.receive_same _ _ _ _ fun _ => (State.siteFrom_touches ..).same).runHeld.next
  | siteAck => exact (State.receive_same _ _ _ _ fun _ => (State.siteAckFrom_touches ..).same).next
  | siteAckSend => exact (State.siteAckSend_touches ..).next
  | siteLimitExpiry => exact (State.siteLimit_touches ..).same.runHeld.next
  | join => exact (State.receive_same _ _ _ _ fun _ => (State.joinFrom_touches ..).same).next
  | grant => exact (State.receive_same _ _ _ _ fun _ => (State.grantFrom_touches ..).same).next
  | joinRetry => exact (State.joinRetry_touches ..).next
  | laneRetestDone => exact (State.retestDone_touches ..).next
  | lightFall => exact (State.lightFall_touches ..).next
  | backupDomainReset => exact (State.backupReset_touches ..).next
  | canBusError => exact (State.canError_touches ..).next
  | corruptedLinkFrame => exact (State.corruptedFrame_touches ..).next

/-- Every command answers a next state with the same queue, whose scratch memory is in canonical form where it was before. -/
theorem exec_kept (c : Instr) (s : State) : ∃ t, exec c s = .next t ∧ Kept s t := by
  cases stores : storesScratch c with
  | false =>
    obtain ⟨t, run, same⟩ := exec_nextSame s stores
    exact ⟨t, run, same.kept⟩
  | true =>
    cases c with
    | write => exact ⟨_, rfl, (State.hostWrite_kept ..).trans (State.runHeld_touches ..).kept⟩
    | scratchPage | scratchGroup => exact ⟨_, rfl, State.hostScratch_kept ..⟩
    | nvmCycleEnd => exact ⟨_, rfl, State.nvmCycle_kept ..⟩
    | patrolRead => exact ⟨_, rfl, State.patrolRead_kept ..⟩
    | _ => cases stores

/-- Settles O5: on an empty queue the device idles, and each command keeps the canonical form. -/
theorem stepKeepsMemory : Obligations.StepKeepsMemory := by
  intro s t canonical run
  unfold step at run
  split at run
  · cases run
    exact canonical
  · next c rest _ =>
    obtain ⟨u, ran, -, kept⟩ := exec_kept c { s with pending := rest }
    cases ran.symm.trans run
    exact kept canonical

/-- Settles O6: a command that stores nothing leaves the whole scratch memory. -/
theorem scratchKept : Obligations.ScratchKept := by
  intro c s t quiet run a
  obtain ⟨u, ran, -, same⟩ := exec_nextSame s quiet
  cases ran.symm.trans run
  rw [same]

end Sys2Proof.Machine
end

section
/-! PROOFS. A host's write of a scratch page or group: the checks that it meets, and the bytes that it stores (R236, R237, R240). -/

namespace Sys2Proof.Machine

open Sys2Proof
set_option Elab.async false

/-! ### Bytes stored from an address on -/

theorem State.scratchAddr_add (p i j : Nat) : State.scratchAddr p (i + j) = State.scratchAddr p i + j := by
  unfold State.scratchAddr
  omega

/-- From `s` to `t` the bytes `data` were stored from `a` on: every other byte and, the two links and the kept reads apart, all else is as it was. -/
structure Stored (s t : State) (a : Nat) (data : List Byte) : Prop where
  inside : s.MemoryOk → ∀ i, i < data.length → Memory.read t.scratch (a + i) = data[i]?.getD 0
  outside : ∀ x, x < a ∨ a + data.length ≤ x → Memory.read t.scratch x = Memory.read s.scratch x
  nvm : { t.nvm with writtenSince := s.nvm.writtenSince } = s.nvm
  frame : { t with scratch := s.scratch, nvm := s.nvm, spi := s.spi, can := s.can } = s

namespace State

/-- The state with bytes of the scratch area stored. -/
def storeBytes (s : State) (a : Nat) (data : List Byte) : State :=
  ({ s with scratch := Memory.writes a data s.scratch }).rangeWrote a data.length

theorem scratchWrite_whole (s : State) (a : Nat) (data : List Byte) : s.scratchWrite a data none = s.storeBytes a data := by
  simp [scratchWrite, storeBytes]

/-- A power loss leaves the groups written before it. -/
theorem scratchWrite_cut (s : State) (a : Nat) (data : List Byte) (g : Nat) :
    s.scratchWrite a data (some g) = s.storeBytes a (data.take (8 * g)) := by
  have took : data.take (min data.length (8 * g)) = data.take (8 * g) := List.take_eq_take_iff.2 (by omega)
  rw [scratchWrite, storeBytes, List.length_take, Nat.min_comm (8 * g), took]

theorem storeBytes_stored (s v : State) (a : Nat) (data : List Byte) : Stored s ((s.storeBytes a data).withLinksOf v) a data where
  inside canonical i lt := (Memory.read_writes_inside data canonical lt).trans (by simp [lt])
  outside _ out := Memory.read_writes_outside data s.scratch out
  nvm := rfl
  frame := rfl

theorem storeBytes_taken (s v : State) (h : Requester) (op idx sub : Nat) (b : List Byte) (a : Nat) (data : List Byte) :
    ((s.taken h op idx sub b).storeBytes a data).withLinksOf v = (s.storeBytes a data).withLinksOf v := by
  unfold taken
  cases h.link <;> rfl

/-! ### The checks of a scratch write (R377) -/

/-- The row of a scratch page (`sub` 0) or of its groups in the entry table (Table 08.10). -/
def scratchDesc (sub : Nat) : Desc :=
  if sub = 0 then ⟨0xF000, 256, 1, 0, 0, .blob 256, .rw, 0, [], .special⟩ else ⟨0xF000, 256, 1, 1, 32, .u 64, .rw, 0, [], .special⟩

/-- The scratch area has no points: its entries stand for themselves (R374). -/
theorem baseIdx_scratch (page : Fin 256) : baseIdx (0xF000 + page.val) = 0xF000 + page.val := by
  have range : (0xF000 + page.val) / 0x1000 = 15 := by omega
  simp [baseIdx, pointOfIdx, isPointIdx, range, pointRange]

theorem findDesc_scratch (page : Fin 256) {sub : Nat} (le : sub ≤ 32) : findDesc (0xF000 + page.val) sub = some (scratchDesc sub) := by
  have range : (0xF000 + page.val) / 0x1000 = 15 := by omega
  have rows : dictOf 15 = [scratchDesc 0, scratchDesc 1] := rfl
  unfold findDesc
  rw [if_pos (by omega), range, rows, baseIdx_scratch]
  by_cases whole : sub = 0
  · simp [whole, scratchDesc, Desc.covers, Nat.mod_one]
  · simp [whole, scratchDesc, Desc.covers, Nat.mod_one, Nat.one_le_iff_ne_zero, le]

theorem scratchDesc_acc (sub : Nat) : (scratchDesc sub).acc = .rw := by
  unfold scratchDesc
  split <;> rfl

/-- No mode and no state refuses a scratch write: its length and its end decide. -/
theorem writeStatus_scratch (s : State) (page : Fin 256) (sub : Nat) (data : List Byte) :
    s.writeStatus [] (scratchDesc sub) (0xF000 + page.val) sub data =
      if entryLenOk (scratchDesc sub) (0xF000 + page.val) sub data.length = false then .length
      else if sub = 0 ∧ 65536 < 256 * page.val + data.length then .invalidValue else .ok := by
  have free : s.stateRefuses (0xF000 + page.val) sub = false := stateRefuses_free (by rw [baseIdx_scratch]; omega) (by omega)
  have value : s.entryValueOk [] (scratchDesc sub) (0xF000 + page.val) sub data = false ↔ sub = 0 ∧ 65536 < 256 * page.val + data.length := by
    unfold entryValueOk
    rw [if_pos (by omega)]
    simp
    omega
  unfold writeStatus
  simp only [classStatus_rw (scratchDesc_acc sub), free, value]
  rfl

/-- A page takes 1 to 4,096 bytes (R237). -/
theorem entryLenOk_page (d : Desc) (page : Fin 256) (n : Nat) : entryLenOk d (0xF000 + page.val) 0 n = true ↔ 1 ≤ n ∧ n ≤ 4096 := by
  rw [entryLenOk, if_pos (by omega)]
  simp

theorem writeStatus_page_length (s : State) (page : Fin 256) {data : List Byte} (bad : data = [] ∨ 4096 < data.length) :
    s.writeStatus [] (scratchDesc 0) (0xF000 + page.val) 0 data = .length := by
  rw [writeStatus_scratch, if_pos]
  rw [← Bool.not_eq_true, entryLenOk_page]
  rcases bad with rfl | long
  · simp
  · omega

section Fitting

variable (s : State) (page : Fin 256) {data : List Byte} (least : 1 ≤ data.length) (most : data.length ≤ 4096)
include least most

theorem writeStatus_page_beyond (beyond : 65536 < 256 * page.val + data.length) :
    s.writeStatus [] (scratchDesc 0) (0xF000 + page.val) 0 data = .invalidValue := by
  rw [writeStatus_scratch, (entryLenOk_page ..).2 ⟨least, most⟩, if_neg (by decide), if_pos ⟨rfl, beyond⟩]

theorem writeStatus_page_ok (fits : 256 * page.val + data.length ≤ 65536) :
    s.writeStatus [] (scratchDesc 0) (0xF000 + page.val) 0 data = .ok := by
  rw [writeStatus_scratch, (entryLenOk_page ..).2 ⟨least, most⟩, if_neg (by decide), if_neg (by omega)]

end Fitting

theorem writeStatus_group_ok (s : State) (page : Fin 256) (g v : Nat) :
    s.writeStatus [] (scratchDesc (g + 1)) (0xF000 + page.val) (g + 1) (leBytes 8 v) = .ok := by
  have len : entryLenOk (scratchDesc (g + 1)) (0xF000 + page.val) (g + 1) (leBytes 8 v).length = true := by
    rw [entryLenOk, if_neg (by omega), leBytes_length]
    rfl
  rw [writeStatus_scratch, len, if_neg (by decide), if_neg (by omega)]

/-! ### A host's scratch write -/

/-- The address that a write of a page or of one of its groups begins at (R237). -/
def scratchStart (page sub : Nat) : Nat := if sub = 0 then scratchAddr page 0 else scratchAddr page (8 * (sub - 1))

theorem rangeBad_taken (s : State) (h : Requester) (op idx sub : Nat) (b : List Byte) (a n : Nat) :
    (s.taken h op idx sub b).rangeBad a n = s.rangeBad a n := by rw [rangeBad, taken_nvm, rangeBad]

theorem scratchHost_inhibited {s : State} (inhibit : s.nvm.writeInhibit = true) (page sub : Nat) (data : List Byte) (cut : Option Nat) :
    s.scratchHost page sub data cut = (none, s) := if_pos inhibit

section Array

variable {s : State} {page sub : Nat} {data : List Byte} (free : s.nvm.writeInhibit = false)
include free

theorem scratchHost_bad (bad : s.rangeBad (scratchStart page sub) data.length = true) (cut : Option Nat) :
    s.scratchHost page sub data cut = (some .memoryError, s) := by
  unfold scratchHost
  rw [if_neg (by simp [free])]
  exact if_pos bad

theorem scratchHost_good (good : s.rangeBad (scratchStart page sub) data.length = false) (cut : Option Nat) :
    s.scratchHost page sub data cut = (if cut.isSome then none else some .ok, s.scratchWrite (scratchStart page sub) data cut) := by
  unfold scratchHost
  rw [if_neg (by simp [free])]
  exact if_neg (Bool.eq_false_iff.1 good)

end Array

theorem hostScratch_ready {s : State} {h : Requester} (r : s.Ready h) (page sub : Nat) (data : List Byte) (cut : Option Nat) :
    s.hostScratch h page sub data cut =
      (s.taken h opWrite (0xF000 + page) sub data).writeAnswered h (0xF000 + page) sub data cut := execute_ready r ..

section Checked

variable {s : State} {h : Requester} (r : s.Ready h) {page : Fin 256} {sub : Nat} (le : sub ≤ 32) {data : List Byte}
include le

include r in
theorem hostScratch_refused {st : Status} (no : st ≠ .ok) (status : s.writeStatus [] (scratchDesc sub) (0xF000 + page.val) sub data = st)
    (cut : Option Nat) : s.hostScratch h page.val sub data cut = s.answered h opWrite (0xF000 + page.val) sub st [] := by
  rw [hostScratch_ready r]
  unfold writeAnswered runWrite
  simp only [findDesc_scratch page le, scratchDesc_acc, writeStatus_taken, status]
  cases st
  case ok => exact absurd rfl no
  all_goals exact reply_taken r ..

variable (ok : s.writeStatus [] (scratchDesc sub) (0xF000 + page.val) sub data = .ok)
include ok

/-- A write that the checks accept runs on the array. -/
theorem runWrite_scratch (cut : Option Nat) :
    (s.taken h opWrite (0xF000 + page.val) sub data).runWrite h (0xF000 + page.val) sub data cut =
      (s.taken h opWrite (0xF000 + page.val) sub data).scratchHost page.val sub data cut := by
  unfold runWrite writePath
  simp only [findDesc_scratch page le, scratchDesc_acc, writeStatus_taken, ok]
  rw [if_neg (by decide), if_pos (by omega), Nat.add_sub_cancel_left]

include r

/-- What the write leaves, by what becomes of it on the array. -/
theorem hostScratch_answered {st : Status} {cut : Option Nat} {t : State}
    (host : (s.taken h opWrite (0xF000 + page.val) sub data).scratchHost page.val sub data cut = (some st, t)) :
    s.hostScratch h page.val sub data cut = t.reply h opWrite (0xF000 + page.val) sub st [] := by
  rw [hostScratch_ready r, writeAnswered, runWrite_scratch le ok, host]
  rfl

theorem hostScratch_unanswered {cut : Option Nat} {t : State}
    (host : (s.taken h opWrite (0xF000 + page.val) sub data).scratchHost page.val sub data cut = (none, t)) :
    s.hostScratch h page.val sub data cut = t := by
  rw [hostScratch_ready r, writeAnswered, runWrite_scratch le ok, host]

/-- While the writing of the array is inhibited the request waits unanswered (R230). -/
theorem hostScratch_inhibited (inhibit : s.nvm.writeInhibit = true) (cut : Option Nat) :
    s.hostScratch h page.val sub data cut = s.taken h opWrite (0xF000 + page.val) sub data :=
  hostScratch_unanswered r le ok (scratchHost_inhibited (by rwa [taken_nvm]) ..)

variable (free : s.nvm.writeInhibit = false)
include free

/-- A group that cannot be written ends the write before its first byte (R240). -/
theorem hostScratch_bad (bad : s.rangeBad (scratchStart page.val sub) data.length = true) (cut : Option Nat) :
    s.hostScratch h page.val sub data cut = s.answered h opWrite (0xF000 + page.val) sub .memoryError [] := by
  rw [hostScratch_answered r le ok (scratchHost_bad (by rwa [taken_nvm]) (by rwa [rangeBad_taken]) cut), reply_taken r]

variable (good : s.rangeBad (scratchStart page.val sub) data.length = false)
include good

/-- A write that reaches its end is answered OK (R236). -/
theorem hostScratch_whole : s.hostScratch h page.val sub data none =
    (s.storeBytes (scratchStart page.val sub) data).withLinksOf (s.answered h opWrite (0xF000 + page.val) sub .ok []) := by
  rw [hostScratch_answered r le ok (scratchHost_good (by rwa [taken_nvm]) (by rwa [rangeBad_taken]) none), scratchWrite_whole, reply_done r, storeBytes_taken]
  · simpa [storeBytes, rangeWrote, serves] using r.1
  · rfl
  · rfl

/-- A write that a power loss cuts is never answered (R379). -/
theorem hostScratch_cut (g : Nat) : s.hostScratch h page.val sub data (some g) =
    (s.storeBytes (scratchStart page.val sub) (data.take (8 * g))).withLinksOf (s.taken h opWrite (0xF000 + page.val) sub data) := by
  rw [hostScratch_unanswered r le ok (scratchHost_good (by rwa [taken_nvm]) (by rwa [rangeBad_taken]) (some g)), scratchWrite_cut]
  exact storeBytes_taken s (s.taken h opWrite (0xF000 + page.val) sub data) h ..

end Checked

/-- A request that waits has no response, and nothing but its link knows of it. -/
theorem out_taken (s : State) (h : Requester) (op idx sub : Nat) (b : List Byte) : ((s.taken h op idx sub b).link h.link).out = (s.link h.link).out := by
  rw [taken, link_setLink]

theorem taken_frame (s : State) (h : Requester) (op idx sub : Nat) (b : List Byte) :
    { s.taken h op idx sub b with spi := s.spi, can := s.can } = s := by
  unfold taken
  cases h.link <;> rfl

end State

/-- Settles O43: the checks of a page by its length and its end, and what an accepted write stores, by whether the array takes it. -/
theorem scratchWritesStore : Obligations.ScratchWritesStore := by
  intro s h page ready
  have waits (idx sub : Nat) (b : List Byte) : ((s.taken h opWrite idx sub b).link h.link).out = (s.link h.link).out ∧
      { s.taken h opWrite idx sub b with spi := s.spi, can := s.can } = s := ⟨s.out_taken .., s.taken_frame ..⟩
  refine ⟨fun free => ⟨fun data least most fits => ?_, fun g v => ?_⟩, fun inhibit => ⟨fun data least most fits cut => ?_, fun g v => ?_⟩,
    fun data bad cut => ?_, fun data least most beyond cut => ?_⟩
  · have ok := State.writeStatus_page_ok s page least most fits
    refine ⟨fun good => ?_, fun g good => ?_, fun cut bad => ?_⟩
    · have st := s.storeBytes_stored (s.answered h opWrite (0xF000 + page.val) 0 .ok []) (State.scratchAddr page 0) data
      exact ⟨_, congrArg Host.Outcome.next (State.hostScratch_whole ready (by omega) ok free good), State.answered_links ..,
        st.inside, st.outside, st.nvm, st.frame⟩
    · have st := s.storeBytes_stored (s.taken h opWrite (0xF000 + page.val) 0 data) (State.scratchAddr page 0) (data.take (8 * g))
      refine ⟨_, congrArg Host.Outcome.next (State.hostScratch_cut ready (by omega) ok free good g), ?_,
        fun canonical i lt cut => ?_, fun a out => st.outside a ?_, st.nvm, st.frame⟩
      · exact (waits ..).1
      · refine (st.inside canonical i (by rw [List.length_take]; omega)).trans ?_
        rw [List.getElem?_take_of_lt cut]
      · rw [List.length_take, Nat.min_comm]
        exact out
    · exact congrArg Host.Outcome.next (State.hostScratch_bad ready (by omega) ok free bad cut)
  · have ok := State.writeStatus_group_ok s page g.val v
    have len := leBytes_length 8 v
    refine ⟨fun good => ?_, fun bad => ?_⟩
    · have st := s.storeBytes_stored (s.answered h opWrite (0xF000 + page.val) (g.val + 1) .ok []) (State.scratchAddr page (8 * g.val)) (leBytes 8 v)
      refine ⟨_, congrArg Host.Outcome.next (State.hostScratch_whole ready (by omega) ok free (by rw [len]; exact good)), State.answered_links ..,
        fun canonical i lt => ?_, fun a out => st.outside a ?_, st.nvm, st.frame⟩
      · rw [State.scratchAddr_add]
        exact st.inside canonical i (by rw [len]; exact lt)
      · rw [len, ← State.scratchAddr_add]
        exact out
    · exact congrArg Host.Outcome.next (State.hostScratch_bad ready (by omega) ok free (by rw [len]; exact bad) none)
  · exact ⟨_, congrArg Host.Outcome.next (State.hostScratch_inhibited ready (by omega) (State.writeStatus_page_ok s page least most fits) inhibit cut),
      waits ..⟩
  · exact ⟨_, congrArg Host.Outcome.next (State.hostScratch_inhibited ready (by omega) (State.writeStatus_group_ok s page g.val v) inhibit none),
      waits ..⟩
  · exact congrArg Host.Outcome.next (State.hostScratch_refused ready (by omega) (by decide) (State.writeStatus_page_length s page bad) cut)
  · exact congrArg Host.Outcome.next
      (State.hostScratch_refused ready (by omega) (by decide) (State.writeStatus_page_beyond s page least most beyond) cut)

end Sys2Proof.Machine
end

section
/-! PROOFS. SESSION_CMD: what OPEN and CLOSE do by the state of the session, the conditions of the point and a plate commit (R266, R267, R270). -/

namespace Sys2Proof.Machine

open Sys2Proof
set_option Elab.async false

namespace State

/-! ### Sessions -/

theorem sessions_updSession_same (s : State) (p : Fin 8) (f : Session → Session) : (s.updSession p f).sessions[p] = f s.sessions[p] := by
  simp [updSession]

theorem sessions_updSession_other (s : State) {p q : Fin 8} (h : q ≠ p) (f : Session → Session) :
    (s.updSession p f).sessions[q] = s.sessions[q] := by
  simp [updSession, Fin.val_ne_of_ne (Ne.symm h)]

/-- The session of a point changed, with its SESSION_STATE. -/
def sessionSet (s : State) (p : Fin 8) (v : Int) (f : Session → Session) : State := (s.put (K.SESSION_STATE p) v).updSession p f

theorem sessionSet_touches (s : State) (p : Fin 8) (v : Int) (f : Session → Session) : Touches 72058693549555713 s (s.sessionSet p v f) :=
  ((put_touches ..).mono rfl).trans ((updSession_touches ..).mono rfl)

theorem getN_sessionSet (s : State) (p : Fin 8) (v : Int) (f : Session → Session) (k : Nat) :
    (s.sessionSet p v f).getN k = if k = K.SESSION_STATE p then v else s.getN k := getN_put ..

theorem sessionSet_same (s : State) (p : Fin 8) (v : Int) (f : Session → Session) : (s.sessionSet p v f).sessions[p] = f s.sessions[p] := by
  rw [sessionSet, sessions_updSession_same, put_sessions]

theorem sessionSet_other (s : State) {p q : Fin 8} (h : q ≠ p) (v : Int) (f : Session → Session) :
    (s.sessionSet p v f).sessions[q] = s.sessions[q] := by
  rw [sessionSet, sessions_updSession_other _ h, put_sessions]

/-! ### OPEN and CLOSE (R266, R267, R270) -/

/-- What an accepted OPEN makes of its session (R267). -/
def opened (boundary : Bool) (x : Session) : Session :=
  { x with desc := none, committed := false, openSkip := boundary, closing := false, closeSkip := false, close := none, queued := false, closed := false }

theorem acceptOpen_eq (s : State) (p : Fin 8) : s.acceptOpen p = s.sessionSet p 1 (opened s.points[p].closing.isSome) := rfl

theorem acceptClose_open {s : State} {p : Fin 8} (running : s.getN (K.SESSION_STATE p) = 2) :
    s.acceptClose p = some (s.sessionSet p 3 fun x => { x with closing := true, closeSkip := s.points[p].closing.isSome }) := by
  unfold acceptClose
  exact if_pos running

/-- A session that has neither taken its opening values nor meets a boundary that would is cancelled (R270). -/
theorem acceptClose_opening {s : State} {p : Fin 8} (opening : s.getN (K.SESSION_STATE p) = 1) (stays : s.sessions[p].closing = false)
    (fresh : s.sessions[p].desc = none) (away : s.points[p].closing = none) :
    s.acceptClose p = some (s.sessionSet p 0 fun x => { x with openSkip := false }) := by
  unfold acceptClose
  simp only [fresh, away, stays]
  rw [if_neg (by omega), if_pos opening]
  rfl

theorem acceptClose_refused {s : State} {p : Fin 8} (opening : s.getN (K.SESSION_STATE p) ≠ 1) (running : s.getN (K.SESSION_STATE p) ≠ 2) :
    s.acceptClose p = none := by
  unfold acceptClose
  exact (if_neg running).trans (if_neg opening)

theorem commitRuns_taken (s : State) (h : Requester) (op idx sub : Nat) (b : List Byte) (p : Fin 8) :
    (s.taken h op idx sub b).commitRuns p = s.commitRuns p := by simp [commitRuns]

theorem openOk_taken (s : State) (h : Requester) (op idx sub : Nat) (b : List Byte) (p : Fin 8) :
    (s.taken h op idx sub b).openOk p = s.openOk p := by
  unfold taken
  cases h.link <;> rfl

section Commands

variable {s : State} {p : Fin 8}

theorem sessionCommand_held (h : Requester) (runs : s.commitRuns p = true) :
    s.sessionCommand h p 1 = (none, s.updSession p fun x => { x with held := x.held ++ [h] }) := (if_pos rfl).trans (if_pos runs)

theorem sessionCommand_open (h : Requester) (free : s.commitRuns p = false) :
    s.sessionCommand h p 1 = if s.openOk p then (some .ok, s.acceptOpen p) else (some .wrongState, s) :=
  (if_pos rfl).trans (if_neg (by simp [free]))

theorem sessionCommand_close (h : Requester) {u : State} (ok : s.acceptClose p = some u) : s.sessionCommand h p 2 = (some .ok, u) := by
  simp [sessionCommand, ok]

theorem sessionCommand_close_refused (h : Requester) (no : s.acceptClose p = none) : s.sessionCommand h p 2 = (some .wrongState, s) := by
  simp [sessionCommand, no]

end Commands

/-! ### The write (R377) -/

/-- The row of SESSION_CMD in the entry table. -/
def sessionDesc : Desc := ⟨0xC000, 1, 1, 0, 0, .u 8, .wo, 0, [], .within (1) (2)⟩

theorem findDesc_sessionCmd : ∀ p : Fin 8, findDesc (0xC000 + 0x100 * p.val) 0 = some sessionDesc := by decide +kernel

/-- No mode and no state of the entry refuses SESSION_CMD: every byte is judged as a command. -/
theorem command_session (s : State) (h : Requester) (p : Fin 8) {v : Nat} (fits : v < 256) :
    s.command h sessionDesc (0xC000 + 0x100 * p.val) 0 (leBytes 1 v) = s.sessionCommand h p v := by
  have base : baseIdx (0xC000 + 0x100 * p.val) = 0xC000 := baseIdx_add (b := 0xC000) rfl (by decide) p
  have point : pointOfIdx (0xC000 + 0x100 * p.val) = p.val := pointOfIdx_add (b := 0xC000) rfl (by decide) p
  have val : leNat (leBytes 1 v) = v := leNat_leBytes 1 v fits
  have free : s.stateRefuses (0xC000 + 0x100 * p.val) 0 = false := stateRefuses_free (by omega) (by omega)
  have len : entryLenOk sessionDesc (0xC000 + 0x100 * p.val) 0 (leBytes 1 v).length = true := by
    rw [entryLenOk, if_neg (by omega), leBytes_length]
    rfl
  unfold command
  simp only [val, free, len, base, point, fin_mk_mod]
  rw [if_neg (by omega), if_neg (by omega), if_neg (by decide), if_neg (by omega), if_neg (by decide), if_neg (by omega), if_neg (by omega),
    if_neg (by omega), if_neg (by omega), if_neg (by omega), if_neg (by omega), if_neg (by omega), if_pos trivial]

/-- A command that is not answered yet leaves what it did (R378). -/
theorem hostWrite_waits {s : State} {h : Requester} (r : s.Ready h) {idx sub : Nat} {data : List Byte} {d : Desc} {t : State}
    (hd : findDesc idx sub = some d) (hw : d.acc = .wo) (hc : (s.taken h opWrite idx sub data).command h d idx sub data = (none, t)) :
    s.hostWrite h idx sub data = t := by
  rw [hostWrite_ready r]
  unfold writeAnswered runWrite
  simp only [hd, if_pos hw, hc]

section Writes

variable {s : State} {h : Requester} (r : s.Ready h) {p : Fin 8} {v : Nat} (fits : v < 256)
include r fits

theorem session_refused (no : (s.taken h opWrite (0xC000 + 0x100 * p.val) 0 (leBytes 1 v)).sessionCommand h p v =
      (some .wrongState, s.taken h opWrite (0xC000 + 0x100 * p.val) 0 (leBytes 1 v))) :
    s.hostWrite h (0xC000 + 0x100 * p.val) 0 (leBytes 1 v) = s.answered h opWrite (0xC000 + 0x100 * p.val) 0 .wrongState [] := by
  rw [hostWrite_command r (findDesc_sessionCmd p) rfl ((command_session _ h p fits).trans no), reply_taken r]

/-- An accepted command that sets the session and its SESSION_STATE is answered OK, and changes nothing else. -/
theorem session_accepted {x : Int} {f : Session → Session}
    (ok : (s.taken h opWrite (0xC000 + 0x100 * p.val) 0 (leBytes 1 v)).sessionCommand h p v =
      (some .ok, (s.taken h opWrite (0xC000 + 0x100 * p.val) 0 (leBytes 1 v)).sessionSet p x f)) :
    ∃ t, s.hostWrite h (0xC000 + 0x100 * p.val) 0 (leBytes 1 v) = t ∧ Answered s t h opWrite (0xC000 + 0x100 * p.val) 0 .ok [] ∧
      t.getN (K.SESSION_STATE p) = x ∧ t.sessions[p] = f s.sessions[p] ∧ (∀ k, k ≠ K.SESSION_STATE p → t.getN k = s.getN k) ∧
      (∀ q : Fin 8, q ≠ p → t.sessions[q] = s.sessions[q]) ∧
      { t with nums := s.nums, tab := s.tab, sessions := s.sessions, spi := s.spi, can := s.can } = s := by
  have k := (s.taken h opWrite (0xC000 + 0x100 * p.val) 0 (leBytes 1 v)).sessionSet_touches p x f
  have run : s.hostWrite h (0xC000 + 0x100 * p.val) 0 (leBytes 1 v) =
      ((s.taken h opWrite (0xC000 + 0x100 * p.val) 0 (leBytes 1 v)).sessionSet p x f).withLinksOf
        (s.answered h opWrite (0xC000 + 0x100 * p.val) 0 .ok []) := by
    rw [hostWrite_command r (findDesc_sessionCmd p) rfl ((command_session _ h p fits).trans ok)]
    refine reply_done r ?_ (k.spi (by decide)) (k.can (by decide)) ..
    rw [serves, k.mode (by decide), taken_mode]
    exact r.1
  refine ⟨_, run, answered_links .., ?_, ?_, fun j other => ?_, fun q other => ?_, (Touches.answered (n := 72058899707985921) k).frame⟩
  · rw [getN_withLinksOf, getN_sessionSet, if_pos rfl]
  · rw [withLinksOf_sessions, sessionSet_same, taken_sessions]
  · rw [getN_withLinksOf, getN_sessionSet, if_neg other, getN_taken]
  · rw [withLinksOf_sessions, sessionSet_other _ other, taken_sessions]

end Writes

/-- While a plate commit runs on its point, OPEN is held unanswered (R266). -/
theorem session_held {s : State} {h : Requester} (r : s.Ready h) {p : Fin 8} (runs : s.commitRuns p = true) :
    s.hostWrite h (0xC000 + 0x100 * p.val) 0 (leBytes 1 1) =
      (s.taken h opWrite (0xC000 + 0x100 * p.val) 0 (leBytes 1 1)).updSession p fun x => { x with held := x.held ++ [h] } :=
  hostWrite_waits r (findDesc_sessionCmd p) rfl
    ((command_session _ h p (by decide)).trans (sessionCommand_held h ((commitRuns_taken ..).trans runs)))

end State

/-- Settles O39: OPEN by the commit and by its conditions, CLOSE by SESSION_STATE, and each accepted command by what it makes of its session. -/
theorem sessionCommandsAct : Obligations.SessionCommandsAct := by
  intro s h p r
  refine ⟨fun free ok => ?_, fun free no => ?_, fun runs => ?_, fun running => ?_, fun opening stays fresh away => ?_, fun opening running => ?_⟩
  · obtain ⟨t, run, ans, state, session, entries, others, frame⟩ := State.session_accepted r (p := p) (v := 1) (by decide)
      ((State.sessionCommand_open h ((State.commitRuns_taken ..).trans free)).trans (if_pos ((State.openOk_taken ..).trans ok)))
    exact ⟨t, congrArg Host.Outcome.next run, ans, state, by rw [session], by rw [session], by rw [session], entries, others, frame⟩
  · exact congrArg Host.Outcome.next (State.session_refused r (by decide)
      ((State.sessionCommand_open h ((State.commitRuns_taken ..).trans free)).trans (if_neg (by simp [State.openOk_taken, no]))))
  · have k := (s.taken h opWrite (0xC000 + 0x100 * p.val) 0 (leBytes 1 1)).updSession_touches p fun x => { x with held := x.held ++ [h] }
    refine ⟨_, congrArg Host.Outcome.next (State.session_held r runs), ?_, ?_, ?_⟩
    · rw [State.sessions_updSession_same, State.taken_sessions]
    · exact s.out_taken ..
    · exact Touches.frame (m := 72057800196358144) (((State.setLink_touches ..).mono rfl).trans (k.mono rfl))
  · obtain ⟨t, run, ans, state, session, entries, others, frame⟩ := State.session_accepted r (p := p) (v := 2) (by decide)
      (State.sessionCommand_close h (State.acceptClose_open (by simpa using running)))
    exact ⟨t, congrArg Host.Outcome.next run, ans, state, by rw [session], entries, others, frame⟩
  · obtain ⟨t, run, ans, state, session, entries, others, frame⟩ := State.session_accepted r (p := p) (v := 2) (by decide)
      (State.sessionCommand_close h (State.acceptClose_opening (by simpa using opening) (by simpa using stays) (by simpa using fresh)
        (by simpa using away)))
    exact ⟨t, congrArg Host.Outcome.next run, ans, state, entries, others, frame⟩
  · exact congrArg Host.Outcome.next (State.session_refused r (by decide)
      (State.sessionCommand_close_refused h (State.acceptClose_refused (by simpa using opening) (by simpa using running))))

end Sys2Proof.Machine
end

section
/-! PROOFS. Signing: a record that begins, the hallmark that its signature completes, a record that waited too long, and the random source (R271, R272,
R277 to R280). -/

namespace Sys2Proof.Machine

open Sys2Proof
set_option Elab.async false

namespace State

/-! ### Records on their way to their logs -/

/-- Starting the first waiting record takes none from the queue. -/
theorem startJob_length (s : State) : s.startJob.jobs.length = s.jobs.length := by
  unfold startJob
  cases waiting : s.jobs with
  | nil => simp [waiting]
  | cons j rest => cases seq : j.seq <;> simp [seq, waiting]

/-- A record that has its sequence already is not rewritten when the first one starts. -/
theorem mem_startJob {s : State} {j : RecJob} (queued : j ∈ s.jobs) (numbered : j.seq ≠ none) : j ∈ s.startJob.jobs := by
  unfold startJob
  cases waiting : s.jobs with
  | nil => simp [waiting] at queued
  | cons first rest =>
    cases seq : first.seq with
    | none =>
      have later : j ∈ rest := (List.mem_cons.1 (waiting ▸ queued)).resolve_left fun e => numbered (e ▸ seq)
      simp [seq, later]
    | some q => simpa [seq] using queued

theorem queueRecord_length (s : State) (j : RecJob) : (s.queueRecord j).jobs.length = s.jobs.length + 1 := by
  rw [queueRecord, startJob_length, List.length_append, List.length_singleton]

theorem mem_queueRecord (s : State) {j : RecJob} (numbered : j.seq ≠ none) : j ∈ (s.queueRecord j).jobs :=
  mem_startJob (List.mem_append_right _ (List.mem_singleton.2 rfl)) numbered

/-! ### A hallmark goes to the ring (R271, R277) -/

theorem mem_storeHallmark (s : State) (p : Fin 8) (seq : Nat) (body sig : List Byte) :
    (⟨.ring, body ++ sig, some seq, 0, some p⟩ : RecJob) ∈ (s.storeHallmark p seq body sig).jobs := mem_queueRecord _ nofun

theorem storeHallmark_length (s : State) (p : Fin 8) (seq : Nat) (body sig : List Byte) :
    (s.storeHallmark p seq body sig).jobs.length = s.jobs.length + 1 := queueRecord_length ..

/-- The engine is free of the record's run, and its point waits no more. -/
theorem storeHallmark_sign_own {s : State} {r : SignRun} (run : s.sign.run = some r) (seq : Nat) (body sig : List Byte) :
    (s.storeHallmark r.point seq body sig).sign = { s.sign with run := none, queue := s.sign.queue.filter (· ≠ r.point) } := by
  simp [storeHallmark, run]

/-- A run of another point goes on. -/
theorem storeHallmark_sign_other {s : State} {p : Fin 8} (other : ∀ r, s.sign.run = some r → r.point ≠ p) (seq : Nat) (body sig : List Byte) :
    (s.storeHallmark p seq body sig).sign = { s.sign with queue := s.sign.queue.filter (· ≠ p) } := by
  cases run : s.sign.run with
  | none => simp [storeHallmark, run]
  | some r => simp [storeHallmark, run, other r run]

theorem getN_storeHallmark (s : State) (p : Fin 8) (seq : Nat) (body sig : List Byte) (k : Nat) :
    (s.storeHallmark p seq body sig).getN k = s.getN k := getN_queueRecord ..

/-! ### SIGN_START (R272, R278) -/

theorem signStart_begins {s : State} {p : Fin 8} {rest : List (Fin 8)} (first : s.sign.queue = p :: rest) (idle : s.sign.run = none)
    (on : s.serves = true) (healthy : s.getN K.RNG_STATE = 0) (clear : ∀ j ∈ s.jobs, j.log ≠ .ring) :
    s.signStart =
      { s with sign := { s.sign with run := some ⟨p, s.rtc, none, 0, []⟩ }, twins := s.twins ++ [.signing (s.keyChoice p)] } := by
  unfold signStart
  simp only [first, idle]
  exact if_pos ⟨on, healthy, by simpa using clear⟩

theorem signStart_waits {s : State} (absent : s.sign.queue = [] ∨ s.sign.run ≠ none ∨ s.serves = false ∨ s.getN K.RNG_STATE ≠ 0 ∨
    ∃ j ∈ s.jobs, j.log = .ring) : s.signStart = s := by
  unfold signStart
  cases first : s.sign.queue with
  | nil => rfl
  | cons p rest =>
    cases idle : s.sign.run with
    | some r => rfl
    | none =>
      refine if_neg ?_
      rintro ⟨on, healthy, clear⟩
      rcases absent with no | no | no | no | ⟨j, mem, ring⟩
      · simp [first] at no
      · exact no idle
      · simp [no] at on
      · exact no healthy
      · exact of_decide_eq_true (List.all_eq_true.1 clear j mem) ring

/-! ### SIGNATURE_DONE (R279) -/

theorem getN_raise_other (s : State) {k j : Nat} (other : j ≠ k) (v : Nat) : (s.raise k v).getN j = s.getN j := by
  unfold raise
  split
  · rw [getN_put, if_neg other]
  · rfl

/-- One signature more, with its free value taken. -/
def signCounted (s : State) : State := s.fresh.2.addWrap 32 K.SIGN_COUNT 1

/-- The signature of a run counted, and the time that it took. -/
def signed (s : State) (r : SignRun) : State :=
  s.signCounted.raise K.SIGN_WORST (min ((s.signCounted.rtc - r.started) / 1000) 65535)

/-- The 64 bytes of the record's signature, with a nonce of a fresh free value. -/
def signature (s : State) (r : SignRun) : List Byte :=
  let sig := P256.sign r.priv (Config.nonce s.free % (P256.n - 1) + 1) (sha256Nat r.body)
  leBytes 32 sig.1 ++ leBytes 32 sig.2

theorem signature_length (s : State) (r : SignRun) : (s.signature r).length = 64 := by simp [signature]

theorem signed_touches (s : State) (r : SignRun) : Touches 1099511627785 s (s.signed r) :=
  (((fresh_touches ..).mono rfl).trans ((addWrap_touches ..).mono rfl)).trans ((raise_touches ..).mono rfl)

theorem getN_signed (s : State) (r : SignRun) : (s.signed r).getN K.SIGN_COUNT = (wrapAdd 32 (s.getU K.SIGN_COUNT) 1 : Nat) := by
  rw [signed, getN_raise_other _ (by decide), signCounted, getN_addWrap, if_pos rfl]
  rfl

theorem signatureDone_stores {s : State} {r : SignRun} {k : KeyChoice} {c : CloseData} (run : s.sign.run = some r) (key : r.key = some k)
    (close : s.sessions[r.point].close = some c) : s.signatureDone = (s.signed r).storeHallmark r.point c.seq r.body (s.signature r) := by
  unfold signatureDone
  simp only [run, key, close]
  rfl

theorem signatureDone_idle {s : State}
    (absent : s.sign.run = none ∨ ∃ r, s.sign.run = some r ∧ (r.key = none ∨ s.sessions[r.point].close = none)) : s.signatureDone = s := by
  unfold signatureDone
  rcases absent with idle | ⟨r, run, keyless | unclosed⟩
  · simp only [idle]
  · simp only [run, keyless]
  · cases key : r.key <;> simp only [run, unclosed, key]

/-! ### SIGN_WAIT_TIMEOUT (R277, R280) -/

theorem storeUnsigned_eq {s : State} {p : Fin 8} {d : Descriptor} {c : CloseData} (desc : s.sessions[p].desc = some d)
    (close : s.sessions[p].close = some c) (n : Nat) : s.storeUnsigned p n =
      (s.addSat 32 K.UNSIGNED_COUNT 1).storeHallmark p c.seq (s.hallmark p d c (.unsigned n) s.prevDigest) (List.replicate 64 0) := by
  unfold storeUnsigned
  simp only [desc, close]

theorem signTimeout_stores {s : State} {p : Fin 8} (waits : p ∈ s.sign.queue) (failed : s.getN K.RNG_STATE ≠ 0)
    (other : ∀ r, s.sign.run = some r → r.point ≠ p) : s.signTimeout p = s.storeUnsigned p 5 := by
  refine if_pos ⟨waits, failed, ?_⟩
  cases run : s.sign.run with
  | none => rfl
  | some r => exact decide_eq_true (other r run)

theorem signTimeout_idle {s : State} {p : Fin 8}
    (absent : p ∉ s.sign.queue ∨ s.getN K.RNG_STATE = 0 ∨ ∃ r, s.sign.run = some r ∧ r.point = p) : s.signTimeout p = s := by
  refine if_neg ?_
  rintro ⟨waits, failed, other⟩
  rcases absent with no | no | ⟨r, run, own⟩
  · exact no waits
  · exact failed no
  · simp [run, own] at other

/-! ### The random source (R280) -/

theorem rngFailed_dormant {s : State} (off : s.mode = .dormant) (test : Nat) : s.rngFailed test = s := if_pos off

theorem rngFailed_on {s : State} (on : s.mode ≠ .dormant) (test : Nat) : s.rngFailed test = s.rngFailure test := if_neg on

theorem getN_rngFailure (s : State) (test : Nat) : (s.rngFailure test).getN K.RNG_STATE = 2 ∧
    (s.rngFailure test).getN K.RNG_FAIL = (satAdd 32 (s.getU K.RNG_FAIL) 1 : Nat) := by
  have count : (s.setN K.RNG_STATE 2).getU K.RNG_FAIL = s.getU K.RNG_FAIL := congrArg Int.toNat (getN_setN_other s (by decide) 2)
  unfold rngFailure
  rw [getN_health, getN_health, getN_addSat, getN_addSat, if_neg (by decide), if_pos rfl, getN_setN_same, count]
  exact ⟨rfl, rfl⟩

theorem rngReady_dormant {s : State} (off : s.mode = .dormant) : s.rngReady = s := if_pos off

theorem rngReady_on {s : State} (on : s.mode ≠ .dormant) : s.rngReady = s.setN K.RNG_STATE 0 := if_neg on

/-! ### The rows -/

theorem signatureDone_row {s : State} {r : SignRun} {k : KeyChoice} {c : CloseData} (run : s.sign.run = some r) (key : r.key = some k)
    (close : s.sessions[r.point].close = some c) : ∃ t sig, exec .signatureDone s = .next t ∧
      sig.length = 64 ∧ (⟨.ring, r.body ++ sig, some c.seq, 0, some r.point⟩ : RecJob) ∈ t.jobs ∧ t.jobs.length = s.jobs.length + 1 ∧
      t.sign = { s.sign with run := none, queue := s.sign.queue.filter (· ≠ r.point) } ∧
      t.getN K.SIGN_COUNT = (wrapAdd 32 (s.getU K.SIGN_COUNT) 1 : Nat) ∧
      { t with nums := s.nums, free := s.free, jobs := s.jobs, logs := s.logs, tab := s.tab, sign := s.sign } = s := by
  have stores := signatureDone_stores run key close
  have counted := s.signed_touches r
  have sign : (s.signed r).sign = s.sign := counted.sign (by decide)
  have jobs : (s.signed r).jobs = s.jobs := counted.jobs (by decide)
  refine ⟨_, s.signature r, congrArg Host.Outcome.next stores, s.signature_length r, mem_storeHallmark .., ?_, ?_, ?_, ?_⟩
  · rw [storeHallmark_length, jobs]
  · rw [storeHallmark_sign_own (sign ▸ run), sign]
  · rw [getN_storeHallmark, getN_signed]
  · exact (stores ▸ s.signatureDone_touches).frame

theorem signTimeout_row {s : State} {p : Fin 8} {d : Descriptor} {c : CloseData} (waits : p ∈ s.sign.queue) (failed : s.getN K.RNG_STATE ≠ 0)
    (other : ∀ r, s.sign.run = some r → r.point ≠ p) (desc : s.sessions[p].desc = some d) (close : s.sessions[p].close = some c) :
    ∃ t, exec (.signWaitTimeout p) s = .next t ∧
      (⟨.ring, s.hallmark p d c (.unsigned 5) s.prevDigest ++ List.replicate 64 0, some c.seq, 0, some p⟩ : RecJob) ∈ t.jobs ∧
      t.sign = { s.sign with queue := s.sign.queue.filter (· ≠ p) } ∧
      t.getN K.UNSIGNED_COUNT = (satAdd 32 (s.getU K.UNSIGNED_COUNT) 1 : Nat) ∧
      { t with nums := s.nums, jobs := s.jobs, logs := s.logs, tab := s.tab, sign := s.sign } = s := by
  have stores := (signTimeout_stores waits failed other).trans (storeUnsigned_eq desc close 5)
  have sign : (s.addSat 32 K.UNSIGNED_COUNT 1).sign = s.sign := (addSat_touches ..).sign (by decide)
  refine ⟨_, congrArg Host.Outcome.next stores, mem_storeHallmark .., ?_, ?_, ?_⟩
  · rw [storeHallmark_sign_other (sign ▸ other), sign]
  · rw [getN_storeHallmark, getN_addSat, if_pos rfl]
  · exact (stores ▸ s.signTimeout_touches p).frame

end State

/-- Settles O54: each occurrence by the branch that its condition takes, what it stores by the hallmark's job, and its frame by what it may touch. -/
theorem signingProceeds : Obligations.SigningProceeds := by
  refine fun s => ⟨fun p rest first idle on healthy clear => congrArg Host.Outcome.next (State.signStart_begins first idle on healthy clear),
    fun absent => congrArg Host.Outcome.next (State.signStart_waits absent), fun r k c run key close => State.signatureDone_row run key close,
    fun absent => congrArg Host.Outcome.next (State.signatureDone_idle absent),
    fun p d c waits failed other desc close => State.signTimeout_row waits failed other desc close,
    fun p absent => congrArg Host.Outcome.next (State.signTimeout_idle absent),
    fun test => ⟨fun off => congrArg Host.Outcome.next (State.rngFailed_dormant off test), fun on => ?_⟩,
    fun off => congrArg Host.Outcome.next (State.rngReady_dormant off), fun on => ?_⟩
  · obtain ⟨state, count⟩ := s.getN_rngFailure test
    exact ⟨_, congrArg Host.Outcome.next (State.rngFailed_on on test), state, count, (s.rngFailure_touches test).frame⟩
  · exact ⟨_, congrArg Host.Outcome.next (State.rngReady_on on), s.getN_setN_same .., fun k other => s.getN_setN_other other 0,
      (s.setN_touches K.RNG_STATE 0).frame⟩

end Sys2Proof.Machine
end

section
/-! PROOFS. Writes of volatile entries: they act at once, HOST_IMAGE on the host region's target and STRING_CFG on its string (R301, R378, R432). -/

namespace Sys2Proof.Machine

open Sys2Proof
set_option Elab.async false

/-- A region that takes an image for its target at a time: left where the image is its target already, pending while it runs, otherwise due
(R300, R301). -/
def Region.aimed (r : Region) (img time : Nat) : Region :=
  if img = r.pending.getD r.target then r
  else if r.running then { r with pending := some img }
  else { r with target := img, due := true, dueTime := time }

namespace State

/-! ### The volatile path (R378) -/

/-- A write of a volatile entry whose class and own rule accept it acts at once and is answered OK: no state of R376 refuses it (R377, R378). -/
theorem hostWrite_volatile {s : State} {h : Requester} (r : s.Ready h) {idx sub : Nat} {data : List Byte} {d : Desc} {v : Val}
    (volatile : isVolatileEntry idx = true) (hd : findDesc idx sub = some d) (acc : d.acc ≠ .wo) (cls : s.classStatus d = .ok)
    (rule : d.rule = .special) (len : d.ty.lenOk data.length = true) (valid : d.ty.valid data = true) (dec : d.ty.decode data = v)
    (ok : (s.foreseen []).specialOk idx sub v = true) :
    s.hostWrite h idx sub data =
      ((s.taken h opWrite idx sub data).writeNow idx sub v).withLinksOf (s.answered h opWrite idx sub .ok []) := by
  have range : idx = 0x8009 ∨ idx = 0xD000 := by simpa [isVolatileEntry] using volatile
  have base : baseIdx idx = idx := by rcases range with rfl | rfl <;> decide
  have val : s.entryValueOk [] d idx sub data = true := by
    rw [entryValueOk, if_neg (by omega), valid, dec, valueOk_special rule (by omega) (by omega), ok]
    rfl
  have st : s.writeStatus [] d idx sub data = .ok :=
    writeStatus_ok cls (stateRefuses_free (by omega) (by omega)) (by rw [entryLenOk, if_neg (by omega), len]) val
  have k := writeNow_touches (s.taken h opWrite idx sub data) idx sub v
  rw [hostWrite_now r hd acc st (by omega) (.inr volatile) dec]
  refine reply_done r ?_ (k.spi (by decide)) (k.can (by decide)) ..
  rw [serves, k.mode (by decide), taken_mode]
  exact r.1

/-! ### The host region's target (R300, R301) -/

/-- A region's segments are those that METRO_MASK gives it (R294). -/
theorem regionMask_congr {s t : State} (mask : t.getB K.METRO_MASK = s.getB K.METRO_MASK) (host : Bool) : t.regionMask host = s.regionMask host := by
  rw [regionMask, mask, regionMask]

/-- The pump's start is no region's and changes nothing shown (R293). -/
theorem pumpOn_regions (s : State) :
    s.pumpOn.disp.host = s.disp.host ∧ s.pumpOn.disp.metro = s.disp.metro ∧ s.pumpOn.disp.shown = s.disp.shown := by
  unfold pumpOn
  split <;> exact ⟨rfl, rfl, rfl⟩

theorem host_setTarget (s : State) (img : Nat) : (s.setTarget true img).disp.host = s.disp.host.aimed (img &&& s.regionMask true) s.rtc := by
  unfold setTarget region Region.aimed
  dsimp only
  rw [if_pos rfl]
  split
  · rfl
  split
  · rfl
  · exact (pumpOn_regions _).1

/-- The metrological region and the image shown are left. -/
theorem metro_setTarget_host (s : State) (img : Nat) :
    (s.setTarget true img).disp.metro = s.disp.metro ∧ (s.setTarget true img).disp.shown = s.disp.shown := by
  have dropped : (s.addSat 32 K.DROPPED_TARGETS 1).disp = s.disp := (addSat_touches ..).disp (by decide)
  have metro := congrArg Display.metro dropped
  have shown := congrArg Display.shown dropped
  unfold setTarget region
  dsimp only
  rw [if_pos rfl]
  split
  · exact ⟨rfl, rfl⟩
  split
  · split
    · exact ⟨metro, shown⟩
    · exact ⟨rfl, rfl⟩
  · exact (pumpOn_regions _).2

theorem writeNow_hostImage (u : State) (image : List Byte) :
    u.writeNow 0x8009 0 (.bytes image) = (u.setB K.HOST_IMAGE image).setTarget true (leNat image) := rfl

theorem specialOk_hostImage (u : State) (v : Val) : u.specialOk 0x8009 0 v = decide (v.nat &&& u.regionMask false = 0) := rfl

theorem hostImage_acts {s : State} {h : Requester} (r : s.Ready h) {image : List Byte} (len : image.length = 24)
    (own : leNat image &&& (s.foreseen []).regionMask false = 0) :
    ∃ t, exec (.hostImage h image) s = .next t ∧ Answered s t h opWrite 0x8009 0 .ok [] ∧ t.getB K.HOST_IMAGE = image ∧
      t.disp.host = s.disp.host.aimed (leNat image &&& s.regionMask true) s.rtc ∧ t.disp.metro = s.disp.metro ∧ t.disp.shown = s.disp.shown ∧
      { t with disp := s.disp, blobs := s.blobs, nums := s.nums, tab := s.tab, spi := s.spi, can := s.can } = s := by
  have hd : findDesc 0x8009 0 = some ⟨0x8009, 1, 1, 0, 0, .blob 24, .rw, 0, [], .special⟩ := by decide +kernel
  have run := hostWrite_volatile r (by decide) hd (by decide) (classStatus_rw rfl) rfl (decide_eq_true len) rfl rfl
    ((specialOk_hostImage ..).trans (decide_eq_true own))
  let u := (s.taken h opWrite 0x8009 0 image).setB K.HOST_IMAGE image
  have aim := u.setTarget_touches true (leNat image)
  have mask : u.regionMask true = s.regionMask true :=
    regionMask_congr (((getB_setB ..).trans (if_neg (by decide))).trans (getB_congr (taken_blobs ..) _)) true
  have disp : u.disp = s.disp := taken_disp ..
  have rtc : u.rtc = s.rtc := taken_rtc ..
  refine ⟨_, congrArg Host.Outcome.next run, answered_links .., ?_, ?_, ?_, ?_,
    (Touches.answered (n := 288231681821769731) (.trans ((setB_touches ..).mono rfl) (aim.mono (n := 288231475663339523) rfl))).frame⟩
  · exact (getB_congr (aim.blobs (by decide)) _).trans ((getB_setB ..).trans (if_pos rfl))
  · exact (u.host_setTarget (leNat image)).trans (by rw [mask, disp, rtc])
  · exact (u.metro_setTarget_host (leNat image)).1.trans (congrArg Display.metro disp)
  · exact (u.metro_setTarget_host (leNat image)).2.trans (congrArg Display.shown disp)

/-! ### Strings (R432) -/

/-- The entries of the strings, 0xD0xx (Table 15.2). -/
def StringKey (k : Nat) : Prop := k / 0x10000 = 0xD0

theorem getN_sessionTaint_string {k : Nat} (string : StringKey k) (s : State) : s.sessionTaint.getN k = s.getN k := by
  have other (p : Fin 8) : k ≠ K.SESSION_TAGS p := by
    unfold StringKey at string
    unfold K.SESSION_TAGS
    omega
  refine forEach_field (getN · k) _ _ s fun p _ u => ?_
  dsimp only
  split
  · rw [addTags, getN_setQ, if_neg (other p)]
  · rfl
  · rfl

theorem getN_demandFlag_string {k : Nat} (string : StringKey k) (s : State) (b : Nat) : (s.demandFlag b).getN k = s.getN k := by
  have other (p : Fin 8) : k ≠ K.DMD_STATUS_NOW p := by
    unfold StringKey at string
    unfold K.DMD_STATUS_NOW
    omega
  refine forEach_field (getN · k) _ _ s fun p _ u => ?_
  split
  · exact getN_updPoint ..
  · rw [getN_put, if_neg (other p)]

theorem getN_compose_string {k : Nat} (string : StringKey k) (s : State) : s.compose.getN k = s.getN k := by
  refine (DispOnly.compose s).nums k ?_
  unfold StringKey at string
  unfold K.DROPPED_TARGETS
  omega

/-- The state with a string's word in place and its hits at 0 (R432). -/
def stringLoaded (s : State) (i : Fin 8) (w : Nat) : State :=
  { (s.setN (K.STRING_CFG (i + 1)) (w : Nat)).setN (K.STRING_HITS (i + 1)) 0 with stringReads := s.stringReads.set i 0 }

theorem getN_stringLoaded (s : State) (i : Fin 8) (w k : Nat) : (s.stringLoaded i w).getN k =
    if k = K.STRING_HITS (i + 1) then 0 else if k = K.STRING_CFG (i + 1) then (w : Int) else s.getN k :=
  (getN_setN ..).trans (if_congr Iff.rfl rfl (getN_setN ..))

/-- The taut strings once a word makes its string taut or slack. -/
def tautWith (s : State) (i : Fin 8) (w : Nat) : Nat := if bit w 63 then setBit (s.getU K.STRING_TAUT) i else clearBit (s.getU K.STRING_TAUT) i

@[simp] theorem tautWith_taken (s : State) (h : Requester) (op idx sub : Nat) (b : List Byte) (i : Fin 8) (w : Nat) :
    (s.taken h op idx sub b).tautWith i w = s.tautWith i w := by simp [tautWith]

/-- What a STRING_CFG write does beside its string: a change between taint and no taint is recorded (R438). -/
theorem setString_eq (s : State) (i : Fin 8) (w : Nat) : s.setString i w =
    if s.getU K.STRING_TAUT ≠ 0 ∧ s.tautWith i w = 0 then
      ((((s.stringLoaded i w).health 19 0xFF (s.getU K.STRING_TAUT)).setN K.STRING_TAUT 0).setN K.TAINT_SINCE (s.stringLoaded i w).now).compose
    else if s.getU K.STRING_TAUT = 0 ∧ s.tautWith i w ≠ 0 then
      (((((s.stringLoaded i w).setN K.STRING_TAUT (s.tautWith i w : Nat)).health 18 0xFF (s.tautWith i w)).setN K.TAINT_SINCE
        ((s.stringLoaded i w).setN K.STRING_TAUT (s.tautWith i w : Nat)).now).sessionTaint.demandFlag 4).compose
    else (s.stringLoaded i w).setN K.STRING_TAUT (s.tautWith i w : Nat) := rfl

/-- Of the entries of the strings a STRING_CFG write sets its word, its hits, the taut strings and the time of a change of taint alone (R432,
R438). -/
theorem getN_setString (s : State) (i : Fin 8) (w : Nat) {k : Nat} (string : StringKey k) (now : k ≠ K.TAINT_SINCE) :
    (s.setString i w).getN k = if k = K.STRING_TAUT then (s.tautWith i w : Int) else (s.stringLoaded i w).getN k := by
  rw [setString_eq]
  split
  · next released =>
    rw [getN_compose_string string, getN_setN_other _ now, getN_setN, getN_health, released.2]
    rfl
  split
  · rw [getN_compose_string string, getN_demandFlag_string string, getN_sessionTaint_string string, getN_setN_other _ now, getN_health, getN_setN]
  · exact getN_setN ..

theorem writeNow_stringCfg (u : State) (i : Fin 8) (v : Val) : u.writeNow 0xD000 (i.val + 1) v = u.setString i v.nat :=
  congrArg (u.setString · v.nat) (fin_mk_mod i _)

theorem specialOk_stringCfg (u : State) (sub : Nat) (v : Val) : u.specialOk 0xD000 sub v = u.stringCfgOk v.nat := rfl

theorem stringCfg_acts {s : State} {h : Requester} (r : s.Ready h) (i : Fin 8) {w : Nat} (on : s.inService = true) (fits : w < 2 ^ 64)
    (ok : (s.foreseen []).stringCfgOk w = true) :
    ∃ t, exec (.stringCfg h i w) s = .next t ∧ Answered s t h opWrite 0xD000 (i.val + 1) .ok [] ∧ t.getN (K.STRING_CFG (i + 1)) = w ∧
      t.getN (K.STRING_HITS (i + 1)) = 0 ∧ t.getU K.STRING_TAUT = s.tautWith i w := by
  have hd : ∀ i : Fin 8, findDesc 0xD000 (i.val + 1) = some ⟨0xD000, 1, 1, 1, 8, .u 64, .rws, 0, [], .special⟩ := by decide +kernel
  have run := hostWrite_volatile r (by decide) (hd i) (by decide) (classStatus_rws rfl on) rfl
    (by rw [leBytes_length]; rfl) rfl (congrArg (fun n : Nat => Val.num n) (leNat_leBytes 8 w fits)) ((specialOk_stringCfg ..).trans ok)
  rw [writeNow_stringCfg] at run
  refine ⟨_, congrArg Host.Outcome.next run, answered_links .., ?_, ?_, ?_⟩
  · rw [getN_withLinksOf, getN_setString _ _ _ (by unfold StringKey K.STRING_CFG; omega) (by unfold K.STRING_CFG K.TAINT_SINCE; omega),
      if_neg (by unfold K.STRING_CFG K.STRING_TAUT; omega), getN_stringLoaded, if_neg (by unfold K.STRING_CFG K.STRING_HITS; omega), if_pos rfl]
    rfl
  · rw [getN_withLinksOf, getN_setString _ _ _ (by unfold StringKey K.STRING_HITS; omega) (by unfold K.STRING_HITS K.TAINT_SINCE; omega),
      if_neg (by unfold K.STRING_HITS K.STRING_TAUT; omega), getN_stringLoaded, if_pos rfl]
  · rw [getU, getN_withLinksOf, getN_setString _ _ _ (by unfold StringKey K.STRING_TAUT; omega) (by decide), if_pos rfl, Int.toNat_natCast,
      tautWith_taken]
    rfl

end State

/-- Settles O32: both entries take the volatile path, which no state of a serving device refuses. -/
theorem volatileWritesActAtOnce : Obligations.VolatileWritesActAtOnce := by
  intro s h r
  exact ⟨fun image len own => State.hostImage_acts r len own, fun i w on fits ok => State.stringCfg_acts r i on fits ok⟩

end Sys2Proof.Machine
end

section
/-! PROOFS. The tamper sources: what an event, a strobed sample and a check do to a source, decisions, and the backup domain (R318 to R320, R324,
R334). -/

namespace Sys2Proof.Machine

open Sys2Proof

/-- What the strobes and the checks of a source move: ACTIVE and the two counts of consecutive samples (R318, R319). -/
structure Levels where
  active : Bool
  high : Nat
  low : Nat

/-- The levels of a source. -/
def TamperSrc.levels (x : TamperSrc) : Levels := ⟨x.active, x.high, x.low⟩

/-- The levels after one more sample of a ball, by DEBOUNCE and whether the sample is at the active level (R318, R319). -/
def Levels.strobed (x : Levels) (debounce : Nat) (act : Bool) : Levels :=
  if act then ⟨x.active || decide (debounce ≤ x.high + 1), min (x.high + 1) 255, 0⟩
  else ⟨x.active && decide (x.low + 1 < debounce), 0, min (x.low + 1) 255⟩

/-- A source of which the backup domain has kept nothing. -/
def TamperSrc.lost (x : TamperSrc) : TamperSrc :=
  { x with first := none, dormant := 0, late := 0, latched := false, counting := false, count := 0, active := false, high := 0, low := 0 }

namespace State

/-! ### One source of the sixteen -/

theorem src_updSrc (s : State) (n : Fin 16) (f : TamperSrc → TamperSrc) : (s.updSrc n f).src n = f (s.src n) := by simp [src, updSrc]

theorem src_updSrc_other (s : State) {n m : Fin 16} (h : n ≠ m) (f : TamperSrc → TamperSrc) : (s.updSrc n f).src m = s.src m := by
  simp [src, updSrc, Fin.val_ne_of_ne h]

theorem src_put (s : State) (k : Nat) (v : Int) (m : Fin 16) : (s.put k v).src m = s.src m := by simp [src]

theorem src_addSat (s : State) (w k d : Nat) (m : Fin 16) : (s.addSat w k d).src m = s.src m := src_put ..

theorem src_syncSrc (s : State) (n m : Fin 16) : (s.syncSrc n).src m = s.src m := src_put ..

theorem src_keepMarks (s : State) (m : Fin 16) : s.keepMarks.src m = s.src m := rfl

theorem src_atTime (s : State) (time : Nat) (m : Fin 16) : (s.at' time).src m = s.src m := rfl

/-- A part of a source that an update leaves, in whichever source it is made. -/
theorem part_updSrc {β : Type} (g : TamperSrc → β) {f : TamperSrc → TamperSrc} (keeps : ∀ x, g (f x) = g x) (s : State) (n m : Fin 16) :
    g ((s.updSrc n f).src m) = g (s.src m) := by
  by_cases h : n = m
  · subst h
    rw [src_updSrc, keeps]
  · rw [src_updSrc_other s h]

/-- Setting a sticky flag moves nothing of a source but whether a write cleared it (R322). -/
theorem part_setSticky {β : Type} (g : TamperSrc → β) (keeps : ∀ x c, g { x with cleared := c } = g x) (s : State) (n m : Fin 16) :
    g ((s.setSticky n).src m) = g (s.src m) := by
  have rearmed (u : State) : g (((u.addSat 32 (K.TAMPER_REARM (n + 1)) 1).updSrc n fun x => { x with cleared := false }).src m) = g (u.src m) := by
    rw [part_updSrc g (keeps · false), src_addSat]
  unfold setSticky
  dsimp only
  split <;> split
  · rw [rearmed, src_put]
  · rw [src_put]
  · rw [src_keepMarks, rearmed, src_put]
  · rw [src_keepMarks, src_put]

/-! ### Events and alarms (R320, R321) -/

theorem levels_alarm (s : State) (n m : Fin 16) (point value : Nat) : ((s.alarm n point value).src m).levels = (s.src m).levels := by
  unfold alarm
  split
  · exact part_updSrc TamperSrc.levels (by exact fun _ => rfl) _ n m
  · dsimp only
    rw [part_updSrc TamperSrc.levels (by exact fun _ => rfl), src_put, src_addSat, part_setSticky TamperSrc.levels fun _ _ => rfl]

/-- An event is counted, or its alarm is raised: no level moves. -/
theorem levels_counted {f g : TamperSrc → TamperSrc} (hf : ∀ x, (f x).levels = x.levels) (hg : ∀ x, (g x).levels = x.levels) (s : State)
    (n m : Fin 16) (c point value : Nat) :
    ((if s.srcCount n ≤ c then ((s.updSrc n f).alarm n point value).syncSrc n else (s.updSrc n g).syncSrc n).src m).levels = (s.src m).levels := by
  split
  · rw [src_syncSrc, levels_alarm, part_updSrc _ hf]
  · rw [src_syncSrc, part_updSrc _ hg]

/-- An event moves no level, of its own source or another. -/
theorem levels_source (s : State) (n m : Fin 16) (v : Nat) : ((s.source n v).src m).levels = (s.src m).levels := by
  unfold source
  split
  · rfl
  split
  · rfl
  refine levels_counted ?_ ?_ ..
  · exact fun _ => rfl
  · exact fun _ => rfl

/-- An alarm while VDD33 is good waits for the arbiter (R321). -/
theorem waiting_alarm {s : State} (main : s.mainOn = true) (n : Fin 16) (point value : Nat) :
    ((s.alarm n point value).src n).waiting = (s.src n).waiting + 1 := by
  unfold alarm
  rw [if_neg (by simp [main])]
  dsimp only
  rw [src_updSrc, src_put, src_addSat]
  exact congrArg (· + 1) (part_setSticky TamperSrc.waiting (fun _ _ => rfl) s n n)

/-- It counts in its source's counter. -/
theorem getN_alarm_count {s : State} (main : s.mainOn = true) (n : Fin 16) (point value : Nat) :
    (s.alarm n point value).getN (K.ALARM_COUNT (n + 1)) = (satAdd 32 (s.getU (K.ALARM_COUNT (n + 1))) 1 : Nat) := by
  have kept : (s.setSticky n).getN (K.ALARM_COUNT (n + 1)) = s.getN (K.ALARM_COUNT (n + 1)) :=
    (TamperOnly.setSticky (p := fun k => k = K.ALARM_COUNT (n + 1)) (by unfold K.TAMPER_STATUS K.ALARM_COUNT; omega)
      (by unfold K.TAMPER_REARM K.ALARM_COUNT; omega)).nums _ rfl
  have last : K.ALARM_COUNT (n + 1) ≠ K.LAST_ALARM (n + 1) := by unfold K.LAST_ALARM K.ALARM_COUNT; omega
  unfold alarm
  rw [if_neg (by simp [main])]
  show State.getN (put _ _ _) _ = _
  rw [getN_put, if_neg last, getN_addSat, if_pos rfl, getU, kept]
  rfl

/-- With no event counted before and COUNT at most 1 an event of a source but T5 is an alarm (R320). -/
theorem source_alarms {s : State} {n : Fin 16} (main : s.mainOn = true) (fused : s.srcFused n = false) (other : n ≠ 5)
    (idle : (s.src n).counting = false) (once : s.srcCount n ≤ 1) (v : Nat) :
    s.source n v = ((s.updSrc n fun x => { x with counting := false, count := 0 }).alarm n 0xFF (if n = 6 then v else 0)).syncSrc n := by
  unfold source
  simp only [main, fused, other, idle, once, false_and, and_false, or_self, Bool.false_and, Bool.false_eq_true, Bool.true_eq_false, if_false, if_true]

theorem source_counts {s : State} {n : Fin 16} (main : s.mainOn = true) (fused : s.srcFused n = false) (other : n ≠ 5)
    (idle : (s.src n).counting = false) (once : s.srcCount n ≤ 1) (v : Nat) :
    (s.source n v).getN (K.ALARM_COUNT (n + 1)) = (satAdd 32 (s.getU (K.ALARM_COUNT (n + 1))) 1 : Nat) ∧
    ((s.source n v).src n).waiting = (s.src n).waiting + 1 := by
  have still : (s.updSrc n fun x => { x with counting := false, count := 0 }).mainOn = true := main
  rw [source_alarms main fused other idle once]
  refine ⟨?_, ?_⟩
  · rw [syncSrc, getN_put, if_neg (by unfold K.ALARM_COUNT K.SRC_STATE; omega), getN_alarm_count still]
    rfl
  · rw [src_syncSrc, waiting_alarm still, src_updSrc]

/-! ### ACTIVE, strobes and checks (R318, R319) -/

theorem src_setActive (s : State) (n : Fin 16) (on : Bool) : (s.setActive n on).src n = { s.src n with active := on } := by
  rw [setActive, src_syncSrc, src_updSrc]

theorem src_setActive_other (s : State) {n m : Fin 16} (h : n ≠ m) (on : Bool) : (s.setActive n on).src m = s.src m := by
  rw [setActive, src_syncSrc, src_updSrc_other s h]

theorem setActive_only (s : State) (n : Fin 16) (on : Bool) : TamperOnly (fun k => ¬ TamperOnly.entries n k) s (s.setActive n on) :=
  (TamperOnly.updSrc ..).trans (.syncSrc fun no => no (by simp [TamperOnly.entries]))

/-- The sources' levels after a sample of a ball: its own by DEBOUNCE, the others as they were. -/
theorem levels_strobe (s : State) (n : Fin 16) (high : Bool) : ((s.strobe n high).src n).levels =
    (s.src n).levels.strobed (s.getU (K.SRC_PARAM (n + 1)) % 256) (high != bit (s.getU (K.SRC_PARAM (n + 1))) 15) := by
  unfold strobe Levels.strobed
  dsimp only
  split
  next act =>
    split
    next ends =>
      obtain ⟨long, _⟩ := ends
      rw [levels_source, src_setActive, src_updSrc]
      simp [TamperSrc.levels, long]
    next goes =>
      rw [src_updSrc]
      have kept : (s.src n).active = ((s.src n).active || decide (s.getU (K.SRC_PARAM (n + 1)) % 256 ≤ (s.src n).high + 1)) := by
        cases active : (s.src n).active
        · exact (decide_eq_false fun long => goes ⟨long, active⟩).symm
        · rfl
      exact congrArg (Levels.mk · _ _) kept
  next quiet =>
    split
    next ends =>
      obtain ⟨long, _⟩ := ends
      rw [src_setActive, src_updSrc]
      simp [TamperSrc.levels, Nat.not_lt.2 long]
    next goes =>
      rw [src_updSrc]
      have kept : (s.src n).active = ((s.src n).active && decide ((s.src n).low + 1 < s.getU (K.SRC_PARAM (n + 1)) % 256)) := by
        cases active : (s.src n).active
        · rfl
        · exact (decide_eq_true (Nat.lt_of_not_le fun long => goes ⟨long, active⟩)).symm
      exact congrArg (Levels.mk · _ _) kept

theorem levels_strobe_other (s : State) {n m : Fin 16} (h : n ≠ m) (high : Bool) : ((s.strobe n high).src m).levels = (s.src m).levels := by
  unfold strobe
  dsimp only
  split
  · split
    · rw [levels_source, src_setActive_other _ h, src_updSrc_other s h]
    · rw [src_updSrc_other s h]
  · split
    · rw [src_setActive_other _ h, src_updSrc_other s h]
    · rw [src_updSrc_other s h]

theorem strobe_only (s : State) (n : Fin 16) (high : Bool) : TamperOnly (fun k => ¬ TamperOnly.entries n k) s (s.strobe n high) := by
  unfold strobe
  dsimp only
  split
  · split
    · exact ((TamperOnly.updSrc ..).trans (setActive_only ..)).trans (.source ..)
    · exact .updSrc ..
  · split
    · exact (TamperOnly.updSrc ..).trans (setActive_only ..)
    · exact .updSrc ..

theorem getU_param_strobe (s : State) (n m : Fin 16) (high : Bool) : (s.strobe n high).getU (K.SRC_PARAM (m + 1)) = s.getU (K.SRC_PARAM (m + 1)) :=
  congrArg Int.toNat <| (strobe_only ..).nums _ <| by
    simp only [TamperOnly.entries, K.SRC_PARAM, K.TAMPER_STATUS, K.TAMPER_REARM, K.ALARM_COUNT, K.LAST_ALARM, K.SRC_STATE]
    omega

/-- TAMPER_STROBE samples each of the three balls once. -/
theorem levels_strobes (s : State) (time : Nat) (lv : Fin 3 → Bool) (i : Fin 3) {n : Fin 16} (own : n.val = i.val) :
    ((s.strobes time (lv 0) (lv 1) (lv 2)).src n).levels =
      (s.src n).levels.strobed (s.getU (K.SRC_PARAM (n + 1)) % 256) (lv i != bit (s.getU (K.SRC_PARAM (n + 1))) 15) := by
  unfold strobes
  match i with
  | 0 =>
    obtain rfl : n = 0 := Fin.ext own
    rw [levels_strobe_other _ (by decide), levels_strobe_other _ (by decide), levels_strobe]
    rfl
  | 1 =>
    obtain rfl : n = 1 := Fin.ext own
    rw [levels_strobe_other _ (by decide), levels_strobe, getU_param_strobe, levels_strobe_other _ (by decide)]
    rfl
  | 2 =>
    obtain rfl : n = 2 := Fin.ext own
    rw [levels_strobe, getU_param_strobe, getU_param_strobe, levels_strobe_other _ (by decide), levels_strobe_other _ (by decide)]
    rfl

/-- A passing check ends ACTIVE and the run of failing ones. -/
theorem levels_checkRun_good (s : State) (n : Fin 16) (k : Nat) : ((s.checkRun n k false).src n).levels = ⟨false, 0, (s.src n).low⟩ := by
  show ((setActive _ n false).src n).levels = _
  rw [src_setActive, src_updSrc]
  rfl

theorem high_checkRun_bad (s : State) (n : Fin 16) (k : Nat) : ((s.checkRun n k true).src n).high = min ((s.src n).high + 1) k := by
  unfold checkRun
  dsimp only
  rw [if_pos rfl]
  split
  · refine (congrArg Levels.high (levels_source ..)).trans ?_
    rw [src_setActive, src_updSrc]
    rfl
  · rw [src_updSrc]

theorem checkRun_only (s : State) (n : Fin 16) (k : Nat) (bad : Bool) : TamperOnly (fun j => ¬ TamperOnly.entries n j) s (s.checkRun n k bad) := by
  unfold checkRun
  dsimp only
  split
  · split
    · exact ((TamperOnly.updSrc ..).trans (setActive_only ..)).trans (.source ..)
    · exact .updSrc ..
  · exact (TamperOnly.updSrc ..).trans (setActive_only ..)

/-! ### The rows of the sources -/

/-- The event with which a source becomes ACTIVE leaves it ACTIVE (R318, R319). -/
theorem active_setActive_source (s : State) (n : Fin 16) (v : Nat) : (((s.setActive n true).source n v).src n).active = true := by
  refine (congrArg Levels.active (levels_source ..)).trans ?_
  rw [src_setActive]
  rfl

theorem tamperStrobe_row (s : State) (time : Nat) (lv : Fin 3 → Bool) :
    ∃ t, exec (.tamperStrobe time (lv 0) (lv 1) (lv 2)) s = .next t ∧ t.rtc = max s.rtc time ∧
      (∀ (i : Fin 3) (n : Fin 16), n.val = i.val →
        ((lv i != bit (s.getU (K.SRC_PARAM (n + 1))) 15) = true → (t.src n).high = min ((s.src n).high + 1) 255 ∧ (t.src n).low = 0 ∧
          (t.src n).active = ((s.src n).active || decide (s.getU (K.SRC_PARAM (n + 1)) % 256 ≤ (s.src n).high + 1))) ∧
        ((lv i != bit (s.getU (K.SRC_PARAM (n + 1))) 15) = false → (t.src n).low = min ((s.src n).low + 1) 255 ∧ (t.src n).high = 0 ∧
          (t.src n).active = ((s.src n).active && decide ((s.src n).low + 1 < s.getU (K.SRC_PARAM (n + 1)) % 256)))) ∧
      { t with nums := s.nums, rtc := s.rtc, journal := s.journal, tab := s.tab, tamper := s.tamper } = s := by
  have rest := (strobe_touches (s.at' time) 0 (lv 0)).trans ((strobe_touches _ 1 (lv 1)).trans (strobe_touches _ 2 (lv 2)))
  refine ⟨_, rfl, rest.rtc (by decide), fun i n own => ?_, (strobes_touches ..).frame⟩
  have moved := levels_strobes s time lv i own
  refine ⟨fun act => ?_, fun quiet => ?_⟩
  · rw [act] at moved
    exact ⟨congrArg Levels.high moved, congrArg Levels.low moved, congrArg Levels.active moved⟩
  · rw [quiet] at moved
    exact ⟨congrArg Levels.low moved, congrArg Levels.high moved, congrArg Levels.active moved⟩

/-- From `s` to `t` the clock moves on, a source is ACTIVE as its level or its check says, and beside it only what its events write changes. -/
structure Sensed (s t : State) (n : Fin 16) (time : Nat) (on : Bool) : Prop where
  rtc : t.rtc = max s.rtc time
  active : (t.src n).active = on
  touches : Touches 576461856110018817 s t

theorem sensed_rise (s : State) (n : Fin 16) (time : Nat) : Sensed s (((s.at' time).setActive n true).source n 0) n time true where
  rtc := ((source_touches ..).rtc (by decide)).trans ((setActive_touches ..).rtc (by decide))
  active := active_setActive_source ..
  touches := ((at'_touches ..).mono rfl).trans (((setActive_touches ..).mono rfl).trans ((source_touches ..).mono rfl))

theorem sensed_fall (s : State) (n : Fin 16) (time : Nat) : Sensed s ((s.at' time).setActive n false) n time false where
  rtc := (setActive_touches ..).rtc (by decide)
  active := congrArg TamperSrc.active (src_setActive ..)
  touches := ((at'_touches ..).mono rfl).trans ((setActive_touches ..).mono rfl)

theorem sensed_lightRise (s : State) (time : Nat) : Sensed s (s.lightRise time) 10 time true := by
  unfold lightRise
  dsimp only
  split
  next lit => exact ⟨rfl, lit, (at'_touches ..).mono rfl⟩
  · exact sensed_rise s 10 time

theorem sensed_rtcClock (s : State) (time : Nat) (bad : Bool) : Sensed s (s.rtcClock time bad) 7 time bad := by
  cases bad
  · exact sensed_fall s 7 time
  · exact sensed_rise s 7 time

/-- LIGHT, LIGHT_FALL and RTC_CLOCK. -/
theorem level_row {s : State} {c : Instr} {n : Fin 16} {time : Nat} {on : Bool}
    (row : (c = .light time ∧ n = 10 ∧ on = true) ∨ (c = .lightFall time ∧ n = 10 ∧ on = false) ∨ (c = .rtcClock time on ∧ n = 7)) :
    ∃ t, exec c s = .next t ∧ Sensed s t n time on := by
  rcases row with ⟨rfl, rfl, rfl⟩ | ⟨rfl, rfl, rfl⟩ | ⟨rfl, rfl⟩
  · exact ⟨_, rfl, sensed_lightRise ..⟩
  · exact ⟨_, rfl, sensed_fall ..⟩
  · exact ⟨_, rfl, sensed_rtcClock ..⟩

theorem refClock_off {s : State} (off : s.mainOn = false) (bad : Bool) : s.refClock bad = s := if_pos off

theorem active_refClock {s : State} (main : s.mainOn = true) (bad : Bool) : ((s.refClock bad).src 9).active = bad := by
  have on : s.mainOn ≠ false := by simp [main]
  unfold refClock
  rw [if_neg on]
  cases bad
  · exact congrArg TamperSrc.active (src_setActive s 9 false)
  · exact active_setActive_source s 9 0

theorem svcStrap_idle {s : State} (absent : s.sealed = false ∨ s.svc.svc = false ∨ s.serviceAccess = true) : s.svcStrap = s := by
  refine if_neg ?_
  rintro ⟨sealed, high, closed⟩
  rcases absent with no | no | no
  · simp [no] at sealed
  · simp [no] at high
  · simp [no] at closed

/-- GLITCH, and SVC_STRAP where it counts: an event of T8, of T15. -/
theorem event_row {s : State} {c : Instr} {n : Fin 16} {time : Nat} (row : (c = .glitch time ∧ n = 8) ∨
      (c = .svcStrap ∧ n = 15 ∧ time = 0 ∧ s.sealed = true ∧ s.svc.svc = true ∧ s.serviceAccess = false))
    (main : s.mainOn = true) (fused : s.srcFused n = false) (idle : (s.src n).counting = false) (once : s.srcCount n ≤ 1) :
    ∃ t, exec c s = .next t ∧ t.getN (K.ALARM_COUNT (n + 1)) = (satAdd 32 (s.getU (K.ALARM_COUNT (n + 1))) 1 : Nat) ∧
      (t.src n).waiting = (s.src n).waiting + 1 ∧
      { t with nums := s.nums, rtc := s.rtc, journal := s.journal, tab := s.tab, tamper := s.tamper } = s := by
  rcases row with ⟨rfl, rfl⟩ | ⟨rfl, rfl, rfl, sealed, high, closed⟩
  · obtain ⟨count, waiting⟩ := source_counts (s := s.at' time) main fused (by decide) idle once 0
    exact ⟨_, rfl, count, waiting, (s.glitchAt_touches time).frame⟩
  · obtain ⟨count, waiting⟩ := source_counts main fused (by decide) idle once 0
    have event : s.svcStrap = s.source 15 0 := if_pos ⟨sealed, high, closed⟩
    exact ⟨_, congrArg Host.Outcome.next event, count, waiting, ((source_touches ..).mono (n := 576461856110018817) rfl).frame⟩

/-- A check with its measured value: the value stands, and the run of failing checks goes on or ends (R318, R319). -/
theorem measured_checkRun (s : State) (time : Nat) {k : Nat} {n : Fin 16} (other : ¬ TamperOnly.entries n k) (v : Int) (m : Nat) (bad : Bool) :
    (((s.at' time).put k v).checkRun n m bad).rtc = max s.rtc time ∧ (((s.at' time).put k v).checkRun n m bad).getN k = v ∧
    (bad = false → ((((s.at' time).put k v).checkRun n m bad).src n).active = false ∧
      ((((s.at' time).put k v).checkRun n m bad).src n).high = 0) ∧
    (bad = true → ((((s.at' time).put k v).checkRun n m bad).src n).high = min ((s.src n).high + 1) m) := by
  refine ⟨?_, ?_, ?_, ?_⟩
  · exact ((checkRun_touches ..).rtc (by decide)).trans (put_rtc ..)
  · exact ((checkRun_only ..).nums _ other).trans ((getN_put ..).trans (if_pos rfl))
  · rintro rfl
    have passes := levels_checkRun_good ((s.at' time).put k v) n m
    exact ⟨congrArg Levels.active passes, congrArg Levels.high passes⟩
  · rintro rfl
    rw [high_checkRun_bad, src_put, src_atTime]

theorem vbatCheck_row (s : State) (time mv : Nat) : ∃ t, exec (.vbatCheck time mv) s = .next t ∧ t.rtc = max s.rtc time ∧
    t.getN K.VBAT_MV = (mv : Nat) ∧
    (2200 ≤ mv → (t.src 3).active = false ∧ (t.src 3).high = 0) ∧ (mv < 2200 → (t.src 3).high = min ((s.src 3).high + 1) 4) ∧
    { t with nums := s.nums, rtc := s.rtc, journal := s.journal, tab := s.tab, tamper := s.tamper } = s := by
  obtain ⟨rtc, value, good, bad⟩ := s.measured_checkRun time (k := K.VBAT_MV) (n := 3) (by unfold TamperOnly.entries; decide) (mv : Nat) 4
    (decide (mv < 2200))
  exact ⟨s.vbatCheck time mv, rfl, rtc, value, fun enough => good (decide_eq_false (Nat.not_lt.2 enough)), fun low => bad (decide_eq_true low),
    (vbatCheck_touches ..).frame⟩

theorem dieTempCheck_row (s : State) (time : Nat) (x : Int) : ∃ t, exec (.dieTempCheck time x) s = .next t ∧ t.rtc = max s.rtc time ∧
    t.getN K.DIE_TEMP = x ∧ (-5000 ≤ x → x ≤ 12500 → (t.src 4).active = false ∧ (t.src 4).high = 0) ∧
    (x < -5000 ∨ 12500 < x → (t.src 4).high = min ((s.src 4).high + 1) 2) ∧
    { t with nums := s.nums, rtc := s.rtc, journal := s.journal, tab := s.tab, tamper := s.tamper } = s := by
  obtain ⟨rtc, value, good, bad⟩ := s.measured_checkRun time (k := K.DIE_TEMP) (n := 4) (by unfold TamperOnly.entries; decide) x 2
    (decide (x < -5000) || decide (12500 < x))
  exact ⟨s.dieTempCheck time x, rfl, rtc, value, fun low high => good (by simp [low, high]), fun out => bad (by simpa using out),
    (dieTempCheck_touches ..).frame⟩

/-! ### Windows and decisions (R320, R324) -/

theorem windowOver_passed {s : State} {n : Fin 16} (counting : (s.src n).counting = true) (passed : (s.src n).start + s.srcWindow n * 1000000 < s.rtc) :
    s.windowOver n = (s.updSrc n fun x => { x with counting := false, count := 0 }).syncSrc n := if_pos ⟨counting, passed⟩

theorem windowOver_runs {s : State} {n : Fin 16} (runs : (s.src n).counting = false ∨ s.rtc ≤ (s.src n).start + s.srcWindow n * 1000000) :
    s.windowOver n = s := by
  refine if_neg ?_
  rintro ⟨counting, passed⟩
  rcases runs with no | no
  · simp [no] at counting
  · exact Nat.not_lt.2 no passed

theorem windowExpiry_row {s : State} {n : Fin 16} {time : Nat} (counting : (s.src n).counting = true)
    (passed : (s.src n).start + s.srcWindow n * 1000000 < max s.rtc time) : ∃ t, exec (.tamperWindowExpiry n time) s = .next t ∧
      t.src n = { s.src n with counting := false, count := 0 } ∧ { t with nums := s.nums, rtc := s.rtc, tab := s.tab, tamper := s.tamper } = s := by
  have ends := windowOver_passed (s := s.at' time) counting passed
  have touched := ((s.at'_touches time).mono rfl).trans (((s.at' time).windowOver_touches n).mono (n := 576461851815051521) rfl)
  refine ⟨_, rfl, ?_, touched.frame⟩
  rw [ends, src_syncSrc, src_updSrc, src_atTime]

theorem beginDecision_idle {s : State} (absent : s.alarmSet false = [] ∨ s.tamper.run.isSome = true ∨ s.mainOn = false) : s.beginDecision = s :=
  if_pos (absent.imp_right (Or.imp_right .inl))

/-- The decision over every waiting alarm, which waits no longer. -/
theorem beginDecision_starts {s : State} (alarms : s.alarmSet false ≠ []) (free : s.tamper.run = none) (main : s.mainOn = true)
    (mode : s.mode ≠ .recalling) : ∃ t c, exec .tamperDecision s = .next t ∧ t.tamper.run = some ⟨s.alarmSet false, c, s.rtc, s.index⟩ ∧ t.twins = s.twins ++ [.decision] ∧
      (∀ a ∈ s.alarmSet false, (t.src a.source).waiting = 0) ∧ { t with twins := s.twins, tamper := s.tamper } = s := by
  have taken := s.takeSet_touches (s.alarmSet false)
  have starts : s.beginDecision = { s.takeSet (s.alarmSet false) with
      tamper := { (s.takeSet (s.alarmSet false)).tamper with
        run := some ⟨s.alarmSet false, (s.takeSet (s.alarmSet false)).selectClass (s.alarmSet false), (s.takeSet (s.alarmSet false)).rtc,
          (s.takeSet (s.alarmSet false)).index⟩ }
      twins := (s.takeSet (s.alarmSet false)).twins ++ [.decision] } :=
    if_neg (by simp [alarms, free, main, mode])
  refine ⟨_, (s.takeSet (s.alarmSet false)).selectClass (s.alarmSet false), congrArg Host.Outcome.next starts, ?_, ?_, fun a mem => ?_,
    (starts ▸ s.beginDecision_touches).frame⟩
  · show some _ = some _
    rw [taken.rtc (by decide), taken.index (by decide)]
  · show (s.takeSet _).twins ++ _ = _
    rw [taken.twins (by decide)]
  · refine forEach_reach (fun u => (u.src a.source).waiting = 0) mem (fun u => ?_) (fun b _ u none => ?_) s
    · rw [src_updSrc]
    · by_cases own : b.source = a.source
      · rw [own, src_updSrc]
      · rw [src_updSrc_other u own]
        exact none

/-! ### The backup domain (R334) -/

/-- The clock, the latch and the copies of TAMPER_STATUS lost. -/
def backupLost (s : State) : State :=
  { s with
    rtc := 0, lockLatch := false, svc := { s.svc with lossKept := false }
    tamper := { s.tamper with backupStatus := 0, backupMarks := 0, backupLost := true } }.setN K.RTC_VALID 0

theorem backupReset_powered {s : State} (on : s.mode ≠ .dormant) : s.backupReset = s := by
  unfold backupReset
  split
  · contradiction
  · rfl

theorem backupReset_dormant {s : State} (off : s.mode = .dormant) :
    s.backupReset = forEach allSources (fun n u => u.updSrc n TamperSrc.lost) s.backupLost := by
  unfold backupReset
  split
  · rfl
  next on => exact absurd off on

/-- What is not a source stands after the reset as the loss left it. -/
theorem part_backupReset {β : Type} (g : State → β) (keeps : ∀ (u : State) (n : Fin 16), g (u.updSrc n TamperSrc.lost) = g u) {s : State}
    (off : s.mode = .dormant) : g s.backupReset = g s.backupLost := by
  rw [backupReset_dormant off]
  exact forEach_field g _ _ _ fun n _ u => keeps u n

theorem backupReset_row {s : State} (off : s.mode = .dormant) : ∃ t, exec .backupDomainReset s = .next t ∧ t.rtc = 0 ∧ t.lockLatch = false ∧
    t.getN K.RTC_VALID = 0 ∧ t.tamper.backupLost = true ∧ (∀ k, k ≠ K.RTC_VALID → t.getN k = s.getN k) ∧
    { t with nums := s.nums, rtc := s.rtc, lockLatch := s.lockLatch, tamper := s.tamper, svc := s.svc } = s :=
  ⟨s.backupReset, rfl, part_backupReset State.rtc (fun _ _ => rfl) off, part_backupReset State.lockLatch (fun _ _ => rfl) off,
    (part_backupReset (getN · K.RTC_VALID) (fun _ _ => rfl) off).trans (getN_setN_same ..),
    part_backupReset (fun u => u.tamper.backupLost) (fun _ _ => rfl) off,
    fun k other => (part_backupReset (getN · k) (fun _ _ => rfl) off).trans (getN_setN_other _ other 0), s.backupReset_touches.frame⟩

end State
end Sys2Proof.Machine
end

section
/-! PROOFS. SERVICE and its end, sealing, the second evaluation of ENTER_SERVICE and the lane retest (R275, R347, R351, R352, R354, R355, R441). -/

namespace Sys2Proof.Machine

open Sys2Proof

namespace State

/-! ### SERVICE ends (R347, R352, R355) -/

theorem serviceEnd_closed {s : State} (closed : s.serviceAccess = false) : s.serviceEnd = s := if_pos closed

theorem serviceEnd_sealing {s : State} (access : s.serviceAccess = true) (sealing : s.sealing = true) :
    s.serviceEnd = { s with svc := { s.svc with exitDue := true } } := by
  unfold serviceEnd
  rw [if_neg (by simp [access]), if_pos sealing]

theorem serviceEnd_service {s : State} (access : s.serviceAccess = true) (idle : s.sealing = false) (service : s.decided = .service) :
    s.serviceEnd = { s with modeNext := some .metering } := by
  unfold serviceEnd
  rw [if_neg (by simp [access]), if_neg (by simp [idle]), service]

/-- The debounced level of SVC stands. -/
def svcLevel (s : State) (level : Bool) : State := { s with svc := { s.svc with svc := level } }

theorem svcChange_off {s : State} (off : s.mainOn = false) (level : Bool) : s.svcChange level = s := if_pos off

theorem svcChange_high {s : State} (main : s.mainOn = true) : s.svcChange true = s.svcLevel true := if_neg (by simp [main])

theorem svcChange_low {s : State} (main : s.mainOn = true) : s.svcChange false = (s.svcLevel false).serviceEnd := if_neg (by simp [main])

theorem svcChange_kept {s : State} (main : s.mainOn = true) {level : Bool} (stays : level = true ∨ s.serviceAccess = false) :
    s.svcChange level = s.svcLevel level := by
  cases level with
  | true => exact svcChange_high main
  | false =>
    have closed : s.serviceAccess = false := stays.resolve_left nofun
    exact (svcChange_low main).trans (serviceEnd_closed (s := s.svcLevel false) closed)

theorem svcChange_ends {s : State} (main : s.mainOn = true) (access : s.serviceAccess = true) (service : s.decided = .service)
    (idle : s.sealing = false) : s.svcChange false = { s with svc := { s.svc with svc := false }, modeNext := some .metering } :=
  (svcChange_low main).trans (serviceEnd_service (s := s.svcLevel false) access idle service)

/-! ### Sealing (R275, R354, R355) -/

theorem keygenDone_idle {s : State} (other : s.svc.sealStep ≠ .keygen) (failed : Nat) : s.keygenDone failed = s := by
  unfold keygenDone
  split
  · contradiction
  · rfl

/-- The end of a sequence on which no exit waits. -/
theorem sealOver_stays {s : State} (stays : s.svc.exitDue = false) :
    s.sealOver = { s with svc := { s.svc with sealStep := .none, sealHistory := false, exitDue := false } } := if_neg (by simp [stays])

/-- Key generation has failed three times: reason 8, no key, a health record (R275, R354). -/
def keygenFailed (s : State) : State :=
  let u := (s.skipFresh 3).setN K.SEAL_REASON 8
  { u with sign := { u.sign with prodKey := none } }.health 20 0xFF 1

theorem keygenDone_fails {s : State} (step : s.svc.sealStep = .keygen) {failed : Nat} (many : 3 ≤ failed) :
    s.keygenDone failed = s.keygenFailed.sealOver := by
  unfold keygenDone
  split
  · exact if_pos many
  next other => exact absurd step other

theorem keygenFails_row {s : State} (step : s.svc.sealStep = .keygen) {failed : Nat} (many : 3 ≤ failed) (stays : s.svc.exitDue = false) :
    ∃ t, exec (.sealKeygenDone failed) s = .next t ∧ t.getN K.SEAL_REASON = 8 ∧ t.svc.sealStep = .none ∧ t.sign.prodKey = none := by
  have ended : s.keygenFailed.sealOver = { s.keygenFailed with
      svc := { s.keygenFailed.svc with sealStep := .none, sealHistory := false, exitDue := false } } :=
    sealOver_stays (by rw [keygenFailed, health_svc]; exact stays)
  refine ⟨_, congrArg Host.Outcome.next ((keygenDone_fails step many).trans ended), ?_, rfl, ?_⟩
  · exact (getN_health ..).trans (getN_setN_same (s.skipFresh 3) K.SEAL_REASON 8)
  · exact congrArg SignSt.prodKey (health_sign ..)

/-- The production key of a sequence that goes on to the statute units. -/
def keygenKept (s : State) (failed : Nat) : State :=
  let f := (s.skipFresh failed).fresh
  { f.2 with sign := { f.2.sign with prodKey := some (privOf f.1) }, svc := { f.2.svc with sealStep := .statute } }

theorem keygenDone_passes {s : State} (step : s.svc.sealStep = .keygen) {failed : Nat} (few : failed < 3) :
    s.keygenDone failed = (s.keygenKept failed).queueStatute (pubBytes (privOf (s.skipFresh failed).fresh.1)) := by
  unfold keygenDone
  split
  · exact if_neg (Nat.not_le.2 few)
  next other => exact absurd step other

theorem queueStatute_svc (s : State) (pub : List Byte) : (s.queueStatute pub).svc = { s.svc with statute := (s.freeBytes 32).1 } := by
  unfold queueStatute
  dsimp only
  rw [queueUnit_svc]
  have units (u : State) : (forEach (List.range 5) (fun _ u => u.queueUnit ⟨[], 2048, .statute false⟩) u).svc = u.svc :=
    forEach_field State.svc _ _ u fun _ _ _ => rfl
  rw [units, queueUnit_svc, (freeBytes_touches ..).svc (by decide)]

theorem keygenPasses_row {s : State} (step : s.svc.sealStep = .keygen) {failed : Nat} (few : failed < 3) :
    ∃ t, exec (.sealKeygenDone failed) s = .next t ∧ t.svc.sealStep = .statute ∧ t.sign.prodKey.isSome = true := by
  refine ⟨_, congrArg Host.Outcome.next (keygenDone_passes step few), ?_, ?_⟩
  · rw [queueStatute_svc]
    rfl
  · rw [(queueStatute_touches ..).sign (by decide)]
    rfl

theorem sealFuse_idle {s : State} (absent : s.svc.sealStep ≠ .fuse ∨ s.svc.sealHistory = true) (o : StatuteObs) : s.sealFuse o = s := by
  unfold sealFuse
  split
  next step => exact if_pos (absent.resolve_left fun other => other step)
  · rfl

/-- The statute page with its digest is in force (R243). -/
def statuteInForce (s : State) : State := { s.setB K.STATUTE_DIGEST s.svc.statute with sealedRef := Vector.ofFn fun p => s.plateSet p }

/-- The SEAL fuse and KEY_STATE are set. -/
def fuseBlown (s : State) : State :=
  (s.setN K.FUSE_MAP ((s.getU K.FUSE_MAP ||| 2 ^ 31 : Nat) : Int)).setN K.KEY_STATE (if s.sign.destroyed then 3 else 2)

/-- Both statute copies are good, and the SEAL history records are due. -/
def pageLocked (s : State) : State := { s with nvm := { s.nvm with statAOk := true, statBOk := true }, svc := { s.svc with sealHistory := true } }

/-- The seal checkpoint begins with the values of R119 zeroed, in place of one that runs. -/
def sealCheckpoint (s : State) : State := { s.zeroRegisters with store := { s.store with writing := none } }.ckptBegin

/-- After the zeroing it moves the store alone. -/
theorem sealCheckpoint_touches (s : State) : Touches 8589934592 s.zeroRegisters s.sealCheckpoint :=
  (Touches.upd (.refl _)).trans (ckptBegin_touches _)

theorem sealFuse_sets {s : State} (step : s.svc.sealStep = .fuse) (first : s.svc.sealHistory = false) {o : StatuteObs}
    (good : (o.a1 && o.a2 && o.b1 && o.b2) = true) : s.sealFuse o = s.statuteInForce.fuseBlown.pageLocked.sealCheckpoint := by
  unfold sealFuse
  split
  · rw [if_neg (by simp [first]), if_neg (by simp [good])]
    rfl
  next other => exact absurd step other

/-- The entries that R119 zeroes are those of points and pulse outputs. -/
theorem getN_zeroRegisters {k : Nat} (other : K.FUSE_MAP ≤ k) (s : State) : s.zeroRegisters.getN k = s.getN k := by
  refine forEach_field (getN · k) _ _ s fun p _ u => ?_
  refine (forEach_field (getN · k) _ _ _ fun j hj u => ?_).trans (forEach_field (getN · k) _ _ u fun i _ u => ?_)
  · rw [getN_put, if_neg]
    unfold K.FUSE_MAP at other
    rintro rfl
    simp only [List.mem_cons, List.not_mem_nil, or_false, K.DMD_IMPORT, K.DMD_EXPORT, K.DMD_IMPORT_LAST, K.DMD_EXPORT_LAST, K.DMD_P_IMPORT_LAST,
      K.DMD_P_EXPORT_LAST, K.MAX_DMD_IMPORT, K.MAX_DMD_IMPORT_TIME, K.MAX_DMD_EXPORT, K.MAX_DMD_EXPORT_TIME, K.PULSE_ACC] at hj
    omega
  · unfold K.FUSE_MAP at other
    rw [getN_put, getN_put, getN_put, getN_put]
    unfold K.ENERGY K.RESIDUE K.DISPUTED K.DISPUTED_RESIDUE
    rw [if_neg (by omega), if_neg (by omega), if_neg (by omega), if_neg (by omega)]

theorem getN_fuseBlown (s : State) : s.fuseBlown.getN K.FUSE_MAP = (s.getU K.FUSE_MAP ||| 2 ^ 31 : Nat) :=
  (getN_setN_other _ (by decide) _).trans (getN_setN_same ..)

theorem sealFuse_row {s : State} (step : s.svc.sealStep = .fuse) (first : s.svc.sealHistory = false) {o : StatuteObs}
    (good : (o.a1 && o.a2 && o.b1 && o.b2) = true) : ∃ t, exec (.sealFuseSet o) s = .next t ∧
      t.getN K.FUSE_MAP = (s.getU K.FUSE_MAP ||| 2 ^ 31 : Nat) ∧ t.getB K.STATUTE_DIGEST = s.svc.statute ∧ t.svc.sealHistory = true := by
  refine ⟨_, congrArg Host.Outcome.next (sealFuse_sets step first good), ?_, ?_, ?_⟩
  · rw [getN_congr ((sealCheckpoint_touches _).nums (by decide)), getN_zeroRegisters (Nat.le_refl _)]
    exact getN_fuseBlown s.statuteInForce
  · rw [getB_congr ((sealCheckpoint_touches _).blobs (by decide)), getB_congr ((zeroRegisters_touches _).blobs (by decide))]
    exact (getB_setB s K.STATUTE_DIGEST K.STATUTE_DIGEST s.svc.statute).trans (if_pos rfl)
  · rw [(sealCheckpoint_touches _).svc (by decide), (zeroRegisters_touches _).svc (by decide)]
    rfl

/-! ### The second evaluation of ENTER_SERVICE (R351) -/

theorem twinEvaluation_none {s : State} {i : Nat} (absent : s.twins[i]? = none) (fault : Option Nat) : s.twinEvaluation i fault = s := by
  unfold twinEvaluation
  rw [absent]

/-- The decision taken off the list. -/
def twinDone (s : State) (i : Nat) : State := { s with twins := s.twins.eraseIdx i }

theorem twinEvaluation_enters {s : State} {i : Nat} {h : Requester} (waits : s.twins[i]? = some (.enterService h true)) (ok : s.enterOk = true) :
    s.twinEvaluation i none = (s.twinDone i).enterAccepted.replyWrite h 0x1022 0 .ok := by
  have still : (s.twinDone i).enterOk = true := ok
  unfold twinEvaluation
  rw [waits]
  show (s.twinDone i).enterTwin h true false = _
  unfold enterTwin
  rw [if_neg (by simp [still]), if_neg (by simp)]

/-- An accepted entry before the transition that it decides: counted, and its time kept for SERVICE_MAX (R351, R352). -/
def entered (s : State) : State :=
  { s.addSat 32 K.SERVICE_COUNT 1 with svc := { s.svc with entered := s.rtc, exitDue := false } }

theorem getN_entered (s : State) : s.entered.getN K.SERVICE_COUNT = (satAdd 32 (s.getU K.SERVICE_COUNT) 1 : Nat) :=
  (getN_addSat ..).trans (if_pos rfl)

theorem entered_twins (s : State) : s.entered.twins = s.twins := (s.addSat_touches 32 K.SERVICE_COUNT 1).twins (by decide)

theorem entered_decided (s : State) : s.entered.decided = s.decided :=
  congrArg₂ Option.getD ((s.addSat_touches 32 K.SERVICE_COUNT 1).modeNext (by decide)) ((s.addSat_touches 32 K.SERVICE_COUNT 1).mode (by decide))

/-- In LOCKDOWN an accepted entry sets ATTENDED (R351). -/
theorem enterAccepted_lockdown {s : State} (lockdown : s.decided = .lockdown) : s.enterAccepted = { s.entered with attended := true } := by
  unfold enterAccepted
  dsimp only
  split
  · rfl
  next other => exact absurd (s.entered_decided.trans lockdown) other

/-- Elsewhere it decides the transition to SERVICE. -/
theorem enterAccepted_other {s : State} (other : s.decided ≠ .lockdown) : s.enterAccepted = { s.entered with modeNext := some .service } := by
  unfold enterAccepted
  dsimp only
  split
  next lockdown => exact absurd (s.entered_decided.symm.trans lockdown) other
  · rfl

theorem enterAccepted_counts (s : State) : s.enterAccepted.twins = s.twins ∧
    s.enterAccepted.getN K.SERVICE_COUNT = (satAdd 32 (s.getU K.SERVICE_COUNT) 1 : Nat) ∧ s.enterAccepted.svc.entered = s.rtc := by
  by_cases lockdown : s.decided = .lockdown
  · rw [enterAccepted_lockdown lockdown]
    exact ⟨s.entered_twins, s.getN_entered, rfl⟩
  · rw [enterAccepted_other lockdown]
    exact ⟨s.entered_twins, s.getN_entered, rfl⟩

theorem enterTwin_row {s : State} {i : Nat} {h : Requester} (waits : s.twins[i]? = some (.enterService h true)) (ok : s.enterOk = true) :
    ∃ t, exec (.twinEvaluation i none) s = .next t ∧ t.twins = s.twins.eraseIdx i ∧
      t.getN K.SERVICE_COUNT = (satAdd 32 (s.getU K.SERVICE_COUNT) 1 : Nat) ∧ t.svc.entered = s.rtc ∧
      (s.decided = .lockdown → t.attended = true) ∧ (s.decided ≠ .lockdown → t.modeNext = some .service) := by
  obtain ⟨twins, count, entered⟩ := (s.twinDone i).enterAccepted_counts
  exact ⟨_, congrArg Host.Outcome.next (twinEvaluation_enters waits ok), (reply_twins ..).trans twins, (getN_reply ..).trans count,
    (congrArg ModeSt.entered (reply_svc ..)).trans entered,
    fun lockdown => (reply_attended ..).trans (congrArg State.attended (enterAccepted_lockdown (s := s.twinDone i) lockdown)),
    fun other => (reply_modeNext ..).trans (congrArg State.modeNext (enterAccepted_other (s := s.twinDone i) other))⟩

/-! ### The lane retest (R441) -/

theorem retestDone_idle {s : State} (idle : s.svc.retest = none) (corrections : Nat) : s.retestDone corrections = s := by
  unfold retestDone
  rw [idle]

/-- The retest over and its corrections noted. -/
def retested (s : State) (l : Fin 5) (corrections : Nat) : State :=
  { s with svc := { s.svc with retest := none } }.setN (K.LANE_RETEST (l + 1)) ((min corrections 65535 * 65536 + 65535 : Nat) : Int)

theorem retestDone_retires {s : State} {l : Fin 5} (runs : s.svc.retest = some l) {corrections : Nat} (corrected : corrections ≠ 0) :
    s.retestDone corrections = ((s.retested l corrections).updLane l fun x => { x with state := .retired }).addSat 32 K.RESTORE_FAIL 1 := by
  unfold retestDone
  rw [runs]
  exact if_neg fun ⟨clean, _⟩ => corrected clean

theorem retestDone_row {s : State} {l : Fin 5} (runs : s.svc.retest = some l) {n : Nat} (corrected : n ≠ 0) :
    ∃ t, exec (.laneRetestDone n) s = .next t ∧ t.svc = { s.svc with retest := none } ∧ t.getN (K.LANE_RETEST (l + 1)) = (min n 65535 * 65536 + 65535 : Nat) ∧
    t.getN K.RESTORE_FAIL = (satAdd 32 (s.getU K.RESTORE_FAIL) 1 : Nat) ∧
    { t with nums := s.nums, lanes := s.lanes, tab := s.tab, svc := s.svc } = s := by
  have apart : K.LANE_RETEST (l + 1) ≠ K.RESTORE_FAIL := by unfold K.LANE_RETEST K.RESTORE_FAIL; omega
  have before : (s.retested l n).getU K.RESTORE_FAIL = s.getU K.RESTORE_FAIL := congrArg Int.toNat (getN_setN_other _ apart.symm _)
  have frame := ((s.retested l n).updLane l fun x => { x with state := .retired }).addSat_touches 32 K.RESTORE_FAIL 1 |>.frame
  refine ⟨_, congrArg Host.Outcome.next (retestDone_retires runs corrected), put_svc .., ?_, ?_, ?_⟩
  · rw [getN_addSat, if_neg apart]
    exact getN_setN_same ..
  · rw [getN_addSat, if_pos rfl]
    exact congrArg (fun c : Nat => ((satAdd 32 c 1 : Nat) : Int)) before
  · exact congrArg (fun u : State => { u with nums := s.nums, lanes := s.lanes, tab := s.tab, svc := s.svc }) frame

end State

/-- Settles O58: each occurrence at rest by the branch that it takes, at work by what it does to its source, decision or sequence, and its frame by what
it may touch. -/
theorem sourcesAndDecisionsRun : Obligations.SourcesAndDecisionsRun := by
  intro s
  refine ⟨fun time lv => s.tamperStrobe_row time lv, fun c n time on row => ?_,
    fun bad => ⟨fun off => congrArg Host.Outcome.next (State.refClock_off off bad),
      fun main => ⟨_, rfl, State.active_refClock main bad, (s.refClock_touches bad).frame⟩⟩,
    fun c n time row main fused idle once => State.event_row row main fused idle once,
    fun absent => congrArg Host.Outcome.next (State.svcStrap_idle absent),
    fun time mv => s.vbatCheck_row time mv, fun time x => s.dieTempCheck_row time x,
    fun n time => ⟨fun counting passed => State.windowExpiry_row counting passed,
      fun runs => congrArg Host.Outcome.next (State.windowOver_runs (s := s.at' time) runs)⟩,
    fun absent => congrArg Host.Outcome.next (State.beginDecision_idle absent),
    fun alarms free main mode => State.beginDecision_starts alarms free main mode,
    fun on => congrArg Host.Outcome.next (State.backupReset_powered on), fun off => State.backupReset_row off,
    fun level => ⟨fun off => congrArg Host.Outcome.next (State.svcChange_off off level),
      fun main stays => congrArg Host.Outcome.next (State.svcChange_kept main stays), fun main low access service idle => ?_⟩,
    fun closed => congrArg Host.Outcome.next (State.serviceEnd_closed closed),
    fun access sealing => congrArg Host.Outcome.next (State.serviceEnd_sealing access sealing),
    fun access idle service => congrArg Host.Outcome.next (State.serviceEnd_service access idle service), rfl,
    fun failed => ⟨fun other => congrArg Host.Outcome.next (State.keygenDone_idle other failed),
      fun step many stays => State.keygenFails_row step many stays, fun step few => State.keygenPasses_row step few⟩,
    fun o => ⟨fun absent => congrArg Host.Outcome.next (State.sealFuse_idle absent o),
      fun step first a1 a2 b1 b2 => State.sealFuse_row step first (by simp [a1, a2, b1, b2])⟩,
    fun i fault => ⟨fun absent => congrArg Host.Outcome.next (State.twinEvaluation_none absent fault), fun h waits sound ok => ?_⟩,
    fun n => ⟨fun idle => congrArg Host.Outcome.next (State.retestDone_idle idle n), fun l runs corrected => State.retestDone_row runs corrected⟩⟩
  · obtain ⟨t, run, sensed⟩ := State.level_row (s := s) row
    exact ⟨t, run, sensed.rtc, sensed.active, sensed.touches.frame⟩
  · subst low
    exact congrArg Host.Outcome.next (State.svcChange_ends main access service idle)
  · subst sound
    exact State.enterTwin_row waits ok

end Sys2Proof.Machine
end

section
/-! PROOFS. A step and its command: the queue, the modes of Table 12.1, and what holds at reset (R343, R344, R393). -/

namespace Sys2Proof.Machine

open Sys2Proof
set_option Elab.async false

/-! ### The modes -/

/-- The outcome is a next state, reached from `s` by one change of mode of Table 12.1 at most. -/
def NextMoves (s : State) (o : Host.Outcome State Fault Refusal) : Prop := ∃ t, o = .next t ∧ ModeMoves s t

theorem ModeMoves.nextMoves {s t : State} (h : ModeMoves s t) : NextMoves s (.next t) := ⟨t, rfl, h⟩

theorem ModeKept.nextMoves {s t : State} (h : ModeKept s t) (w : s.NextOk) : NextMoves s (.next t) := (h.moves w).nextMoves

theorem Touches.nextMoves {m : Nat} {s t : State} (h : Touches m s t) (w : s.NextOk) (h1 : Nat.land m 16 ≠ 16 := by decide)
    (h2 : Nat.land m 64 ≠ 64 := by decide) : NextMoves s (.next t) := (h.keepsMode h1 h2).nextMoves w

/-- Batches that were held leave the mode (R395). -/
theorem ModeKept.runHeld {s t : State} (h : ModeKept s t) : ModeKept s t.runHeld := h.trans (State.runHeld_touches t).keepsMode

/-- Every command changes the mode along Table 12.1: the eight that enter or leave a mode by what they do, all others leave the mode in force. -/
theorem exec_moves {s : State} (w : s.NextOk) (c : Instr) : NextMoves s (exec c s) := by
  cases c with
  | portStatus | portCfg | decConfig | pointCfg | evStatus | latClear | laneMap | pulseCfg | meterConst | mdReset | dmdCfg | calBegin |
    calZero | calGain | calPhase | calDrop | calCommit | calAbort | inject | coupleCfg | entry | auxCalBegin | auxCalZero | auxCalFull |
    auxCalCommit | auxCalAbort | counterClear | sessionOpen | sessionClose | hostData | ringAck | hostImage | dispPoint | drvFault |
    tamperStatus | clearMarks | clearLockdown | blowFuse | enterService | sealCmd | serviceExit | timeStep | utcOffset | stringCfg |
    stringClear | substitute | restore =>
    exact (State.hostWrite_keepsMode ..).nextMoves w
  | powerGood => exact (State.powerGood_touches ..).nextMoves w
  | recallBegin => exact (State.recallBegin_moves (w := w) ..).nextMoves
  | privilegedResolved => exact (State.privilegedStep_keepsMode ..).nextMoves w
  | ordinaryResolved => exact (State.ordinaryResolved_touches ..).nextMoves w
  | selfTestsDone => exact (State.selfTestsDone_touches ..).nextMoves w
  | recallEnd => exact (ModeMoves.after (State.censusCheck_touches ..).keepsMode (s.recallEnd_moves w)).nextMoves
  | recallTimeout => exact (ModeMoves.after (State.censusCheck_touches ..).keepsMode (s.recallTimeout_moves w)).nextMoves
  | powerFailDetect => exact (State.powerFail_moves (w := w) ..).nextMoves
  | forcedStep => exact (State.forcedStep_touches ..).nextMoves w
  | holdupSaveComplete => exact (s.saveComplete_moves w).nextMoves
  | writeInhibit => exact (State.writeInhibited_moves (w := w) ..).nextMoves
  | samplePeriod => exact (State.period_moves (w := w) ..).nextMoves
  | sampleRelease => exact (State.sampleRelease_keepsMode ..).nextMoves w
  | laneCheckVector => exact (State.laneCheckVector_keepsMode ..).nextMoves w
  | shadowWarm => exact (State.shadowWarm_touches ..).nextMoves w
  | latencyInterval => exact (State.latencyInterval_touches ..).nextMoves w
  | substituteBoundary => exact (State.substituteBoundary_touches ..).nextMoves w
  | nettingStep => exact (State.nettingStep_touches ..).nextMoves w
  | offPointApply => exact (State.offPointApply_touches ..).nextMoves w
  | windowPublish => exact (State.publish_touches ..).nextMoves w
  | eventRecord => exact (State.recordEvent_touches ..).nextMoves w
  | blockEnd => exact (State.blockEnds_touches ..).nextMoves w
  | linkCheckFail => exact (State.linkCheckFail_touches ..).nextMoves w
  | pulseRise => exact (State.pulseRise_touches ..).nextMoves w
  | pulseFall => exact (State.pulseFall_touches ..).nextMoves w
  | pulseGapEnd => exact (State.pulseGapEnd_touches ..).nextMoves w
  | demandIntervalEnd => exact (State.demandIntervalEnd_touches ..).nextMoves w
  | checkpointDue => exact (State.ckptDue_touches ..).nextMoves w
  | checkpointWritten => exact (State.checkpointWritten_keepsMode ..).nextMoves w
  | tiUpdate => exact (State.tiUpdate_touches ..).nextMoves w
  | calStepEnd => exact (State.calStepEnd_touches ..).nextMoves w
  | draftCoefficients => exact (State.draftWrite_keepsMode ..).nextMoves w
  | twinEvaluation => exact (State.twinEvaluation_keepsMode ..).nextMoves w
  | auxPassStart => exact (State.auxPassStart_touches ..).nextMoves w
  | auxDelayEnd => exact (State.auxDelayEnd_touches ..).nextMoves w
  | auxStartupDone => exact (State.startupDone_touches ..).nextMoves w
  | auxPowerDown => exact (State.convPowerDown_touches ..).nextMoves w
  | auxConversionEnd => exact (State.conversionEnd_touches ..).nextMoves w
  | auxResultWrite => exact (State.auxWritten_touches ..).nextMoves w
  | auxSelfCheck => exact (State.selfCheck_touches ..).nextMoves w
  | auxCalBurst => exact (State.auxBurst_touches ..).nextMoves w
  | sramAccess => exact (State.sramAccess_keepsMode ..).nextMoves w
  | scrubWriteback => exact (State.scrub_touches ..).nextMoves w
  | marchStart => exact (State.marchStart_touches ..).nextMoves w
  | marchPhaseEnd => exact (State.marchPhaseEnd_keepsMode ..).nextMoves w
  | marchRetry => exact (State.marchRetry_touches ..).nextMoves w
  | bankSubRegionDone => exact (State.bankRegionDone_keepsMode ..).nextMoves w
  | sweepRead => exact (State.sweepWord_keepsMode ..).nextMoves w
  | nvmCycleEnd => exact (State.nvmCycle_keepsMode ..).nextMoves w
  | patrolRead => exact (State.patrolRead_keepsMode ..).nextMoves w
  | journalUnitStart => exact (State.unitStart_touches ..).nextMoves w
  | journalCommit => exact (State.unitCommit_touches ..).nextMoves w
  | journalRetire => exact (State.unitRetire_touches ..).nextMoves w
  | recordCopyWritten => exact (State.recordCopy_touches ..).nextMoves w
  | scratchPage | scratchGroup => exact (State.hostScratch_keepsMode ..).nextMoves w
  | signStart => exact (State.signStart_touches ..).nextMoves w
  | signatureDone => exact (State.signatureDone_touches ..).nextMoves w
  | signWaitTimeout => exact (State.signTimeout_touches ..).nextMoves w
  | rngFailure => exact (State.rngFailed_touches ..).nextMoves w
  | rngStartupDone => exact (State.rngReady_touches ..).nextMoves w
  | frameBoundary => exact (State.frameBoundary_touches ..).nextMoves w
  | compensationEnd => exact (State.compensationEnd_touches ..).nextMoves w
  | readback => exact (State.readBack_touches ..).nextMoves w
  | pumpRegulated => exact (State.pumpReady_touches ..).nextMoves w
  | pumpOvervoltage => exact (State.pumpOver_touches ..).nextMoves w
  | displayWake => exact (State.displayWake_touches ..).nextMoves w
  | bandTimeout => exact (State.bandTimeout_touches ..).nextMoves w
  | tamperStrobe => exact (State.strobes_touches ..).nextMoves w
  | light => exact (State.lightRise_touches ..).nextMoves w
  | glitch => exact (State.glitchAt_touches ..).nextMoves w
  | refClock => exact (State.refClock_touches ..).nextMoves w
  | rtcClock => exact (State.rtcClock_touches ..).nextMoves w
  | vbatCheck => exact (State.vbatCheck_touches ..).nextMoves w
  | dieTempCheck => exact (State.dieTempCheck_touches ..).nextMoves w
  | svcStrap => exact (State.svcStrap_touches ..).nextMoves w
  | tamperWindowExpiry => exact ((State.at'_touches ..).keepsMode.trans (State.windowOver_touches ..).keepsMode).nextMoves w
  | tamperDecision => exact (State.beginDecision_touches ..).nextMoves w
  | sealKeygenDone => exact (State.keygenDone_keepsMode ..).nextMoves w
  | sealFuseSet => exact (State.sealFuse_keepsMode ..).nextMoves w
  | svcChange => exact (State.svcChange_keepsMode ..).nextMoves w
  | serviceMaxExpiry => exact (State.serviceEnd_keepsMode ..).nextMoves w
  | authChallenge => exact (State.hostRead_touches ..).nextMoves w
  | authChallengeExpiry => exact (State.challengeOver_touches ..).nextMoves w
  | spiSend => exact (State.spiSend_touches ..).nextMoves w
  | spiFetch => exact (State.spiFetch_touches ..).nextMoves w
  | canFrame => exact (State.canFrame_touches ..).nextMoves w
  | canReassemblyTimeout => exact (State.canTimeout_touches ..).nextMoves w
  | canTransmit => exact (State.canTransmit_touches ..).nextMoves w
  | canBusoffRecovery => exact (State.canRecover_touches ..).nextMoves w
  | read => exact (State.hostRead_touches ..).nextMoves w
  | write => exact (State.hostWrite_keepsMode ..).runHeld.nextMoves w
  | tableauOpen => exact (State.tableauOpen_touches ..).nextMoves w
  | tableauRead => exact (State.tableauRead_touches ..).nextMoves w
  | tableauClose => exact (State.tableauClose_touches ..).nextMoves w
  | tableauComplete => exact (State.tableauComplete_touches ..).nextMoves w
  | tableauTimeout => exact (State.tableauTimeout_touches ..).nextMoves w
  | batch => exact (State.hostBatch_touches ..).nextMoves w
  | streamStart => exact (State.streamStart_touches ..).nextMoves w
  | streamStop => exact (State.streamStop_touches ..).nextMoves w
  | streamFrameReady => exact (State.streamFrame_touches ..).nextMoves w
  | train => exact (State.train_touches ..).nextMoves w
  | trainSend => exact (State.trainSend_touches ..).nextMoves w
  | linkDown => exact (State.linkDown_touches ..).nextMoves w
  | pending => exact (State.receive_keepsMode _ _ _ _ _ fun _ => (State.pendingFrom_touches ..).keepsMode).nextMoves w
  | pendingSend => exact (State.pendingSend_touches ..).nextMoves w
  | census => exact (State.receive_keepsMode _ _ _ _ _ fun _ => (State.census_touches ..).keepsMode).nextMoves w
  | censusSend => exact (State.censusSend_touches ..).nextMoves w
  | censusTimeout => exact (State.censusTimeout_touches ..).nextMoves w
  | numbering => exact (State.receive_keepsMode _ _ _ _ _ fun _ => (State.numbering_touches ..).keepsMode).nextMoves w
  | sync => exact (State.receive_keepsMode _ _ _ _ _ fun _ => (State.syncFrom_touches ..).keepsMode).nextMoves w
  | syncSend => exact (State.syncSend_touches ..).nextMoves w
  | delayReq => exact (State.receive_keepsMode _ _ _ _ _ fun _ => (State.delayReqFrom_touches ..).keepsMode).nextMoves w
  | delayReqSend => exact (State.delayReqSend_touches ..).nextMoves w
  | delayResp => exact (State.receive_keepsMode _ _ _ _ _ fun _ => (State.delayRespFrom_touches ..).keepsMode).nextMoves w
  | indexAdopt => exact (State.indexAdopt_touches ..).keepsMode.runHeld.nextMoves w
  | holdoverExpiry => exact (State.holdoverExpiry_touches ..).nextMoves w
  | tstep => exact (State.receive_keepsMode _ _ _ _ _ fun _ => (State.tstepFrom_touches ..).keepsMode).nextMoves w
  | vpReport => exact (State.receive_keepsMode _ _ _ _ _ fun _ => (State.vpReportFrom_touches ..).keepsMode).nextMoves w
  | vpReportSend => exact (State.vpReportSend_touches ..).nextMoves w
  | siteOpen | siteClose => exact (State.hostWrite_keepsMode ..).runHeld.nextMoves w
  | site => exact (State.receive_keepsMode _ _ _ _ _ fun _ => (State.siteFrom_touches ..).keepsMode).runHeld.nextMoves w
  | siteAck => exact (State.receive_keepsMode _ _ _ _ _ fun _ => (State.siteAckFrom_touches ..).keepsMode).nextMoves w
  | siteAckSend => exact (State.siteAckSend_touches ..).nextMoves w
  | siteLimitExpiry => exact (State.siteLimit_touches ..).keepsMode.runHeld.nextMoves w
  | join => exact (State.receive_keepsMode _ _ _ _ _ fun _ => (State.joinFrom_touches ..).keepsMode).nextMoves w
  | grant => exact (State.receive_keepsMode _ _ _ _ _ fun _ => (State.grantFrom_touches ..).keepsMode).nextMoves w
  | joinRetry => exact (State.joinRetry_touches ..).nextMoves w
  | laneRetestDone => exact (State.retestDone_touches ..).nextMoves w
  | lightFall => exact (State.lightFall_touches ..).nextMoves w
  | backupDomainReset => exact (State.backupReset_touches ..).nextMoves w
  | canBusError => exact (State.canError_touches ..).nextMoves w
  | corruptedLinkFrame => exact (State.corruptedFrame_touches ..).nextMoves w

/-- Settles O7: an idle step leaves the mode, and each command moves it along Table 12.1. -/
theorem stepFollowsTable121 : Obligations.StepFollowsTable121 := by
  intro s t w run
  unfold step at run
  split at run
  · cases run
    exact (ModeKept.refl s).moves w
  · next c rest _ =>
    have w' : State.NextOk { s with pending := rest } := w
    obtain ⟨u, ran, moves⟩ := exec_moves w' c
    cases ran.symm.trans run
    exact moves

/-! ### The queue and reset -/

/-- Settles O2. -/
theorem stepRunsFrontCommand : Obligations.StepRunsFrontCommand := fun _ _ _ => rfl

/-- Settles O3. -/
theorem emptyQueueIdles : Obligations.EmptyQueueIdles := by
  intro s empty
  simp only [step, empty]

/-- Settles O4: every command keeps the queue that the step left it. -/
theorem stepTakesOneCommand : Obligations.StepTakesOneCommand := by
  intro s t run
  unfold step at run
  split at run
  · next empty =>
    cases run
    rw [empty]
    rfl
  · next c rest front =>
    obtain ⟨u, ran, queue, -⟩ := exec_kept c { s with pending := rest }
    cases ran.symm.trans run
    rw [queue, front]
    rfl

/-- Settles O8: at reset the scratch memory is empty and no transition waits. -/
theorem resetKeepsInvariants : Obligations.ResetKeepsInvariants := ⟨rfl, fun _ waits => by cases waits⟩

/-- Settles O9: the stored defaults, entry by entry. -/
theorem resetHoldsDefaults : Obligations.ResetHoldsDefaults := by
  refine ⟨by decide, by decide, by decide, by decide, rfl, rfl⟩

end Sys2Proof.Machine
end

section
/-! PROOFS. Host requests at their receipt: those that no link admits, and those that wait their turn (R362, R382, R393, R445). -/

namespace Sys2Proof.Machine

open Sys2Proof
set_option Elab.async false

namespace State

/-! ### Receipt -/

theorem admitted_off {s : State} (off : s.linksOn = false) (l : Link) (m : Message) : s.admitted l m = (false, s) := if_pos off

theorem admitted_ftm {s : State} (on : s.linksOn = true) (ftm : s.svc.ftm = true) (l : Link) (m : Message) :
    s.admitted l m = (false, s.answerNow l { m with status := .access, payload := [] }) := by
  simp [admitted, on, ftm]

/-- A device that serves outside factory test mode admits every request. -/
theorem admitted_serving {s : State} (serves : s.serves = true) (ftm : s.svc.ftm = false) (l : Link) (m : Message) : s.admitted l m = (true, s) := by
  have recalled : s.mode ≠ .recalling := by
    intro e
    rw [State.serves, e] at serves
    cases serves
  simp [admitted, serves_linksOn serves, ftm, recalled]

/-- A request behind others of its link, none of them the same, joins the queue. -/
theorem turn_waits {s : State} {l : Link} {m : Message} (other : ∀ a ∈ (s.link l).queue, a.same m = false) (busy : (s.link l).queue ≠ []) :
    s.turn l m = (false, s.enqueue l m) := by
  unfold turn
  dsimp only
  split
  · next empty => exact absurd empty busy
  · next a r front =>
    rw [front] at other
    have rest : (r.any fun x => x.same m) = false := List.any_eq_false.2 fun b hb => by simp [other b (List.mem_cons_of_mem a hb)]
    simp [other a List.mem_cons_self, rest]

theorem execute_waits {s : State} {h : Requester} {op idx sub : Nat} {payload : List Byte} (serves : s.serves = true) (ftm : s.svc.ftm = false)
    (other : ∀ a ∈ (s.link h.link).queue, a.same ⟨op, h.tag, idx, sub, .ok, payload⟩ = false) (busy : (s.link h.link).queue ≠ [])
    (f : State → State) : s.execute h op idx sub payload f = s.enqueue h.link ⟨op, h.tag, idx, sub, .ok, payload⟩ := by
  unfold execute
  simp only [admitted_serving serves ftm, turn_waits other busy]
  rfl

/-- What is only received, and not executed, leaves the held batches. -/
theorem enqueue_heldBatches (s : State) (l : Link) (m : Message) : (s.enqueue l m).heldBatches = s.heldBatches :=
  (enqueue_touches ..).heldBatches (by decide)

theorem streamStart_executes (s : State) (h : Requester) (mask divisor src : Nat) : ∃ f : State → State, s.streamStart h mask divisor src =
    s.execute h opStreamStart 0 0 (leBytes 8 mask ++ leBytes 2 divisor ++ leBytes 1 src ++ [0]) f := by
  unfold streamStart
  exact ⟨_, rfl⟩

end State

/-- Every command that is a host request is that request's execution, after which batches held for a tableau may run. -/
theorem exec_execute {c : Instr} {l : Link} {m : Message} (hr : hostRequest c = some (l, m)) (s : State) :
    ∃ (h : Requester) (op idx sub : Nat) (payload : List Byte) (f : State → State), (l, m) = requestOf h op idx sub payload ∧
      (exec c s = .next (s.execute h op idx sub payload f) ∨ exec c s = .next (s.execute h op idx sub payload f).runHeld) := by
  cases c
  case draftCoefficients h kind _ _ =>
    cases kind <;> cases hr <;> exact ⟨_, _, _, _, _, fun u => u.writeAnswered h _ _ _ none, rfl, .inl rfl⟩
  case streamStart =>
    cases hr
    obtain ⟨f, run⟩ := State.streamStart_executes s ..
    exact ⟨_, _, _, _, _, f, rfl, .inl (congrArg Host.Outcome.next run)⟩
  case write | siteOpen | siteClose => cases hr; exact ⟨_, _, _, _, _, _, rfl, .inr rfl⟩
  all_goals cases hr
  all_goals exact ⟨_, _, _, _, _, _, rfl, .inl rfl⟩

/-- Settles O10: with the links off nothing is admitted. -/
theorem linksSilentOutsideService : Obligations.LinksSilentOutsideService := by
  intro c l m s hr off hb
  have adm := State.admitted_off off l m
  rw [exec_unadmitted hr (by rw [adm]) hb, adm]

/-- Settles O11: factory test mode answers at receipt. -/
theorem factoryTestModeAnswersAccess : Obligations.FactoryTestModeAnswersAccess := by
  intro c l m s hr on ftm hb
  have adm := State.admitted_ftm on ftm l m
  rw [exec_unadmitted hr (by rw [adm]) hb, adm]

/-- Settles O13: it is not the request's turn, so that it joins the queue or meets it full. -/
theorem requestsWaitTheirTurn : Obligations.RequestsWaitTheirTurn := by
  intro c l m s hr serves ftm hb other busy
  obtain ⟨h, op, idx, sub, payload, f, e, run⟩ := exec_execute hr s
  obtain ⟨rfl, rfl⟩ := Prod.mk.inj e
  have waits := State.execute_waits serves ftm other busy f
  have joined : exec c s = .next (s.enqueue h.link ⟨op, h.tag, idx, sub, .ok, payload⟩) := by
    rcases run with run | run <;> rw [run, waits]
    rw [State.runHeld_none ((State.enqueue_heldBatches ..).trans hb)]
  rw [joined]
  simp [State.enqueue, busy]

end Sys2Proof.Machine
end

section
/-! PROOFS. The two host links: SPI transactions, CAN FD frames and the frames of a stream (R384 to R393, R399). -/

namespace Sys2Proof.Machine

open Sys2Proof
set_option Elab.async false

namespace State

/-! ### A request that arrives (R381, R393) -/

theorem receiveRequest_serving {s : State} (serves : s.serves = true) (ftm : s.svc.ftm = false) (l : Link) (m : Message) :
    s.receiveRequest l m = s.enqueue l m := by
  simp [receiveRequest, admitted_serving serves ftm]

theorem enqueue_room {s : State} {l : Link} {m : Message} (room : (s.link l).queue.length < 4) (good : m.status = .ok) :
    s.enqueue l m = s.setLink l { s.link l with queue := (s.link l).queue ++ [m] } := by
  simp [enqueue, Nat.not_le.2 room, good]

/-- A request with a refusal found at receipt that meets an empty queue is answered with it at once. -/
theorem enqueue_refused {s : State} {l : Link} {m : Message} (empty : (s.link l).queue = []) (bad : m.status ≠ .ok) :
    s.enqueue l m = s.answerNow l { m with payload := [] } := by
  simp [enqueue, empty, bad]

/-- A counter leaves what the receipt of requests depends on. -/
theorem receiveRequest_addSat {s : State} (serves : s.serves = true) (ftm : s.svc.ftm = false) {l : Link} {m : Message}
    (empty : (s.link l).queue = []) (bad : m.status ≠ .ok) (w k d : Nat) :
    (s.addSat w k d).receiveRequest l m = (s.addSat w k d).answerNow l { m with payload := [] } := by
  have t := addSat_touches s w k d
  rw [receiveRequest_serving, enqueue_refused _ bad]
  · cases l
    · exact (congrArg LinkSt.queue (t.spi (by decide))).trans empty
    · exact (congrArg LinkSt.queue (t.can (by decide))).trans empty
  · unfold State.serves at *
    rwa [t.mode (by decide)]
  · rwa [t.svc (by decide)]

/-! ### SPI (R384 to R386) -/

theorem spiSend_status {s : State} (on : s.linksOn = true) : s.spiSend [] = s.spiSent [byteOf s.spiStatus] := by
  simp [spiSend, on]

theorem spiSend_short {s : State} (on : s.linksOn = true) {b : List Byte} (some_ : b ≠ []) (fits : (parseHeader b).2 ≤ 4096)
    (short : b.length < 8 ∨ b.length < 10 + (parseHeader b).2) : s.spiSend b = (s.spiSent [byteOf s.spiStatus]).addSat 32 K.SPI_SHORT 1 := by
  simp [spiSend, on, some_, Nat.not_lt.2 fits, short]

/-- A whole SEND frame becomes a request, with FRAME where its CRC fails. -/
theorem spiSend_whole {s : State} (on : s.linksOn = true) {b : List Byte} (fits : (parseHeader b).2 ≤ 4096)
    (whole : 10 + (parseHeader b).2 ≤ b.length) :
    s.spiSend b =
      (if crc16 (b.take (8 + (parseHeader b).2)) = leNat ((b.drop (8 + (parseHeader b).2)).take 2) then
        (s.spiSent [byteOf s.spiStatus]).receiveRequest .spi { (parseHeader b).1 with
          status := if carries .spi (parseHeader b).1.op = false then .operation else .ok, payload := (b.drop 8).take (parseHeader b).2 }
      else ((s.spiSent [byteOf s.spiStatus]).addSat 32 K.SPI_CRC_ERR 1).receiveRequest .spi { (parseHeader b).1 with
          status := .frame, payload := (b.drop 8).take (parseHeader b).2 }) := by
  have some_ : b ≠ [] := by
    rintro rfl
    simp at whole
  have long : ¬ (b.length < 8 ∨ b.length < 10 + (parseHeader b).2) := by omega
  split <;> rename_i crc <;> simp [spiSend, on, some_, Nat.not_lt.2 fits, long, crc, receiptStatus]

theorem spiFetch_part {s : State} (on : s.linksOn = true) {n : Nat} (part : n < (withCrc s.spiNext.bytes).length) :
    s.spiFetch n = s.spiSent (byteOf s.spiStatus ::
      (withCrc s.spiNext.bytes ++ List.replicate (n - (withCrc s.spiNext.bytes).length) 0).take n) := by
  simp [spiFetch, on, Nat.not_le.2 part]

theorem spiFetch_whole {s : State} (on : s.linksOn = true) {n : Nat} (whole : (withCrc s.spiNext.bytes).length ≤ n) :
    s.spiFetch n = (s.spiSent (byteOf s.spiStatus ::
      (withCrc s.spiNext.bytes ++ List.replicate (n - (withCrc s.spiNext.bytes).length) 0).take n)).spiTaken := by
  simp [spiFetch, on, whole]

theorem spiTaken_response {s : State} {m : Message} {r : List Message} (front : s.spi.out = m :: r) :
    s.spiTaken = { s with spi := { s.spi with out := r } } := by
  simp [spiTaken, front]

theorem spiTaken_stream {s : State} (none_ : s.spi.out = []) :
    s.spiTaken = { s with stream := { s.stream with frames := s.stream.frames.tail } } := by
  unfold spiTaken
  cases front : s.stream.frames with
  | nil =>
    have same : s.stream.frames.tail = s.stream.frames := by rw [front]; rfl
    simp only [none_]
    rw [← front, same]
  | cons f r => simp only [none_, List.tail_cons]

/-! ### CAN FD (R389 to R392) -/

/-- A frame received without error moves the receive error counter down by one, up to 127 (log entry 30). -/
def canCounted (s : State) : State := { s with bus := { s.bus with rxErr := s.bus.rxErr - 1 } }

theorem canReceived_counted {s : State} (passive : s.bus.rxErr ≤ 127) : s.canReceived = s.canCounted := if_neg (Nat.not_lt.2 passive)

/-- What a frame that arrives does, by its kind and identifier. -/
theorem canFrame_arrives {s : State} (on : s.linksOn = true) (active : s.bus.busOff = false) (passive : s.bus.rxErr ≤ 127) (kind : CanKind)
    (id : Nat) (data : List Byte) : s.canFrame kind id data =
      match kind with
      | .other => s.canCounted
      | .classic => if canBase id = s.bus.baseActive then s.canCounted.addSat 32 K.CAN_CLASSIC 1 else s.canCounted
      | .fd => if canBase id = s.bus.baseActive ∧ canDir id = 0 ∧ canNode id = s.bus.nodeActive then
          s.canCounted.canSegment (canOp id) (canTag id) data else s.canCounted := by
  have base : s.canCounted.bus.baseActive = s.bus.baseActive := rfl
  have node : s.canCounted.bus.nodeActive = s.bus.nodeActive := rfl
  rw [canFrame, if_neg (by simp [on, active]), canReceived_counted passive]
  cases kind with
  | other => rfl
  | classic => simp [base]
  | fd => simp [base, node, and_assoc]

theorem canOp_lt (id : Nat) : canOp id < 256 := Nat.mod_lt _ (by decide)

/-- The header that is parsed carries the operation of the identifier. -/
theorem canHeader_op {op : Nat} (fits : op < 256) (tag : Nat) (b : List Byte) : (canHeader op tag b).1.op = op := by
  have first : (leBytes 1 op ++ leBytes 1 tag ++ b).take 1 = leBytes 1 op := rfl
  unfold canHeader parseHeader
  dsimp only
  rw [first, leNat_leBytes 1 op fits]

/-- A SINGLE frame outside a reassembly is a whole message. -/
theorem canSegment_single {s : State} (closed : s.bus.segOpen = false) (op tag : Nat) (b : List Byte) :
    s.canSegment op tag (0 :: b) = s.canMessage op tag b := by
  simp [canSegment, closed]

theorem canMessage_whole {s : State} {op tag : Nat} {b : List Byte} (fits : (canHeader op tag b).2 ≤ 4096)
    (whole : 6 + (canHeader op tag b).2 ≤ b.length) (carried : carries .can (canHeader op tag b).1.op = true) : s.canMessage op tag b =
      s.receiveRequest .can { (canHeader op tag b).1 with status := .ok, payload := (b.drop 6).take (canHeader op tag b).2 } := by
  have long : ¬ (b.length < 6 ∨ (canHeader op tag b).2 ≤ 4096 ∧ b.length < 6 + (canHeader op tag b).2) := by omega
  simp [canMessage, long, Nat.not_lt.2 fits, receiptStatus, carried]

/-- The state after the reassembly was dropped and counted. -/
def canDropped (s : State) : State := ({ s with bus := { s.bus with segOpen := false, segBytes := [] } } : State).addSat 32 K.CAN_SEG_ERR 1

theorem canAbandon_answered {s : State} (serves : s.serves = true) (ftm : s.svc.ftm = false) (empty : s.can.queue = []) :
    s.canAbandon = s.canDropped.answerNow .can { (canHeader s.bus.segOp s.bus.segTag s.bus.segBytes).1 with status := .frame, payload := [] } :=
  receiveRequest_addSat (s := { s with bus := { s.bus with segOpen := false, segBytes := [] } }) (l := .can) serves ftm empty Status.noConfusion ..

theorem canTransmit_oldest {s : State} (on : s.linksOn = true) (active : s.bus.busOff = false) {m : Message} {r : List Message}
    (front : s.can.out = m :: r) : s.canTransmit = { s with
      can := { s.can with out := r }
      bus := { s.bus with
        frames := (canFields m).map fun d =>
          (s.bus.baseActive * 2 ^ 24 + 2 ^ 23 + s.bus.nodeActive * 2 ^ 16 + m.op % 256 * 2 ^ 8 + m.tag % 256, d)
        txErr := s.bus.txErr - 1 } } := by
  simp [canTransmit, on, active, front, updBus]

/-- An error of a transmitting node: its counter, and bus-off above 255. -/
theorem canError_transmits {s : State} (on : s.linksOn = true) (active : s.bus.busOff = false) (w : Nat) : s.canError true w =
    if 255 < s.bus.txErr + w then
      ({ s with bus := { s.bus with txErr := s.bus.txErr + w, busOff := true } } : State).addSat 32 K.CAN_BUSOFF 1
    else { s with bus := { s.bus with txErr := s.bus.txErr + w } } := by
  simp [canError, on, active, updBus]

theorem canError_receives {s : State} (on : s.linksOn = true) (active : s.bus.busOff = false) (w : Nat) :
    s.canError false w = { s with bus := { s.bus with rxErr := s.bus.rxErr + w } } := by
  simp [canError, on, active, updBus]

/-! ### Streams (R399) -/

/-- The stream past a frame that was taken from its samples. -/
def streamPast (t : Stream) : Stream :=
  let next := t.begin + framePeriods (maskChans t.mask).length * t.step
  { t with begin := next, samples := t.samples.filter fun x => next * 64 ≤ x.1 }

theorem streamFrame_queues {s : State} (full : streamFull s.stream = true) (room : s.stream.frames.length < 16) :
    s.streamFrame = { s with stream := { streamPast s.stream with
      lost := 0, frames := s.stream.frames ++ [(s.stream.tag, streamPayload s.stream)], tag := (s.stream.tag + 1) % 256 } } := by
  simp [streamFrame, full, Nat.not_le.2 room, streamPast]

theorem streamFrame_drops {s : State} (full : streamFull s.stream = true) (busy : 16 ≤ s.stream.frames.length) :
    s.streamFrame = ({ s with stream := { streamPast s.stream with lost := s.stream.lost + 1 } } : State).addSat 32 K.STREAM_LOST 1 := by
  simp [streamFrame, full, busy, streamPast]

end State

/-- Settles O22: a full frame joins the queue or is dropped. -/
theorem streamFramesQueue : Obligations.StreamFramesQueue := by
  intro s full
  rcases Nat.lt_or_ge s.stream.frames.length 16 with room | busy
  · exact ⟨_, congrArg Host.Outcome.next (State.streamFrame_queues full room), rfl, fun _ => ⟨rfl, rfl, rfl⟩,
      fun busy => absurd busy (Nat.not_le.2 room)⟩
  · refine ⟨_, congrArg Host.Outcome.next (State.streamFrame_drops full busy), ?_⟩
    rw [(State.addSat_touches ..).stream (by decide)]
    exact ⟨rfl, fun room => absurd busy (Nat.not_le.2 room), fun _ => ⟨rfl, rfl, by rw [State.getN_addSat, if_pos rfl]; rfl⟩⟩

/-- Settles O23. -/
theorem spiSendReceives : Obligations.SpiSendReceives := by
  intro s b m n serves ftm header fits
  have on := State.serves_linksOn serves
  have len : (parseHeader b).2 = n := by rw [header]
  have head : (parseHeader b).1 = m := by rw [header]
  refine ⟨?_, ?_, ?_, ?_⟩
  · exact congrArg Host.Outcome.next (State.spiSend_status on)
  · intro some_ short
    exact congrArg Host.Outcome.next (State.spiSend_short on some_ (len ▸ fits) (len ▸ short))
  · intro whole crc empty
    refine congrArg Host.Outcome.next ((State.spiSend_whole on (len ▸ fits) (len ▸ whole)).trans ?_)
    rw [len, head, if_neg crc]
    exact State.receiveRequest_addSat (s := s.spiSent [byteOf s.spiStatus]) (l := .spi) (m := { m with status := .frame, payload := _ }) serves ftm
      empty Status.noConfusion ..
  · intro whole crc carried room
    refine congrArg Host.Outcome.next ((State.spiSend_whole on (len ▸ fits) (len ▸ whole)).trans ?_)
    rw [len, head, if_pos crc, if_neg (by rw [carried]; decide)]
    exact (State.receiveRequest_serving (s := s.spiSent [byteOf s.spiStatus]) (m := { m with status := .ok, payload := _ }) serves ftm ..).trans
      (State.enqueue_room (l := .spi) room rfl)

/-- Settles O24. -/
theorem spiFetchSends : Obligations.SpiFetchSends := by
  intro s clocked on
  rcases Nat.lt_or_ge clocked (State.withCrc s.spiNext.bytes).length with part | whole
  · exact ⟨_, congrArg Host.Outcome.next (State.spiFetch_part on part), rfl, fun _ => ⟨rfl, rfl⟩,
      fun whole => absurd whole (Nat.not_le.2 part), rfl⟩
  · refine ⟨_, congrArg Host.Outcome.next (State.spiFetch_whole on whole), ?_⟩
    cases front : s.spi.out with
    | nil =>
      rw [State.spiTaken_stream (by exact front)]
      exact ⟨rfl, fun lt => absurd whole (Nat.not_le.2 lt), fun _ => ⟨fun no => absurd rfl no, fun _ => ⟨front, rfl⟩⟩, rfl⟩
    | cons m r =>
      rw [State.spiTaken_response (by exact front)]
      exact ⟨rfl, fun lt => absurd whole (Nat.not_le.2 lt), fun _ => ⟨fun _ => ⟨rfl, rfl⟩, fun no => by cases no⟩, rfl⟩

/-- Settles O25: what arrives is counted, and a SINGLE frame of this node is a request. -/
theorem canFramesReceived : Obligations.CanFramesReceived := by
  intro s kind id data serves ftm
  have on := State.serves_linksOn serves
  refine ⟨fun off => congrArg Host.Outcome.next (if_pos (.inr off)), fun active passive => ?_⟩
  have arrives := State.canFrame_arrives on active passive kind id data
  refine ⟨?_, ?_, ?_, ?_⟩
  · rintro rfl
    exact congrArg Host.Outcome.next arrives
  · rintro rfl
    exact congrArg Host.Outcome.next arrives
  · rintro rfl other
    exact congrArg Host.Outcome.next (arrives.trans (if_neg other))
  · rintro b m n rfl base dir node rfl closed header fits whole carried room
    have len : (State.canHeader (State.canOp id) (State.canTag id) b).2 = n := by rw [header]
    have head : (State.canHeader (State.canOp id) (State.canTag id) b).1 = m := by rw [header]
    have op := State.canHeader_op (State.canOp_lt id) (State.canTag id) b
    refine congrArg Host.Outcome.next ((arrives.trans (if_pos ⟨base, dir, node⟩)).trans ?_)
    rw [State.canSegment_single (by exact closed), State.canMessage_whole (len ▸ fits) (len ▸ whole) (by rw [op]; exact carried), len, head]
    exact (State.receiveRequest_serving (s := s.canCounted) serves ftm ..).trans (State.enqueue_room (l := .can) room rfl)

/-- Settles O26. -/
theorem canReassemblyAbandoned : Obligations.CanReassemblyAbandoned := by
  intro s serves ftm reassembling empty
  exact congrArg Host.Outcome.next ((if_pos reassembling).trans (State.canAbandon_answered serves ftm empty))

/-- Settles O27. -/
theorem canTransmitsAndRecovers : Obligations.CanTransmitsAndRecovers := by
  intro s on
  refine ⟨?_, ?_, ?_, ?_, ?_⟩
  · intro m r active front
    refine ⟨_, congrArg Host.Outcome.next (State.canTransmit_oldest on active front), rfl, ?_, ?_, rfl⟩
    · rintro f sent
      obtain ⟨d, -, rfl⟩ := List.mem_map.1 sent
      rfl
    · simp [Function.comp_def]
  · intro w active within
    exact congrArg Host.Outcome.next ((State.canError_transmits on active w).trans (if_neg (Nat.not_lt.2 within)))
  · intro w active above
    exact congrArg Host.Outcome.next ((State.canError_transmits on active w).trans (if_pos above))
  · intro w active
    exact congrArg Host.Outcome.next (State.canError_receives on active w)
  · intro off
    exact congrArg Host.Outcome.next (if_pos off)

end Sys2Proof.Machine
end

section
/-! PROOFS. Reads, writes and the end of a tableau, as a host meets them (R349, R376 to R378, R397). -/

namespace Sys2Proof.Machine

open Sys2Proof
set_option Elab.async false

namespace State

/-! ### Reads (R376, R377) -/

/-- A READ is answered with its status, and with its value where that is OK. -/
theorem hostRead_ready {s : State} {h : Requester} (r : s.Ready h) (idx sub : Nat) : s.hostRead h idx sub =
    ((s.taken h opRead idx sub []).readChecked idx sub []).2.2.reply h opRead idx sub ((s.taken h opRead idx sub []).readChecked idx sub []).1
      (if ((s.taken h opRead idx sub []).readChecked idx sub []).1 = .ok then ((s.taken h opRead idx sub []).readChecked idx sub []).2.1
        else []) := by
  unfold hostRead
  rw [execute_ready r, heldPayload_taken]

theorem readChecked_refused {s t : State} {idx sub : Nat} {st : Status} {b p : List Byte} (found : s.readEntry idx sub = (st, b, t))
    (no : st ≠ .ok) (err : st ≠ .memoryError) : s.readChecked idx sub p = (st, [], s) := by
  unfold readChecked
  rw [found]
  cases st with
  | ok => exact absurd rfl no
  | memoryError => exact absurd rfl err
  | _ => rfl

theorem readChecked_ok {s t : State} {idx sub : Nat} {b : List Byte} (found : s.readEntry idx sub = (.ok, b, t)) :
    s.readChecked idx sub [] = (.ok, b, t) := by
  unfold readChecked
  rw [found]
  rfl

/-- A READ that finds no value is answered with the reason, and changes nothing. -/
theorem hostRead_refused {s t : State} {h : Requester} (r : s.Ready h) {idx sub : Nat} {st : Status} {b : List Byte}
    (found : (s.taken h opRead idx sub []).readEntry idx sub = (st, b, t)) (no : st ≠ .ok) (err : st ≠ .memoryError) :
    s.hostRead h idx sub = s.answered h opRead idx sub st [] := by
  rw [hostRead_ready r, readChecked_refused found no err, if_neg no, reply_taken r]

theorem hostRead_ok {s t : State} {h : Requester} (r : s.Ready h) {idx sub : Nat} {b : List Byte}
    (found : (s.taken h opRead idx sub []).readEntry idx sub = (.ok, b, t)) : s.hostRead h idx sub = t.reply h opRead idx sub .ok b := by
  rw [hostRead_ready r, readChecked_ok found, if_pos rfl]

theorem readEntry_unknown {s : State} {idx sub : Nat} (hd : findDesc idx sub = none) : s.readEntry idx sub = (.unknownEntry, [], s) := by
  simp [readEntry, hd]

theorem readEntry_writeOnly {s : State} {idx sub : Nat} {d : Desc} (hd : findDesc idx sub = some d) (hw : d.acc = .wo) :
    s.readEntry idx sub = (.access, [], s) := by
  simp [readEntry, hd, hw]

/-- The value that a READ of a number entry finds: the one formed from the rest of the state, else the stored one. -/
def numberRead (s : State) (idx sub : Nat) : Int :=
  match s.viewNum idx sub with
  | some v => (v : Int)
  | none => s.getN (keyOf idx sub)

theorem readEntry_number {s : State} {idx sub : Nat} {d : Desc} (hd : findDesc idx sub = some d) (hw : d.acc ≠ .wo)
    (number : ∃ n, d.ty = .u n ∨ d.ty = .i n) (below : idx < 0xF000) (auth : idx ≠ 0x1021) (ledger : idx ≠ 0x8033)
    (stored : isMeasured idx sub = false) (bytes : s.viewBytes idx sub = none) :
    s.readEntry idx sub = (.ok, d.ty.encode (.num (s.numberRead idx sub)), s) := by
  unfold readEntry numberRead
  cases acc : d.acc
  case wo => exact absurd acc hw
  all_goals
    simp only [hd, acc, if_neg auth, if_neg (Nat.not_le.2 below), stored, bytes, if_neg ledger]
    cases s.viewNum idx sub
    · obtain ⟨n, e | e⟩ := number <;> rw [e] <;> rfl
    · rfl

theorem viewBytes_taken (s : State) (h : Requester) (op i j : Nat) (b : List Byte) (idx sub : Nat) :
    (s.taken h op i j b).viewBytes idx sub = s.viewBytes idx sub := by
  unfold taken
  cases h.link <;> rfl

theorem numberRead_taken (s : State) (h : Requester) (op i j : Nat) (b : List Byte) (idx sub : Nat) :
    (s.taken h op i j b).numberRead idx sub = s.numberRead idx sub := by
  unfold taken
  cases h.link <;> rfl

/-! ### AUTH_CHALLENGE (R349) -/

/-- The state after new random bytes became the challenge. -/
def challenged (s : State) : State := { s with
  free := s.free + 1, svc := { s.svc with challenge := some ((List.range 16).map (Config.randomByte s.free)) } }

theorem newChallenge_ok {s : State} (rng : s.getN K.RNG_STATE = 0) :
    s.newChallenge = some ((List.range 16).map (Config.randomByte s.free), s.challenged) :=
  if_neg (not_not.2 rng)

theorem newChallenge_none {s : State} (rng : s.getN K.RNG_STATE ≠ 0) : s.newChallenge = none := if_pos rng

/-- A READ of AUTH_CHALLENGE takes new random bytes. -/
theorem readEntry_challenge (s : State) :
    s.readEntry 0x1021 0 = (match s.newChallenge with | some r => (.ok, r.1, r.2) | none => (.wrongState, [], s)) := by
  have desc : ∃ d, findDesc 0x1021 0 = some d ∧ d.acc = .ro := ⟨_, rfl, rfl⟩
  obtain ⟨d, hd, ro⟩ := desc
  simp only [readEntry, hd, ro]
  rfl

theorem challenged_taken (s v : State) (h : Requester) (op idx sub : Nat) (b : List Byte) :
    (s.taken h op idx sub b).challenged.withLinksOf v = s.challenged.withLinksOf v := by
  unfold taken
  cases h.link <;> rfl

/-! ### TABLEAU_CLOSE (R397) -/

theorem closeTableau_idle {s : State} {t : Tableau} (ht : s.tab = some t) (held : t.held = []) : s.closeTableau = { s with tab := none } := by
  unfold closeTableau
  simp only [ht, held]
  rfl

/-- Without the tableau that the request names the request is answered TABLEAU_CLOSED. -/
theorem tableauClose_other {s : State} {h : Requester} (r : s.Ready h) {id : Nat} (hid : id < 65536) (no : ∀ t, s.tab = some t → t.id ≠ id) :
    s.tableauClose h id = s.answered h opTabClose 0 0 .tableauClosed [] := by
  unfold tableauClose
  rw [execute_ready r]
  simp only [heldPayload_taken, leBytes_length, taken_tab]
  cases ht : s.tab with
  | none => exact reply_taken r ..
  | some t => simp only [leNat_leBytes 2 id hid, if_neg (no t ht), reply_taken r, ne_eq, not_true, if_false]

/-- The tableau that the request names is closed, with no read held under it. -/
theorem tableauClose_same {s : State} {h : Requester} (r : s.Ready h) {t : Tableau} (hid : t.id < 65536) (ht : s.tab = some t) (held : t.held = [])
    (hb : s.heldBatches = []) : s.tableauClose h t.id = { s with tab := none }.answered h opTabClose 0 0 .ok [] := by
  have closed : (s.taken h opTabClose 0 0 (leBytes 2 t.id)).closeTableau = { s with tab := none }.taken h opTabClose 0 0 (leBytes 2 t.id) := by
    rw [closeTableau_idle ((taken_tab ..).trans ht) held]
    unfold taken
    cases h.link <;> rfl
  unfold tableauClose
  rw [execute_ready r]
  simp only [heldPayload_taken, leBytes_length, taken_tab, ht, leNat_leBytes 2 t.id hid]
  simp only [ne_eq, not_true, if_false, if_true]
  have ready : State.Ready { s with tab := none } h := by
    obtain ⟨on, ftm, empty⟩ := r
    exact ⟨on, ftm, by revert empty; cases h.link <;> exact id⟩
  rw [closed, reply_taken ready, runHeld_none]
  rw [answered_heldBatches]
  exact hb

theorem tableauTimeout_local {s : State} {t : Tableau} (ht : s.tab = some t) (held : t.held = []) (own : t.site = false)
    (hb : s.heldBatches = []) : s.tableauTimeout = { s with tab := none } := by
  have closed : s.closeLocal = { s with tab := none } := by
    unfold closeLocal
    simp only [ht, own]
    exact closeTableau_idle ht held
  unfold tableauTimeout
  rw [closed]
  exact runHeld_none hb

end State

/-- Settles O14: what READ finds of the entry, on a state that differs in its links alone. -/
theorem readAnswersValue : Obligations.ReadAnswersValue := by
  intro s h idx sub r
  refine ⟨fun hd => ?_, fun d hd => ⟨fun hw => ?_, fun hw number below auth ledger stored bytes => ?_⟩⟩
  · exact congrArg Host.Outcome.next (State.hostRead_refused r (State.readEntry_unknown hd) Status.noConfusion Status.noConfusion)
  · exact congrArg Host.Outcome.next (State.hostRead_refused r (State.readEntry_writeOnly hd hw) Status.noConfusion Status.noConfusion)
  · have found := State.readEntry_number (s := s.taken h opRead idx sub []) hd hw number below auth ledger stored
      ((State.viewBytes_taken ..).trans bytes)
    refine congrArg Host.Outcome.next ((State.hostRead_ok r found).trans ?_)
    rw [State.reply_taken r, State.numberRead_taken]
    rfl

/-- Settles O15. -/
theorem challengeReplaced : Obligations.ChallengeReplaced := by
  intro s h r
  refine ⟨fun rng => ?_, fun rng => ?_⟩
  · have found : (s.taken h opRead 0x1021 0 []).readEntry 0x1021 0 =
        (.ok, (List.range 16).map (Config.randomByte s.free), (s.taken h opRead 0x1021 0 []).challenged) := by
      rw [State.readEntry_challenge, State.newChallenge_ok (by rwa [State.getN_taken]), State.taken_free]
    have on : (s.taken h opRead 0x1021 0 []).challenged.serves = true := by simpa [State.challenged, State.serves] using r.1
    have answer := (State.hostRead_ok r found).trans ((State.reply_done r on rfl rfl ..).trans (State.challenged_taken ..))
    exact ⟨_, _, congrArg Host.Outcome.next answer, by simp, rfl, State.answered_links .., rfl⟩
  · have found : (s.taken h opRead 0x1021 0 []).readEntry 0x1021 0 =
        (.wrongState, [], s.taken h opRead 0x1021 0 []) := by
      rw [State.readEntry_challenge, State.newChallenge_none (by rwa [State.getN_taken])]
    exact congrArg Host.Outcome.next (State.hostRead_refused r found Status.noConfusion Status.noConfusion)

/-- Settles O18. -/
theorem tableauCloses : Obligations.TableauCloses := by
  intro s h id r hid hb
  refine ⟨fun t ht held => ⟨?_, fun own => ?_⟩, fun no => ?_⟩
  · rintro rfl
    exact congrArg Host.Outcome.next (State.tableauClose_same r hid ht held hb)
  · exact congrArg Host.Outcome.next (State.tableauTimeout_local ht held own hb)
  · exact congrArg Host.Outcome.next (State.tableauClose_other r hid no)

/-- Settles O28: a WRITE takes the path of its entry, after which held batches run. -/
theorem writeFollowsItsPath : Obligations.WriteFollowsItsPath := by
  intro s h idx sub data r
  have run {t : State} (w : s.hostWrite h idx sub data = t) : exec (.write h idx sub data) s = .next t.runHeld :=
    congrArg (fun u : State => Host.Outcome.next u.runHeld) w
  refine ⟨fun hd => run (State.hostWrite_unknown r data hd), fun d hd hw => ⟨fun st hs no => ?_, fun ok below => ?_⟩⟩
  · exact run (State.hostWrite_refused r hd hw hs no)
  · exact ⟨fun flag vol => run (State.hostWrite_accepted r hd hw ok below flag vol rfl),
      fun now => run (State.hostWrite_now r hd hw ok below now rfl)⟩

end Sys2Proof.Machine
end

section
/-! PROOFS. The commands of chapter 12: TIME_STEP, SERVICE_EXIT and a command that fails authentication (R348 to R352, R359). -/

namespace Sys2Proof.Machine

open Sys2Proof
set_option Elab.async false

namespace State

/-! ### Command entries (R378) -/

/-- A command that is refused for its state or value changes nothing. -/
theorem command_refused {s : State} {h : Requester} (r : s.Ready h) {idx sub : Nat} {data : List Byte} {d : Desc} {st : Status}
    (hd : findDesc idx sub = some d) (hw : d.acc = .wo)
    (hc : (s.taken h opWrite idx sub data).command h d idx sub data = (some st, s.taken h opWrite idx sub data)) :
    s.hostWrite h idx sub data = s.answered h opWrite idx sub st [] := by
  rw [hostWrite_command r hd hw hc, reply_taken r]

/-- A command that touches neither the mode nor the links is answered after what it did. -/
theorem command_answered {s u : State} {h : Requester} (r : s.Ready h) {idx sub : Nat} {data : List Byte} {d : Desc} {st : Status}
    (hd : findDesc idx sub = some d) (hw : d.acc = .wo) (hc : (s.taken h opWrite idx sub data).command h d idx sub data = (some st, u))
    {m : Nat} (k : Touches m (s.taken h opWrite idx sub data) u) (hm : Nat.land m 16 ≠ 16 := by decide)
    (hs : Nat.land m 68719476736 ≠ 68719476736 := by decide) (hl : Nat.land m 137438953472 ≠ 137438953472 := by decide) :
    s.hostWrite h idx sub data = u.withLinksOf (s.answered h opWrite idx sub st []) := by
  have on : u.serves = true := by
    have on := r.1
    unfold serves at on ⊢
    rw [k.mode hm, taken_mode]
    exact on
  rw [hostWrite_command r hd hw hc, reply_done r on (k.spi hs) (k.can hl)]

/-! ### TIME_STEP (R359) -/

/-- The row of TIME_STEP in the entry table. -/
def timeDesc : Desc := ⟨0x1031, 1, 1, 0, 0, .i 64, .wo, 0, [], .special⟩

theorem findDesc_timeStep : findDesc 0x1031 0 = some timeDesc := by decide +kernel

theorem command_timeStep (s : State) (h : Requester) {v : Int} (lo : -(2 ^ 63) ≤ v) (hi : v < 2 ^ 63) :
    s.command h timeDesc 0x1031 0 (leBytes 8 (ofSigned 64 v)) =
      if s.timeLocked = true then (some .wrongState, s) else (some (s.timeStep v).1, (s.timeStep v).2) := by
  have val : toSigned 64 (leNat (leBytes 8 (ofSigned 64 v))) = v := by
    rw [leNat_leBytes 8 _ (ofSigned_lt 64 v)]
    exact toSigned_ofSigned (n := 63) lo hi
  have free : s.stateRefuses 0x1031 0 = false := stateRefuses_free (by decide) (.inl (by decide))
  have len : entryLenOk timeDesc 0x1031 0 (leBytes 8 (ofSigned 64 v)).length = true := by rw [leBytes_length]; rfl
  unfold command
  simp only [val, free, len]
  rw [if_neg (by decide), if_neg (by simp), if_neg (by decide)]
  cases s.timeLocked
  · rw [if_neg (by decide), if_neg (by decide), if_neg (by decide), if_neg (by decide), if_pos trivial, if_neg (by decide)]
  · rw [if_pos ⟨trivial, rfl⟩, if_pos rfl]

theorem timeLocked_taken (s : State) (h : Requester) (op idx sub : Nat) (b : List Byte) :
    (s.taken h op idx sub b).timeLocked = s.timeLocked := by
  unfold taken
  cases h.link <;> rfl

/-- The largest step that is accepted (R359). -/
def timeStepMost (s : State) : Nat := if s.mode = .service ∨ s.getN K.RTC_VALID = 0 then 2 ^ 46 else 1000000000

/-- The state after an accepted step. -/
def timeStepped (s : State) (v : Int) : State :=
  { ((s.addSat 32 K.TIME_STEP_COUNT 1).setN K.TIME_STEP_LAST v).setN K.RTC_VALID 1 with timeStepNext := s.timeStepNext + v }

theorem timeStep_accepted {s : State} (on : s.serves = true) (free : s.timeLocked = false) {v : Int} (within : v.natAbs ≤ s.timeStepMost) :
    s.timeStep v = (.ok, s.timeStepped v) := by
  have next : (s.addSat 32 K.TIME_STEP_COUNT 1).timeStepNext = s.timeStepNext := (addSat_touches ..).timeStepNext (by decide)
  unfold timeStep timeStepped
  rw [if_neg (by simp [on, free])]
  unfold timeStepMost at within
  simp only [Bool.or_eq_true, decide_eq_true_eq, if_neg (Nat.not_lt.2 within), setN_timeStepNext, next]

theorem timeStep_beyond {s : State} (on : s.serves = true) (free : s.timeLocked = false) {v : Int} (beyond : s.timeStepMost < v.natAbs) :
    s.timeStep v = (.invalidValue, s) := by
  unfold timeStep
  rw [if_neg (by simp [on, free])]
  unfold timeStepMost at beyond
  simp only [Bool.or_eq_true, decide_eq_true_eq, if_pos beyond]

theorem timeStepped_touches (s : State) (v : Int) : Touches 1099511628801 s (s.timeStepped v) :=
  .upd ((((addSat_touches s 32 K.TIME_STEP_COUNT 1).trans ((setN_touches ..).mono rfl)).trans ((setN_touches ..).mono rfl)).mono rfl)

theorem getN_timeStepped (s : State) (v : Int) (k : Nat) : (s.timeStepped v).getN k =
    if k = K.RTC_VALID then 1 else if k = K.TIME_STEP_LAST then v
    else if k = K.TIME_STEP_COUNT then ((satAdd 32 (s.getU K.TIME_STEP_COUNT) 1 : Nat) : Int) else s.getN k := by
  have nums : (s.timeStepped v).getN k = (((s.addSat 32 K.TIME_STEP_COUNT 1).setN K.TIME_STEP_LAST v).setN K.RTC_VALID 1).getN k := rfl
  rw [nums, getN_setN, getN_setN, getN_addSat]

/-! ### SERVICE_EXIT (R348, R352) -/

/-- The row of MODE_CMD in the entry table. -/
def modeDesc : Desc := ⟨0x1010, 1, 1, 0, 0, .u 8, .wo, 0, [], .within 1 3⟩

theorem findDesc_modeCmd : findDesc 0x1010 0 = some modeDesc := by decide +kernel

theorem command_serviceExit (s : State) (h : Requester) :
    s.command h modeDesc 0x1010 0 (leBytes 1 1) = (some s.serviceExit.1, s.serviceExit.2) := by
  have free : s.stateRefuses 0x1010 0 = false := stateRefuses_free (by decide) (.inl (by decide))
  simp only [command, free]
  rfl

theorem serviceAccess_taken (s : State) (h : Requester) (op idx sub : Nat) (b : List Byte) :
    (s.taken h op idx sub b).serviceAccess = s.serviceAccess := by
  unfold taken
  cases h.link <;> rfl

theorem sealing_taken (s : State) (h : Requester) (op idx sub : Nat) (b : List Byte) : (s.taken h op idx sub b).sealing = s.sealing := by
  unfold taken
  cases h.link <;> rfl

theorem serviceExit_refused {s : State} (no : s.serviceAccess = false ∨ s.sealing = true) : s.serviceExit = (.wrongState, s) := if_pos no

theorem serviceExit_accepted {s : State} (access : s.serviceAccess = true) (idle : s.sealing = false) : s.serviceExit = (.ok, s.serviceEnd) :=
  if_neg (by simp [access, idle])

theorem serviceAccess_metering {s : State} (leaves : s.modeNext = some .metering) : s.serviceAccess = false := by
  simp [serviceAccess, inService, decided, leaves]

theorem serviceAccess_unattended {s : State} (out : s.inService = false) (un : s.attended = false) : s.serviceAccess = false := by
  simp [serviceAccess, out, un]

/-- ATTENDED is over. -/
def unattended (s : State) : State := { s with attended := false }

theorem unattended_touches (s : State) : Touches 2306415862841806881 s s.unattended.endService :=
  .trans (.upd (.refl _)) ((endService_touches _).mono rfl)

theorem unattended_attended (s : State) : s.unattended.endService.attended = false := (endService_touches _).attended (by decide)

theorem inService_congr {s t : State} (mode : t.mode = s.mode) (next : t.modeNext = s.modeNext) : t.inService = s.inService := by
  rw [inService, inService, decided, decided, serves, serves, mode, next]

theorem serviceEnd_attended {s : State} (access : s.serviceAccess = true) (idle : s.sealing = false) (out : s.inService = false) :
    s.serviceEnd = s.unattended.endService := by
  have lockdown : s.decided = .lockdown := by
    simp only [serviceAccess, out, Bool.false_or, Bool.and_eq_true, decide_eq_true_eq] at access
    exact access.1.2
  unfold serviceEnd
  rw [if_neg (by simp [access]), if_neg (by simp [idle]), lockdown]
  rfl

end State

/-- Settles O40. -/
theorem serviceExitEndsService : Obligations.ServiceExitEndsService := by
  intro s h r
  have cmd := State.command_serviceExit (s.taken h opWrite 0x1010 0 (leBytes 1 1)) h
  refine ⟨fun no => ?_, fun access idle => ?_⟩
  · rw [State.serviceExit_refused (by rwa [State.serviceAccess_taken, State.sealing_taken])] at cmd
    exact congrArg Host.Outcome.next (State.command_refused r State.findDesc_modeCmd rfl cmd)
  have access' := (State.serviceAccess_taken s h opWrite 0x1010 0 (leBytes 1 1)).trans access
  have idle' := (State.sealing_taken s h opWrite 0x1010 0 (leBytes 1 1)).trans idle
  rw [State.serviceExit_accepted access' idle'] at cmd
  have same := State.inService_taken s h opWrite 0x1010 0 (leBytes 1 1)
  cases service : s.inService with
  | true =>
    have decided : (s.taken h opWrite 0x1010 0 (leBytes 1 1)).decided = .service := by
      rw [service] at same
      simp only [State.inService, Bool.and_eq_true, decide_eq_true_eq] at same
      exact same.1
    rw [State.serviceEnd_service access' idle' decided] at cmd
    have touches : Touches 64 (s.taken h opWrite 0x1010 0 (leBytes 1 1)) { s.taken h opWrite 0x1010 0 (leBytes 1 1) with
      modeNext := some .metering } := .upd (.refl _)
    exact ⟨_, congrArg Host.Outcome.next (State.command_answered r State.findDesc_modeCmd rfl cmd touches), State.answered_links ..,
      State.serviceAccess_metering rfl, State.taken_mode .., fun _ => ⟨rfl, (touches.answered (n := 206158430272)).frame⟩, nofun⟩
  | false =>
    rw [State.serviceEnd_attended access' idle' (same.trans service)] at cmd
    have touches := (s.taken h opWrite 0x1010 0 (leBytes 1 1)).unattended_touches
    have ended := (s.taken h opWrite 0x1010 0 (leBytes 1 1)).unattended_attended
    have mode := (touches.mode (by decide)).trans (State.taken_mode ..)
    have next := (touches.modeNext (by decide)).trans (State.taken_modeNext ..)
    exact ⟨_, congrArg Host.Outcome.next (State.command_answered r State.findDesc_modeCmd rfl cmd touches), State.answered_links ..,
      State.serviceAccess_unattended ((State.inService_congr mode next).trans service) ended, mode, nofun, fun _ => ⟨ended, next⟩⟩

/-- Settles O41. -/
theorem timeStepIsTaken : Obligations.TimeStepIsTaken := by
  intro s h v r lo hi
  have cmd := State.command_timeStep (s.taken h opWrite 0x1031 0 (leBytes 8 (ofSigned 64 v))) h lo hi
  rw [State.timeLocked_taken] at cmd
  have most : (s.taken h opWrite 0x1031 0 (leBytes 8 (ofSigned 64 v))).timeStepMost = s.timeStepMost := by simp [State.timeStepMost]
  have on : (s.taken h opWrite 0x1031 0 (leBytes 8 (ofSigned 64 v))).serves = true := by simpa [State.serves] using r.1
  refine ⟨fun locked => ?_, fun free within => ?_, fun free beyond => ?_⟩
  · exact congrArg Host.Outcome.next (State.command_refused r State.findDesc_timeStep rfl (cmd.trans (if_pos locked)))
  · rw [free, if_neg (by decide), State.timeStep_accepted on ((State.timeLocked_taken ..).trans free) (most ▸ within)] at cmd
    have touches := State.timeStepped_touches (s.taken h opWrite 0x1031 0 (leBytes 8 (ofSigned 64 v))) v
    refine ⟨_, congrArg Host.Outcome.next (State.command_answered r State.findDesc_timeStep rfl cmd touches), State.answered_links .., ?_⟩
    refine ⟨?_, ?_, ?_, ?_, ?_, (touches.answered (n := 1305670059009)).frame⟩
    · exact congrArg (· + v) (State.taken_timeStepNext ..)
    all_goals simp only [State.getU, State.getN_withLinksOf, State.getN_timeStepped, State.getN_taken]
    · rfl
    · exact Nat.min_comm ..
    · rfl
    · intro k last count valid
      rw [if_neg valid, if_neg last, if_neg count]
  · rw [free, if_neg (by decide), State.timeStep_beyond on ((State.timeLocked_taken ..).trans free) (most ▸ beyond)] at cmd
    exact congrArg Host.Outcome.next (State.command_refused r State.findDesc_timeStep rfl cmd)

namespace State

/-! ### Authentication (R348 to R350) -/

/-- The row of AUTH_CMD in the entry table. -/
def authDesc : Desc := ⟨0x1022, 1, 1, 0, 0, .blobUpTo 4096, .wo, 0, [], .special⟩

theorem findDesc_authCmd : findDesc 0x1022 0 = some authDesc := by decide +kernel

section

variable {a : Auth} {payload : List Byte} (len : a.challenge.length = 16)

include len

theorem authBytes_size (idx : Nat) : (authBytes idx a payload).length = 86 + payload.length := by
  simp [authBytes, len]
  omega

theorem authBytes_challenge (idx : Nat) : ((authBytes idx a payload).drop 6).take 16 = a.challenge := by
  have head : (leBytes 2 idx ++ [0, 0] ++ leBytes 2 payload.length : List Byte).length = 6 := by simp
  unfold authBytes
  rw [List.append_assoc, List.append_assoc, List.append_assoc, ← head, List.drop_left, ← len, List.take_left]

theorem command_auth (s : State) (h : Requester) {idx : Nat} (short : payload.length ≤ 4) :
    s.command h authDesc 0x1022 0 (authBytes idx a payload) = s.authCommand h (authBytes idx a payload) := by
  have free : s.stateRefuses 0x1022 0 = false := stateRefuses_free (by decide) (.inl (by decide))
  have fits : entryLenOk authDesc 0x1022 0 (authBytes idx a payload).length = true := by
    rw [authBytes_size len]
    exact decide_eq_true (by omega)
  simp only [command, free, fits]
  rfl

end

theorem authBytes_target {idx : Nat} (small : idx < 65536) (a : Auth) (payload : List Byte) :
    leNat ((authBytes idx a payload).take 2) = idx ∧ leNat (((authBytes idx a payload).drop 2).take 2) = 0 := by
  refine ⟨?_, rfl⟩
  have val := leNat_leBytes 2 idx small
  exact val

theorem authBytes_payload (idx : Nat) (a : Auth) {payload : List Byte} (short : payload.length < 65536) :
    leNat (((authBytes idx a payload).drop 4).take 2) = payload.length := leNat_leBytes 2 _ short

/-- Without the standing challenge AUTH_CMD fails, is counted and is an event of T12. -/
theorem authCommand_fails {s : State} {h : Requester} {a : Auth} (len : a.challenge.length = 16) (other : s.svc.challenge ≠ some a.challenge)
    {idx : Nat} (target : idx = 0x1010 ∨ idx = 0xA013) {payload : List Byte} (filled : 0 < payload.length) (short : payload.length ≤ 4) :
    s.authCommand h (authBytes idx a payload) = (some .authFailed, (s.addSat 32 K.AUTH_FAIL 1).source 12 0) := by
  obtain ⟨entry, sub⟩ := authBytes_target (idx := idx) (by omega) a payload
  simp only [authCommand, authBytes_challenge len, entry, sub, authBytes_payload idx a (payload := payload) (by omega), authBytes_size len,
    if_neg other]
  rw [if_neg (by omega), if_neg (by omega), if_pos (.inl other)]

/-- What a failed authentication leaves. -/
def authFailed (s : State) : State := (s.addSat 32 K.AUTH_FAIL 1).source 12 0

theorem authFailed_touches (s : State) : Touches 576461856110018561 s s.authFailed :=
  ((addSat_touches ..).mono rfl).trans (source_touches ..)

theorem getN_authFailed {k : Nat} (no : ¬ TamperOnly.entries 12 k) (s : State) : s.authFailed.getN k = (s.addSat 32 K.AUTH_FAIL 1).getN k :=
  (TamperOnly.source (s.addSat 32 K.AUTH_FAIL 1) 12 0).nums k no

theorem getN_authFailed_other {k : Nat} (no : ¬ TamperOnly.entries 12 k) (ne : k ≠ K.AUTH_FAIL) (s : State) : s.authFailed.getN k = s.getN k := by
  rw [getN_authFailed no, getN_addSat, if_neg ne]

end State

/-- Settles O35. -/
theorem authenticationFailureRefuses : Obligations.AuthenticationFailureRefuses := by
  intro s h a c r len other hc
  have written : ∃ idx payload, (idx = 0x1010 ∨ idx = 0xA013) ∧ 0 < payload.length ∧ payload.length ≤ 4 ∧
      exec c s = .next (s.hostWrite h 0x1022 0 (State.authBytes idx a payload)) := by
    rcases hc with rfl | rfl | rfl | rfl | ⟨n, rfl⟩
    · exact ⟨_, leBytes 1 2, .inl rfl, by decide, by decide, rfl⟩
    · exact ⟨_, leBytes 1 3, .inl rfl, by decide, by decide, rfl⟩
    · exact ⟨_, leBytes 4 2, .inr rfl, by decide, by decide, rfl⟩
    · exact ⟨_, leBytes 4 1, .inr rfl, by decide, by decide, rfl⟩
    · exact ⟨_, leBytes 4 (3 + 256 * n.val), .inr rfl, by simp, by simp, rfl⟩
  obtain ⟨idx, payload, target, filled, short, eq⟩ := written
  have fails := State.authCommand_fails (s := s.taken h opWrite 0x1022 0 (State.authBytes idx a payload)) (h := h) len
    (by rwa [State.taken_svc]) target filled short
  have cmd := (State.command_auth len (s.taken h opWrite 0x1022 0 (State.authBytes idx a payload)) h (idx := idx) short).trans fails
  have touches := (s.taken h opWrite 0x1022 0 (State.authBytes idx a payload)).authFailed_touches
  refine ⟨_, eq.trans (congrArg Host.Outcome.next (State.command_answered r State.findDesc_authCmd rfl cmd touches)), State.answered_links .., ?_,
    (touches.mode (by decide)).trans (State.taken_mode ..), (touches.modeNext (by decide)).trans (State.taken_modeNext ..),
    (touches.twins (by decide)).trans (State.taken_twins ..), (touches.svc (by decide)).trans (State.taken_svc ..), ?_, ?_⟩
  · have count : (s.taken h opWrite 0x1022 0 (State.authBytes idx a payload)).authFailed.getN K.AUTH_FAIL =
        ((satAdd 32 (s.getU K.AUTH_FAIL) 1 : Nat) : Int) := by
      rw [State.getN_authFailed (by unfold TamperOnly.entries; decide), State.getN_addSat, if_pos rfl, State.getU_taken]
    exact congrArg Int.toNat count
  · exact (State.getN_authFailed_other (by unfold TamperOnly.entries; decide) (by decide) _).trans (State.getN_taken ..)
  · exact (State.getN_authFailed_other (by unfold TamperOnly.entries; decide) (by decide) _).trans (State.getN_taken ..)

end Sys2Proof.Machine
end

section
/-! PROOFS. Power-fail detection (R343, R361), LANE_CMD (R441) and SITE_CMD (R421, R423). -/

namespace Sys2Proof.Machine

open Sys2Proof
set_option Elab.async false

/-- The save has begun in HOLDUP, and decisions, stream and the write under way are dropped (R361, Table 08.6). -/
structure SavesInHoldup (t : State) : Prop where
  mode : t.mode = .holdup
  twins : t.twins = []
  stream : t.stream = Stream.init
  writing : t.store.writing = none
  sections : t.store.saves[t.saveSlot].sections = 15

namespace State

/-! ### Power-fail detection (R343, R361) -/

theorem saveBegin_sections (s : State) : s.saveBegin.store.saves[s.saveBegin.saveSlot].sections = 15 :=
  congrArg SaveArea.sections (Vector.getElem_set_self ..)

theorem saveBegin_saves {s : State} (mode : s.mode = .holdup) (twins : s.twins = []) (stream : s.stream = Stream.init)
    (writing : s.store.writing = none) : SavesInHoldup s.saveBegin := ⟨mode, twins, stream, writing, s.saveBegin_sections⟩

/-- What ends when HOLDUP begins leaves the mode. -/
theorem holdupEnds_mode (s : State) :
    (((s.pulsesOff.slackAll.calAbort.auxPowerFail.stopShadow).abortSeal 9).stopMain.closeTableau).mode = s.mode := by
  simp only [(closeTableau_touches _).mode (by decide), (stopMain_touches _).mode (by decide), (abortSeal_touches _ _).mode (by decide),
    (stopShadow_touches _).mode (by decide), (auxPowerFail_touches _).mode (by decide), (calAbort_touches _).mode (by decide),
    (slackAll_touches _).mode (by decide), (pulsesOff_touches _).mode (by decide)]

/-- How power-fail detection goes on in mode `m` once the loss is stamped and the display clamped. -/
def lossEntered (s : State) (m : Mode) : State :=
  if m = .recalling ∧ s.startup.ckptWritten = false then s.stopMain.powerLost else
  let s := { s with mode := .holdup, modeNext := none, attended := false }
  let s := s.setN K.HOLDUP_LAST s.now
  let s := (s.pulsesOff.slackAll.calAbort.auxPowerFail.stopShadow).abortSeal 9
  let s := s.stopMain.closeTableau
  let s := { s with store := { s.store with writing := none }, stream := Stream.init, twins := [] }
  s.saveBegin

theorem halted_saves {s : State} (mode : s.mode = .holdup) :
    SavesInHoldup { s with store := { s.store with writing := none }, stream := Stream.init, twins := [] }.saveBegin :=
  saveBegin_saves mode rfl rfl rfl

theorem lossEntered_saves {s : State} {m : Mode} (kept : ¬ (m = .recalling ∧ s.startup.ckptWritten = false)) :
    SavesInHoldup (s.lossEntered m) := by
  unfold lossEntered
  rw [if_neg kept]
  refine halted_saves ?_
  rw [holdupEnds_mode, setN_mode]

theorem powerFail_stays {s : State} (off : s.mode = .dormant ∨ s.mode = .holdup) (time clampNs : Nat) : s.powerFail time clampNs = s := by
  unfold powerFail
  rcases off with m | m <;> rw [m]

theorem powerFail_enters {s : State} (on : s.mode ≠ .dormant) (off : s.mode ≠ .holdup) (time clampNs : Nat) :
    ∃ n, s.powerFail time clampNs = ((s.at' time).stampLoss.displayClamp n).lossEntered s.mode := by
  unfold powerFail
  split
  · contradiction
  · contradiction
  · exact ⟨_, rfl⟩

theorem stamped_startup (s : State) (time n : Nat) : ((s.at' time).stampLoss.displayClamp n).startup = s.startup :=
  (((displayClamp_touches ..).startup (by decide)).trans ((stampLoss_touches ..).startup (by decide))).trans ((at'_touches ..).startup (by decide))

theorem powerFail_saves {s : State} (on : s.serves = true ∨ s.mode = .recalling ∧ s.startup.ckptWritten = true) (time clampNs : Nat) :
    SavesInHoldup (s.powerFail time clampNs) := by
  have runs : s.mode ≠ .dormant ∧ s.mode ≠ .holdup ∧ ¬ (s.mode = .recalling ∧ s.startup.ckptWritten = false) := by
    rcases on with on | ⟨m, written⟩
    · refine ⟨?_, ?_, fun m => absurd m.1 ?_⟩
      all_goals
        intro m
        simp [serves, m] at on
    · simp [m, written]
  obtain ⟨up, off, kept⟩ := runs
  obtain ⟨n, eq⟩ := powerFail_enters up off time clampNs
  rw [eq]
  exact lossEntered_saves (by rwa [stamped_startup])

theorem powerFail_early {s : State} (m : s.mode = .recalling) (early : s.startup.ckptWritten = false) (time clampNs : Nat) :
    (s.powerFail time clampNs).mode = .dormant := by
  obtain ⟨n, eq⟩ := powerFail_enters (s := s) (by simp [m]) (by simp [m]) time clampNs
  rw [eq, m, lossEntered, if_pos ⟨rfl, by rwa [stamped_startup]⟩]
  rfl

end State

/-- Settles O48. -/
theorem powerFailEntersHoldup : Obligations.PowerFailEntersHoldup := by
  intro s time clampNs
  refine ⟨fun on => ?_, fun m early => ?_, fun off => ?_⟩
  · obtain ⟨mode, twins, stream, writing, sections⟩ := State.powerFail_saves on time clampNs
    exact ⟨_, rfl, mode, twins, stream, writing, sections⟩
  · exact ⟨_, rfl, State.powerFail_early m early time clampNs⟩
  · exact congrArg Host.Outcome.next (State.powerFail_stays off time clampNs)

end Sys2Proof.Machine
end

section
/-! PROOFS. LANE_CMD (R441). -/

namespace Sys2Proof.Machine

open Sys2Proof
set_option Elab.async false

/-- Lane `l` of `s` has been declared worn in `u`, with lane 4 to take its place: it shadows, or has taken over. -/
structure Substituted (l : Fin 5) (s u : State) : Prop where
  others : ∀ j : Fin 5, j ≠ l → j ≠ 4 → u.lanes[j] = s.lanes[j]
  moves : (u.lanes[l].state = .retired ∧ u.lanes[(4 : Fin 5)].state = .inService ∧ u.laneSub = none) ∨
    (u.lanes[l].state = .worn ∧ u.lanes[(4 : Fin 5)].state = .shadowing ∧
      ∃ sub, u.laneSub = some sub ∧ sub.leaving = l ∧ sub.shadow = 4 ∧ sub.restore = false)

namespace State

/-! ### The lanes after a substitution ends -/

/-- A lane that has taken another's logical lane over. -/
def tookOver (lg : Option (Fin 4)) (x : Lane) : Lane := { x with state := .inService, logical := lg }

/-- A lane that has left its logical lane. -/
def gone (restore : Bool) (x : Lane) : Lane := { x with logical := none, noSpare := false, state := if restore then .idle else .retired }

theorem finishSub_lanes (s : State) (sub : LaneSub) (n : Nat) : (s.finishSub sub n).lanes =
    ((s.updLane sub.shadow (tookOver s.lanes[sub.leaving].logical)).updLane sub.leaving (gone sub.restore)).lanes := by
  obtain ⟨leaving, shadow, points, restore⟩ := sub
  unfold finishSub
  refine ((recordDevice_touches ..).lanes (by decide)).trans ?_
  cases restore
  · refine ((health_touches ..).lanes (by decide)).trans ?_
    simp only [setN_lanes]
    rfl
  · exact (health_touches ..).lanes (by decide)

theorem finishSub_laneSub (s : State) (sub : LaneSub) (n : Nat) : (s.finishSub sub n).laneSub = none := by
  obtain ⟨leaving, shadow, points, restore⟩ := sub
  unfold finishSub
  refine ((recordDevice_touches ..).laneSub (by decide)).trans ?_
  cases restore
  · refine ((health_touches ..).laneSub (by decide)).trans ?_
    simp only [setN_laneSub]
  · exact (health_touches ..).laneSub (by decide)

section

variable {s : State} {a b : Fin 5} {points : List (Fin 8)} {restore : Bool} {n : Nat}

theorem finishSub_leaving (apart : a ≠ b) : (s.finishSub ⟨a, b, points, restore⟩ n).lanes[a] = gone restore s.lanes[a] := by
  rw [finishSub_lanes, updLane_lane, updLane_lane_other _ apart.symm]

theorem finishSub_shadow (apart : a ≠ b) :
    (s.finishSub ⟨a, b, points, restore⟩ n).lanes[b] = tookOver s.lanes[a].logical s.lanes[b] := by
  rw [finishSub_lanes, updLane_lane_other _ apart, updLane_lane]

theorem finishSub_other {j : Fin 5} (leaving : j ≠ a) (shadow : j ≠ b) : (s.finishSub ⟨a, b, points, restore⟩ n).lanes[j] = s.lanes[j] := by
  rw [finishSub_lanes, updLane_lane_other _ leaving.symm, updLane_lane_other _ shadow.symm]

end

end State

namespace Substituted

open State

variable {l : Fin 5} {s u : State}

/-- The substitution is over once every point is handed over. -/
theorem finishes (others : ∀ j : Fin 5, j ≠ l → j ≠ 4 → u.lanes[j] = s.lanes[j]) (apart : l ≠ 4) {sub : LaneSub}
    (leaving : sub.leaving = l) (shadow : sub.shadow = 4) (restore : sub.restore = false) (n : Nat) : Substituted l s (u.finishSub sub n) := by
  obtain ⟨a, b, points, r⟩ := sub
  obtain rfl : a = l := leaving
  obtain rfl : b = 4 := shadow
  obtain rfl : r = false := restore
  refine ⟨fun j other four => ?_, .inl ⟨?_, ?_, finishSub_laneSub ..⟩⟩
  · exact (finishSub_other other four).trans (others j other four)
  · exact congrArg Lane.state (finishSub_leaving apart)
  · exact congrArg Lane.state (finishSub_shadow apart)

/-- Handing a point over goes on with the substitution. -/
theorem handOver (h : Substituted l s u) (apart : l ≠ 4) (p : Fin 8) (n : Nat) : Substituted l s (u.handOver p n) := by
  unfold State.handOver
  split
  · exact h
  case h_2 sub under =>
    obtain ⟨others, moves⟩ := h
    obtain ⟨-, -, idle⟩ | ⟨worn, shadows, sub', under', leaving, shadow, restore⟩ := moves
    · rw [idle] at under
      contradiction
    obtain rfl : sub' = sub := by rw [under] at under'; exact (Option.some.inj under').symm
    have now : Substituted l s u := ⟨others, .inr ⟨worn, shadows, sub', under, leaving, shadow, restore⟩⟩
    dsimp only
    split
    · split
      · exact finishes (u := u.updPoint p _) others apart leaving shadow restore n
      · exact ⟨others, .inr ⟨worn, shadows, _, rfl, leaving, shadow, restore⟩⟩
    · exact now

theorem handOverOff (h : Substituted l s u) (apart : l ≠ 4) (n : Nat) : Substituted l s (u.handOverOff n) := by
  unfold State.handOverOff
  split
  · exact h
  · exact forEach_ind (Substituted l s) _ _ u h fun p _ v hv => hv.handOver apart p n

end Substituted

namespace State

/-- The state once lane `l` is worn and lane 4 about to shadow it. -/
def wornOut (s : State) (l : Fin 5) (p : Nat) : State := (s.updLane l fun x => { x with state := .worn }).health 2 l p

theorem declareWorn_shadows {s : State} {l : Fin 5} (ne : l ≠ 4) (serves : s.lanes[l].state = .inService)
    (idle : s.lanes[(4 : Fin 5)].state = .idle) (none' : s.laneSub = none) (p : Nat) : s.declareWorn l p = (s.wornOut l p).startShadow l 4 false := by
  have lanes : (s.wornOut l p).lanes[(4 : Fin 5)].state = .idle := by
    rw [wornOut, (health_touches ..).lanes (by decide), updLane_lane_other _ ne]
    exact idle
  have sub : (s.wornOut l p).laneSub = none := ((health_touches ..).laneSub (by decide)).trans none'
  unfold declareWorn
  dsimp only
  rw [serves]
  exact if_pos ⟨ne, lanes, sub⟩

/-- The points that lane `a` serves begin to be shadowed. -/
def shadowPoints (s : State) (a : Fin 5) : State :=
  forEach (s.servedBy a) (fun p s => s.updPoint p fun x => { x with shadowed := 0, shWhole := false, warm := false }) s

theorem shadowPoints_touches (s : State) (a : Fin 5) : Touches 16777216 s (s.shadowPoints a) :=
  forEach_touches (hf := fun _ _ => updPoint_touches ..) ..

/-- A lane that shadows. -/
def shadowing (x : Lane) : Lane := { x with state := .shadowing }

theorem startShadow_none {s : State} {a : Fin 5} (unused : s.servedBy a = []) (b : Fin 5) (restore : Bool) :
    s.startShadow a b restore = ((s.shadowPoints a).updLane b shadowing).finishSub ⟨a, b, s.servedBy a, restore⟩ (s.shadowPoints a).index :=
  if_pos unused

theorem startShadow_some {s : State} {a : Fin 5} (used : s.servedBy a ≠ []) (b : Fin 5) (restore : Bool) :
    s.startShadow a b restore = { (s.shadowPoints a).updLane b shadowing with laneSub := some ⟨a, b, s.servedBy a, restore⟩ }.handOverOff
      (s.shadowPoints a).index := if_neg used

section

variable {s : State} {l : Fin 5} (ne : l ≠ 4) (p : Nat)

/-- The lanes once lane 4 shadows the worn lane. -/
theorem wornOut_lanes : (((s.wornOut l p).shadowPoints l).updLane 4 shadowing).lanes =
    ((s.updLane l fun x => { x with state := .worn }).updLane 4 shadowing).lanes := by
  have lanes : ((s.wornOut l p).shadowPoints l).lanes = (s.updLane l fun x => { x with state := .worn }).lanes :=
    ((shadowPoints_touches ..).lanes (by decide)).trans ((health_touches ..).lanes (by decide))
  simp only [updLane, lanes]

include ne

theorem wornOut_substitutes (sub : Option LaneSub) (under : ∃ x, sub = some x ∧ x.leaving = l ∧ x.shadow = 4 ∧ x.restore = false) :
    Substituted l s { ((s.wornOut l p).shadowPoints l).updLane 4 shadowing with laneSub := sub } := by
  have lanes := wornOut_lanes (s := s) (l := l) p
  refine ⟨fun j other four => ?_, .inr ⟨?_, ?_, under⟩⟩
  · refine (congrArg (fun v : Vector Lane 5 => v[j]) lanes).trans ?_
    rw [updLane_lane_other _ four.symm, updLane_lane_other _ other.symm]
  · refine (congrArg (fun v : Vector Lane 5 => v[l].state) lanes).trans ?_
    rw [updLane_lane_other _ ne.symm, updLane_lane]
  · refine (congrArg (fun v : Vector Lane 5 => v[(4 : Fin 5)].state) lanes).trans ?_
    rw [updLane_lane]
    rfl

variable (serves : s.lanes[l].state = .inService) (idle : s.lanes[(4 : Fin 5)].state = .idle) (lone : s.laneSub = none)

include serves idle lone

theorem declareWorn_substitutes : Substituted l s (s.declareWorn l p) := by
  rw [declareWorn_shadows ne serves idle lone]
  by_cases unused : (s.wornOut l p).servedBy l = []
  · rw [startShadow_none unused]
    exact .finishes (wornOut_substitutes ne p _ ⟨⟨l, 4, [], false⟩, rfl, rfl, rfl, rfl⟩).others ne rfl rfl rfl _
  · rw [startShadow_some unused]
    exact (wornOut_substitutes ne p _ ⟨_, rfl, rfl, rfl, rfl⟩).handOverOff ne _

theorem declareWorn_unused (unused : s.servedBy l = []) : (s.declareWorn l p).lanes[l].state = .retired ∧
    (s.declareWorn l p).lanes[(4 : Fin 5)].state = .inService ∧ (s.declareWorn l p).lanes[(4 : Fin 5)].logical = s.lanes[l].logical ∧
    (s.declareWorn l p).laneSub = none := by
  have same : (s.wornOut l p).servedBy l = [] := by
    unfold servedBy at unused ⊢
    rwa [wornOut, (health_touches ..).points (by decide)]
  have carried : (((s.wornOut l p).shadowPoints l).updLane 4 shadowing).lanes[l].logical = s.lanes[l].logical := by
    rw [wornOut_lanes, updLane_lane_other _ ne.symm, updLane_lane]
  rw [declareWorn_shadows ne serves idle lone, startShadow_none same]
  refine ⟨congrArg Lane.state (finishSub_leaving ne), congrArg Lane.state (finishSub_shadow ne),
    (congrArg Lane.logical (finishSub_shadow ne)).trans carried, finishSub_laneSub ..⟩

end

/-! ### LANE_CMD (R441) -/

/-- The row of LANE_CMD in the entry table. -/
def laneDesc : Desc := ⟨0xE060, 1, 1, 0, 0, .u 16, .wo, 0, [], .special⟩

theorem findDesc_laneCmd : findDesc 0xE060 0 = some laneDesc := by decide +kernel

/-- The operation `op` of LANE_CMD on lane `l`: 1 SUBSTITUTE, 2 RESTORE. -/
theorem command_lane (s : State) (h : Requester) (l : Fin 4) {op : Nat} (small : op = 1 ∨ op = 2) :
    s.command h laneDesc 0xE060 0 (leBytes 2 (op + 256 * l.val)) =
      if s.inService = false then (some .wrongState, s)
      else if op = 1 then (some (s.substituteLane l).1, (s.substituteLane l).2) else (some (s.restoreLane l).1, (s.restoreLane l).2) := by
  have val : leNat (leBytes 2 (op + 256 * l.val)) = op + 256 * l.val := leNat_leBytes 2 _ (by omega)
  have refuses : s.stateRefuses 0xE060 0 = !s.inService := rfl
  have len : entryLenOk laneDesc 0xE060 0 (leBytes 2 (op + 256 * l.val)).length = true := by rw [leBytes_length]; rfl
  have lane : (op + 256 * l.val) / 256 = l.val := by omega
  have word : (op + 256 * l.val) % 256 = op := by omega
  have runs : s.laneWrite (op + 256 * l.val) =
      if op = 1 then (some (s.substituteLane l).1, (s.substituteLane l).2) else (some (s.restoreLane l).1, (s.restoreLane l).2) := by
    have same : (⟨l.val % 4, by omega⟩ : Fin 4) = l := Fin.ext (by simp)
    unfold laneWrite
    simp only [lane, word, same]
    rw [if_neg (by omega)]
    rcases small with rfl | rfl <;> rfl
  unfold command
  simp only [val, refuses, len]
  cases s.inService
  · rfl
  · exact runs

theorem substituteLane_accepted {s : State} {l : Fin 4} (on : s.inService = true) (serves : s.lanes[l.castSucc].state = .inService)
    (idle : s.lanes[(4 : Fin 5)].state = .idle) (lone : s.laneSub = none) :
    s.substituteLane l = (.ok, s.declareWorn l.castSucc (s.lanePoint l.castSucc)) := if_pos ⟨on, serves, idle, by simp [lone]⟩

theorem substituteLane_refused {s : State} {l : Fin 4}
    (no : s.lanes[l.castSucc].state ≠ .inService ∨ s.lanes[(4 : Fin 5)].state ≠ .idle ∨ s.laneSub ≠ none) :
    s.substituteLane l = (.wrongState, s) := by
  refine if_neg fun ⟨_, serves, idle, lone⟩ => ?_
  rcases no with no | no | no
  · exact no serves
  · exact no idle
  · exact no (Option.isNone_iff_eq_none.1 lone)

/-- A retired lane whose retest has started (R441). -/
def retesting (s : State) (l : Fin 5) : State :=
  { s.updLane l fun x => { x with state := .testing } with svc := { s.svc with retest := some l } }

theorem retesting_touches (s : State) (l : Fin 5) : Touches 2305843009213759488 s (s.retesting l) := .upd ((updLane_touches ..).mono rfl)

theorem restoreLane_accepted {s : State} {l : Fin 4} (on : s.inService = true) (retired : s.lanes[l.castSucc].state = .retired)
    (carries : s.lanes[(4 : Fin 5)].logical ≠ none) (lone : s.laneSub = none) (idle : s.svc.retest = none) :
    s.restoreLane l = (.ok, s.retesting l.castSucc) :=
  if_pos ⟨on, retired, Option.isSome_iff_ne_none.2 carries, by simp [lone], by simp [idle]⟩

/-- The state in which SUBSTITUTE (operation 1) or RESTORE (operation 2) of lane `l` is under way. -/
def laneTaken (s : State) (h : Requester) (op : Nat) (l : Fin 4) : State := s.taken h opWrite 0xE060 0 (leBytes 2 (op + 256 * l.val))

section

variable {s : State} {h : Requester} {l : Fin 4} (op : Nat)

theorem laneTaken_lanes : (s.laneTaken h op l).lanes = s.lanes := taken_lanes ..

theorem laneTaken_laneSub : (s.laneTaken h op l).laneSub = s.laneSub := taken_laneSub ..

theorem laneTaken_svc : (s.laneTaken h op l).svc = s.svc := taken_svc ..

theorem laneTaken_servedBy (j : Fin 5) : (s.laneTaken h op l).servedBy j = s.servedBy j := by
  unfold servedBy
  rw [laneTaken, taken_points]

theorem laneTaken_inService : (s.laneTaken h op l).inService = s.inService := inService_taken ..

theorem substitute_refused (r : s.Ready h)
    (no : s.lanes[l.castSucc].state ≠ .inService ∨ s.lanes[(4 : Fin 5)].state ≠ .idle ∨ s.laneSub ≠ none) :
    s.hostWrite h 0xE060 0 (leBytes 2 (1 + 256 * l.val)) = s.answered h opWrite 0xE060 0 .wrongState [] := by
  have cmd := command_lane (s.laneTaken h 1 l) h l (.inl rfl)
  rw [substituteLane_refused (by rwa [laneTaken_lanes, laneTaken_laneSub]), if_pos rfl, ite_self] at cmd
  exact command_refused r findDesc_laneCmd rfl cmd

theorem substitute_accepted (r : s.Ready h) (on : s.inService = true) (serves : s.lanes[l.castSucc].state = .inService)
    (idle : s.lanes[(4 : Fin 5)].state = .idle) (lone : s.laneSub = none) :
    ∃ t, exec (.substitute h l) s = .next t ∧ Answered s t h opWrite 0xE060 0 .ok [] ∧
      (t.lanes[l.castSucc].state = .worn ∨ t.lanes[l.castSucc].state = .retired) ∧
      (t.lanes[(4 : Fin 5)].state = .shadowing ∨ t.lanes[(4 : Fin 5)].state = .inService) ∧
      (∀ j : Fin 5, j ≠ l.castSucc → j ≠ 4 → t.lanes[j] = s.lanes[j]) ∧
      (s.servedBy l.castSucc = [] → t.lanes[l.castSucc].state = .retired ∧ t.lanes[(4 : Fin 5)].state = .inService ∧
        t.lanes[(4 : Fin 5)].logical = s.lanes[l.castSucc].logical ∧ t.laneSub = none) := by
  have cmd := command_lane (s.laneTaken h 1 l) h l (.inl rfl)
  have ne : l.castSucc ≠ 4 := (Fin.castSucc_lt_last l).ne
  rw [← laneTaken_inService (h := h) (l := l) 1] at on
  rw [← laneTaken_laneSub (h := h) (l := l) 1] at lone
  have lanes := laneTaken_lanes (s := s) (h := h) (l := l) 1
  rw [← lanes] at serves idle ⊢
  rw [if_neg (by simp [on]), if_pos rfl, substituteLane_accepted on serves idle lone] at cmd
  have touches := declareWorn_touches (s.laneTaken h 1 l) l.castSucc ((s.laneTaken h 1 l).lanePoint l.castSucc)
  obtain ⟨others, moves⟩ := declareWorn_substitutes ne ((s.laneTaken h 1 l).lanePoint l.castSucc) serves idle lone
  exact ⟨_, congrArg Host.Outcome.next (command_answered r findDesc_laneCmd rfl cmd touches), answered_links ..,
    moves.elim (fun m => .inr m.1) (fun m => .inl m.1), moves.elim (fun m => .inr m.2.1) (fun m => .inl m.2.1), others,
    fun unused => declareWorn_unused ne _ serves idle lone ((laneTaken_servedBy ..).trans unused)⟩

theorem restore_accepted (r : s.Ready h) (on : s.inService = true) (retired : s.lanes[l.castSucc].state = .retired)
    (carries : s.lanes[(4 : Fin 5)].logical ≠ none) (lone : s.laneSub = none) (idle : s.svc.retest = none) :
    ∃ t, exec (.restore h l) s = .next t ∧ Answered s t h opWrite 0xE060 0 .ok [] ∧
      t.lanes[l.castSucc] = { s.lanes[l.castSucc] with state := .testing } ∧ t.svc = { s.svc with retest := some l.castSucc } ∧
      (∀ j : Fin 5, j ≠ l.castSucc → t.lanes[j] = s.lanes[j]) ∧
      { t with lanes := s.lanes, svc := s.svc, spi := s.spi, can := s.can } = s := by
  have cmd := command_lane (s.laneTaken h 2 l) h l (.inr rfl)
  have frame : ∀ u : State, Touches 2305843009213759488 (s.laneTaken h 2 l) u →
      Touches 2305843215372189696 s (u.withLinksOf (s.answered h opWrite 0xE060 0 .ok [])) := fun u k => k.answered
  rw [← laneTaken_inService (h := h) (l := l) 2] at on
  rw [← laneTaken_laneSub (h := h) (l := l) 2] at lone
  have lanes := laneTaken_lanes (s := s) (h := h) (l := l) 2
  have svc := laneTaken_svc (s := s) (h := h) (l := l) 2
  have started := restoreLane_accepted on (by rwa [lanes]) (by rwa [lanes]) lone (by rwa [svc])
  rw [if_neg (by simp [on]), if_neg (by decide), started] at cmd
  have touches := (s.laneTaken h 2 l).retesting_touches l.castSucc
  refine ⟨_, congrArg Host.Outcome.next (command_answered r findDesc_laneCmd rfl cmd touches), answered_links .., ?_, ?_, fun j other => ?_,
    (frame _ touches).frame⟩
  · rw [← lanes]
    exact updLane_lane (s.laneTaken h 2 l) l.castSucc fun x => { x with state := .testing }
  · exact congrArg (fun x : ModeSt => { x with retest := some l.castSucc }) svc
  · rw [← lanes]
    exact updLane_lane_other (s.laneTaken h 2 l) other.symm fun x => { x with state := .testing }

end

end State

/-- Settles O42. -/
theorem laneCommandsAct : Obligations.LaneCommandsAct := by
  intro s h l r
  have sub := State.command_lane (s.laneTaken h 1 l) h l (.inl rfl)
  have back := State.command_lane (s.laneTaken h 2 l) h l (.inr rfl)
  rw [State.laneTaken_inService] at sub back
  refine ⟨fun off => ⟨?_, ?_⟩, fun on => ⟨fun serves idle lone => ?_, fun no => ?_, fun retired carries lone idle => ?_⟩⟩
  · exact congrArg Host.Outcome.next (State.command_refused r State.findDesc_laneCmd rfl (sub.trans (if_pos off)))
  · exact congrArg Host.Outcome.next (State.command_refused r State.findDesc_laneCmd rfl (back.trans (if_pos off)))
  · exact State.substitute_accepted r on serves idle lone
  · exact congrArg Host.Outcome.next (State.substitute_refused r no)
  · exact State.restore_accepted r on retired carries lone idle

end Sys2Proof.Machine
end

section
/-! PROOFS. SITE_CMD (R421, R423). -/

namespace Sys2Proof.Machine

open Sys2Proof
set_option Elab.async false

namespace State

/-! ### The site tableau on the root (R421, R423) -/

theorem sendDown_site (s : State) (type : Nat) (payload : List Byte) : (s.sendDown type payload).thb.site = s.thb.site := by
  unfold sendDown
  refine forEach_field (fun u => u.thb.site) _ _ s fun k _ u => ?_
  unfold sendFrame
  split <;> rfl

theorem siteDown_site (s : State) (op id f limit : Nat) : (s.siteDown op id f limit).thb.site = s.thb.site := by
  rw [siteDown, sendDown_site]

theorem closeTableau_tab (s : State) : s.closeTableau.tab = none := by
  unfold closeTableau
  split
  · exact forEach_field (fun u => u.tab) _ _ _ fun a _ u => (reply_touches ..).tab (by decide)
  · assumption

/-- The entries that a site tableau's opening sets, and then the acknowledgements cleared. -/
def siteEntries (s : State) (id f : Nat) : State :=
  ((((((s.setN K.SITE_STATE 1).setN K.SITE_ID (id : Nat)).setN K.SITE_F (f : Nat)).setN K.SITE_FROZEN 0).setN K.SITE_UNLOCKED 0).setN K.SITE_MISSED 0)

def acksCleared (s : State) : State := forEach downPorts (fun k s => s.updThb k fun x => { x with ack := none }) s

theorem acksCleared_touches (s : State) : Touches 1152921504606846976 s s.acksCleared := forEach_touches (hf := fun _ _ => updThb_touches ..) ..

theorem acksCleared_nums (s : State) : s.acksCleared.nums = s.nums := s.acksCleared_touches.nums (by decide)

theorem siteBegin_root (s : State) (id f limit : Nat) : s.siteBegin id f limit none =
    { ((s.closeTableau.openTableau id f true).siteEntries id f).acksCleared with
      thb := { ((s.closeTableau.openTableau id f true).siteEntries id f).acksCleared.thb with site := some ⟨id, f, limit, none, false⟩ } } := rfl

theorem siteBegin_site (s : State) (id f limit : Nat) (own : Option Nat) : (s.siteBegin id f limit own).thb.site =
    some ⟨id, f, limit, own, false⟩ := rfl

theorem siteBegin_tab (s : State) (id f limit : Nat) :
    (s.siteBegin id f limit none).tab = some ⟨id, f, false, true, [], [], s.closeTableau.rtc⟩ :=
  (acksCleared_touches ((s.closeTableau.openTableau id f true).siteEntries id f)).tab (by decide)

theorem getN_siteBegin (s : State) (id f limit k : Nat) : (s.siteBegin id f limit none).getN k =
    ((s.closeTableau.openTableau id f true).siteEntries id f).getN k := by
  rw [siteBegin_root]
  exact getN_congr (acksCleared_nums _) k

/-- The next site ID (R421). -/
def nextSiteId (s : State) : Nat := if s.getU K.SITE_ID < 0x8001 ∨ s.getU K.SITE_ID = 0xFFFF then 0x8001 else s.getU K.SITE_ID + 1

/-- The state once the root has opened the site tableau and sent OPEN downward. -/
def siteOpened (s : State) : State :=
  (s.siteBegin s.nextSiteId (s.freezeIdx (s.getU K.SITE_LEAD * 1000000)) (s.getU K.SITE_LIMIT) none).siteDown 1 s.nextSiteId
    (s.freezeIdx (s.getU K.SITE_LEAD * 1000000)) (s.getU K.SITE_LIMIT)

theorem siteOpenCmd_root {s : State} (root : s.isRoot = true) (on : s.serves = true) (no : s.thb.site = none) :
    s.siteOpenCmd = some s.siteOpened := if_pos ⟨root, on, no⟩

theorem siteOpenCmd_refused {s : State} (no : s.isRoot = false ∨ s.thb.site ≠ none) : s.siteOpenCmd = none := by
  refine if_neg fun ⟨root, _, idle⟩ => ?_
  rcases no with no | no
  · simp [root] at no
  · exact no idle

theorem siteOpened_site (s : State) : s.siteOpened.thb.site =
    some ⟨s.nextSiteId, s.freezeIdx (s.getU K.SITE_LEAD * 1000000), s.getU K.SITE_LIMIT, none, false⟩ := by
  rw [siteOpened, siteDown_site, siteBegin_site]

theorem siteOpened_tab (s : State) : ∃ rtc, s.siteOpened.tab =
    some ⟨s.nextSiteId, s.freezeIdx (s.getU K.SITE_LEAD * 1000000), false, true, [], [], rtc⟩ :=
  ⟨_, ((siteDown_touches ..).tab (by decide)).trans (siteBegin_tab ..)⟩

theorem getN_siteDown (s : State) (op id f limit k : Nat) : (s.siteDown op id f limit).getN k = s.getN k :=
  getN_congr ((siteDown_touches ..).nums (by decide)) k

theorem getN_siteOpened (s : State) (k : Nat) : s.siteOpened.getN k =
    if k = K.SITE_MISSED then 0 else if k = K.SITE_UNLOCKED then 0 else if k = K.SITE_FROZEN then 0
    else if k = K.SITE_F then ((s.freezeIdx (s.getU K.SITE_LEAD * 1000000) : Nat) : Int) else if k = K.SITE_ID then ((s.nextSiteId : Nat) : Int)
    else if k = K.SITE_STATE then 1
    else (s.closeTableau.openTableau s.nextSiteId (s.freezeIdx (s.getU K.SITE_LEAD * 1000000)) true).getN k := by
  rw [siteOpened, getN_siteDown, getN_siteBegin]
  simp only [siteEntries, getN_setN]

/-- The state once the root has closed the site tableau `x` and sent CLOSE downward. -/
def siteClosed (s : State) (x : SiteSt) : State := s.siteEnd.siteDown 2 x.id x.f x.limit

theorem siteCloseCmd_root {s : State} (root : s.isRoot = true) (on : s.serves = true) {x : SiteSt} (is : s.thb.site = some x) :
    s.siteCloseCmd = some (s.siteClosed x) := by
  unfold siteCloseCmd
  rw [is]
  exact if_pos ⟨root, on⟩

theorem siteCloseCmd_refused {s : State} (no : s.isRoot = false ∨ s.thb.site = none) : s.siteCloseCmd = none := by
  unfold siteCloseCmd
  split
  case h_1 x is =>
    refine if_neg fun ⟨root, _⟩ => ?_
    rcases no with no | no
    · simp [root] at no
    · simp [is] at no
  · rfl

theorem siteEnd_tab (s : State) (t : Tableau) (is : s.siteEnd.tab = some t) : t.site = false := by
  unfold siteEnd at is
  rw [setN_tab] at is
  revert is
  dsimp only
  split
  case h_1 x hx =>
    split
    · intro is
      rw [closeTableau_tab] at is
      contradiction
    · intro is
      rw [hx] at is
      obtain rfl := Option.some.inj is
      exact Bool.eq_false_iff.2 ‹_›
  · intro is
    simp_all

theorem siteEnd_site (s : State) : s.siteEnd.thb.site = none := rfl

theorem siteClosed_site (s : State) (x : SiteSt) : (s.siteClosed x).thb.site = none := by
  rw [siteClosed, siteDown_site, siteEnd_site]

theorem getN_siteClosed (s : State) (x : SiteSt) : (s.siteClosed x).getN K.SITE_STATE = 0 := by
  rw [siteClosed, getN_siteDown]
  exact getN_setN_same ..

theorem siteClosed_tab (s : State) (x : SiteSt) (t : Tableau) (is : (s.siteClosed x).tab = some t) : t.site = false :=
  s.siteEnd_tab t (((siteDown_touches ..).tab (by decide)).symm.trans is)

/-! ### SITE_CMD -/

/-- The row of SITE_CMD in the entry table. -/
def siteDesc : Desc := ⟨0xB030, 1, 1, 0, 0, .u 8, .wo, 0, [], .within 1 2⟩

theorem findDesc_siteCmd : findDesc 0xB030 0 = some siteDesc := by decide +kernel

theorem command_site (s : State) (h : Requester) {op : Nat} (small : op = 1 ∨ op = 2) : s.command h siteDesc 0xB030 0 (leBytes 1 op) =
    match (if op = 1 then s.siteOpenCmd else s.siteCloseCmd) with
    | some u => (some .ok, u)
    | none => (some .wrongState, s) := by
  have free : s.stateRefuses 0xB030 0 = false := stateRefuses_free (by decide) (.inr (by decide))
  unfold command
  simp only [free]
  rcases small with rfl | rfl <;> rfl

/-- The state in which OPEN (operation 1) or CLOSE (operation 2) is under way. -/
def siteTaken (s : State) (h : Requester) (op : Nat) : State := s.taken h opWrite 0xB030 0 (leBytes 1 op)

section

variable {s : State} {h : Requester} (r : s.Ready h)

theorem siteTaken_isRoot (op : Nat) : (s.siteTaken h op).isRoot = s.isRoot := by
  unfold siteTaken taken
  cases h.link <;> rfl

theorem siteTaken_site (op : Nat) : (s.siteTaken h op).thb.site = s.thb.site := by rw [siteTaken, taken_thb]

theorem siteTaken_opens : (s.siteTaken h 1).nextSiteId = s.nextSiteId ∧ (s.siteTaken h 1).getU K.SITE_LIMIT = s.getU K.SITE_LIMIT ∧
    (s.siteTaken h 1).freezeIdx ((s.siteTaken h 1).getU K.SITE_LEAD * 1000000) = s.freezeIdx (s.getU K.SITE_LEAD * 1000000) := by
  unfold siteTaken taken
  cases h.link <;> exact ⟨rfl, rfl, rfl⟩

include r

theorem siteTaken_serves (op : Nat) : (s.siteTaken h op).serves = true := by
  have on := r.1
  unfold serves at on ⊢
  rw [siteTaken, taken_mode]
  exact on

theorem siteOpen_accepted (root : s.isRoot = true) (no : s.thb.site = none) :
    s.hostWrite h 0xB030 0 (leBytes 1 1) = (s.siteTaken h 1).siteOpened.reply h opWrite 0xB030 0 .ok [] := by
  have cmd := command_site (s.siteTaken h 1) h (.inl rfl)
  rw [if_pos rfl, siteOpenCmd_root ((siteTaken_isRoot 1).trans root) (siteTaken_serves r 1) ((siteTaken_site 1).trans no)] at cmd
  exact hostWrite_command r findDesc_siteCmd rfl cmd

theorem siteOpen_refused (no : s.isRoot = false ∨ s.thb.site ≠ none) :
    s.hostWrite h 0xB030 0 (leBytes 1 1) = s.answered h opWrite 0xB030 0 .wrongState [] := by
  have cmd := command_site (s.siteTaken h 1) h (.inl rfl)
  rw [if_pos rfl, siteOpenCmd_refused (by rwa [siteTaken_isRoot, siteTaken_site])] at cmd
  exact command_refused r findDesc_siteCmd rfl cmd

theorem siteClose_accepted (root : s.isRoot = true) {x : SiteSt} (is : s.thb.site = some x) :
    s.hostWrite h 0xB030 0 (leBytes 1 2) = ((s.siteTaken h 2).siteClosed x).reply h opWrite 0xB030 0 .ok [] := by
  have cmd := command_site (s.siteTaken h 2) h (.inr rfl)
  rw [if_neg (by decide), siteCloseCmd_root ((siteTaken_isRoot 2).trans root) (siteTaken_serves r 2) ((siteTaken_site 2).trans is)] at cmd
  exact hostWrite_command r findDesc_siteCmd rfl cmd

theorem siteClose_refused (no : s.isRoot = false ∨ s.thb.site = none) :
    s.hostWrite h 0xB030 0 (leBytes 1 2) = s.answered h opWrite 0xB030 0 .wrongState [] := by
  have cmd := command_site (s.siteTaken h 2) h (.inr rfl)
  rw [if_neg (by decide), siteCloseCmd_refused (by rwa [siteTaken_isRoot, siteTaken_site])] at cmd
  exact command_refused r findDesc_siteCmd rfl cmd

end

theorem nextSiteId_eq (s : State) : if s.getU K.SITE_ID < 0x8001 ∨ s.getU K.SITE_ID = 0xFFFF then s.nextSiteId = 0x8001
    else s.nextSiteId = s.getU K.SITE_ID + 1 := by
  unfold nextSiteId
  split <;> rfl

end State

/-- Settles O44. -/
theorem siteCommandsAct : Obligations.SiteCommandsAct := by
  intro s h r
  obtain ⟨id, limit, freeze⟩ := State.siteTaken_opens (s := s) (h := h)
  refine ⟨fun root no => ?_, fun no => ?_, fun root is => ?_, fun no => ?_⟩
  · have site := (s.siteTaken h 1).siteOpened_site
    obtain ⟨rtc, tab⟩ := (s.siteTaken h 1).siteOpened_tab
    have nums := (s.siteTaken h 1).getN_siteOpened
    rw [id, freeze, limit] at site
    rw [id, freeze] at tab
    simp only [id, freeze] at nums
    refine ⟨_, congrArg (fun u : State => Host.Outcome.next u.runHeld) (State.siteOpen_accepted r root no),
      ⟨_, s.nextSiteId_eq, site, nums _, _, tab, rfl, rfl, rfl, rfl⟩, nums _, nums _, nums _, nums _, nums _⟩
  · exact congrArg (fun u : State => Host.Outcome.next u.runHeld) (State.siteOpen_refused r no)
  · obtain ⟨x, hx⟩ := Option.ne_none_iff_exists'.1 is
    exact ⟨_, congrArg (fun u : State => Host.Outcome.next u.runHeld) (State.siteClose_accepted r root hx), State.siteClosed_site ..,
      State.getN_siteClosed .., State.siteClosed_tab _ _⟩
  · exact congrArg (fun u : State => Host.Outcome.next u.runHeld) (State.siteClose_refused r no)

end Sys2Proof.Machine
end

section
/-! PROOFS. Batches (R394, R395). -/

namespace Sys2Proof.Machine

open Sys2Proof
set_option Elab.async false

namespace State

/-! ### The checks (R395) -/

/-- One sub-request of `subChecks`. -/
def checkSub (s : State) (acc : List (Message × Status) × List EntryWrite) (m : Message) : List (Message × Status) × List EntryWrite :=
  let st := if m.op = opWrite then s.subWriteStatus acc.2 m else .ok
  (acc.1 ++ [(m, st)], if m.op = opWrite ∧ st = .ok then acc.2 ++ subWrite m else acc.2)

theorem subChecks_eq (s : State) (subs : List Message) : s.subChecks subs = (subs.foldl s.checkSub ([], [])).1 := rfl

theorem checkSub_messages (s : State) (subs : List Message) (acc : List (Message × Status) × List EntryWrite) :
    (subs.foldl s.checkSub acc).1.map Prod.fst = acc.1.map Prod.fst ++ subs := by
  induction subs generalizing acc with
  | nil => simp
  | cons m subs ih => simp [ih, checkSub]

theorem subChecks_messages (s : State) (subs : List Message) : (s.subChecks subs).map Prod.fst = subs := by
  simp [subChecks_eq, checkSub_messages]

theorem mem_of_subChecks {s : State} {subs : List Message} {x : Message × Status} (hx : x ∈ s.subChecks subs) : x.1 ∈ subs := by
  have mem := List.mem_map_of_mem (f := Prod.fst) hx
  rwa [subChecks_messages] at mem

theorem subWriteStatus_taken (s : State) (h : Requester) (op i j : Nat) (b : List Byte) (ws : List EntryWrite) (m : Message) :
    (s.taken h op i j b).subWriteStatus ws m = s.subWriteStatus ws m := by
  unfold subWriteStatus
  simp only [writeStatus_taken]

theorem subChecks_taken (s : State) (h : Requester) (op i j : Nat) (b : List Byte) (subs : List Message) :
    (s.taken h op i j b).subChecks subs = s.subChecks subs := by
  unfold subChecks
  simp only [subWriteStatus_taken]

theorem subWaits_taken (s : State) (h : Requester) (op i j : Nat) (b : List Byte) (m : Message) :
    (s.taken h op i j b).subWaits m = s.subWaits m := by
  unfold subWaits tableauReady
  rw [tableauStatus_taken, taken_tab]

/-! ### The outer status (R394) -/

theorem runBatch_refused {s : State} {h : Requester} {payload : List Byte} (no : batchStatus payload ≠ .ok) :
    s.runBatch h payload = s.reply h opBatch 0 0 (batchStatus payload) [] := by
  unfold runBatch
  split
  · contradiction
  · rfl

/-- The sub-requests of a payload run: the responses, the stored writes and the state. -/
def batchRun (s : State) (subs : List Message) : List Byte × List EntryWrite × State :=
  (s.subChecks subs).foldl (runSub ((s.subChecks subs).any fun x => decide (x.2 ≠ .ok))) ([], [], s)

theorem runBatch_runs {s : State} {h : Requester} {payload : List Byte} (ok : batchStatus payload = .ok)
    (waits : ∀ m ∈ (parseSubs 32 payload).1, s.subWaits m = false) : s.runBatch h payload =
      if (s.batchRun (parseSubs 32 payload).1).2.1 = [] then
        (s.batchRun (parseSubs 32 payload).1).2.2.reply h opBatch 0 0 .ok (s.batchRun (parseSubs 32 payload).1).1
      else (s.batchRun (parseSubs 32 payload).1).2.2.queueUnit ⟨(s.batchRun (parseSubs 32 payload).1).2.1,
        ((parseSubs 32 payload).1.map subStored).sum, .batch h (s.batchRun (parseSubs 32 payload).1).1⟩ := by
  have none' : (parseSubs 32 payload).1.any s.subWaits = false := by simpa using waits
  unfold runBatch
  rw [ok]
  exact if_neg (by simp [none'])

theorem permitted_of_ok {payload : List Byte} (ok : batchStatus payload = .ok) : ∀ m ∈ (parseSubs 32 payload).1, subPermitted m = true := by
  have all : (parseSubs 32 payload).1.all subPermitted = true := by
    by_contra no
    rw [Bool.not_eq_true] at no
    unfold batchStatus at ok
    dsimp only at ok
    rw [no] at ok
    split at ok <;> contradiction
  simpa using all

/-- A permitted sub-request reads, reads the tableau or writes (R394). -/
theorem op_of_permitted {m : Message} (ok : subPermitted m = true) : m.op = opRead ∨ m.op = opTabRead ∨ m.op = opWrite := by
  unfold subPermitted at ok
  split at ok
  case isTrue is => exact is.imp_right .inl
  case isFalse =>
    split at ok
    case isTrue is => exact .inr (.inr is)
    case isFalse => contradiction

/-! ### What a sub-request does -/

theorem runSub_read {refused : Bool} {acc : List Byte × List EntryWrite × State} {x : Message × Status}
    (reads : x.1.op = opRead ∨ x.1.op = opTabRead) :
    (runSub refused acc x).2.1 = acc.2.1 ∧ Touches 2305843009213693960 acc.2.2 (runSub refused acc x).2.2 := by
  unfold runSub
  dsimp only
  split
  case isTrue => exact ⟨rfl, readChecked_touches ..⟩
  case isFalse no => rw [if_pos (reads.resolve_left no)]; exact ⟨rfl, .refl _⟩

/-- In a refused batch a sub-request changes no more than a READ. -/
theorem runSub_refused {acc : List Byte × List EntryWrite × State} (x : Message × Status) :
    (runSub true acc x).2.1 = acc.2.1 ∧ Touches 2305843009213693960 acc.2.2 (runSub true acc x).2.2 := by
  by_cases reads : x.1.op = opRead ∨ x.1.op = opTabRead
  · exact runSub_read reads
  · unfold runSub
    dsimp only
    rw [if_neg (reads ∘ .inl), if_neg (reads ∘ .inr), if_pos rfl]
    exact ⟨rfl, .refl _⟩

/-- A WRITE adds no other stored write than its own. -/
theorem runSub_writes (acc : List Byte × List EntryWrite × State) {x : Message × Status} (write : x.1.op = opWrite) :
    (runSub false acc x).2.1 = acc.2.1 ∨ (runSub false acc x).2.1 = acc.2.1 ++ subWrite x.1 := by
  unfold runSub subWrite
  dsimp only
  rw [if_neg (by rw [write]; decide), if_neg (by rw [write]; decide), if_neg (by decide)]
  cases findDesc x.1.index x.1.sub with
  | none => exact .inl rfl
  | some d =>
    by_cases now : isFlagEntry x.1.index ∨ isVolatileEntry x.1.index
    · exact .inl (by simp only [if_pos now])
    · simp only [if_neg now]
      split
      · exact .inl rfl
      · exact .inr rfl

/-- A WRITE of a stored entry that changes it joins the unit and changes nothing yet. -/
theorem runSub_changes {acc : List Byte × List EntryWrite × State} {x : Message × Status} (write : x.1.op = opWrite)
    (flag : isFlagEntry x.1.index = false) (volatile : isVolatileEntry x.1.index = false)
    (changes : ∀ d, findDesc x.1.index x.1.sub = some d → acc.2.2.unchanged (keyOf x.1.index x.1.sub) (d.ty.decode x.1.payload) = false) :
    (runSub false acc x).2 = (acc.2.1 ++ subWrite x.1, acc.2.2) := by
  unfold runSub subWrite
  dsimp only
  rw [if_neg (by rw [write]; decide), if_neg (by rw [write]; decide), if_neg (by decide)]
  cases hd : findDesc x.1.index x.1.sub with
  | none => simp
  | some d => simp [flag, volatile, changes d hd]

theorem serves_congr {s t : State} (mode : t.mode = s.mode) : t.serves = s.serves := by rw [serves, serves, mode]

/-! ### The run as a whole -/

/-- What a run carries: the responses so far, the stored writes so far and the state. -/
abbrev BatchAcc := List Byte × List EntryWrite × State

/-- Reads leave what decides whether a WRITE changes its entry. -/
theorem unchanged_of_reads {s u : State} (k : Touches 2305843009213693960 s u) (key : Nat) (v : Val) : u.unchanged key v = s.unchanged key v := by
  have nums := k.nums (by decide)
  have blobs := k.blobs (by decide)
  have journal := k.journal (by decide)
  unfold unchanged writePending getN getB
  rw [nums, blobs, journal]

theorem batchRun_refused {s : State} {subs : List Message} (no : ∃ x ∈ s.subChecks subs, x.2 ≠ .ok) :
    (s.batchRun subs).2.1 = [] ∧ Touches 2305843009213693960 s (s.batchRun subs).2.2 := by
  have refused : ((s.subChecks subs).any fun x => decide (x.2 ≠ .ok)) = true := by simpa using no
  unfold batchRun
  rw [refused]
  refine List.foldlRecOn (motive := fun acc : BatchAcc => acc.2.1 = [] ∧ Touches 2305843009213693960 s acc.2.2) _ _ ⟨rfl, .refl _⟩
    fun acc ⟨empty, reads⟩ x _ => ?_
  obtain ⟨same, more⟩ := runSub_refused (acc := acc) x
  exact ⟨same.trans empty, reads.trans more⟩

section

variable {s : State} {subs : List Message} (ok : ∀ x ∈ s.subChecks subs, x.2 = .ok)

include ok

theorem batchRun_accepted : s.batchRun subs = (s.subChecks subs).foldl (runSub false) ([], [], s) := by
  have accepted : ((s.subChecks subs).any fun x => decide (x.2 ≠ .ok)) = false := by simpa using ok
  rw [batchRun, accepted]

theorem batchRun_touches : Touches 4432343585413398539 s (s.batchRun subs).2.2 := by
  rw [batchRun_accepted ok]
  exact List.foldlRecOn (motive := fun acc : BatchAcc => Touches 4432343585413398539 s acc.2.2) _ _ (.refl _)
    fun acc so x _ => so.trans (runSub_touches ..)

theorem batchRun_writes (permitted : ∀ m ∈ subs, subPermitted m = true) :
    ∀ w ∈ (s.batchRun subs).2.1, ∃ m ∈ subs, m.op = opWrite ∧ w ∈ subWrite m := by
  rw [batchRun_accepted ok]
  refine List.foldlRecOn (motive := fun acc : BatchAcc => ∀ w ∈ acc.2.1, ∃ m ∈ subs, m.op = opWrite ∧ w ∈ subWrite m) _ _ (by simp)
    fun acc so x hx => ?_
  have mem := mem_of_subChecks hx
  rcases op_of_permitted (permitted _ mem) with read | tab | write
  · rwa [(runSub_read (.inl read)).1]
  · rwa [(runSub_read (.inr tab)).1]
  rcases runSub_writes acc write with same | more
  · rwa [same]
  · rw [more]
    intro w hw
    rcases List.mem_append.1 hw with old | new
    · exact so w old
    · exact ⟨x.1, mem, write, new⟩

end

/-- A permitted sub-request that, where it writes, changes a stored entry. -/
def SubChanges (s : State) (m : Message) : Prop :=
  subPermitted m = true ∧ (m.op = opWrite → isFlagEntry m.index = false ∧ isVolatileEntry m.index = false ∧
    ∀ d, findDesc m.index m.sub = some d → s.unchanged (keyOf m.index m.sub) (d.ty.decode m.payload) = false)

/-- Where every WRITE changes its entry, the unit is these writes in their order. -/
theorem runs_changes {s : State} (l : List (Message × Status)) (acc : List Byte × List EntryWrite × State)
    (changes : ∀ x ∈ l, s.SubChanges x.1) (reads : Touches 2305843009213693960 s acc.2.2) :
    (l.foldl (runSub false) acc).2.1 = acc.2.1 ++ ((l.map Prod.fst).filter fun m => m.op = opWrite).flatMap subWrite := by
  induction l generalizing acc with
  | nil => simp
  | cons x l ih =>
    obtain ⟨permitted, writes⟩ := changes x (by simp)
    have rest := fun y hy => changes y (List.mem_cons_of_mem x hy)
    by_cases write : x.1.op = opWrite
    · obtain ⟨flag, volatile, new⟩ := writes write
      have ran := runSub_changes write flag volatile fun d hd => (unchanged_of_reads reads ..).trans (new d hd)
      rw [List.foldl_cons, ih _ rest (by rwa [ran]), ran]
      simp [write]
    · obtain ⟨same, more⟩ := runSub_read (refused := false) (acc := acc) (x := x) (by
        rcases op_of_permitted permitted with read | tab | w
        · exact .inl read
        · exact .inr tab
        · exact absurd w write)
      rw [List.foldl_cons, ih _ rest (reads.trans more), same]
      simp [write]

theorem batchRun_changes {s : State} {subs : List Message} (ok : ∀ x ∈ s.subChecks subs, x.2 = .ok) (changes : ∀ m ∈ subs, s.SubChanges m) :
    (s.batchRun subs).2.1 = (subs.filter fun m => m.op = opWrite).flatMap subWrite := by
  rw [batchRun_accepted ok, runs_changes _ _ (fun x hx => changes _ (mem_of_subChecks hx)) (.refl s), subChecks_messages]
  rfl

end State

/-- Settles O20. -/
theorem batchAppliesAllOrNothing : Obligations.BatchAppliesAllOrNothing := by
  intro s h payload r
  have run : exec (.batch h payload) s = .next ((s.taken h opBatch 0 0 payload).runBatch h payload) :=
    congrArg Host.Outcome.next (State.execute_ready r ..)
  refine ⟨?_, ?_⟩
  · rintro _ rfl no
    rw [run, State.runBatch_refused no, State.reply_taken r]
  intro subs hs ok waits
  have permitted := State.permitted_of_ok ok
  rw [run, State.runBatch_runs ok fun m hm => (State.subWaits_taken ..).trans (waits m (hs ▸ hm))]
  rw [hs] at permitted ⊢
  rw [← State.subChecks_taken s h opBatch 0 0 payload]
  refine ⟨fun no => ?_, fun all => ?_⟩
  · obtain ⟨empty, reads⟩ := State.batchRun_refused no
    have done := State.reply_done r ((State.serves_congr ((reads.mode (by decide)).trans (State.taken_mode ..))).trans r.1) (reads.spi (by decide))
      (reads.can (by decide))
    rw [if_pos empty, done]
    exact ⟨_, _, rfl, State.answered_links .., (reads.answered (n := 2305843215372124168)).frame⟩
  · have touches := State.batchRun_touches all
    have mode := touches.mode (by decide)
    have spi := touches.spi (by decide)
    have can := touches.can (by decide)
    refine ⟨_, ((s.taken h opBatch 0 0 payload).batchRun subs).1, _, spi, can, mode.trans (State.taken_mode ..),
      (touches.scratch (by decide)).trans (State.taken_scratch ..),
      State.batchRun_writes all permitted, fun changes => State.batchRun_changes all fun m hm => ⟨permitted m hm, fun write => ?_⟩, ?_⟩
    · obtain ⟨flag, volatile, new⟩ := changes m hm write
      exact ⟨flag, volatile, fun d hd => (State.unchanged_taken ..).trans (new d hd)⟩
    · rw [State.reply_done r ((State.serves_congr (mode.trans (State.taken_mode ..))).trans r.1) spi can]

end Sys2Proof.Machine
end

section
/-! PROOFS. The Thiber engine's rules: ports, frames sent and frames taken (R402 to R407). -/

namespace Sys2Proof.Machine

open Sys2Proof
set_option Elab.async false

/-- A port but for what it has sent. -/
def ThbPort.bare (x : ThbPort) : ThbPort := { x with txSeq := 0, tx := [] }

/-- A port but for what it has sent and what numbering and a lost child change of it: its state, and its child's state, number and acknowledgement. -/
def ThbPort.core (x : ThbPort) : ThbPort :=
  { x with txSeq := 0, tx := [], state := .down, ack := none, child := { x.child with state := 0, unitNo := 0 } }

/-- The engine but for its ports. -/
def Thiber.sans (x : Thiber) : Thiber := { x with ports := Thiber.init.ports }

theorem ThbPort.core_of_bare {x y : ThbPort} (h : y.bare = x.bare) : y.core = x.core := by
  have core := congrArg ThbPort.core h
  exact core

/-- What does not depend on the ports stays where all but the ports does. -/
theorem Thiber.of_sans {α : Type} (g : Thiber → α) (same : ∀ x : Thiber, g x.sans = g x) {x y : Thiber} (h : y.sans = x.sans) : g y = g x := by
  rw [← same, h, same]

namespace State

/-- The state with another engine. -/
def withThb (s : State) (x : Thiber) : State := { s with thb := x }

theorem withThb_thb (s : State) (x : Thiber) : (s.withThb x).thb = x := rfl

theorem getN_withThb (s : State) (x : Thiber) (j : Nat) : (s.withThb x).getN j = s.getN j := rfl

/-! ### One port changed -/

theorem updThb_port (s : State) (k : Fin 4) (f : ThbPort → ThbPort) : (s.updThb k f).thb.ports[k] = f s.thb.ports[k] := Vector.getElem_set_self ..

theorem updThb_port_other (s : State) {k j : Fin 4} (ne : j ≠ k) (f : ThbPort → ThbPort) : (s.updThb k f).thb.ports[j] = s.thb.ports[j] := by
  simp [updThb, Fin.val_ne_of_ne ne.symm]

theorem updThb_sans (s : State) (k : Fin 4) (f : ThbPort → ThbPort) : (s.updThb k f).thb.sans = s.thb.sans := rfl

theorem getN_updThb (s : State) (k : Fin 4) (f : ThbPort → ThbPort) (j : Nat) : (s.updThb k f).getN j = s.getN j := rfl

/-- What a change of one port keeps of it, it keeps of all ports. -/
theorem updThb_keeps {α : Type} (g : ThbPort → α) {f : ThbPort → ThbPort} (same : ∀ x, g (f x) = g x) (s : State) (k j : Fin 4) :
    g (s.updThb k f).thb.ports[j] = g s.thb.ports[j] := by
  by_cases e : j = k
  · subst e
    rw [updThb_port, same]
  · rw [updThb_port_other s e]

end State

/-! ### Frames sent (R407, Table 14.2) -/

/-- From `s` to `t` frames leave, and nothing else changes. -/
structure Sends (s t : State) : Prop where
  touches : Touches 1152921504606846976 s t
  sans : t.thb.sans = s.thb.sans
  ports : ∀ k : Fin 4, t.thb.ports[k].bare = s.thb.ports[k].bare

namespace Sends

variable {s t u : State}

theorem refl (s : State) : Sends s s := ⟨.refl s, rfl, fun _ => rfl⟩

theorem trans (a : Sends s t) (b : Sends t u) : Sends s u :=
  ⟨a.touches.trans b.touches, b.sans.trans a.sans, fun k => (b.ports k).trans (a.ports k)⟩

theorem sendRaw (s : State) (k : Fin 4) (type : Nat) (payload : List Byte) : Sends s (s.sendRaw k type payload) := by
  refine ⟨State.sendRaw_touches .., rfl, fun j => ?_⟩
  unfold State.sendRaw
  refine State.updThb_keeps ThbPort.bare (fun x => ?_) s k j
  rfl

theorem sendFrame (s : State) (k : Fin 4) (type : Nat) (payload : List Byte) : Sends s (s.sendFrame k type payload) := by
  unfold State.sendFrame
  split
  · exact .refl s
  · exact .sendRaw ..

theorem sendDown (s : State) (type : Nat) (payload : List Byte) : Sends s (s.sendDown type payload) :=
  forEach_ind (Sends s) _ _ s (.refl s) fun k _ u hu => hu.trans (.sendFrame u k type payload)

theorem sendCensus (s : State) : Sends s s.sendCensus := .sendFrame ..

theorem resendCensus (s : State) : Sends s s.resendCensus := by
  unfold State.resendCensus
  split
  · exact .sendCensus s
  · exact .refl s

/-- What does not depend on the frames sent stays on every port. -/
theorem port {α : Type} (h : Sends s t) (g : ThbPort → α) (same : ∀ x, g x.bare = g x) (k : Fin 4) : g t.thb.ports[k] = g s.thb.ports[k] := by
  rw [← same, h.ports k, same]

theorem getN (h : Sends s t) (j : Nat) : t.getN j = s.getN j := State.getN_congr (h.touches.nums (by decide)) j

theorem getB (h : Sends s t) (j : Nat) : t.getB j = s.getB j := by
  unfold State.getB
  rw [h.touches.blobs (by decide)]

theorem isUp (h : Sends s t) (k : Fin 4) : t.isUp k = s.isUp k := 
  h.port (fun x => decide (x.state = ThbState.up)) (fun _ => rfl) k

theorem isRoot (h : Sends s t) : t.isRoot = s.isRoot := congrArg (fun n : Int => bit n.toNat 4) (h.getN K.THB_CFG)

end Sends

namespace State

theorem sendRaw_sent (s : State) (k : Fin 4) (type : Nat) (a b : List Byte) : (s.sendRaw k type (a ++ b)).SentFrame k type a := by
  unfold SentFrame sendRaw
  rw [updThb_port]
  refine ⟨rfl, ?_⟩
  have payload : ∀ crc : List Byte, ((a ++ b) ++ crc).take a.length = a := by simp
  exact payload _

theorem sendFrame_sent {s : State} {k : Fin 4} (up : s.isUp k = true) (right : k = 0 → s.isRoot = false) (type : Nat) (a b : List Byte) :
    (s.sendFrame k type (a ++ b)).SentFrame k type a := by
  unfold sendFrame
  rw [if_neg]
  · exact sendRaw_sent ..
  · rintro (down | ⟨zero, root⟩)
    · simp [up] at down
    · simp [right zero] at root

theorem sendFrame_stays {s : State} {k : Fin 4} (no : s.isUp k = false ∨ (k = 0 ∧ s.isRoot = true)) (type : Nat) (payload : List Byte) :
    s.sendFrame k type payload = s := if_pos no

theorem sendFrame_other (s : State) {k j : Fin 4} (ne : j ≠ k) (type : Nat) (payload : List Byte) :
    (s.sendFrame k type payload).thb.ports[j] = s.thb.ports[j] := by
  unfold sendFrame
  split
  · rfl
  · exact updThb_port_other s ne _

/-- What leaves a port as it is leaves the frame that it sent last. -/
theorem SentFrame.kept {s t : State} {k : Fin 4} {type : Nat} {b : List Byte} (h : s.SentFrame k type b)
    (tx : t.thb.ports[k].tx = s.thb.ports[k].tx) : t.SentFrame k type b := by
  unfold SentFrame at h ⊢
  rwa [tx]

theorem sendDown_eq (s : State) (type : Nat) (payload : List Byte) :
    s.sendDown type payload = ((s.sendFrame 1 type payload).sendFrame 2 type payload).sendFrame 3 type payload := by
  simp only [sendDown, downPorts, forEach, List.foldl]

/-- A frame to every child leaves every child's port that is UP. -/
theorem sendDown_sent {s : State} {k : Fin 4} (up : s.isUp k = true) (child : k ≠ 0) (type : Nat) (a b : List Byte) :
    (s.sendDown type (a ++ b)).SentFrame k type a := by
  have one := Sends.sendFrame s 1 type (a ++ b)
  have two := one.trans (.sendFrame _ 2 type (a ++ b))
  rw [sendDown_eq]
  have ports : ∀ j : Fin 4, j ≠ 0 → j = 1 ∨ j = 2 ∨ j = 3 := by decide
  have kept : ∀ (u : State) {j i : Fin 4} (_ : j ≠ i), (u.sendFrame i type (a ++ b)).thb.ports[j].tx = u.thb.ports[j].tx :=
    fun u j i ne => congrArg ThbPort.tx (sendFrame_other u ne ..)
  obtain rfl | rfl | rfl := ports k child
  · exact ((sendFrame_sent up (fun h => absurd h child) type a b).kept (kept _ (by decide))).kept (kept _ (by decide))
  · exact (sendFrame_sent ((one.isUp 2).trans up) (fun h => absurd h child) type a b).kept (kept _ (by decide))
  · exact sendFrame_sent ((two.isUp 3).trans up) (fun h => absurd h child) type a b

/-! ### A frame's SEQ (R407) -/

/-- A port that has taken a frame. -/
def heardPort (seq : Nat) (x : ThbPort) : ThbPort := { x with rxSeq := some (seq % 256), discards := 0 }

/-- The state once a frame's SEQ is taken. -/
def heard (s : State) (k : Fin 4) (seq : Nat) : State := (s.takeSeq k seq).2

/-- A SEQ that is no duplicate is taken, and a jump is counted. -/
theorem takeSeq_fresh {s : State} {k : Fin 4} {seq : Nat} (new : s.thb.ports[k].rxSeq ≠ some (seq % 256)) :
    (s.takeSeq k seq).1 = true ∧ ∃ u, (u = s ∨ u = s.addSat 32 (K.LINK_GAPS (k + 1)) 1) ∧ s.heard k seq = u.updThb k (heardPort seq) := by
  unfold heard takeSeq
  dsimp only
  split
  case h_1 q is =>
    rw [if_neg (by rintro rfl; exact new is)]
    refine ⟨rfl, _, ?_, rfl⟩
    split
    · exact .inl rfl
    · exact .inr rfl
  case h_2 => exact ⟨rfl, s, .inl rfl, rfl⟩

section

variable {s : State} {k : Fin 4} {seq : Nat} (new : s.thb.ports[k].rxSeq ≠ some (seq % 256))

include new

theorem heard_touches : Touches 1152922604118474753 s (s.heard k seq) := by
  obtain ⟨-, u, rfl | rfl, eq⟩ := takeSeq_fresh new
  · exact eq ▸ (updThb_touches ..).mono rfl
  · exact eq ▸ ((addSat_touches ..).mono rfl).trans ((updThb_touches ..).mono rfl)

theorem heard_port : (s.heard k seq).thb.ports[k] = heardPort seq s.thb.ports[k] := by
  obtain ⟨-, u, hu, eq⟩ := takeSeq_fresh new
  rw [eq, updThb_port]
  obtain rfl | rfl := hu
  · rfl
  · rw [(addSat_touches ..).thb (by decide)]

theorem heard_port_other {j : Fin 4} (ne : j ≠ k) : (s.heard k seq).thb.ports[j] = s.thb.ports[j] := by
  obtain ⟨-, u, hu, eq⟩ := takeSeq_fresh new
  rw [eq, updThb_port_other _ ne]
  obtain rfl | rfl := hu
  · rfl
  · rw [(addSat_touches ..).thb (by decide)]

theorem heard_sans : (s.heard k seq).thb.sans = s.thb.sans := by
  obtain ⟨-, u, hu, eq⟩ := takeSeq_fresh new
  rw [eq, updThb_sans]
  obtain rfl | rfl := hu
  · rfl
  · rw [(addSat_touches ..).thb (by decide)]

theorem getN_heard {j : Nat} (other : j / 256 ≠ 0xB006) : (s.heard k seq).getN j = s.getN j := by
  obtain ⟨-, u, hu, eq⟩ := takeSeq_fresh new
  rw [eq, getN_updThb]
  obtain rfl | rfl := hu
  · rfl
  · refine (getN_addSat ..).trans (if_neg ?_)
    rintro rfl
    exact other (by simp only [K.LINK_GAPS]; omega)

theorem getB_heard (j : Nat) : (s.heard k seq).getB j = s.getB j := by
  unfold getB
  rw [(heard_touches new).blobs (by decide)]

theorem heard_isUp (j : Fin 4) : (s.heard k seq).isUp j = s.isUp j := by
  unfold isUp
  by_cases e : j = k
  · subst e
    rw [heard_port new]
    rfl
  · rw [heard_port_other new e]

end

/-! ### Frames taken (R406, R407, R429) -/

theorem receive_down {s : State} {k : Fin 4} (down : s.PortDown k) (seq : Nat) (up : Bool) (f : State → State) : s.receive k seq up f = s :=
  if_pos down

theorem takesFrame_new {s : State} {k : Fin 4} {seq : Nat} {up : Bool} (takes : s.takesFrame k seq up) :
    s.thb.ports[k].rxSeq ≠ some (seq % 256) := takes.2.2.1

theorem receive_takes {s : State} {k : Fin 4} {seq : Nat} {up : Bool} (takes : s.takesFrame k seq up) (f : State → State) :
    s.receive k seq up f = f (s.heard k seq) := by
  obtain ⟨on, isUp, new, right⟩ := takes
  obtain ⟨fresh, -⟩ := takeSeq_fresh new
  unfold receive
  rw [if_neg (by simp [on, isUp])]
  dsimp only
  rw [fresh, if_neg (by decide), if_neg right]
  rfl

end State

end Sys2Proof.Machine
end

section
/-! PROOFS. Census, numbering and the loss of a link on the Thiber ports (R403, R406 to R409, R427). -/

namespace Sys2Proof.Machine

open Sys2Proof
set_option Elab.async false

/-- From `s` to `t` every port keeps all but what sending, numbering and a lost child change of it. -/
structure Cores (s t : State) : Prop where
  ports : ∀ k : Fin 4, t.thb.ports[k].core = s.thb.ports[k].core

namespace Cores

variable {s t u : State}

theorem refl (s : State) : Cores s s := ⟨fun _ => rfl⟩

theorem trans (a : Cores s t) (b : Cores t u) : Cores s u := ⟨fun k => (b.ports k).trans (a.ports k)⟩

/-- What does not depend on sending, numbering and a lost child stays on every port. -/
theorem port {α : Type} (h : Cores s t) (g : ThbPort → α) (same : ∀ x, g x.core = g x) (k : Fin 4) : g t.thb.ports[k] = g s.thb.ports[k] := by
  rw [← same, h.ports k, same]

theorem of_ports (h : t.thb.ports = s.thb.ports) : Cores s t := ⟨fun k => by rw [h]⟩

theorem of_sends (h : Sends s t) : Cores s t := ⟨fun k => ThbPort.core_of_bare (h.ports k)⟩

theorem updThb {f : ThbPort → ThbPort} (same : ∀ x, (f x).core = x.core) (s : State) (k : Fin 4) : Cores s (s.updThb k f) :=
  ⟨State.updThb_keeps ThbPort.core same s k⟩

end Cores

namespace State

/-- The entries that follow the children (R408). -/
def CensusKey (k : Nat) : Prop := k = K.MEMBERS ∨ k = K.DEPTH_BELOW ∨ k = K.SITE_MEMBERS ∨ k = K.SITE_DEPTH

theorem refreshMembers_thb (s : State) : s.refreshMembers.thb = s.thb := (refreshMembers_touches s).thb (by decide)

theorem getN_refreshMembers {k : Nat} (no : ¬ CensusKey k) (s : State) : s.refreshMembers.getN k = s.getN k := by
  simp only [CensusKey, not_or] at no
  obtain ⟨m, d, sm, sd⟩ := no
  unfold refreshMembers
  dsimp only
  split
  · simp [m, d, sm, sd]
  · simp [m, d, sm, sd]

theorem refreshMembers_members (s : State) : s.refreshMembers.getN K.MEMBERS =
    ((downPorts.filter fun k => s.present k).foldl (fun (n : Nat) (k : Fin 4) => n + s.thb.ports[k].child.members) 1 : Nat) := by
  unfold refreshMembers
  dsimp only
  split
  · rw [getN_setN_other _ (by decide), getN_setN_other _ (by decide), getN_setN_other _ (by decide), getN_setN_same]
  · rw [getN_setN_other _ (by decide), getN_setN_other _ (by decide), getN_setN_other _ (by decide), getN_setN_same]

/-! ### Numbering (R409) -/

theorem refuseChild_cores (s : State) (k : Fin 4) : Cores s (s.refuseChild k) := by
  refine .updThb (fun x => ?_) s k
  rfl

/-- A child with its number. -/
def childNumbered (first : Nat) (x : ThbPort) : ThbPort := { x with child := { x.child with unitNo := first } }

theorem numberChild_eq (s : State) (k : Fin 4) (first depth : Nat) : s.numberChild k first depth = (s.updThb k (childNumbered first)).sendFrame k 0x12
    (leBytes 2 first ++ leBytes 2 s.thb.ports[k].child.members ++ leBytes 1 depth) := rfl

theorem numberChild_cores (s : State) (k : Fin 4) (first depth : Nat) : Cores s (s.numberChild k first depth) := by
  rw [numberChild_eq]
  exact (Cores.updThb (f := childNumbered first) (fun _ => rfl) s k).trans (.of_sends (.sendFrame ..))

/-- One child's turn in numbering. -/
def numberTurn (depth : Nat) (acc : State × Nat) (k : Fin 4) : State × Nat :=
  let s := acc.1
  if s.present k then
    let c := s.thb.ports[k].child
    if 15 < depth + 1 + c.depthBelow ∨ 4095 < acc.2 + c.members - 1 then (s.refuseChild k, acc.2)
    else
      let s := s.numberChild k acc.2 (depth + 1)
      ({ s with thb := { s.thb with blocks := s.thb.blocks ++ [(acc.2, c.members, k.val)] } }, acc.2 + c.members)
  else acc

theorem numberChildren_eq (s : State) (first depth : Nat) : s.numberChildren first depth =
    (downPorts.foldl (numberTurn depth) ({ s with thb := { s.thb with blocks := [] } }, first + 1)).1.refreshMembers := rfl

/-- What every child's turn keeps, numbering keeps but for the entries that follow the children. -/
theorem numberChildren_ind (P : State → Prop) {s : State} {first depth : Nat} (start : P { s with thb := { s.thb with blocks := [] } })
    (turn : ∀ acc k, P acc.1 → P (numberTurn depth acc k).1) (fresh : ∀ u, P u → P u.refreshMembers) : P (s.numberChildren first depth) := by
  rw [numberChildren_eq]
  exact fresh _ (List.foldlRecOn (motive := fun acc : State × Nat => P acc.1) _ _ start fun acc h k _ => turn acc k h)

theorem numberTurn_cores (depth : Nat) (acc : State × Nat) (k : Fin 4) : Cores acc.1 (numberTurn depth acc k).1 := by
  unfold numberTurn
  dsimp only
  split
  · split
    · exact refuseChild_cores ..
    · exact (numberChild_cores acc.1 k acc.2 (depth + 1)).trans (.of_ports rfl)
  · exact .refl _

theorem numberChildren_cores (s : State) (first depth : Nat) : Cores s (s.numberChildren first depth) :=
  numberChildren_ind (Cores s) (.of_ports rfl) (fun _ _ h => h.trans (numberTurn_cores ..))
    fun u h => h.trans (.of_ports (congrArg Thiber.ports (refreshMembers_thb u)))

/-- A port whose child is not PRESENT is left as it is. -/
theorem numberChildren_absent {s : State} {k : Fin 4} (absent : s.present k = false) (first depth : Nat) :
    (s.numberChildren first depth).thb.ports[k] = s.thb.ports[k] := by
  refine numberChildren_ind (fun u => u.thb.ports[k] = s.thb.ports[k]) rfl (fun acc j h => ?_) fun u h => ?_
  · have gone : acc.1.present k = false := by
      unfold present at absent ⊢
      rwa [h]
    unfold numberTurn
    dsimp only
    split
    case isFalse => exact h
    case isTrue here =>
      have ne : k ≠ j := by
        rintro rfl
        simp [gone] at here
      split
      · exact (updThb_port_other _ ne _).trans h
      · exact (sendFrame_other _ ne ..).trans ((updThb_port_other _ ne _).trans h)
  · rw [refreshMembers_thb]
    exact h

/-- The top's census is complete. -/
def censusDone (s : State) : State :=
  (({ s with thb := { s.thb with complete := true, census := true } }.setN K.CENSUS_TIME (s.sinceRecall : Nat)).setN K.UNIT_NO 0).setN K.DEPTH 0

theorem censusCheck_eq (s : State) : s.censusCheck =
    if s.serves = true ∧ s.thb.complete = false ∧ s.isTop = true ∧ s.allKnown = true then s.censusDone.numberChildren 0 0 else s := rfl

theorem censusCheck_cores (s : State) : Cores s s.censusCheck := by
  rw [censusCheck_eq]
  split
  · exact Cores.trans (t := s.censusDone) (.of_ports rfl) (numberChildren_cores ..)
  · exact .refl s

theorem censusCheck_absent {s : State} {k : Fin 4} (absent : s.present k = false) : s.censusCheck.thb.ports[k] = s.thb.ports[k] := by
  rw [censusCheck_eq]
  split
  · exact numberChildren_absent (s := s.censusDone) absent 0 0
  · rfl

/-! ### A lost link (R427) -/

/-- A port whose child has left. -/
def childLeft (x : ThbPort) : ThbPort := { x with child := { x.child with state := 4 }, ack := none }

theorem childLost_eq (s : State) (k : Fin 4) : s.childLost k =
    if s.present k then (s.updThb k childLeft).refreshMembers.resendCensus else s := rfl

theorem childLost_cores (s : State) (k : Fin 4) : Cores s (s.childLost k) := by
  rw [childLost_eq]
  split
  · exact ((Cores.updThb (f := childLeft) (fun _ => rfl) s k).trans (.of_ports (congrArg Thiber.ports (refreshMembers_thb _)))).trans
      (.of_sends (.resendCensus _))
  · exact .refl s

theorem childLost_state (s : State) (k j : Fin 4) : (s.childLost k).thb.ports[j].state = s.thb.ports[j].state := by
  rw [childLost_eq]
  split
  · have lost := updThb_keeps ThbPort.state (f := childLeft) (fun _ => rfl) s k j
    have sent := (Sends.resendCensus (s.updThb k childLeft).refreshMembers).port ThbPort.state (fun _ => rfl) j
    rw [refreshMembers_thb] at sent
    exact sent.trans lost
  · rfl

/-- The time and role of a unit that has lost what was above it. -/
def alone (s : State) : State :=
  ((s.lockLost.setN K.TIME_STATE (if s.getN K.TIME_STATE = 3 ∨ s.getN K.TIME_STATE = 4 then 4 else 0)).setN K.ROLE 0).setN K.DEPTH 0

theorem upstreamLost_eq (s : State) : s.upstreamLost =
    if s.isMember = false then s else (s.alone.withThb { s.alone.thb with joins := [], complete := true }).refreshMembers := rfl

theorem alone_thb (s : State) : s.alone.thb = s.thb := by
  simp only [alone, setN_thb, (lockLost_touches _).thb (by decide)]

theorem upstreamLost_ports (s : State) : s.upstreamLost.thb.ports = s.thb.ports := by
  rw [upstreamLost_eq]
  split
  · rfl
  · rw [refreshMembers_thb, withThb_thb, alone_thb]

/-- What a port's loss means: of the upstream port, or of a child's. -/
def portLost (s : State) (k : Fin 4) : State := if k = 0 then s.upstreamLost else s.childLost k

theorem portLost_cores (s : State) (k : Fin 4) : Cores s (s.portLost k) := by
  by_cases up : k = 0
  · rw [portLost, if_pos up]
    exact .of_ports (upstreamLost_ports s)
  · rw [portLost, if_neg up]
    exact childLost_cores s k

theorem portLost_state (s : State) (k j : Fin 4) : (s.portLost k).thb.ports[j].state = s.thb.ports[j].state := by
  by_cases up : k = 0
  · rw [portLost, if_pos up]
    exact congrArg (fun v : Vector ThbPort 4 => v[j].state) (upstreamLost_ports s)
  · rw [portLost, if_neg up]
    exact childLost_state s k j

/-! ### Links down (R406) -/

/-- A port that has gone DOWN. -/
def portDowned (reason : Nat) (x : ThbPort) : ThbPort :=
  { x with state := .down, lastDown := reason % 8, gotTrain := false, gotAck := false, sentAck := false, rxSeq := none, discards := 0 }

/-- The state with the link's loss counted where it was in use. -/
def downCounted (s : State) (k : Fin 4) : State :=
  if decide (s.thb.ports[k].state = ThbState.up ∨ s.thb.ports[k].state = ThbState.refused) then s.addSat 32 (K.LINK_DOWNS (k + 1)) 1 else s

theorem linkDown_eq (s : State) (k : Fin 4) (reason : Nat) : s.linkDown k reason =
    if s.thbOn = false ∨ s.thb.ports[k].state = .disabled ∨ s.thb.ports[k].state = .down then s
    else ((s.downCounted k).updThb k (portDowned reason)).portLost k := rfl

section

variable {s : State} {k : Fin 4} (on : s.thbOn = true) (enabled : s.thb.ports[k].state ≠ .disabled) (linked : s.thb.ports[k].state ≠ .down)
  (reason : Nat)

include on enabled linked

theorem linkDown_goes : s.linkDown k reason = ((s.downCounted k).updThb k (portDowned reason)).portLost k := by
  rw [linkDown_eq]
  refine if_neg ?_
  rintro (off | no | no)
  · simp [on] at off
  · exact enabled no
  · exact linked no

theorem linkDown_state : (s.linkDown k reason).thb.ports[k].state = .down := by
  rw [linkDown_goes on enabled linked, portLost_state, updThb_port]
  rfl

theorem linkDown_lastDown : (s.linkDown k reason).thb.ports[k].lastDown = reason % 8 := by
  rw [linkDown_goes on enabled linked]
  rw [(portLost_cores ((s.downCounted k).updThb k (portDowned reason)) k).port ThbPort.lastDown (fun _ => rfl), updThb_port]
  rfl

end

/-- A port that has gone DOWN, or was, is DOWN. -/
theorem linkDown_down {s : State} {k : Fin 4} (on : s.thbOn = true) (enabled : s.thb.ports[k].state ≠ .disabled) (reason : Nat) :
    (s.linkDown k reason).thb.ports[k].state = .down := by
  by_cases down : s.thb.ports[k].state = .down
  · rw [linkDown_eq, if_pos (.inr (.inr down))]
    exact down
  · exact linkDown_state on enabled down reason

/-! ### Discarded frames (R406) -/

/-- A port with one more frame discarded. -/
def discarded (x : ThbPort) : ThbPort := { x with discards := x.discards + 1 }

theorem discard_eq (s : State) (k : Fin 4) : s.discard k =
    if 16 ≤ (s.updThb k discarded).thb.ports[k].discards then (s.updThb k discarded).linkDown k 3 else s.updThb k discarded := rfl

theorem discard_counts {s : State} {k : Fin 4} (few : s.thb.ports[k].discards + 1 < 16) :
    (s.discard k).thb.ports[k].discards = s.thb.ports[k].discards + 1 := by
  have count : (s.updThb k discarded).thb.ports[k].discards = s.thb.ports[k].discards + 1 := by rw [updThb_port]; rfl
  rw [discard_eq, if_neg (by omega)]
  exact count

theorem discard_downs {s : State} {k : Fin 4} (on : s.thbOn = true) (enabled : s.thb.ports[k].state ≠ .disabled)
    (many : 16 ≤ s.thb.ports[k].discards + 1) : (s.discard k).thb.ports[k].state = .down := by
  have count : (s.updThb k discarded).thb.ports[k].discards = s.thb.ports[k].discards + 1 := by rw [updThb_port]; rfl
  rw [discard_eq, if_pos (by omega)]
  refine linkDown_down (s := s.updThb k discarded) on ?_ 3
  rwa [updThb_port]

/-! ### What a lost link leaves of the entries -/

/-- The entries that a lost link writes. -/
def LossKey (k : Nat) : Prop :=
  CensusKey k ∨ k = K.LOCK_LOSSES ∨ k = K.TIME_STATE ∨ k = K.ROLE ∨ k = K.DEPTH

theorem getN_lockLost {k : Nat} (no : k ≠ K.LOCK_LOSSES) (s : State) : s.lockLost.getN k = s.getN k := by
  unfold lockLost
  split
  · rw [getN_addSat, if_neg no]
  · rfl

theorem getN_portLost {j : Nat} (no : ¬ LossKey j) (s : State) (k : Fin 4) : (s.portLost k).getN j = s.getN j := by
  simp only [LossKey, not_or] at no
  obtain ⟨census, losses, time, role, depth⟩ := no
  unfold portLost
  split
  · rw [upstreamLost_eq]
    split
    · rfl
    · rw [getN_refreshMembers census, getN_withThb, alone, getN_setN_other _ depth, getN_setN_other _ role, getN_setN_other _ time,
        getN_lockLost losses]
  · rw [childLost_eq]
    split
    · rw [(Sends.resendCensus _).getN, getN_refreshMembers census, getN_updThb]
    · rfl

theorem getN_linkDown {j : Nat} (no : ¬ LossKey j) (k : Fin 4) (other : j ≠ K.LINK_DOWNS (k + 1)) (s : State) (reason : Nat) :
    (s.linkDown k reason).getN j = s.getN j := by
  rw [linkDown_eq]
  split
  · rfl
  · rw [getN_portLost no, getN_updThb]
    unfold downCounted
    split
    · rw [getN_addSat, if_neg other]
    · rfl

theorem getN_discard {j : Nat} (no : ¬ LossKey j) (k : Fin 4) (other : j ≠ K.LINK_DOWNS (k + 1)) (s : State) :
    (s.discard k).getN j = s.getN j := by
  rw [discard_eq]
  split
  · rw [getN_linkDown no k other, getN_updThb]
  · rw [getN_updThb]

end State

end Sys2Proof.Machine
end

section
/-! PROOFS. Training, lost links and the census outcome of a port (R406 to R408). -/

namespace Sys2Proof.Machine

open Sys2Proof
set_option Elab.async false

namespace State

theorem thbOn_congr {s t : State} (mode : t.mode = s.mode) (startup : t.startup = s.startup) : t.thbOn = s.thbOn := by
  rw [thbOn, thbOn, serves, serves, mode, startup]

theorem getB_of_blobs {s t : State} (h : t.blobs = s.blobs) (j : Nat) : t.getB j = s.getB j := by rw [getB, getB, h]

/-! ### Damaged frames and lost links (R406, R407) -/

theorem not_lossKey_errors (k : Fin 4) : ¬ LossKey (K.LINK_ERRORS (k + 1)) := by
  simp only [LossKey, CensusKey, K.LINK_ERRORS, K.MEMBERS, K.DEPTH_BELOW, K.SITE_MEMBERS, K.SITE_DEPTH, K.LOCK_LOSSES, K.TIME_STATE, K.ROLE, K.DEPTH]
  omega

theorem corruptedFrame_off {s : State} {k : Fin 4} (off : s.thbOn = false ∨ s.thb.ports[k].state = .disabled) : s.corruptedFrame k = s :=
  if_pos off

/-- CORRUPTED_LINK_FRAME on a port that runs (R407). -/
theorem corruptedFrame_row {s : State} {k : Fin 4} (on : s.thbOn = true) (enabled : s.thb.ports[k].state ≠ .disabled) :
    ∃ t, exec (.corruptedLinkFrame k) s = .next t ∧ t.getN (K.LINK_ERRORS (k + 1)) = (satAdd 32 (s.getU (K.LINK_ERRORS (k + 1))) 1 : Nat) ∧
      (s.thb.ports[k].discards + 1 < 16 → t.thb.ports[k].discards = s.thb.ports[k].discards + 1) ∧
      (16 ≤ s.thb.ports[k].discards + 1 → t.thb.ports[k].state = .down) ∧ { t with nums := s.nums, tab := s.tab, thb := s.thb } = s := by
  have runs : s.corruptedFrame k = (s.addSat 32 (K.LINK_ERRORS (k + 1)) 1).discard k := by
    refine if_neg ?_
    rintro (off | no)
    · simp [on] at off
    · exact enabled no
  have thb : (s.addSat 32 (K.LINK_ERRORS (k + 1)) 1).thb = s.thb := (addSat_touches ..).thb (by decide)
  have stillOn : (s.addSat 32 (K.LINK_ERRORS (k + 1)) 1).thbOn = true :=
    (thbOn_congr ((addSat_touches ..).mode (by decide)) ((addSat_touches ..).startup (by decide))).trans on
  rw [← thb] at enabled ⊢
  refine ⟨_, congrArg Host.Outcome.next runs, ?_, discard_counts, discard_downs stillOn enabled, ?_⟩
  · rw [getN_discard (not_lossKey_errors k) k (by simp only [K.LINK_ERRORS, K.LINK_DOWNS]; omega), getN_addSat, if_pos rfl]
  · rw [thb]
    have touches := corruptedFrame_touches s k
    rw [runs] at touches
    exact touches.frame

theorem linkDown_off {s : State} {k : Fin 4} (off : s.thbOn = false ∨ s.thb.ports[k].state = .disabled ∨ s.thb.ports[k].state = .down)
    (reason : Nat) : s.linkDown k reason = s := if_pos off

/-! ### Training (R406) -/

/-- A port that trains where it was DOWN. -/
def trained (s : State) (k : Fin 4) : State :=
  if s.thb.ports[k].state = .down then s.updThb k fun x => { x with state := .training } else s

theorem trained_keeps {α : Type} (g : ThbPort → α) (same : ∀ x st, g { x with state := st } = g x) (s : State) (k j : Fin 4) :
    g (s.trained k).thb.ports[j] = g s.thb.ports[j] := by
  unfold trained
  split
  · exact updThb_keeps g (fun x => same x .training) s k j
  · rfl

theorem tryUp_keeps {α : Type} (g : ThbPort → α) (same : ∀ x st, g { x with state := st } = g x) (s : State) (k j : Fin 4) :
    g (s.tryUp k).thb.ports[j] = g s.thb.ports[j] := by
  have up := updThb_keeps g (f := fun x => { x with state := .up }) (fun x => same x .up) s k j
  unfold tryUp
  dsimp only
  split
  · split
    · exact up
    · exact up
  · rfl

/-- The frame that TRAIN_SEND sends. -/
def trainFrame (s : State) (k : Fin 4) : List Byte :=
  s.getB K.SERIAL ++ leBytes 4 (s.getU K.KEY_ID) ++ leBytes 1 (if k = 0 then 0 else 1) ++ leBytes 1 (natOfBool s.thb.ports[k].gotTrain)
    ++ leBytes 1 (natOfBool s.isRoot)

/-- ACK has left the port where a TRAIN had arrived. -/
def acked (ack : Bool) (x : ThbPort) : ThbPort := { x with sentAck := x.sentAck || ack }

theorem acked_sentAck (ack : Bool) (x : ThbPort) : (acked ack x).sentAck = (x.sentAck || ack) := rfl

theorem trained_touches (s : State) (k : Fin 4) : Touches 1152921504606846976 s (s.trained k) := by
  unfold trained
  exact .iteR (.refl s) (updThb_touches ..)

/-- TRAIN begins with the device's serial number and key. -/
theorem trainFrame_starts (s : State) (k : Fin 4) :
    ∃ rest, (s.trained k).trainFrame k = s.getB K.SERIAL ++ leBytes 4 (s.getU K.KEY_ID) ++ rest := by
  have serial := getB_of_blobs ((s.trained_touches k).blobs (by decide)) K.SERIAL
  have key : (s.trained k).getU K.KEY_ID = s.getU K.KEY_ID := congrArg Int.toNat (getN_congr ((s.trained_touches k).nums (by decide)) K.KEY_ID)
  unfold trainFrame
  rw [serial, key, List.append_assoc, List.append_assoc]
  exact ⟨_, rfl⟩

theorem trainSend_off {s : State} {k : Fin 4} (off : s.thbOn = false ∨ s.thb.ports[k].state = .disabled) : s.trainSend k = s := if_pos off

theorem trainSend_goes {s : State} {k : Fin 4} (on : s.thbOn = true) (enabled : s.thb.ports[k].state ≠ .disabled) : s.trainSend k =
    (((s.trained k).sendRaw k 0x01 ((s.trained k).trainFrame k)).updThb k (acked (s.trained k).thb.ports[k].gotTrain)).tryUp k := by
  refine if_neg ?_
  rintro (off | no)
  · simp [on] at off
  · exact enabled no

/-- TRAIN_SEND on a port that runs (R406). -/
theorem trainSend_row {s : State} {k : Fin 4} (on : s.thbOn = true) (enabled : s.thb.ports[k].state ≠ .disabled) :
    ∃ t, exec (.trainSend k) s = .next t ∧ t.SentFrame k 0x01 (s.getB K.SERIAL ++ leBytes 4 (s.getU K.KEY_ID)) ∧
      t.thb.ports[k].sentAck = (s.thb.ports[k].sentAck || s.thb.ports[k].gotTrain) ∧ { t with blobs := s.blobs, thb := s.thb } = s := by
  have goes := trainSend_goes on enabled
  refine ⟨_, rfl, ?_, ?_, (trainSend_touches s k).frame⟩
  · obtain ⟨rest, frame⟩ := trainFrame_starts s k
    rw [goes, frame]
    exact (sendRaw_sent ..).kept ((tryUp_keeps ThbPort.tx (fun _ _ => rfl) ..).trans (updThb_keeps ThbPort.tx (f := acked _) (fun _ => rfl) ..))
  · have sent : ((s.trained k).sendRaw k 0x01 ((s.trained k).trainFrame k)).thb.ports[k].sentAck = (s.trained k).thb.ports[k].sentAck :=
      (Sends.sendRaw (s.trained k) k 0x01 ((s.trained k).trainFrame k)).port ThbPort.sentAck (fun _ => rfl) k
    rw [goes, tryUp_keeps ThbPort.sentAck (fun _ _ => rfl), updThb_port, acked_sentAck, sent, trained_keeps ThbPort.sentAck (fun _ _ => rfl),
      trained_keeps ThbPort.gotTrain (fun _ _ => rfl)]

/-- A port that has got a TRAIN. -/
def gotTrained (ack : Bool) (x : ThbPort) : ThbPort := { x with gotTrain := true, gotAck := x.gotAck || ack }

/-- The state once a TRAIN's sender is noted. -/
def trainNoted (s : State) (k : Fin 4) (serial : List Byte) (ack : Bool) : State :=
  ((s.trained k).setB (K.PEER_SERIAL (k + 1)) (leBytes 8 (leNat (serial.take 8)))).updThb k (gotTrained ack)

/-- A port that is REFUSED. -/
def refusedPort (x : ThbPort) : ThbPort := { x with state := .refused }

/-- How a TRAIN from an allowed sender ends: a stranger is an intrusion; it is refused or may bring the port UP. -/
def trainEnds (s : State) (k : Fin 4) (strange refuse : Bool) : State :=
  let s := if strange then s.intrusion 1 k else s
  if refuse then (s.updThb k refusedPort).portLost k else s.tryUp k

theorem train_off {s : State} {k : Fin 4} (off : s.thbOn = false ∨ s.thb.ports[k].state = .disabled) (seq : Nat) (serial : List Byte)
    (ack root : Bool) : s.train k seq serial ack root = s := if_pos off

theorem trainNoted_isRoot (s : State) (k : Fin 4) (serial : List Byte) (ack : Bool) : (s.trainNoted k serial ack).isRoot = s.isRoot := by
  unfold isRoot getU
  rw [trainNoted, getN_updThb]
  exact congrArg (fun n : Int => bit n.toNat 4) (getN_congr ((trained_touches s k).nums (by decide)) K.THB_CFG)

theorem heard_isRoot {s : State} {k : Fin 4} {seq : Nat} (new : s.thb.ports[k].rxSeq ≠ some (seq % 256)) : (s.heard k seq).isRoot = s.isRoot :=
  congrArg (fun n : Int => bit n.toNat 4) (getN_heard new (j := K.THB_CFG) (by decide))

section

variable {s : State} {k : Fin 4} {seq : Nat} {serial : List Byte} {ack root : Bool} (on : s.thbOn = true)
  (enabled : s.thb.ports[k].state ≠ .disabled) (new : s.thb.ports[k].rxSeq ≠ some (seq % 256))
  (allowed : ((decide (k ≠ 0) && root) || (decide (k = 0) && s.isRoot)) = false)

include on enabled new allowed

theorem train_goes : ∃ strange refuse, s.train k seq serial ack root = ((s.heard k seq).trainNoted k serial ack).trainEnds k strange refuse := by
  obtain ⟨fresh, -⟩ := takeSeq_fresh new
  have linked : ((decide (k ≠ 0) && root) || (decide (k = 0) && ((s.heard k seq).trainNoted k serial ack).isRoot)) = false := by
    rwa [trainNoted_isRoot, heard_isRoot new]
  unfold train
  rw [if_neg (by
    rintro (off | no)
    · simp [on] at off
    · exact enabled no)]
  dsimp only
  rw [fresh, if_neg (by decide)]
  exact ⟨_, _, if_neg (Bool.not_eq_true _ ▸ linked)⟩

end

theorem trainEnds_port {α : Type} (g : ThbPort → α) (same : ∀ x, g x.core = g x) (s : State) (k j : Fin 4) (strange refuse : Bool) :
    g (s.trainEnds k strange refuse).thb.ports[j] = g s.thb.ports[j] := by
  have free : ∀ x st, g { x with state := st } = g x := fun x st => (same _).symm.trans (same x)
  have thb : (if strange = true then s.intrusion 1 k else s).thb = s.thb := by
    split
    · exact (intrusion_touches ..).thb (by decide)
    · rfl
  unfold trainEnds
  rw [← thb]
  dsimp only
  split
  · exact ((portLost_cores _ k).port g same j).trans (updThb_keeps g (f := refusedPort) (fun x => free x .refused) _ k j)
  · exact tryUp_keeps g free _ k j

theorem portLost_touches (s : State) (k : Fin 4) : Touches 1152922604118474753 s (s.portLost k) :=
  .ite ((upstreamLost_touches s).mono rfl) ((childLost_touches s k).mono rfl)

theorem tryUp_peer (s : State) (k i : Fin 4) : (s.tryUp k).getB (K.PEER_SERIAL (i + 1)) = s.getB (K.PEER_SERIAL (i + 1)) := by
  have pin : K.PEER_SERIAL (i + 1) ≠ K.PEER_PIN (k + 1) := by
    simp only [K.PEER_SERIAL, K.PEER_PIN]
    omega
  unfold tryUp
  dsimp only
  split
  · split
    · exact (getB_setB ..).trans (if_neg pin)
    · rfl
  · rfl

theorem trainEnds_peer (s : State) (k : Fin 4) (strange refuse : Bool) (i : Fin 4) :
    (s.trainEnds k strange refuse).getB (K.PEER_SERIAL (i + 1)) = s.getB (K.PEER_SERIAL (i + 1)) := by
  have blobs : (if strange = true then s.intrusion 1 k else s).blobs = s.blobs := by
    split
    · exact (intrusion_touches ..).blobs (by decide)
    · rfl
  rw [← getB_of_blobs blobs]
  unfold trainEnds
  dsimp only
  cases refuse
  · exact tryUp_peer ..
  · exact getB_of_blobs ((portLost_touches ..).blobs (by decide)) _

/-- TRAIN from an allowed sender (R406, R429). -/
theorem train_row {s : State} {k : Fin 4} {seq : Nat} {serial : List Byte} {ack root : Bool} (key port : Nat) (on : s.thbOn = true)
    (enabled : s.thb.ports[k].state ≠ .disabled) (new : s.thb.ports[k].rxSeq ≠ some (seq % 256))
    (allowed : ((decide (k ≠ 0) && root) || (decide (k = 0) && s.isRoot)) = false) :
    ∃ t, exec (.train k seq serial key port ack root) s = .next t ∧ t.thb.ports[k].gotTrain = true ∧
      t.thb.ports[k].gotAck = (s.thb.ports[k].gotAck || ack) ∧ t.getB (K.PEER_SERIAL (k + 1)) = leBytes 8 (leNat (serial.take 8)) ∧
      { t with nums := s.nums, blobs := s.blobs, journal := s.journal, tab := s.tab, tamper := s.tamper, thb := s.thb } = s := by
  obtain ⟨strange, refuse, goes⟩ := train_goes (serial := serial) (ack := ack) on enabled new allowed
  have noted : ((s.heard k seq).trainNoted k serial ack).thb.ports[k] = gotTrained ack ((s.heard k seq).trained k).thb.ports[k] := updThb_port ..
  have gotAck : ((s.heard k seq).trained k).thb.ports[k].gotAck = s.thb.ports[k].gotAck := by
    rw [trained_keeps ThbPort.gotAck (fun _ _ => rfl), heard_port new]
    rfl
  refine ⟨_, rfl, ?_, ?_, ?_, (train_touches s k seq serial ack root).frame⟩
  · rw [goes, trainEnds_port ThbPort.gotTrain (fun _ => rfl), noted]
    rfl
  · rw [goes, trainEnds_port ThbPort.gotAck (fun _ => rfl), noted, ← gotAck]
    rfl
  · rw [goes, trainEnds_peer]
    exact (getB_setB ..).trans (if_pos rfl)

/-! ### A port's outcome at the end of its time (R408) -/

/-- A port with its outcome. -/
def outcome (v : Nat) (x : ThbPort) : ThbPort := { x with known := true, child := { x.child with state := v } }

theorem censusTimeout_off {s : State} {k : Fin 4} (off : s.serves = false ∨ k = 0 ∨ s.thb.ports[k].known = true ∨ s.portEnabled k = false)
    (link : Bool) : s.censusTimeout k link = s := if_pos off

/-- CENSUS_TIMEOUT on an enabled downstream port without outcome (R408). -/
theorem censusTimeout_row {s : State} {k : Fin 4} (on : s.serves = true) (down : k ≠ 0) (waits : s.thb.ports[k].known = false)
    (enabled : s.portEnabled k = true) (link : Bool) : ∃ t, exec (.censusTimeout k link) s = .next t ∧ t.thb.ports[k].known = true ∧
      t.thb.ports[k].child.state = (if link || s.isUp k then 3 else 0) ∧ { t with nums := s.nums, thb := s.thb } = s := by
  have goes : s.censusTimeout k link = (s.updThb k (outcome (if link || s.isUp k then 3 else 0))).censusCheck := by
    refine if_neg ?_
    rintro (off | zero | known | no)
    · simp [on] at off
    · exact down zero
    · exact Bool.false_ne_true (waits.symm.trans known)
    · simp [enabled] at no
  have absent : (s.updThb k (outcome (if link || s.isUp k then 3 else 0))).present k = false := by
    unfold present
    rw [updThb_port]
    cases link || s.isUp k <;> rfl
  have port : (s.censusTimeout k link).thb.ports[k] = outcome (if link || s.isUp k then 3 else 0) s.thb.ports[k] := by
    rw [goes, censusCheck_absent absent, updThb_port]
  exact ⟨_, rfl, congrArg ThbPort.known port, congrArg (fun x : ThbPort => x.child.state) port, (censusTimeout_touches s k link).frame⟩

/-- LINK_DOWN on a port in use (R406). -/
theorem linkDown_row {s : State} {k : Fin 4} (on : s.thbOn = true) (enabled : s.thb.ports[k].state ≠ .disabled)
    (linked : s.thb.ports[k].state ≠ .down) (reason : Nat) : ∃ t, exec (.linkDown k reason) s = .next t ∧ t.thb.ports[k].state = .down ∧
      t.thb.ports[k].lastDown = reason % 8 ∧ { t with nums := s.nums, tab := s.tab, thb := s.thb } = s :=
  ⟨_, rfl, linkDown_state on enabled linked reason, linkDown_lastDown on enabled linked reason, (linkDown_touches s k reason).frame⟩

end State

end Sys2Proof.Machine
end

section
/-! PROOFS. The frames that arrive from a child: PENDING, CENSUS, DELAY_REQ, VP_REPORT, SITE_ACK and JOIN (R408 to R413, R422, R425, R428). -/

namespace Sys2Proof.Machine

open Sys2Proof
set_option Elab.async false

namespace State

/-! ### PENDING (R408) -/

/-- A port whose child is PENDING. -/
def pendingPort (x : ThbPort) : ThbPort := { x with child := { x.child with state := 1 } }

theorem pendingFrom_eq (s : State) (k : Fin 4) : s.pendingFrom k = if s.thb.ports[k].known then s else s.updThb k pendingPort := rfl

/-! ### CENSUS (R408, R410, R411) -/

/-- A block granted is counted, and kept where it lies in none of the port's own. -/
def granted (s : State) (k : Fin 4) (f members : Nat) (inside : Bool) : State :=
  let s := s.addSat 32 K.JOIN_COUNT 1
  if inside then s else s.withThb { s.thb with blocks := s.thb.blocks ++ [(f, members, k.val)] }

theorem granted_ports (s : State) (k : Fin 4) (f members : Nat) (inside : Bool) : (s.granted k f members inside).thb.ports = s.thb.ports := by
  have thb : (s.addSat 32 K.JOIN_COUNT 1).thb = s.thb := (addSat_touches ..).thb (by decide)
  unfold granted
  dsimp only
  split
  · rw [thb]
  · rw [withThb_thb, thb]

theorem getN_granted (s : State) (k : Fin 4) (f members : Nat) (inside : Bool) (j : Nat) :
    (s.granted k f members inside).getN j = (s.addSat 32 K.JOIN_COUNT 1).getN j := by
  unfold granted
  dsimp only
  split <;> rfl

/-- The block that the top gives (R428). -/
def blockPicked (s : State) (k : Fin 4) (members prevFirst : Nat) (direct : Bool) : Option Nat :=
  if s.blockFree prevFirst members k direct then some prevFirst else s.lowestFree members

/-- Whether the block lies within one of the port's own. -/
def blockInside (s : State) (k : Fin 4) (f members : Nat) : Bool :=
  s.thb.blocks.any fun b => decide (b.2.2 = k.val) && decide (b.1 ≤ f) && decide (f + members ≤ b.1 + b.2.1)

/-- A port whose child is REFUSED a block. -/
def childRefused (x : ThbPort) : ThbPort := { x with child := { x.child with state := 5 } }

section

variable {s : State} {k : Fin 4} {members prevFirst : Nat} {direct : Bool} (serial : List Byte)

theorem grantAt_grants {f : Nat} (picks : s.blockPicked k members prevFirst direct = some f) :
    s.grantAt k serial members prevFirst direct =
      if direct then ((s.granted k f members (s.blockInside k f members)).numberChild k f
        ((s.granted k f members (s.blockInside k f members)).getU K.DEPTH + 1)).refreshMembers
      else (s.granted k f members (s.blockInside k f members)).sendFrame k 0x51 (serial ++ leBytes 2 f ++ leBytes 1 0) := by
  unfold blockPicked at picks
  unfold grantAt
  rw [picks]
  rfl

theorem grantAt_refuses (picks : s.blockPicked k members prevFirst direct = none) : s.grantAt k serial members prevFirst direct =
    if direct then ((((s.addSat 32 K.JOIN_REFUSED 1).sendFrame k 0x51 (serial ++ leBytes 2 0xFFFF ++ leBytes 1 1)).updThb k
      childRefused).refreshMembers) else (s.addSat 32 K.JOIN_REFUSED 1).sendFrame k 0x51 (serial ++ leBytes 2 0xFFFF ++ leBytes 1 1) := by
  unfold blockPicked at picks
  unfold grantAt
  rw [picks]
  rfl

end

theorem refreshMembers_cores (s : State) : Cores s s.refreshMembers := .of_ports (congrArg Thiber.ports (refreshMembers_thb s))

theorem addSat_cores (s : State) (w key d : Nat) : Cores s (s.addSat w key d) :=
  .of_ports (congrArg Thiber.ports ((addSat_touches ..).thb (by decide)))

theorem grantAt_cores (s : State) (k : Fin 4) (serial : List Byte) (members prevFirst : Nat) (direct : Bool) :
    Cores s (s.grantAt k serial members prevFirst direct) := by
  cases picks : s.blockPicked k members prevFirst direct with
  | some f =>
    have base : Cores s (s.granted k f members (s.blockInside k f members)) := .of_ports (granted_ports ..)
    rw [grantAt_grants serial picks]
    split
    · exact (base.trans (numberChild_cores ..)).trans (refreshMembers_cores _)
    · exact base.trans (.of_sends (.sendFrame ..))
  | none =>
    have base := (addSat_cores s 32 K.JOIN_REFUSED 1).trans
      (.of_sends (.sendFrame (s.addSat 32 K.JOIN_REFUSED 1) k 0x51 (serial ++ leBytes 2 0xFFFF ++ leBytes 1 1)))
    rw [grantAt_refuses serial picks]
    split
    · exact (base.trans (.updThb (f := childRefused) (fun _ => rfl) ..)).trans (refreshMembers_cores _)
    · exact base

/-- A JOIN goes on upward, and its port is kept (R428). -/
def joinKept (s : State) (k : Fin 4) (serial : List Byte) : State :=
  s.withThb { s.thb with joins := (s.thb.joins.filter fun (j : List Byte × Nat) => decide (j.1 ≠ serial)) ++ [(serial, k.val)] }

theorem startJoin_cores (s : State) (k : Fin 4) : Cores s (s.startJoin k) := by
  unfold startJoin
  dsimp only
  split
  · have base := Cores.of_sends (.sendFrame s k 0x51 (s.thb.ports[k].child.serial ++ leBytes 2 0xFFFF ++ leBytes 1 2))
    split
    · exact ((base.trans (addSat_cores ..)).trans (refuseChild_cores ..)).trans (refreshMembers_cores _)
    · exact (base.trans (refuseChild_cores ..)).trans (refreshMembers_cores _)
  · split
    · exact grantAt_cores ..
    · exact Cores.trans (t := s.joinKept k s.thb.ports[k].child.serial) (.of_ports rfl) (.of_sends (.sendFrame ..))

/-- A port with its child's entry. -/
def censusPort (f : CensusFrame) (unit : Nat) (x : ThbPort) : ThbPort :=
  { x with
    known := true, prevFirst := f.prevFirst
    child := ⟨leBytes 8 (leNat (f.serial.take 8)), f.members, f.depthBelow, f.points, unit, 2, f.flags⟩ }

/-- How a CENSUS ends: as a join where it came late, as news where the first CENSUS has left, else with the check of the top's outcomes. -/
def censusEnds (s : State) (k : Fin 4) (late same : Prop) [Decidable late] [Decidable same] : State :=
  if late then (s.startJoin k).resendCensus else if s.thb.census then (if same then s else s.resendCensus) else s.censusCheck

theorem census_eq (s : State) (k : Fin 4) (f : CensusFrame) : ∃ (unit : Nat) (late same : Prop) (_ : Decidable late) (_ : Decidable same),
    s.census k f = (s.updThb k (censusPort f unit)).refreshMembers.censusEnds k late same := ⟨_, _, _, _, _, rfl⟩

theorem censusEnds_cores (s : State) (k : Fin 4) (late same : Prop) [Decidable late] [Decidable same] : Cores s (s.censusEnds k late same) := by
  unfold censusEnds
  split
  · exact (startJoin_cores ..).trans (.of_sends (.resendCensus _))
  split
  · split
    · exact .refl _
    · exact .of_sends (.resendCensus _)
  · exact censusCheck_cores _

/-- CENSUS stands on its port, and changes no more of any port than numbering does. -/
theorem census_cores (s : State) (k : Fin 4) (f : CensusFrame) : ∃ unit, Cores (s.updThb k (censusPort f unit)) (s.census k f) := by
  obtain ⟨unit, late, same, _, _, eq⟩ := s.census_eq k f
  rw [eq]
  exact ⟨unit, (refreshMembers_cores _).trans (censusEnds_cores ..)⟩

/-! ### Rows -/

section

variable {s : State} {k : Fin 4} {seq : Nat} (takes : s.takesFrame k seq true)

include takes

theorem takesFrame_child : k ≠ 0 := by
  obtain ⟨-, -, -, right⟩ := takes
  rintro rfl
  exact right rfl

theorem pending_row : ∃ t, exec (.pending k seq) s = .next t ∧ t.thb.ports[k].rxSeq = some (seq % 256) ∧
    t.thb.ports[k].child.state = (if s.thb.ports[k].known then s.thb.ports[k].child.state else 1) ∧
    { t with nums := s.nums, tab := s.tab, thb := s.thb } = s := by
  have new := takesFrame_new takes
  have touches := (heard_touches new).trans ((pendingFrom_touches (s.heard k seq) k).mono rfl)
  have known : (s.heard k seq).thb.ports[k].known = s.thb.ports[k].known := by rw [heard_port new]; rfl
  have port : ((s.heard k seq).pendingFrom k).thb.ports[k] =
      if s.thb.ports[k].known then heardPort seq s.thb.ports[k] else pendingPort (heardPort seq s.thb.ports[k]) := by
    rw [pendingFrom_eq, known, ← heard_port new]
    split
    · rfl
    · exact updThb_port ..
  refine ⟨_, congrArg Host.Outcome.next (receive_takes takes _), ?_, ?_, touches.frame⟩
  · rw [port]
    split <;> rfl
  · rw [port]
    split <;> rfl

theorem census_row (f : CensusFrame) : ∃ t, exec (.census k seq f) s = .next t ∧ t.thb.ports[k].known = true ∧
    t.thb.ports[k].prevFirst = f.prevFirst ∧ t.thb.ports[k].child.serial = leBytes 8 (leNat (f.serial.take 8)) ∧
    t.thb.ports[k].child.members = f.members ∧ t.thb.ports[k].child.depthBelow = f.depthBelow ∧ t.thb.ports[k].child.points = f.points ∧
    t.thb.ports[k].child.flags = f.flags ∧ { t with nums := s.nums, tab := s.tab, thb := s.thb } = s := by
  have touches := (heard_touches (takesFrame_new takes)).trans (census_touches (s.heard k seq) k f)
  obtain ⟨unit, cores⟩ := census_cores (s.heard k seq) k f
  have port : ∀ {α : Type} (g : ThbPort → α), (∀ x, g x.core = g x) →
      g ((s.heard k seq).census k f).thb.ports[k] = g (censusPort f unit (s.heard k seq).thb.ports[k]) := fun g same =>
    (cores.port g same k).trans (congrArg g (updThb_port ..))
  exact ⟨_, congrArg Host.Outcome.next (receive_takes takes _), port _ fun _ => rfl, port _ fun _ => rfl,
    port (fun x => x.child.serial) fun _ => rfl, port (fun x => x.child.members) fun _ => rfl, port (fun x => x.child.depthBelow) fun _ => rfl,
    port (fun x => x.child.points) fun _ => rfl, port (fun x => x.child.flags) fun _ => rfl, touches.frame⟩

theorem delayReq_row (t3 t4 : Nat) : ∃ t, exec (.delayReq k seq t3 t4) s = .next t ∧ t.SentFrame k 0x22 (leBytes 8 t3 ++ leBytes 8 t4) ∧
    { t with nums := s.nums, tab := s.tab, thb := s.thb } = s := by
  have new := takesFrame_new takes
  have up : (s.heard k seq).isUp k = true := (heard_isUp new k).trans takes.2.1
  have touches := (heard_touches new).trans ((delayReqFrom_touches (s.heard k seq) k t3 t4).mono rfl)
  have sent := sendFrame_sent up (fun zero => absurd zero (takesFrame_child takes)) 0x22 (leBytes 8 t3 ++ leBytes 8 t4) []
  rw [List.append_nil] at sent
  exact ⟨_, congrArg Host.Outcome.next (receive_takes takes _), sent, touches.frame⟩

/-! ### VP_REPORT (R425) -/

/-- A port with its child's report. -/
def reportPort (r : VpReport) (x : ThbPort) : ThbPort := { x with report := some r }

theorem vpReport_row (f : VpFrame) : ∃ t, exec (.vpReport k seq f) s = .next t ∧
    t.thb.ports[k].report = some ⟨f.endIdx, f.flags, f.points.map fun (q : Fin 8 × Nat × Nat × Nat) => (q.1.val, q.2.1, q.2.2.1, q.2.2.2)⟩ ∧
    { t with nums := s.nums, tab := s.tab, thb := s.thb } = s := by
  have touches := (heard_touches (takesFrame_new takes)).trans ((vpReportFrom_touches (s.heard k seq) k f).mono rfl)
  refine ⟨_, congrArg Host.Outcome.next (receive_takes takes _), ?_, touches.frame⟩
  have thb : ((s.heard k seq).vpReportFrom k f).thb = ((s.heard k seq).updThb k (reportPort
      ⟨f.endIdx, f.flags, f.points.map fun (q : Fin 8 × Nat × Nat × Nat) => (q.1.val, q.2.1, q.2.2.1, q.2.2.2)⟩)).thb := by
    unfold vpReportFrom
    dsimp only
    split
    · exact (formVirtual_touches ..).thb (by decide)
    · rfl
  exact (congrArg (fun x : Thiber => x.ports[k].report) thb).trans (congrArg ThbPort.report (updThb_port ..))

/-! ### SITE_ACK (R422) -/

end

/-- The site tableau's counts and READY. -/
def siteReady (s : State) (x : SiteSt) : State :=
  ((((s.setN K.SITE_FROZEN (s.siteSums.1 : Nat)).setN K.SITE_UNLOCKED (s.siteSums.2.1 : Nat)).setN K.SITE_MISSED (s.siteSums.2.2 : Nat)).withThb
    { s.thb with site := some { x with answered := true } }).setN K.SITE_STATE 2

theorem siteReady_ports (s : State) (x : SiteSt) : (s.siteReady x).thb.ports = s.thb.ports := by
  rw [siteReady, setN_thb, withThb_thb]

theorem siteAckSend_goes {s : State} (on : s.serves = true) {x : SiteSt} (is : s.thb.site = some x) (waits : x.answered = false) :
    s.siteAckSend = if (s.siteReady x).isRoot then s.siteReady x else (s.siteReady x).sendFrame 0 0x41
      (leBytes 2 x.id ++ leBytes 2 s.siteSums.1 ++ leBytes 2 s.siteSums.2.1 ++ leBytes 2 s.siteSums.2.2) := by
  unfold siteAckSend
  rw [is]
  exact if_neg (by simp [on, waits])

theorem siteAckSend_off {s : State} (off : s.serves = false ∨ ∀ x, s.thb.site = some x → x.answered = true) : s.siteAckSend = s := by
  unfold siteAckSend
  split
  case h_1 x is =>
    exact if_pos (off.elim .inr fun all => .inl (all x is))
  case h_2 => rfl

/-- The acknowledgement changes no more of the ports than a frame sent. -/
theorem siteAckSend_bare (s : State) (j : Fin 4) : s.siteAckSend.thb.ports[j].bare = s.thb.ports[j].bare := by
  by_cases off : s.serves = false ∨ ∀ x, s.thb.site = some x → x.answered = true
  · rw [siteAckSend_off off]
  · simp only [not_or, not_forall, Bool.not_eq_false, Bool.not_eq_true] at off
    obtain ⟨on, x, is, waits⟩ := off
    rw [siteAckSend_goes on is waits, ← siteReady_ports s x]
    split
    · rfl
    · exact (Sends.sendFrame ..).ports j

/-- A port with its child's acknowledgement. -/
def ackPort (a : Nat × Nat × Nat) (x : ThbPort) : ThbPort := { x with ack := some a }

theorem siteAckFrom_ack (s : State) (k : Fin 4) (id frozen unlocked missed : Nat) : (s.siteAckFrom k id frozen unlocked missed).thb.ports[k].ack =
    match s.thb.site with
    | some x => if x.id = id then some (frozen, unlocked, missed) else s.thb.ports[k].ack
    | none => s.thb.ports[k].ack := by
  have noted : (s.updThb k (ackPort (frozen, unlocked, missed))).thb.ports[k].ack = some (frozen, unlocked, missed) := by
    rw [updThb_port]
    rfl
  have sent : (s.updThb k (ackPort (frozen, unlocked, missed))).siteAckSend.thb.ports[k].ack = some (frozen, unlocked, missed) :=
    (congrArg ThbPort.ack (siteAckSend_bare (s.updThb k (ackPort (frozen, unlocked, missed))) k : _ = _)).trans noted
  unfold siteAckFrom
  cases s.thb.site with
  | none => rfl
  | some x =>
    dsimp only
    by_cases same : x.id = id
    · rw [if_pos same, if_pos same]
      split
      · exact sent
      · exact noted
    · rw [if_neg same, if_neg same]

/-! ### JOIN (R428) -/

section

variable {s : State} {k : Fin 4} {seq : Nat} (new : s.thb.ports[k].rxSeq ≠ some (seq % 256))

include new

theorem heard_site : (s.heard k seq).thb.site = s.thb.site := Thiber.of_sans Thiber.site (fun _ => rfl) (heard_sans new)

theorem heard_blocks : (s.heard k seq).thb.blocks = s.thb.blocks := Thiber.of_sans Thiber.blocks (fun _ => rfl) (heard_sans new)

theorem heard_isMember : (s.heard k seq).isMember = s.isMember :=
  congrArg (fun n : Int => decide (n = 2)) (getN_heard new (j := K.ROLE) (by decide))

theorem heard_isTop : (s.heard k seq).isTop = s.isTop := by rw [isTop, isTop, heard_isRoot new, heard_isMember new, heard_isUp new]

theorem heard_child (j : Fin 4) : (s.heard k seq).thb.ports[j].child = s.thb.ports[j].child := by
  by_cases e : j = k
  · subst e
    rw [heard_port new]
    rfl
  · rw [heard_port_other new e]

theorem heard_lowestFree (n : Nat) : (s.heard k seq).lowestFree n = s.lowestFree n := by
  unfold lowestFree
  rw [heard_blocks new]

theorem heard_blockFree (f n : Nat) (j : Fin 4) (direct : Bool) : (s.heard k seq).blockFree f n j direct = s.blockFree f n j direct := by
  unfold blockFree present
  rw [heard_blocks new, heard_child new]

end

/-- JOIN at the top: a block is granted, or the unit is refused (R428). -/
theorem joinFrom_granted {s : State} (top : s.isTop = true) {k : Fin 4} {members prevFirst f : Nat}
    (picks : s.blockPicked k members prevFirst false = some f) (serial : List Byte) :
    (s.joinFrom k serial members prevFirst).getN K.JOIN_COUNT = (satAdd 32 (s.getU K.JOIN_COUNT) 1 : Nat) := by
  rw [joinFrom, if_pos top, grantAt_grants serial picks, if_neg (by decide), (Sends.sendFrame ..).getN, getN_granted, getN_addSat, if_pos rfl]

theorem joinFrom_refused {s : State} (top : s.isTop = true) {k : Fin 4} {members prevFirst : Nat}
    (picks : s.blockPicked k members prevFirst false = none) (serial : List Byte) :
    (s.joinFrom k serial members prevFirst).getN K.JOIN_REFUSED = (satAdd 32 (s.getU K.JOIN_REFUSED) 1 : Nat) := by
  rw [joinFrom, if_pos top, grantAt_refuses serial picks, if_neg (by decide), (Sends.sendFrame ..).getN, getN_addSat, if_pos rfl]

theorem joinFrom_forwarded {s : State} (low : s.isTop = false) (k : Fin 4) (serial : List Byte) (members prevFirst : Nat) :
    (serial, k.val) ∈ (s.joinFrom k serial members prevFirst).thb.joins := by
  have goes : s.joinFrom k serial members prevFirst = (s.joinKept k serial).sendFrame 0 0x50 (serial ++ leBytes 2 members ++ leBytes 2 prevFirst) :=
    if_neg (by simp [low])
  have joins : (s.joinFrom k serial members prevFirst).thb.joins = (s.joinKept k serial).thb.joins := by
    rw [goes]
    exact Thiber.of_sans Thiber.joins (fun _ => rfl) (Sends.sendFrame ..).sans
  rw [joins]
  simp [joinKept, withThb_thb]

/-! ### Rows of SITE_ACK and JOIN -/

section

variable {s : State} {k : Fin 4} {seq : Nat} (takes : s.takesFrame k seq true)

include takes

theorem siteAck_row (id frozen unlocked missed : Nat) : ∃ t, exec (.siteAck k seq id frozen unlocked missed) s = .next t ∧
    t.thb.ports[k].ack = (match s.thb.site with
      | some x => if x.id = id then some (frozen, unlocked, missed) else s.thb.ports[k].ack
      | none => s.thb.ports[k].ack) ∧ { t with nums := s.nums, tab := s.tab, thb := s.thb } = s := by
  have new := takesFrame_new takes
  have touches := (heard_touches new).trans ((siteAckFrom_touches (s.heard k seq) k id frozen unlocked missed).mono rfl)
  have ack : (s.heard k seq).thb.ports[k].ack = s.thb.ports[k].ack := by rw [heard_port new]; rfl
  refine ⟨_, congrArg Host.Outcome.next (receive_takes takes _), ?_, touches.frame⟩
  rw [siteAckFrom_ack, heard_site new, ack]

theorem join_row (serial : List Byte) (n first : Nat) : ∃ t, exec (.join k seq serial n first) s = .next t ∧
    (s.isTop = true → s.blockFree first n k false = true → t.getN K.JOIN_COUNT = (satAdd 32 (s.getU K.JOIN_COUNT) 1 : Nat)) ∧
    (s.isTop = true → s.blockFree first n k false = false → s.lowestFree n = none →
      t.getN K.JOIN_REFUSED = (satAdd 32 (s.getU K.JOIN_REFUSED) 1 : Nat)) ∧
    (s.isTop = false → (serial, k.val) ∈ t.thb.joins) ∧ { t with nums := s.nums, tab := s.tab, thb := s.thb } = s := by
  have new := takesFrame_new takes
  have touches := (heard_touches new).trans (joinFrom_touches (s.heard k seq) k serial n first)
  have nums : ∀ j, j / 256 ≠ 0xB006 → (s.heard k seq).getU j = s.getU j := fun j out => congrArg Int.toNat (getN_heard new out)
  refine ⟨_, congrArg Host.Outcome.next (receive_takes takes _), fun top free => ?_, fun top taken none' => ?_, fun low => ?_, touches.frame⟩
  · rw [← heard_blockFree new] at free
    rw [joinFrom_granted ((heard_isTop new).trans top) (if_pos free), nums _ (by decide)]
  · rw [← heard_blockFree new] at taken
    rw [joinFrom_refused ((heard_isTop new).trans top) ((if_neg (by simp [taken])).trans ((heard_lowestFree new n).trans none')), nums _ (by decide)]
  · exact joinFrom_forwarded ((heard_isTop new).trans low) ..

end

end State

end Sys2Proof.Machine
end

section
/-! PROOFS. The frames that arrive from the parent: NUMBERING, SYNC, DELAY_RESP, TSTEP, SITE and GRANT (R409, R413 to R423, R428). -/

namespace Sys2Proof.Machine

open Sys2Proof
set_option Elab.async false

/-- The engine but for its ports and the blocks that its top has given. -/
def Thiber.still (x : Thiber) : Thiber := { x.sans with blocks := [] }

theorem Thiber.of_still {α : Type} (g : Thiber → α) (same : ∀ x : Thiber, g x.still = g x) {x y : Thiber} (h : y.still = x.still) :
    g y = g x := by
  rw [← same, h, same]

/-- The frame of an intrusion on the Thiber link. -/
theorem Touches.frame_intrusion {s t : State} (k : Touches 1729383360716865537 s t) :
    { t with nums := s.nums, tab := s.tab, tamper := s.tamper, journal := s.journal, thb := s.thb } = s := k.frame

namespace State

/-! ### NUMBERING (R409, R415) -/

theorem numberTurn_still (depth : Nat) (acc : State × Nat) (k : Fin 4) : (numberTurn depth acc k).1.thb.still = acc.1.thb.still := by
  unfold numberTurn
  dsimp only
  split
  · split
    · rfl
    · exact congrArg (fun x : Thiber => { x with blocks := [] }) (Sends.sendFrame (acc.1.updThb k (childNumbered acc.2)) k 0x12 _).sans
  · rfl

theorem numberTurn_nums (depth : Nat) (acc : State × Nat) (k : Fin 4) : (numberTurn depth acc k).1.nums = acc.1.nums := by
  unfold numberTurn
  dsimp only
  split
  · split
    · rfl
    · exact (Sends.sendFrame (acc.1.updThb k (childNumbered acc.2)) k 0x12 _).touches.nums (by decide)
  · rfl

theorem numberChildren_still (s : State) (first depth : Nat) : (s.numberChildren first depth).thb.still = s.thb.still :=
  numberChildren_ind (fun u => u.thb.still = s.thb.still) rfl (fun _ _ h => (numberTurn_still ..).trans h)
    fun u h => (congrArg Thiber.still (refreshMembers_thb u)).trans h

theorem getN_numberChildren {j : Nat} (no : ¬ CensusKey j) (s : State) (first depth : Nat) : (s.numberChildren first depth).getN j = s.getN j :=
  numberChildren_ind (fun u => u.getN j = s.getN j) rfl (fun _ _ h => (getN_congr (numberTurn_nums ..) j).trans h)
    fun u h => (getN_refreshMembers no u).trans h

theorem getN_thbAcquire {j : Nat} (no : j ≠ K.LOCK_LOSSES) (s : State) : s.thbAcquire.getN j = if j = K.TIME_STATE then 1 else s.getN j := by
  show ((s.lockLost.setN K.TIME_STATE 1).getN j) = _
  rw [getN_setN, getN_lockLost no]

/-- A MEMBER with its block (R409). -/
def numbered (s : State) (first depth : Nat) : State :=
  let u := (((s.setN K.ROLE 2).setN K.UNIT_NO (first : Nat)).setN K.PREV_FIRST (first : Nat)).setN K.DEPTH (depth : Nat)
  u.withThb { u.thb with refused := false, complete := true }

theorem numbering_goes {s : State} (below : s.isRoot = false) (first size depth : Nat) :
    s.numbering first size depth = ((s.numbered first depth).numberChildren first depth).thbAcquire := if_neg (by simp [below])

theorem getN_numbering {s : State} (below : s.isRoot = false) (first size depth : Nat) {j : Nat} (census : ¬ CensusKey j)
    (losses : j ≠ K.LOCK_LOSSES) :
    (s.numbering first size depth).getN j = if j = K.TIME_STATE then 1 else if j = K.DEPTH then (depth : Int)
      else if j = K.PREV_FIRST then (first : Int) else if j = K.UNIT_NO then (first : Int) else if j = K.ROLE then 2 else s.getN j := by
  rw [numbering_goes below, getN_thbAcquire losses, getN_numberChildren census, numbered, getN_withThb]
  simp only [getN_setN]

theorem thbAcquire_sans (s : State) {α : Type} (g : Thiber → α) (same : ∀ x t, g { x with time := t } = g x) :
    g s.thbAcquire.thb = g s.thb := by
  have thb : (s.lockLost.setN K.TIME_STATE 1).thb = s.thb := (lockLost_touches s).thb (by decide)
  unfold thbAcquire updTime
  dsimp only
  rw [same, thb]

theorem numbering_thb {s : State} (below : s.isRoot = false) (first size depth : Nat) :
    (s.numbering first size depth).thb.complete = true ∧ (s.numbering first size depth).thb.refused = false := by
  have still := numberChildren_still (s.numbered first depth) first depth
  rw [numbering_goes below, thbAcquire_sans _ Thiber.complete (fun _ _ => rfl), thbAcquire_sans _ Thiber.refused (fun _ _ => rfl)]
  exact ⟨Thiber.of_still Thiber.complete (fun _ => rfl) still, Thiber.of_still Thiber.refused (fun _ => rfl) still⟩

section

variable {s : State} {k : Fin 4} {seq : Nat} (takes : s.takesFrame k seq false)

include takes

theorem numbering_row (first size depth : Nat) (below : s.isRoot = false) : ∃ t, exec (.numbering k seq first size depth) s = .next t ∧
    t.getN K.ROLE = 2 ∧ t.getN K.UNIT_NO = (first : Nat) ∧ t.getN K.PREV_FIRST = (first : Nat) ∧ t.getN K.DEPTH = (depth : Nat) ∧
    t.getN K.TIME_STATE = 1 ∧ t.thb.complete = true ∧ t.thb.refused = false ∧ { t with nums := s.nums, tab := s.tab, thb := s.thb } = s := by
  have new := takesFrame_new takes
  have root : (s.heard k seq).isRoot = false := (heard_isRoot new).trans below
  have touches := (heard_touches new).trans (numbering_touches (s.heard k seq) first size depth)
  have nums : ∀ {j}, ¬ CensusKey j → j ≠ K.LOCK_LOSSES → _ := fun census losses => getN_numbering root first size depth census losses
  obtain ⟨complete, refused⟩ := numbering_thb root first size depth
  refine ⟨_, congrArg Host.Outcome.next (receive_takes takes _), ?_, ?_, ?_, ?_, ?_, complete, refused, touches.frame⟩
  all_goals
    refine (nums ?_ (by decide)).trans rfl
    unfold CensusKey
    decide

end

/-! ### SYNC (R413, R415, R418) -/

/-- What a SYNC tells of the parent's time. -/
def synced (f : SyncFrame) (t2 : Nat) (x : ThbTime) : ThbTime :=
  { x with t1 := f.t1, t2 := t2, synced := true, corr := f.corr, shift := f.shift, valid := f.valid, parentSeq := some f.rebaseSeq }

/-- The state once a SYNC is noted. -/
def syncNoted (s : State) (f : SyncFrame) (t2 : Nat) : State := (s.setN K.HOPS (f.hops + 1 : Nat)).updTime (synced f t2)

/-- How far, in periods, the parent's time lies from the own. -/
def apart (f : SyncFrame) (t2 : Nat) : Nat := (((t2 / 65536 : Nat) : Int) - ((f.t1 / 65536 : Nat) : Int)).natAbs

theorem syncNoted_touches (s : State) (f : SyncFrame) (t2 : Nat) : Touches 1152921504606846977 s (s.syncNoted f t2) :=
  ((setN_touches ..).mono rfl).trans ((updTime_touches ..).mono rfl)

theorem getN_updTime (s : State) (f : ThbTime → ThbTime) (j : Nat) : (s.updTime f).getN j = s.getN j := rfl

theorem getN_syncNoted (s : State) (f : SyncFrame) (t2 j : Nat) :
    (s.syncNoted f t2).getN j = if j = K.HOPS then ((f.hops + 1 : Nat) : Int) else s.getN j := by
  rw [syncNoted, getN_updTime, getN_setN]

/-- Whether the parent has rebased since its SYNC before. -/
def parentMoved (s : State) (f : SyncFrame) : Bool := match s.thb.time.parentSeq with | some q => decide (q ≠ f.rebaseSeq) | none => false

/-- A member follows its parent's rebase (R415). -/
def parentRebase (s : State) (f : SyncFrame) (t2 : Nat) : State :=
  (s.rebase (rebaseDelta ((((t2 / 65536 : Nat) : Int) - ((f.t1 / 65536 : Nat) : Int)) * 125000))).updTime fun x =>
    { x with offset := none, t3 := none, synced := false }

theorem syncFrom_eq (s : State) (f : SyncFrame) (t2 : Nat) : s.syncFrom f t2 =
    if s.isMember = false ∨ s.getN K.TIME_STATE = 4 then s
    else if s.parentMoved f = true ∧ (s.syncNoted f t2).indexTaken = true then (s.syncNoted f t2).parentRebase f t2
    else if (s.syncNoted f t2).getN K.TIME_STATE ≠ 3 then s.syncNoted f t2
    else if s.parentMoved f = false ∧ 2 ≤ apart f t2 then (s.syncNoted f t2).timeJump
    else if f.valid then (s.syncNoted f t2).setN K.RTC_VALID 1 else s.syncNoted f t2 := rfl

/-- SYNC of a parent that has not rebased (R415, R418). -/
theorem syncFrom_goes {s : State} {f : SyncFrame} (member : s.isMember = true) (held : s.getN K.TIME_STATE ≠ 4)
    (steady : ∀ q, s.thb.time.parentSeq = some q → q = f.rebaseSeq) (t2 : Nat) : s.syncFrom f t2 =
      if s.getN K.TIME_STATE ≠ 3 then s.syncNoted f t2
      else if 2 ≤ apart f t2 then (s.syncNoted f t2).timeJump
      else if f.valid then (s.syncNoted f t2).setN K.RTC_VALID 1 else s.syncNoted f t2 := by
  have moved : s.parentMoved f = false := by
    unfold parentMoved
    cases old : s.thb.time.parentSeq with
    | none => rfl
    | some q => exact decide_eq_false (not_not.2 (steady q old))
  have state : (s.syncNoted f t2).getN K.TIME_STATE = s.getN K.TIME_STATE := (getN_syncNoted ..).trans (if_neg (by decide))
  rw [syncFrom_eq, if_neg (by simp [member, held]), moved, if_neg (by simp), state]
  simp only [true_and]

theorem getN_intrusion {j : Nat} (no : ¬ TamperOnly.entries 14 j) (out : j / 256 ≠ 0xB050) (s : State) (kind : Nat) (k : Fin 4) :
    (s.intrusion kind k).getN j = s.getN j := by
  have other : j ≠ K.INTRUSION_COUNT ∧ j ≠ K.INTRUSION_LAST ∧ j ≠ K.INTRUSION_TIME := by
    refine ⟨?_, ?_, ?_⟩
    all_goals
      rintro rfl
      exact out (by decide)
  obtain ⟨count, last, time⟩ := other
  unfold intrusion
  dsimp only
  rw [(TamperOnly.source _ 14 0).nums j no, getN_setN_other _ time, getN_setN_other _ last, getN_addSat, if_neg count]

/-- A time jump (R418). -/
def jumped (t : Nat) (x : ThbTime) : ThbTime := { x with since := t, offset := none, t3 := none }

theorem timeJump_eq (s : State) : s.timeJump = ((s.lockLost.setN K.TIME_STATE 4).intrusion 2 0).updTime (jumped s.rtc) := rfl

theorem timeJump_state (s : State) : s.timeJump.getN K.TIME_STATE = 4 := by
  rw [timeJump_eq, getN_updTime, getN_intrusion (by unfold TamperOnly.entries; decide) (by decide), getN_setN_same]

theorem timeJump_time (s : State) : s.timeJump.thb.time.t3 = none ∧ s.timeJump.thb.time.offset = none := by
  rw [timeJump_eq]
  exact ⟨rfl, rfl⟩

section

variable {s : State} {k : Fin 4} {seq : Nat} (takes : s.takesFrame k seq false)

include takes

theorem heard_syncFrom {f : SyncFrame} (member : s.isMember = true) (held : s.getN K.TIME_STATE ≠ 4)
    (steady : ∀ q, s.thb.time.parentSeq = some q → q = f.rebaseSeq) (t2 : Nat) : (s.heard k seq).syncFrom f t2 =
      if s.getN K.TIME_STATE ≠ 3 then (s.heard k seq).syncNoted f t2
      else if 2 ≤ apart f t2 then ((s.heard k seq).syncNoted f t2).timeJump
      else if f.valid then ((s.heard k seq).syncNoted f t2).setN K.RTC_VALID 1 else (s.heard k seq).syncNoted f t2 := by
  have new := takesFrame_new takes
  have state : (s.heard k seq).getN K.TIME_STATE = s.getN K.TIME_STATE := getN_heard new (by decide)
  have time : (s.heard k seq).thb.time = s.thb.time := Thiber.of_sans Thiber.time (fun _ => rfl) (heard_sans new)
  rw [syncFrom_goes ((heard_isMember new).trans member) (by rwa [state]) (by rwa [time]), state]

theorem sync_row (f : SyncFrame) (t2 : Nat) (member : s.isMember = true) (held : s.getN K.TIME_STATE ≠ 4)
    (steady : ∀ q, s.thb.time.parentSeq = some q → q = f.rebaseSeq) (near : s.getN K.TIME_STATE ≠ 3 ∨ apart f t2 < 2) : ∃ t,
      exec (.sync k seq f t2) s = .next t ∧ t.getN K.HOPS = (f.hops + 1 : Nat) ∧
      t.getN K.RTC_VALID = (if s.getN K.TIME_STATE = 3 ∧ f.valid = true then 1 else s.getN K.RTC_VALID) ∧
      t.thb.time = { s.thb.time with
        t1 := f.t1, t2 := t2, synced := true, corr := f.corr, shift := f.shift, valid := f.valid, parentSeq := some f.rebaseSeq } ∧
      { t with nums := s.nums, tab := s.tab, thb := s.thb } = s := by
  have new := takesFrame_new takes
  have state : (s.heard k seq).getN K.RTC_VALID = s.getN K.RTC_VALID := getN_heard new (by decide)
  have time : (s.heard k seq).thb.time = s.thb.time := Thiber.of_sans Thiber.time (fun _ => rfl) (heard_sans new)
  have noted := (heard_touches new).trans ((syncNoted_touches (s.heard k seq) f t2).mono rfl)
  have goes : (s.heard k seq).syncFrom f t2 =
      if s.getN K.TIME_STATE = 3 ∧ f.valid = true then ((s.heard k seq).syncNoted f t2).setN K.RTC_VALID 1 else (s.heard k seq).syncNoted f t2 := by
    rw [heard_syncFrom takes member held steady]
    by_cases locked : s.getN K.TIME_STATE = 3
    · simp [locked, Nat.not_le.2 (near.resolve_left (not_not.2 locked))]
    · simp [locked]
  by_cases valid : s.getN K.TIME_STATE = 3 ∧ f.valid = true
  · rw [if_pos valid] at goes ⊢
    exact ⟨_, congrArg Host.Outcome.next ((receive_takes takes _).trans goes),
      (getN_setN_other _ (by decide) _).trans ((getN_syncNoted ..).trans (if_pos rfl)), getN_setN_same .., congrArg (synced f t2) time,
      (noted.trans ((setN_touches ..).mono rfl)).frame⟩
  · rw [if_neg valid] at goes ⊢
    exact ⟨_, congrArg Host.Outcome.next ((receive_takes takes _).trans goes), (getN_syncNoted ..).trans (if_pos rfl),
      ((getN_syncNoted ..).trans (if_neg (by decide))).trans state, congrArg (synced f t2) time, noted.frame⟩

theorem sync_jump_row (f : SyncFrame) (t2 : Nat) (member : s.isMember = true) (steady : ∀ q, s.thb.time.parentSeq = some q → q = f.rebaseSeq)
    (locked : s.getN K.TIME_STATE = 3) (far : 2 ≤ apart f t2) : ∃ t,
      exec (.sync k seq f t2) s = .next t ∧ t.getN K.TIME_STATE = 4 ∧ t.thb.time.t3 = none ∧ t.thb.time.offset = none ∧
      { t with nums := s.nums, tab := s.tab, tamper := s.tamper, journal := s.journal, thb := s.thb } = s := by
  have new := takesFrame_new takes
  have goes : (s.heard k seq).syncFrom f t2 = ((s.heard k seq).syncNoted f t2).timeJump := by
    rw [heard_syncFrom takes member (by rw [locked]; decide) steady, if_neg (not_not.2 locked), if_pos far]
  have touches := (((heard_touches new).mono rfl).trans ((syncNoted_touches (s.heard k seq) f t2).mono rfl)).trans
    (timeJump_touches ((s.heard k seq).syncNoted f t2))
  obtain ⟨t3, offset⟩ := ((s.heard k seq).syncNoted f t2).timeJump_time
  exact ⟨_, congrArg Host.Outcome.next ((receive_takes takes _).trans goes), timeJump_state _, t3, offset, touches.frame_intrusion⟩

end

end State

end Sys2Proof.Machine
end

section
/-! PROOFS. DELAY_RESP, TSTEP, SITE and GRANT from the parent (R413, R415, R419, R421 to R423, R428). -/

namespace Sys2Proof.Machine

open Sys2Proof
set_option Elab.async false

/-- The entries of the servo that an exchange may write beside its own figures (R414, R415). -/
def SteerKey (j : Nat) : Prop :=
  j = K.PULL ∨ j = K.TIME_STATE ∨ j = K.OFFSET_WORST ∨ j = K.LOCK_TIME ∨ j = K.RTC_VALID ∨ j = K.LOCK_LOSSES

/-- From `s` to `t` the servo moves: no other entry changes, and no exchange begins. -/
structure Steers (s t : State) : Prop where
  nums : ∀ j, ¬ SteerKey j → t.getN j = s.getN j
  t3 : s.thb.time.t3 = none → t.thb.time.t3 = none

namespace Steers

variable {s t u : State}

theorem refl (s : State) : Steers s s := ⟨fun _ _ => rfl, id⟩

theorem trans (a : Steers s t) (b : Steers t u) : Steers s u := ⟨fun j no => (b.nums j no).trans (a.nums j no), fun h => b.t3 (a.t3 h)⟩

theorem updTime {f : ThbTime → ThbTime} (keeps : ∀ x, x.t3 = none → (f x).t3 = none) (s : State) : Steers s (s.updTime f) :=
  ⟨fun _ _ => rfl, keeps s.thb.time⟩

theorem setN {j : Nat} (own : SteerKey j) (v : Int) (s : State) : Steers s (s.setN j v) :=
  ⟨fun i no => State.getN_setN_other s (fun e : i = j => no (e ▸ own)) v, id⟩

theorem setPull (v : Int) (s : State) : Steers s (s.setPull v) := by
  have pull := Steers.setN (j := K.PULL) (.inl rfl) (clampInt (-100000) 100000 v) s
  unfold State.setPull
  dsimp only
  split
  · exact pull.trans (.setN (.inr (.inl rfl)) ..)
  · exact pull

theorem raise {j : Nat} (own : SteerKey j) (v : Nat) (s : State) : Steers s (s.raise j v) := by
  unfold State.raise
  split
  · refine ⟨fun i no => (State.getN_put ..).trans (if_neg fun e : i = j => no (e ▸ own)), fun h => ?_⟩
    rwa [(State.put_touches ..).thb (by decide)]
  · exact .refl s

theorem thbAcquire (s : State) : Steers s s.thbAcquire := by
  refine ⟨fun j no => ?_, fun _ => rfl⟩
  simp only [SteerKey, not_or] at no
  obtain ⟨-, time, -, -, -, losses⟩ := no
  exact (State.getN_thbAcquire losses s).trans (if_neg time)

theorem of_same (nums : t.nums = s.nums) (thb : t.thb = s.thb) : Steers s t := ⟨fun j _ => State.getN_congr nums j, fun h => by rwa [thb]⟩

end Steers

namespace State

/-- The servo's entries as LOCKED is reached, and the RTC on Thiber time (R415, R417). -/
def lockedEntries (s : State) : State :=
  let s := (s.setN K.TIME_STATE 3).setN K.OFFSET_WORST 0
  let s := s.setN K.LOCK_TIME (((s.rtc - s.thb.time.since) / 1000 : Nat) : Int)
  { s with rtc := s.instant s.index }

/-- The RTC is valid from now on where the parent's time is. -/
def lockedValid (s : State) : State := if s.thb.time.valid then s.setN K.RTC_VALID 1 else s

/-- The pull from which that of LOCKED is measured. -/
def pullFrom (pl : Int) (t : Nat) (x : ThbTime) : ThbTime := { x with pullBase := pl, pullSince := t }

theorem enterLocked_eq (s : State) : s.enterLocked = s.lockedEntries.lockedValid.updTime
    (pullFrom (s.lockedEntries.lockedValid.getN K.PULL) s.lockedEntries.lockedValid.rtc) := rfl

/-- The exchanges made since ACQUIRING began. -/
def exchangesMade (n : Nat) (x : ThbTime) : ThbTime := { x with exchanges := n }

/-- The frequency is matched at a pull. -/
def matchedAt (pl : Int) (x : ThbTime) : ThbTime := { x with matched := true, matchedPull := pl }

/-- One exchange more in ACQUIRING; with the sixteenth the frequency is matched. -/
def steerAcquiring (s : State) (want : Int) : State :=
  let n := s.thb.time.exchanges + 1
  let s := s.updTime (exchangesMade n)
  if n = 16 then (s.setPull want).updTime (matchedAt ((s.setPull want).getN K.PULL)) else s

/-- The pull in SLEWING, and LOCKED after sixteen good exchanges. -/
def steerSlewing (s : State) (want : Int) (good : Nat) : State :=
  let m := s.thb.time.matchedPull
  let s := s.setPull (clampInt (m - 50000) (m + 50000) want)
  if 16 ≤ good ∧ s.getN K.TIME_STATE = 2 then s.enterLocked else s

/-- The pull's base moves on once a second. -/
def pullBased (s : State) : State :=
  let x := s.thb.time
  if x.pullSince + 1000000000 ≤ s.rtc then
    s.updTime (pullFrom (s.getN K.PULL) s.rtc)
  else s

/-- The pull in LOCKED; a lasting offset begins ACQUIRING again. -/
def steerLocked (s : State) (want off : Int) : State :=
  let s := s.raise K.OFFSET_WORST (min off.natAbs (2 ^ 32 - 1))
  if 10000 < off.natAbs then s.thbAcquire
  else
    let s := s.pullBased
    let b := s.thb.time.pullBase
    s.setPull (clampInt (b - 100) (b + 100) want)

/-- The state once an exchange counts as good or not. -/
def steerCounted (s : State) (off : Int) : State :=
  s.fresh.2.updTime fun x => { x with good := if off.natAbs ≤ 40 then s.fresh.2.thb.time.good + 1 else 0 }

theorem steer_eq (s : State) (off : Int) : s.steer off = match (s.steerCounted off).getN K.TIME_STATE with
    | 1 => (s.steerCounted off).steerAcquiring (Config.servoPull s.fresh.1)
    | 2 => (s.steerCounted off).steerSlewing (Config.servoPull s.fresh.1) (if off.natAbs ≤ 40 then s.fresh.2.thb.time.good + 1 else 0)
    | 3 => (s.steerCounted off).steerLocked (Config.servoPull s.fresh.1) off
    | _ => s.steerCounted off := rfl

end State

namespace Steers

variable {s t u : State}

theorem enterLocked (s : State) : Steers s s.enterLocked := by
  have entries : Steers s s.lockedEntries :=
    ((Steers.setN (.inr (.inl rfl)) 3 s).trans (.setN (.inr (.inr (.inl rfl))) 0 _)).trans
      ((Steers.setN (.inr (.inr (.inr (.inl rfl)))) _ _).trans (.of_same rfl rfl))
  have valid : Steers s.lockedEntries s.lockedEntries.lockedValid := by
    unfold State.lockedValid
    split
    · exact .setN (.inr (.inr (.inr (.inr (.inl rfl))))) ..
    · exact .refl _
  rw [State.enterLocked_eq]
  exact (entries.trans valid).trans (.updTime (f := State.pullFrom _ _) (fun _ h => h) _)

theorem steerAcquiring (s : State) (want : Int) : Steers s (s.steerAcquiring want) := by
  have counted : ∀ n, Steers s (s.updTime (State.exchangesMade n)) := fun n => .updTime (f := State.exchangesMade n) (fun _ h => h) s
  unfold State.steerAcquiring
  dsimp only
  split
  · exact ((counted _).trans (.setPull ..)).trans (.updTime (f := State.matchedAt _) (fun _ h => h) _)
  · exact counted _

theorem steerSlewing (s : State) (want : Int) (good : Nat) : Steers s (s.steerSlewing want good) := by
  unfold State.steerSlewing
  dsimp only
  split
  · exact (Steers.setPull _ s).trans (.enterLocked _)
  · exact .setPull _ s

theorem pullBased (s : State) : Steers s s.pullBased := by
  unfold State.pullBased
  dsimp only
  split
  · exact .updTime (f := State.pullFrom _ _) (fun _ h => h) s
  · exact .refl s

theorem steerLocked (s : State) (want off : Int) : Steers s (s.steerLocked want off) := by
  have worst := Steers.raise (j := K.OFFSET_WORST) (.inr (.inr (.inl rfl))) (min off.natAbs (2 ^ 32 - 1)) s
  unfold State.steerLocked
  dsimp only
  split
  · exact worst.trans (.thbAcquire _)
  · exact (worst.trans (.pullBased _)).trans (.setPull ..)

theorem steer (s : State) (off : Int) : Steers s (s.steer off) := by
  have counted : Steers s (s.steerCounted off) := ⟨fun _ _ => rfl, id⟩
  rw [State.steer_eq]
  split
  · exact counted.trans (.steerAcquiring ..)
  · exact counted.trans (.steerSlewing ..)
  · exact counted.trans (.steerLocked ..)
  · exact counted

end Steers

end Sys2Proof.Machine
end

section
/-! PROOFS. An exchange of times with the parent, and its time step (R413, R419). -/

namespace Sys2Proof.Machine

open Sys2Proof
set_option Elab.async false

/-- The frame of a device whose servo steers the RTC. -/
theorem Touches.frame_steer {s t : State} (k : Touches 1152922604118475017 s t) :
    { t with nums := s.nums, free := s.free, rtc := s.rtc, tab := s.tab, thb := s.thb } = s := k.frame

/-- The frame of a device whose demand intervals a time step flags. -/
theorem Touches.frame_timeStep {s t : State} (k : Touches 1152922604135251969 s t) :
    { t with nums := s.nums, points := s.points, tab := s.tab, thb := s.thb } = s := k.frame

namespace State

/-! ### DELAY_RESP (R413) -/

/-- No exchange is open. -/
def askedNothing (x : ThbTime) : ThbTime := { x with t3 := none }

/-- The offset of the exchange that completed last. -/
def offsetMade (off : Int) (x : ThbTime) : ThbTime := { x with offset := some off }

/-- What DELAY_RESP tells of the link's delay, in 0.1 ns. -/
def linkDelay (x : ThbTime) (t3 t4 : Nat) : Int := (linkQuarter x.t2 - linkQuarter x.t1 + (linkQuarter t4 - linkQuarter t3)) * 5 / 4

/-- What DELAY_RESP tells of the own offset, in 0.1 ns. -/
def linkOffset (x : ThbTime) (asym : Int) (t3 t4 : Nat) : Int :=
  (((linkQuarter x.t2 - linkQuarter x.t1) - (linkQuarter t4 - linkQuarter t3)) * 5 + 2 * asym) / 4 + x.corr

/-- The state once the exchange's figures stand. -/
def exchanged (s : State) (delay : Nat) (off : Int) : State :=
  (((s.updTime askedNothing).setN K.LINK_DELAY (delay : Nat)).setN K.OFFSET (clampInt (-2147483648) 2147483647 off)).updTime (offsetMade off)

/-- Whether the offset moved too far while LOCKED (R418). -/
def offsetJump (s : State) (off : Int) : Bool :=
  decide (s.getN K.TIME_STATE = 3) && (match s.thb.time.offset with | some o => decide (10000 < (off - o).natAbs) | none => false)

theorem delayRespFrom_eq (s : State) (t3 t4 : Nat) : s.delayRespFrom t3 t4 =
    if s.isMember = false ∨ s.thb.time.t3 ≠ some t3 ∨ s.thb.time.synced = false ∨ s.getN K.TIME_STATE = 4 then s
    else if s.offsetJump (linkOffset s.thb.time (s.getN K.UP_ASYM) t3 t4) then (s.updTime askedNothing).timeJump
    else (s.exchanged (min (linkDelay s.thb.time t3 t4).toNat (2 ^ 32 - 1)) (linkOffset s.thb.time (s.getN K.UP_ASYM) t3 t4)).steer
      (linkOffset s.thb.time (s.getN K.UP_ASYM) t3 t4) := rfl

theorem delayRespFrom_goes {s : State} {t3 : Nat} (member : s.isMember = true) (asked : s.thb.time.t3 = some t3) (synced : s.thb.time.synced = true)
    (unlocked : s.getN K.TIME_STATE ≠ 3) (held : s.getN K.TIME_STATE ≠ 4) (t4 : Nat) : s.delayRespFrom t3 t4 =
      (s.exchanged (min (linkDelay s.thb.time t3 t4).toNat (2 ^ 32 - 1)) (linkOffset s.thb.time (s.getN K.UP_ASYM) t3 t4)).steer
        (linkOffset s.thb.time (s.getN K.UP_ASYM) t3 t4) := by
  have steady : ∀ off, s.offsetJump off = false := fun _ => by rw [offsetJump, decide_eq_false unlocked, Bool.false_and]
  rw [delayRespFrom_eq, if_neg (by simp [member, asked, synced, held]), steady, if_neg Bool.false_ne_true]

theorem exchanged_touches (s : State) (delay : Nat) (off : Int) : Touches 1152921504606846977 s (s.exchanged delay off) :=
  (((updTime_touches ..).mono rfl).trans ((setN_touches ..).mono rfl)).trans (((setN_touches ..).mono rfl).trans ((updTime_touches ..).mono rfl))

theorem getN_exchanged (s : State) (delay : Nat) (off : Int) (j : Nat) : (s.exchanged delay off).getN j =
    if j = K.OFFSET then clampInt (-2147483648) 2147483647 off else if j = K.LINK_DELAY then (delay : Int) else s.getN j := by
  rw [exchanged, getN_updTime, getN_setN, getN_setN, getN_updTime]

theorem delayResp_row {s : State} {k : Fin 4} {seq : Nat} (takes : s.takesFrame k seq false) (t3 t4 : Nat) (member : s.isMember = true)
    (asked : s.thb.time.t3 = some t3) (synced : s.thb.time.synced = true) (unlocked : s.getN K.TIME_STATE ≠ 3) (held : s.getN K.TIME_STATE ≠ 4) :
    ∃ t, exec (.delayResp k seq t3 t4) s = .next t ∧ t.thb.time.t3 = none ∧
      t.getN K.LINK_DELAY = ((min (linkDelay s.thb.time t3 t4).toNat (2 ^ 32 - 1) : Nat) : Int) ∧
      t.getN K.OFFSET = clampInt (-2147483648) 2147483647 (linkOffset s.thb.time (s.getN K.UP_ASYM) t3 t4) ∧
      { t with nums := s.nums, free := s.free, rtc := s.rtc, tab := s.tab, thb := s.thb } = s := by
  have new := takesFrame_new takes
  have state : (s.heard k seq).getN K.TIME_STATE = s.getN K.TIME_STATE := getN_heard new (by decide)
  have asym : (s.heard k seq).getN K.UP_ASYM = s.getN K.UP_ASYM := getN_heard new (by decide)
  have time : (s.heard k seq).thb.time = s.thb.time := Thiber.of_sans Thiber.time (fun _ => rfl) (heard_sans new)
  have goes := delayRespFrom_goes (s := s.heard k seq) ((heard_isMember new).trans member) (by rwa [time]) (by rwa [time]) (by rwa [state])
    (by rwa [state]) t4
  rw [asym, time] at goes
  generalize linkDelay s.thb.time t3 t4 = delay at goes ⊢
  generalize linkOffset s.thb.time (s.getN K.UP_ASYM) t3 t4 = off at goes ⊢
  have steers := Steers.steer ((s.heard k seq).exchanged (min delay.toNat (2 ^ 32 - 1)) off) off
  have touches := (((heard_touches new).mono rfl).trans ((exchanged_touches (s.heard k seq) (min delay.toNat (2 ^ 32 - 1)) off).mono rfl)).trans
    (steer_touches _ off)
  refine ⟨_, congrArg Host.Outcome.next ((receive_takes takes _).trans goes), steers.t3 rfl, ?_, ?_, touches.frame_steer⟩
  · rw [steers.nums _ (by unfold SteerKey; decide), getN_exchanged, if_neg (by decide), if_pos rfl]
  · rw [steers.nums _ (by unfold SteerKey; decide), getN_exchanged, if_pos rfl]

/-! ### TSTEP (R419) -/

theorem getN_sessionTimeStep_shift (s : State) : s.sessionTimeStep.getN K.INDEX_SHIFT = s.getN K.INDEX_SHIFT := by
  have other (p : Fin 8) : K.INDEX_SHIFT ≠ K.SESSION_FLAGS p := by
    revert p
    decide
  refine forEach_field (getN · K.INDEX_SHIFT) _ _ s fun p _ u => ?_
  split
  · rw [addFlags, getN_setQ, if_neg (other p)]
  · rfl

theorem getN_demandFlag_shift (s : State) (b : Nat) : (s.demandFlag b).getN K.INDEX_SHIFT = s.getN K.INDEX_SHIFT := by
  have other (p : Fin 8) : K.INDEX_SHIFT ≠ K.DMD_STATUS_NOW p := by
    revert p
    decide
  refine forEach_field (getN · K.INDEX_SHIFT) _ _ s fun p _ u => ?_
  split
  · exact getN_updPoint ..
  · rw [getN_put, if_neg (other p)]

/-- What a TSTEP tells of the parent's time. -/
def stepTaken (step : Int) (valid : Bool) (x : ThbTime) : ThbTime := { x with valid := valid, shift := x.shift + step }

/-- The state once a TSTEP is taken, before sessions and demand intervals hear of it. -/
def shifted (s : State) (step : Int) (valid : Bool) : State :=
  (s.put K.INDEX_SHIFT (s.getN K.INDEX_SHIFT + step)).updTime (stepTaken step valid)

theorem tstepFrom_goes {s : State} (member : s.isMember = true) (e : Nat) (step : Int) (valid : Bool) : s.tstepFrom e step valid =
    ((s.shifted step valid).sessionTimeStep.demandFlag 6).sendDown 0x60
      (leBytes 6 e ++ leBytes 8 (ofSigned 64 step) ++ leBytes 1 (natOfBool valid)) := if_neg (by simp [member])

theorem shifted_noted (s : State) (step : Int) (valid : Bool) :
    ((s.shifted step valid).sessionTimeStep.demandFlag 6).getN K.INDEX_SHIFT = s.getN K.INDEX_SHIFT + step ∧
      ((s.shifted step valid).sessionTimeStep.demandFlag 6).thb.time = stepTaken step valid s.thb.time := by
  have thb : ((s.shifted step valid).sessionTimeStep.demandFlag 6).thb = (s.shifted step valid).thb :=
    ((demandFlag_touches ..).thb (by decide)).trans ((sessionTimeStep_touches _).thb (by decide))
  have put : (s.put K.INDEX_SHIFT (s.getN K.INDEX_SHIFT + step)).thb = s.thb := (put_touches ..).thb (by decide)
  refine ⟨?_, ?_⟩
  · rw [getN_demandFlag_shift, getN_sessionTimeStep_shift, shifted, getN_updTime, getN_put, if_pos rfl]
  · rw [thb]
    exact congrArg (fun x : Thiber => stepTaken step valid x.time) put

theorem tstep_row {s : State} {k : Fin 4} {seq : Nat} (takes : s.takesFrame k seq false) (e : Nat) (step : Int) (valid : Bool)
    (member : s.isMember = true) : ∃ t, exec (.tstep k seq e step valid) s = .next t ∧
      t.getN K.INDEX_SHIFT = s.getN K.INDEX_SHIFT + step ∧ t.thb.time.valid = valid ∧ t.thb.time.shift = s.thb.time.shift + step ∧
      { t with nums := s.nums, points := s.points, tab := s.tab, thb := s.thb } = s := by
  have new := takesFrame_new takes
  have shift : (s.heard k seq).getN K.INDEX_SHIFT = s.getN K.INDEX_SHIFT := getN_heard new (by decide)
  have time : (s.heard k seq).thb.time = s.thb.time := Thiber.of_sans Thiber.time (fun _ => rfl) (heard_sans new)
  have goes := tstepFrom_goes ((heard_isMember new).trans member) e step valid
  obtain ⟨nums, noted⟩ := (s.heard k seq).shifted_noted step valid
  rw [shift] at nums
  rw [time] at noted
  have sends := Sends.sendDown (((s.heard k seq).shifted step valid).sessionTimeStep.demandFlag 6) 0x60
    (leBytes 6 e ++ leBytes 8 (ofSigned 64 step) ++ leBytes 1 (natOfBool valid))
  have sent : ((s.heard k seq).tstepFrom e step valid).thb.time = stepTaken step valid s.thb.time := by
    rw [goes, ← noted]
    exact Thiber.of_sans Thiber.time (fun _ => rfl) sends.sans
  have touches := ((heard_touches new).mono rfl).trans (tstepFrom_touches (s.heard k seq) e step valid)
  refine ⟨_, congrArg Host.Outcome.next (receive_takes takes _), ?_, congrArg ThbTime.valid sent, congrArg ThbTime.shift sent,
    touches.frame_timeStep⟩
  rw [goes, sends.getN]
  exact nums

end State

end Sys2Proof.Machine
end

section
/-! PROOFS. SITE and GRANT from the parent (R421 to R423, R428). -/

namespace Sys2Proof.Machine

open Sys2Proof
set_option Elab.async false

namespace State

/-! ### SITE (R421 to R423) -/

/-- The state in which a site tableau begins: the tableau before it is closed, and the own opens where its instant is yet to come. -/
def siteTurned (s : State) (id f : Nat) (own : Option Nat) : State :=
  if own.isNone then s.closeTableau.openTableau id f true else s.closeTableau

theorem siteBegin_nums (s : State) (id f limit : Nat) (own : Option Nat) :
    (s.siteBegin id f limit own).nums = ((s.siteTurned id f own).siteEntries id f).nums := by
  rw [← acksCleared_nums]
  unfold siteBegin acksCleared siteEntries siteTurned
  rfl

theorem siteEntries_begun (s : State) (id f : Nat) : (s.siteEntries id f).getN K.SITE_STATE = 1 ∧
    (s.siteEntries id f).getN K.SITE_ID = (id : Nat) ∧ (s.siteEntries id f).getN K.SITE_F = (f : Nat) := by
  simp only [siteEntries, getN_setN]
  exact ⟨rfl, rfl, rfl⟩

theorem siteFrom_opens {s : State} (member : s.isMember = true) (on : s.serves = true) (id f limit : Nat) : s.siteFrom 1 id f limit =
    (s.siteBegin id f limit (if s.instant f < s.rtc then some 2 else none)).siteDown 1 id f limit := by
  unfold siteFrom
  rw [if_neg (by simp [member, on]), if_pos rfl]
  simp only [decide_eq_true_eq]

theorem siteFrom_closes {s : State} (member : s.isMember = true) (on : s.serves = true) {x : SiteSt} (is : s.thb.site = some x) (f limit : Nat) :
    s.siteFrom 2 x.id f limit = (s.siteDown 2 x.id f limit).siteEnd := by
  unfold siteFrom
  rw [if_neg (by simp [member, on]), if_neg (by decide), if_pos rfl]
  dsimp only
  rw [siteDown_site, is]
  exact if_pos rfl

theorem siteEnd_state (s : State) : s.siteEnd.getN K.SITE_STATE = 0 := getN_setN_same ..

section

variable {s : State} {k : Fin 4} {seq : Nat} (takes : s.takesFrame k seq false) (member : s.isMember = true) (on : s.serves = true)
  (held : s.heldBatches = [])

include takes held in
theorem exec_site (op id f limit : Nat) : exec (.site k seq op id f limit) s = .next ((s.heard k seq).siteFrom op id f limit) := by
  have touches := ((heard_touches (takesFrame_new takes)).mono rfl).trans (siteFrom_touches (s.heard k seq) op id f limit)
  show Host.Outcome.next (s.receive k seq false fun s => s.siteFrom op id f limit).runHeld = _
  rw [receive_takes takes, runHeld_none ((touches.heldBatches (by decide)).trans held)]

include takes in
theorem siteFrom_frame (op id f limit : Nat) :
    { (s.heard k seq).siteFrom op id f limit with nums := s.nums, spi := s.spi, can := s.can, tab := s.tab, thb := s.thb } = s :=
  (((heard_touches (takesFrame_new takes)).mono rfl).trans (siteFrom_touches (s.heard k seq) op id f limit)).frame

include takes on in
theorem heard_serves : (s.heard k seq).serves = true :=
  (serves_congr ((heard_touches (takesFrame_new takes)).mode (by decide))).trans on

include takes in
theorem heard_instant (f : Nat) : (s.heard k seq).instant f = s.instant f ∧ (s.heard k seq).rtc = s.rtc := by
  refine ⟨?_, (heard_touches (takesFrame_new takes)).rtc (by decide)⟩
  rw [instant, instant, getN_heard (takesFrame_new takes) (by decide)]

include takes member on held

theorem site_open_row (id f limit : Nat) : ∃ t, exec (.site k seq 1 id f limit) s = .next t ∧
    t.getN K.SITE_STATE = 1 ∧ t.getN K.SITE_ID = (id : Nat) ∧ t.getN K.SITE_F = (f : Nat) ∧
    t.thb.site = some ⟨id, f, limit, if s.instant f < s.rtc then some 2 else none, false⟩ ∧
    { t with nums := s.nums, spi := s.spi, can := s.can, tab := s.tab, thb := s.thb } = s := by
  obtain ⟨instant, rtc⟩ := heard_instant takes f
  have goes := siteFrom_opens ((heard_isMember (takesFrame_new takes)).trans member) (heard_serves takes on) id f limit
  rw [instant, rtc] at goes
  generalize (if s.instant f < s.rtc then some 2 else none) = own at goes ⊢
  have nums (j : Nat) : ((s.heard k seq).siteFrom 1 id f limit).getN j = (((s.heard k seq).siteTurned id f own).siteEntries id f).getN j := by
    rw [goes, getN_siteDown]
    exact getN_congr (siteBegin_nums ..) j
  obtain ⟨state, number, instantIdx⟩ := siteEntries_begun ((s.heard k seq).siteTurned id f own) id f
  refine ⟨_, exec_site takes held 1 id f limit, (nums _).trans state, (nums _).trans number, (nums _).trans instantIdx, ?_,
    siteFrom_frame takes 1 id f limit⟩
  rw [goes, siteDown_site, siteBegin_site]

theorem site_close_row (x : SiteSt) (f limit : Nat) (is : s.thb.site = some x) : ∃ t, exec (.site k seq 2 x.id f limit) s = .next t ∧
    t.getN K.SITE_STATE = 0 ∧ t.thb.site = none ∧ { t with nums := s.nums, spi := s.spi, can := s.can, tab := s.tab, thb := s.thb } = s := by
  have goes := siteFrom_closes ((heard_isMember (takesFrame_new takes)).trans member) (heard_serves takes on)
    ((heard_site (takesFrame_new takes)).trans is) f limit
  refine ⟨_, exec_site takes held 2 x.id f limit, ?_, ?_, siteFrom_frame takes 2 x.id f limit⟩
  · rw [goes, siteEnd_state]
  · rw [goes, siteEnd_site]

end

/-! ### GRANT (R428) -/

/-- Whether a join is not the unit's. -/
def joinsOther (serial : List Byte) (j : List Byte × Nat) : Bool := decide (j.1 ≠ serial)

/-- The state in which the unit's join is answered. -/
def unjoined (s : State) (serial : List Byte) : State := s.withThb { s.thb with joins := s.thb.joins.filter (joinsOther serial) }

/-- A unit below has its answer: the own child is numbered or refused, and another's goes further down. -/
def grantDown (s : State) (k : Fin 4) (serial : List Byte) (first reason : Nat) : State :=
  if s.thb.ports[k].child.serial = serial then
    if reason = 0 then (s.numberChild k first (s.getU K.DEPTH + 1)).refreshMembers
    else (((s.sendFrame k 0x51 (serial ++ leBytes 2 0xFFFF ++ leBytes 1 reason)).updThb k childRefused).refreshMembers).resendCensus
  else s.sendFrame k 0x51 (serial ++ leBytes 2 first ++ leBytes 1 reason)

theorem grantFrom_self {s : State} {serial : List Byte} (own : serial = s.getB K.SERIAL) (first reason : Nat) :
    s.grantFrom serial first reason = s.withThb { s.thb with refused := decide (reason ≠ 0) } := if_pos own

/-- The join that the answer belongs to. -/
def joinOf (s : State) (serial : List Byte) : Option (List Byte × Nat) := s.thb.joins.find? fun j => decide (j.1 = serial)

theorem grantFrom_unknown {s : State} {serial : List Byte} (other : serial ≠ s.getB K.SERIAL) (no : s.joinOf serial = none) (first reason : Nat) :
    s.grantFrom serial first reason = s := by
  unfold joinOf at no
  unfold grantFrom
  rw [if_neg other, no]

theorem grantFrom_known {s : State} {serial : List Byte} (other : serial ≠ s.getB K.SERIAL) {j : List Byte × Nat} (is : s.joinOf serial = some j)
    (first reason : Nat) : s.grantFrom serial first reason = (s.unjoined serial).grantDown ⟨j.2 % 4, by omega⟩ serial first reason := by
  unfold joinOf at is
  unfold grantFrom
  rw [if_neg other, is]
  rfl

theorem grantDown_joins (s : State) (k : Fin 4) (serial : List Byte) (first reason : Nat) :
    (s.grantDown k serial first reason).thb.joins = s.thb.joins := by
  have sends {t u : State} (h : Sends t u) : u.thb.joins = t.thb.joins := Thiber.of_sans Thiber.joins (fun _ => rfl) h.sans
  unfold grantDown
  split
  · split
    · rw [refreshMembers_thb, numberChild_eq]
      exact (sends (.sendFrame (s.updThb k (childNumbered first)) ..)).trans rfl
    · rw [sends (.resendCensus _), refreshMembers_thb]
      show (s.sendFrame k 0x51 _).thb.joins = _
      exact sends (.sendFrame ..)
  · exact sends (.sendFrame s ..)

theorem grantFrom_joins {s : State} {serial : List Byte} (other : serial ≠ s.getB K.SERIAL) (first reason : Nat) :
    (s.grantFrom serial first reason).thb.joins = s.thb.joins.filter (joinsOther serial) := by
  cases find : s.joinOf serial with
  | none =>
    rw [grantFrom_unknown other find]
    exact (List.filter_eq_self.2 fun j mem => by simpa [joinsOther] using List.find?_eq_none.1 find j mem).symm
  | some j =>
    rw [grantFrom_known other find]
    exact grantDown_joins ..

theorem grant_row {s : State} {k : Fin 4} {seq : Nat} (takes : s.takesFrame k seq false) (serial : List Byte) (first reason : Nat) : ∃ t,
    exec (.grant k seq serial first reason) s = .next t ∧ (serial = s.getB K.SERIAL → t.thb.refused = decide (reason ≠ 0)) ∧
    (serial ≠ s.getB K.SERIAL → ∀ j ∈ t.thb.joins, j.1 ≠ serial) ∧ { t with nums := s.nums, tab := s.tab, thb := s.thb } = s := by
  have new := takesFrame_new takes
  have own : (s.heard k seq).getB K.SERIAL = s.getB K.SERIAL := getB_heard new _
  have touches := (heard_touches new).trans ((grantFrom_touches (s.heard k seq) serial first reason).mono rfl)
  refine ⟨_, congrArg Host.Outcome.next (receive_takes takes _), fun is => ?_, fun other j mem => ?_, touches.frame⟩
  · rw [grantFrom_self (is.trans own.symm)]
    rfl
  · rw [grantFrom_joins (by rwa [own])] at mem
    exact of_decide_eq_true (List.mem_filter.1 mem).2

end State

end Sys2Proof.Machine
end

section
/-! PROOFS. What a Thiber link sends and what becomes of it with time (R408, R413, R415, R418, R421 to R428); O59. -/

namespace Sys2Proof.Machine

open Sys2Proof
set_option Elab.async false

namespace State

/-! ### Frames sent (R408, R413, R428) -/

/-- The latest frame begins with any part of what it begins with. -/
theorem SentFrame.begins {s : State} {k : Fin 4} {type : Nat} {a b : List Byte} (h : s.SentFrame k type (a ++ b)) : s.SentFrame k type a := by
  obtain ⟨kind, begins⟩ := h
  refine ⟨kind, ?_⟩
  have part := congrArg (List.take a.length) begins
  rwa [List.take_take, List.take_left, List.length_append, Nat.min_eq_left (Nat.le_add_right ..)] at part

theorem SentFrame.withThb {s : State} {k : Fin 4} {type : Nat} {b : List Byte} (h : s.SentFrame k type b) {x : Thiber}
    (tx : x.ports[k].tx = s.thb.ports[k].tx) : (s.withThb x).SentFrame k type b := h.kept tx

theorem sendFrame_whole {s : State} {k : Fin 4} (up : s.isUp k = true) (right : k = 0 → s.isRoot = false) (type : Nat) (a : List Byte) :
    (s.sendFrame k type a).SentFrame k type a := by
  have sent := sendFrame_sent up right type a []
  rwa [List.append_nil] at sent

theorem childEntry_begins (c : ChildEntry) :
    ∃ rest, c.bytes = c.serial.take 8 ++ List.replicate (8 - c.serial.length) 0 ++ leBytes 2 c.members ++ rest := by
  unfold ChildEntry.bytes
  simp only [List.append_assoc]
  exact ⟨_, rfl⟩

/-- A device that is no ROOT and whose upstream port is UP sends its census entry (R410). -/
theorem sendCensus_sent {s : State} (up : s.isUp 0 = true) (below : s.isRoot = false) : s.sendCensus.SentFrame 0 0x11
    ((s.getB K.SERIAL).take 8 ++ List.replicate (8 - (s.getB K.SERIAL).length) 0 ++ leBytes 2 (s.getU K.MEMBERS)) := by
  obtain ⟨rest, begins⟩ := childEntry_begins
    ⟨s.getB K.SERIAL, s.getU K.MEMBERS, s.getU K.DEPTH_BELOW, s.censusPoints, s.getU K.UNIT_NO, 2, s.censusFlags⟩
  unfold sendCensus
  dsimp only
  rw [begins]
  exact (sendFrame_whole up (fun _ => below) ..).begins.begins

theorem pendingSend_off {s : State} (off : s.serves = false ∨ s.thb.census = true ∨ s.isUp 0 = false ∨ s.isRoot = true) :
    exec .pendingSend s = .next s := by
  refine congrArg Host.Outcome.next ?_
  unfold pendingSend
  split
  case isTrue waits =>
    refine sendFrame_stays ?_ ..
    simpa [waits] using off
  case isFalse => rfl

theorem pendingSend_row {s : State} (on : s.serves = true) (first : s.thb.census = false) (up : s.isUp 0 = true) (below : s.isRoot = false) : ∃ t,
    exec .pendingSend s = .next t ∧ t.SentFrame 0 0x10 [] ∧ { t with thb := s.thb } = s := by
  refine ⟨_, rfl, ?_, (pendingSend_touches s).frame⟩
  rw [pendingSend, if_pos ⟨on, first⟩]
  exact sendFrame_whole up (fun _ => below) ..

theorem joinRetry_off {s : State} (off : s.serves = false ∨ s.thb.refused = false ∨ s.isUp 0 = false ∨ s.isRoot = true) :
    exec .joinRetry s = .next s := by
  refine congrArg Host.Outcome.next ?_
  unfold joinRetry
  split
  case isTrue waits =>
    refine sendFrame_stays ?_ ..
    simpa [waits] using off
  case isFalse => rfl

theorem joinRetry_row {s : State} (on : s.serves = true) (refused : s.thb.refused = true) (up : s.isUp 0 = true) (below : s.isRoot = false) : ∃ t,
    exec .joinRetry s = .next t ∧ t.SentFrame 0 0x11 ((s.getB K.SERIAL).take 8) ∧ { t with thb := s.thb } = s := by
  refine ⟨_, rfl, ?_, (joinRetry_touches s).frame⟩
  rw [joinRetry, if_pos ⟨on, refused⟩]
  exact (sendCensus_sent up below).begins.begins

/-- The census is counted and timed once more before it goes upward. -/
def censusCounted (s : State) : State := (if s.thb.census then s else s.setN K.CENSUS_TIME (s.sinceRecall : Nat)).refreshMembers

theorem censusSend_goes {s : State} (on : s.serves = true) (up : s.isUp 0 = true) (below : s.isRoot = false) (all : s.allKnown = true) :
    s.censusSend = s.censusCounted.sendCensus.withThb { s.censusCounted.sendCensus.thb with census := true } := by
  unfold censusSend censusCounted withThb
  rw [if_pos ⟨on, up, below, all⟩]

theorem censusSend_off {s : State} (off : s.serves = false ∨ s.isUp 0 = false ∨ s.isRoot = true ∨ s.allKnown = false) :
    exec .censusSend s = .next s := by
  refine congrArg Host.Outcome.next (if_neg fun ⟨on, up, below, all⟩ => ?_)
  simp [on, up, below, all] at off

theorem censusCounted_thb (s : State) : s.censusCounted.thb = s.thb := by
  rw [censusCounted, refreshMembers_thb]
  split <;> rfl

theorem getN_censusCounted {j : Nat} (no : ¬ CensusKey j) (other : j ≠ K.CENSUS_TIME) (s : State) : s.censusCounted.getN j = s.getN j := by
  rw [censusCounted, getN_refreshMembers no]
  split
  · rfl
  · exact getN_setN_other s other _

theorem censusCounted_time (s : State) :
    s.censusCounted.getN K.CENSUS_TIME = if s.thb.census then s.getN K.CENSUS_TIME else (s.sinceRecall : Nat) := by
  rw [censusCounted, getN_refreshMembers (by unfold CensusKey; decide)]
  split
  · rfl
  · exact getN_setN_same ..

theorem censusCounted_members (s : State) : s.censusCounted.getN K.MEMBERS =
    ((downPorts.filter fun k => s.present k).foldl (fun (n : Nat) (k : Fin 4) => n + s.thb.ports[k].child.members) 1 : Nat) := by
  rw [censusCounted, refreshMembers_members]
  split <;> rfl

theorem censusSend_row {s : State} (on : s.serves = true) (up : s.isUp 0 = true) (below : s.isRoot = false) (all : s.allKnown = true) : ∃ t,
    exec .censusSend s = .next t ∧ t.thb.census = true ∧
    t.SentFrame 0 0x11 ((s.getB K.SERIAL).take 8 ++ List.replicate (8 - (s.getB K.SERIAL).length) 0 ++ leBytes 2 (t.getU K.MEMBERS)) ∧
    t.getN K.MEMBERS = ((downPorts.filter fun k => s.present k).foldl (fun (n : Nat) (k : Fin 4) => n + s.thb.ports[k].child.members) 1 : Nat) ∧
    t.getN K.CENSUS_TIME = (if s.thb.census then s.getN K.CENSUS_TIME else (s.sinceRecall : Nat)) ∧
    { t with nums := s.nums, thb := s.thb } = s := by
  have goes := censusSend_goes on up below all
  have touches := censusSend_touches s
  have nums (j : Nat) : s.censusSend.getN j = s.censusCounted.getN j := by
    rw [goes, getN_withThb]
    exact (Sends.sendCensus _).getN j
  have serial : s.censusCounted.getB K.SERIAL = s.getB K.SERIAL := by
    unfold censusCounted
    rw [getB_of_blobs ((refreshMembers_touches _).blobs (by decide))]
    split <;> rfl
  have root : s.censusCounted.isRoot = false := by
    rwa [isRoot, getU, getN_censusCounted (by unfold CensusKey; decide) (by decide)]
  have upward : s.censusCounted.isUp 0 = true := by rw [isUp, censusCounted_thb]; exact up
  have sent := sendCensus_sent upward root
  rw [serial] at sent
  refine ⟨_, rfl, ?_, ?_, (nums _).trans s.censusCounted_members, ?_, touches.frame⟩
  · rw [goes, withThb_thb]
  · rw [getU, nums, goes]
    exact sent.withThb rfl
  · rw [nums, censusCounted_time]

end State

end Sys2Proof.Machine
end

section
/-! PROOFS. The link's clock and its reports (R413, R415, R418, R422 to R426). -/

namespace Sys2Proof.Machine

open Sys2Proof
set_option Elab.async false

/-- The frame of a device that takes its parent's index. -/
theorem Touches.frame_adopt {s t : State} (k : Touches 1153221879067050633 s t) :
    { t with
      nums := s.nums, free := s.free, modeHist := s.modeHist, index := s.index, points := s.points, jobs := s.jobs, logs := s.logs, spi := s.spi
      can := s.can, tab := s.tab, plateUse := s.plateUse, inputAt := s.inputAt, thb := s.thb } = s := k.frame

namespace State

variable {s : State}

/-! ### SYNC_SEND and DELAY_REQ_SEND (R413) -/

theorem syncPayload_begins (s : State) (n : Nat) : ∃ rest, s.syncPayload n = leBytes 8 (linkStamp n) ++ rest := by
  unfold syncPayload
  simp only [List.append_assoc]
  exact ⟨_, rfl⟩

theorem syncSend_off (off : s.thbOn = false ∨ s.index % 80 ≠ 0) : exec .syncSend s = .next s := by
  refine congrArg Host.Outcome.next (if_neg fun ⟨on, due⟩ => ?_)
  simp [on, due] at off

theorem syncSend_row (on : s.thbOn = true) (due : s.index % 80 = 0) : ∃ t, exec .syncSend s = .next t ∧
    (∀ k : Fin 4, k ≠ 0 → s.isUp k = true → t.SentFrame k 0x20 (leBytes 8 (linkStamp s.index))) ∧ { t with thb := s.thb } = s := by
  refine ⟨_, rfl, fun k child up => ?_, (syncSend_touches s).frame⟩
  obtain ⟨rest, begins⟩ := s.syncPayload_begins s.index
  rw [syncSend, if_pos ⟨on, due⟩, begins]
  exact sendDown_sent up child ..

/-- An exchange begins. -/
def asking (t : Nat) (x : ThbTime) : ThbTime := { x with t3 := some t }

theorem delayReqSend_off (off : s.thbOn = false ∨ s.index % 80 ≠ 40 ∨ s.isMember = false ∨ s.isUp 0 = false) :
    exec .delayReqSend s = .next s := by
  refine congrArg Host.Outcome.next (if_neg fun ⟨on, due, member, up⟩ => ?_)
  simp [on, due, member, up] at off

theorem delayReqSend_row (on : s.thbOn = true) (due : s.index % 80 = 40) (member : s.isMember = true) (up : s.isUp 0 = true) : ∃ t,
    exec .delayReqSend s = .next t ∧ t.thb.time.t3 = some (linkStamp s.index) ∧
    (s.isRoot = false → t.SentFrame 0 0x21 (leBytes 8 (linkStamp s.index))) ∧ { t with thb := s.thb } = s := by
  have goes : s.delayReqSend = (s.sendFrame 0 0x21 (leBytes 8 (linkStamp s.index))).updTime (asking (linkStamp s.index)) :=
    if_pos ⟨on, due, member, up⟩
  refine ⟨_, rfl, ?_, fun below => ?_, (delayReqSend_touches s).frame⟩
  · rw [goes]
    rfl
  · rw [goes]
    exact (sendFrame_whole up (fun _ => below) 0x21 _).kept rfl

/-! ### INDEX_ADOPT and HOLDOVER_EXPIRY (R415, R418) -/

/-- The state once what a rebase moves has moved. -/
def rebaseMoved (s : State) (d : Int) : State :=
  { (s.closeTableau.withThb { s.closeTableau.thb with site := none }).setN K.SITE_STATE 0 with
    index := shiftIdx d s.closeTableau.index, points := s.closeTableau.points.map fun (x : Point) => x.rebase d
    modeHist := s.closeTableau.modeHist.map fun (e : Nat × Mode) => (shiftIdx d e.1, e.2)
    plateUse := s.closeTableau.plateUse.map fun (x : PlateUse) => { x with lastValid := shiftIdx d x.lastValid }
    inputAt := s.closeTableau.inputAt.map (shiftIdx d) }

/-- The state once a rebase is counted. -/
def rebaseCounted (s : State) (d : Int) : State :=
  (((s.rebaseMoved d).addSat 32 K.REBASE_COUNT 1).put K.LAST_REBASE d).addWrap 8 K.REBASE_SEQ 1

theorem rebase_eq (s : State) (d : Int) : ∃ record, s.rebase d =
    if d = 0 then s else ((s.rebaseCounted d).fresh.2.queueRecord record).sessionTimeStep.demandFlag 6 := ⟨_, rfl⟩

theorem getN_rebaseMoved_shift (s : State) (d : Int) : (s.rebaseMoved d).getN K.INDEX_SHIFT = s.getN K.INDEX_SHIFT := by
  show ((s.closeTableau.withThb _).setN K.SITE_STATE 0).getN K.INDEX_SHIFT = _
  rw [getN_setN_other _ (by decide), getN_withThb]
  exact getN_congr ((closeTableau_touches s).nums (by decide)) _

theorem getN_rebase_shift (s : State) (d : Int) : (s.rebase d).getN K.INDEX_SHIFT = s.getN K.INDEX_SHIFT := by
  have counted : (s.rebaseCounted d).getN K.INDEX_SHIFT = s.getN K.INDEX_SHIFT := by
    rw [rebaseCounted, getN_addWrap, if_neg (by decide), getN_put, if_neg (by decide), getN_addSat, if_neg (by decide), getN_rebaseMoved_shift]
  obtain ⟨record, goes⟩ := s.rebase_eq d
  rw [goes]
  split
  · rfl
  · rw [getN_demandFlag_shift, getN_sessionTimeStep_shift, getN_congr (queueRecord_nums ..)]
    exact counted

/-- The exchanges before the index was taken no longer count. -/
def adopted (x : ThbTime) : ThbTime := { x with good := 0, offset := none, t3 := none, synced := false }

/-- The parent's index, and its shift. -/
def indexFollowed (s : State) : State :=
  if 250000 ≤ (s.thb.time.offset.getD 0).natAbs then (s.put K.INDEX_SHIFT s.thb.time.shift).rebase (rebaseDelta (s.thb.time.offset.getD 0))
  else s.put K.INDEX_SHIFT s.thb.time.shift

theorem getN_indexFollowed_shift (s : State) : s.indexFollowed.getN K.INDEX_SHIFT = s.thb.time.shift := by
  have put : (s.put K.INDEX_SHIFT s.thb.time.shift).getN K.INDEX_SHIFT = s.thb.time.shift := by rw [getN_put, if_pos rfl]
  unfold indexFollowed
  split
  · rw [getN_rebase_shift, put]
  · exact put

theorem indexAdopt_goes (acquiring : s.getN K.TIME_STATE = 1) (matched : s.thb.time.matched = true) (due : s.index % 80 = 0)
    (member : s.isMember = true) (on : s.serves = true) : s.indexAdopt = (s.indexFollowed.setN K.TIME_STATE 2).updTime adopted := by
  have put : (s.put K.INDEX_SHIFT s.thb.time.shift).thb = s.thb := (put_touches ..).thb (by decide)
  unfold indexAdopt indexFollowed
  rw [if_pos ⟨acquiring, matched, due, member, on⟩]
  dsimp only
  rw [put]
  rfl

theorem indexAdopt_off (held : s.heldBatches = [])
    (off : s.getN K.TIME_STATE ≠ 1 ∨ s.thb.time.matched = false ∨ s.index % 80 ≠ 0 ∨ s.isMember = false ∨ s.serves = false) :
    exec .indexAdopt s = .next s := by
  have stays : s.indexAdopt = s := if_neg fun ⟨acquiring, matched, due, member, on⟩ => by simp [acquiring, matched, due, member, on] at off
  show Host.Outcome.next s.indexAdopt.runHeld = _
  rw [stays, runHeld_none held]

theorem indexAdopt_row (held : s.heldBatches = []) (acquiring : s.getN K.TIME_STATE = 1) (matched : s.thb.time.matched = true)
    (due : s.index % 80 = 0) (member : s.isMember = true) (on : s.serves = true) : ∃ t,
    exec .indexAdopt s = .next t ∧ t.getN K.TIME_STATE = 2 ∧ t.getN K.INDEX_SHIFT = s.thb.time.shift ∧ t.thb.time.good = 0 ∧
    { t with
      nums := s.nums, free := s.free, modeHist := s.modeHist, index := s.index, points := s.points, jobs := s.jobs, logs := s.logs, spi := s.spi
      can := s.can, tab := s.tab, plateUse := s.plateUse, inputAt := s.inputAt, thb := s.thb } = s := by
  have goes := indexAdopt_goes acquiring matched due member on
  have touches := indexAdopt_touches s
  refine ⟨s.indexAdopt, congrArg Host.Outcome.next (runHeld_none ((touches.heldBatches (by decide)).trans held)), ?_, ?_, ?_, touches.frame_adopt⟩
  · rw [goes, getN_updTime, getN_setN_same]
  · rw [goes, getN_updTime, getN_setN_other _ (by decide), getN_indexFollowed_shift]
  · rw [goes]
    rfl

theorem holdoverExpiry_off (off : s.isMember = false ∨ s.getN K.TIME_STATE ≠ 4) : exec .holdoverExpiry s = .next s := by
  refine congrArg Host.Outcome.next (if_neg fun ⟨member, held⟩ => ?_)
  simp [member, held] at off

theorem holdoverExpiry_row (member : s.isMember = true) (held : s.getN K.TIME_STATE = 4) : ∃ t, exec .holdoverExpiry s = .next t ∧
    t.getN K.TIME_STATE = 1 ∧ t.thb.time.exchanges = 0 ∧ t.thb.time.matched = false ∧
    { t with nums := s.nums, tab := s.tab, thb := s.thb } = s := by
  have goes : s.holdoverExpiry = s.thbAcquire := if_pos ⟨member, held⟩
  refine ⟨_, rfl, ?_, ?_, ?_, (holdoverExpiry_touches s).frame⟩
  · rw [goes, getN_thbAcquire (by decide), if_pos rfl]
  · rw [goes]
    rfl
  · rw [goes]
    rfl

/-! ### VP_REPORT_SEND (R425, R426) -/

theorem getN_formVirtual {j : Nat} (other : j / 256 < 0xB041 ∨ 0xB045 < j / 256) (s : State) (endIdx : Nat) :
    (s.formVirtual endIdx).getN j = s.getN j := by
  have keys (v : Fin 8) : j ≠ K.VP_IMPORT (v + 1) ∧ j ≠ K.VP_EXPORT (v + 1) ∧ j ≠ K.VP_P (v + 1) ∧ j ≠ K.VP_STATUS (v + 1) ∧
      j ≠ K.VP_INDEX (v + 1) := by
    unfold K.VP_IMPORT K.VP_EXPORT K.VP_P K.VP_STATUS K.VP_INDEX
    omega
  unfold formVirtual
  split
  · rfl
  · refine forEach_field (getN · j) _ _ s fun v _ u => ?_
    obtain ⟨imported, exported, power, status, idx⟩ := keys v
    dsimp only
    rw [getN_setN_other _ idx, getN_setN_other _ status, getN_setN_other _ power, getN_setN_other _ exported, getN_setN_other _ imported]

theorem vpReportSend_off (off : s.serves = false) : exec .vpReportSend s = .next s := congrArg Host.Outcome.next (if_pos off)

theorem vpReportSend_goes (on : s.serves = true) (member : s.isMember = true) : ∃ rest, s.vpReportSend =
    (s.formVirtual (s.index / 80 * 80)).sendFrame 0 0x30 (leBytes 6 (s.index / 80 * 80) ++ rest) := by
  have role : (s.formVirtual (s.index / 80 * 80)).isMember = true := by
    rwa [isMember, getN_formVirtual (by decide)]
  unfold vpReportSend
  rw [if_neg (by simp [on])]
  dsimp only
  rw [if_neg (by simp [role])]
  simp only [List.append_assoc]
  exact ⟨_, rfl⟩

theorem vpReportSend_row (on : s.serves = true) : ∃ t, exec .vpReportSend s = .next t ∧
    (s.isMember = true → s.isUp 0 = true → s.isRoot = false → t.SentFrame 0 0x30 (leBytes 6 (s.index / 80 * 80))) ∧
    { t with nums := s.nums, thb := s.thb } = s := by
  refine ⟨_, rfl, fun member up below => ?_, (vpReportSend_touches s).frame⟩
  have thb : (s.formVirtual (s.index / 80 * 80)).thb = s.thb := (formVirtual_touches ..).thb (by decide)
  obtain ⟨rest, goes⟩ := vpReportSend_goes on member
  rw [goes]
  refine sendFrame_sent ?_ (fun _ => ?_) ..
  · rwa [isUp, thb]
  · rwa [isRoot, getU, getN_formVirtual (by decide)]

/-! ### SITE_ACK_SEND and SITE_LIMIT_EXPIRY (R422, R423) -/

theorem siteAckSend_row {x : SiteSt} (on : s.serves = true) (is : s.thb.site = some x) (waits : x.answered = false) : ∃ t,
    exec .siteAckSend s = .next t ∧ t.getN K.SITE_STATE = 2 ∧ t.getN K.SITE_FROZEN = (s.siteSums.1 : Nat) ∧
    t.getN K.SITE_UNLOCKED = (s.siteSums.2.1 : Nat) ∧ t.getN K.SITE_MISSED = (s.siteSums.2.2 : Nat) ∧
    t.thb.site = some { x with answered := true } ∧ { t with nums := s.nums, thb := s.thb } = s := by
  have sends : Sends (s.siteReady x) s.siteAckSend := by
    rw [siteAckSend_goes on is waits]
    split
    · exact .refl _
    · exact .sendFrame ..
  have nums (j : Nat) : s.siteAckSend.getN j = if j = K.SITE_STATE then 2 else if j = K.SITE_MISSED then (s.siteSums.2.2 : Int)
      else if j = K.SITE_UNLOCKED then (s.siteSums.2.1 : Int) else if j = K.SITE_FROZEN then (s.siteSums.1 : Int) else s.getN j := by
    rw [sends.getN, siteReady]
    simp only [getN_setN, getN_withThb]
  have site : s.siteAckSend.thb.site = some { x with answered := true } := Thiber.of_sans Thiber.site (fun _ => rfl) sends.sans
  exact ⟨_, rfl, nums _, nums _, nums _, nums _, site, (siteAckSend_touches s).frame⟩

theorem siteLimitExpiry_off (held : s.heldBatches = []) (no : s.thb.site = none) : exec .siteLimitExpiry s = .next s := by
  have stays : s.siteLimit = s := if_neg (by simp [no])
  show Host.Outcome.next s.siteLimit.runHeld = _
  rw [stays, runHeld_none held]

theorem siteLimitExpiry_row (held : s.heldBatches = []) (is : s.thb.site.isSome = true) : ∃ t, exec .siteLimitExpiry s = .next t ∧
    t.getN K.SITE_STATE = 0 ∧ t.thb.site = none ∧ { t with nums := s.nums, spi := s.spi, can := s.can, tab := s.tab, thb := s.thb } = s := by
  have goes : s.siteLimit = s.siteEnd := if_pos is
  have touches := siteLimit_touches s
  refine ⟨s.siteLimit, congrArg Host.Outcome.next (runHeld_none ((touches.heldBatches (by decide)).trans held)), ?_, ?_, touches.frame⟩
  · rw [goes, siteEnd_state]
  · rw [goes, siteEnd_site]

end State

end Sys2Proof.Machine
end

section
/-! PROOFS. O59. -/

namespace Sys2Proof.Machine

open Sys2Proof
set_option Elab.async false

namespace State

/-- A port that is down takes no order of the parent's either. -/
theorem site_down {s : State} {k : Fin 4} (down : s.PortDown k) (held : s.heldBatches = []) (seq op id f limit : Nat) :
    exec (.site k seq op id f limit) s = .next s := by
  show Host.Outcome.next (s.receive k seq false fun s => s.siteFrom op id f limit).runHeld = _
  rw [receive_down down, runHeld_none held]

end State

open State in
/-- Settles O59: frame by frame, with what `receive` does once for all of them (`receive_down`, `receive_takes`) and each frame's own row. -/
theorem thiberLinksAct : Obligations.ThiberLinksAct := by
  intro s
  refine ⟨fun k seq down => ?_, fun k seq serial key port ack root => ?_, fun k => ?_, fun k seq takes => ?_, fun k seq takes => ?_, ?_⟩
  · have stays (up : Bool) (f : State → State) : (.next (s.receive k seq up f) : Host.Outcome State Fault Refusal) = .next s :=
      congrArg _ (receive_down down seq up f)
    exact ⟨stays .., fun _ => stays .., fun _ _ _ => stays .., fun _ _ => stays .., fun _ _ => ⟨stays .., stays ..⟩, fun _ _ _ => stays ..,
      fun _ => stays .., fun held _ _ _ _ => site_down down held .., fun _ _ _ _ => stays .., fun _ _ _ => stays .., fun _ _ _ => stays ..⟩
  · exact ⟨fun off => congrArg _ (train_off off ..), fun on enabled new allowed => train_row key port on enabled new allowed⟩
  · exact ⟨fun off => ⟨congrArg _ (trainSend_off off), congrArg _ (corruptedFrame_off off)⟩,
      fun on enabled => ⟨trainSend_row on enabled, corruptedFrame_row on enabled⟩,
      fun reason => ⟨fun off => congrArg _ (linkDown_off off reason), fun on enabled linked => linkDown_row on enabled linked reason⟩,
      fun trained => ⟨fun off => congrArg _ (censusTimeout_off off trained), fun on child waits enabled =>
        censusTimeout_row on child waits enabled trained⟩⟩
  · exact ⟨pending_row takes, census_row takes, delayReq_row takes, vpReport_row takes, siteAck_row takes, join_row takes⟩
  · exact ⟨numbering_row takes, fun f t2 member held steady =>
        ⟨sync_row takes f t2 member held steady, sync_jump_row takes f t2 member steady⟩,
      delayResp_row takes, tstep_row takes, fun id f limit member on held => site_open_row takes member on held id f limit,
      fun x f limit member on held is => site_close_row takes member on held x f limit is, grant_row takes⟩
  · exact ⟨pendingSend_off, pendingSend_row, censusSend_off, censusSend_row, syncSend_off, syncSend_row, delayReqSend_off, delayReqSend_row,
      indexAdopt_off, indexAdopt_row, holdoverExpiry_off, holdoverExpiry_row, vpReportSend_off, vpReportSend_row,
      fun off => congrArg _ (siteAckSend_off off), fun _ on is waits => siteAckSend_row on is waits, siteLimitExpiry_off, siteLimitExpiry_row,
      joinRetry_off, joinRetry_row⟩

end Sys2Proof.Machine
end
